-- ==== Sys2Proof/Word.lean ====
section
/-!
DEFINITION. The word types: registers, parameter words and packet fields are 32-bit words, memories hold bytes.
-/

namespace Sys2Proof

/-- A 32-bit word: a register, or a parameter word of a packet (R324). -/
abbrev Word := BitVec 32

/-- A byte. -/
abbrev Byte := BitVec 8

/-- A table keyed by an index: (index, entry) pairs, the indices strictly rising. -/
abbrev Tbl (α : Type) := List (Nat × α)

end Sys2Proof
end

