-- ==== Sys2Proof/Syntax.lean ====
section
/-!
DEFINITION. The commands the block takes from outside: one constructor of `Instr` per row of the opcode table, and the
types of their operands.
-/

namespace Sys2Proof

/-- An IP address: IPv4 in one word, IPv6 in four, in network byte order as LEG_CREATE words 3-6 hold it (R88). -/
structure Addr where
  /-- true: IPv6. -/
  v6 : Bool := false
  /-- The address words. -/
  words : List Word := []
deriving DecidableEq, Repr, Inhabited

/-- A command packet as received on a command queue (R324): the path and queue it arrived on and its header fields and
parameter words. The opcode is the constructor that carries it. -/
structure Cmd where
  /-- true: the backup path (R338); false: the Yelheli Link. -/
  backup : Bool := false
  /-- Queue of arrival, 0-3 (R327). -/
  queue : Nat := 1
  /-- Tag chosen by the host. -/
  tag : Word := 0
  /-- The host's command sequence (R329). -/
  seq : Word := 0
  /-- Queue field of bytes 10-11. -/
  qfield : Nat := 1
  /-- Target instance of bytes 10-11. -/
  target : Nat := 0
  /-- Flags bit 2, more-follows. -/
  more : Bool := false
  /-- Parameter words. -/
  words : List Word := []
  /-- Source address and port of its datagram on the backup path (R338). -/
  src : Option (Addr × Nat) := none
deriving DecidableEq, Repr, Inhabited

/-- Who writes a register (R490, R499, R503, R506). -/
inductive Writer
  /-- A control core (Keystone's firmware). -/
  | core
  /-- REG_WRITE on the Yelheli Link or the backup path. -/
  | host
  /-- REG_WRITE through the bootstrap responder. -/
  | boot
deriving DecidableEq, Repr, Inhabited

/-- The SRTP protection of a received packet, abstracted: the suite, master key and salt under which its tag verifies
(R349, R356). -/
structure Protect where
  suite : Nat := 0
  key : List Word := []
  salt : List Word := []
deriving DecidableEq, Repr, Inhabited

/-- A profile that a sequence header declares (R149). -/
inductive VidProfile
  | constrainedBaseline
  | main
  | main10
  | high
  /-- A still picture profile: HEVC Main Still Picture, VVC Main 10 Still Picture. -/
  | still
  | other
deriving DecidableEq, Repr, Inhabited

/-- What a sequence header declares (R149, R150, R163, R180, R186). -/
structure SeqHdr where
  profile : VidProfile := .main
  /-- Level, times ten. -/
  level : Nat := 0
  highTier : Bool := false
  /-- AV1 large-scale tile coding. -/
  largeTile : Bool := false
  /-- Chroma format: 0 monochrome, 1 4:2:0, 2 4:2:2, 3 4:4:4. -/
  chroma : Nat := 1
  /-- Bits of a sample. -/
  depth : Nat := 8
  /-- Spatial and temporal layers of its operating points. -/
  layers : Nat × Nat := (1, 1)
  /-- Size of the output, after cropping to the rectangle or window, or the upscaled frame size in AV1 (R149). -/
  w : Nat := 0
  h : Nat := 0
  /-- Columns and rows of the coded frame to the left of and above the output. -/
  cropX : Nat := 0
  cropY : Nat := 0
  /-- Columns and rows of the coded frame to the right of and below the output. -/
  cropR : Nat := 0
  cropB : Nat := 0
  /-- Signalled buffer model: rate in kb/s, buffer in bits, initial removal delay in ms, and cbr_flag (R186). -/
  hrdRate : Nat := 0
  hrdBits : Nat := 0
  hrdDelay : Nat := 0
  cbr : Bool := false
deriving DecidableEq, Repr, Inhabited

/-- The packet types of the payload formats (R151, R179). -/
inductive PktForm
  | single
  | stapA
  | stapB
  | mtap16
  | mtap24
  | fuA
  | fuB
  | ap
  | fu
  | paci
  /-- AV1 OBU elements under an aggregation header. -/
  | obu
deriving DecidableEq, Repr, Inhabited

/-- A parameter set that a packet carries: 0 the sequence header or SPS, 1 a PPS, 2 an APS; its id; its content (R196). -/
abbrev ParamSet := Nat × Nat × Nat

/-- An RTP packet as the forwarding engine reads it (R62, R67, R74-R76). -/
structure RtpPkt where
  ssrc : Word := 0
  seq : BitVec 16 := 0
  ts : Word := 0
  pt : Nat := 0
  marker : Bool := false
  /-- UDP payload bytes on the wire. -/
  bytes : Nat := 0
  /-- Payload bytes of the media after the RTP header. -/
  payload : Nat := 0
  /-- The payload's content, for the opaque codecs of Config; of G.711 its bytes as a number, the first byte lowest. -/
  data : Nat := 0
  /-- RFC 6464 audio level extension, -dBov, when present. -/
  level : Option Nat := none
  /-- Transport-wide sequence number, when present. -/
  twcc : Option Nat := none
  /-- Elements of its RFC 8285 header extension on the wire: ID and data bytes. -/
  exts : List (Nat × Nat) := []
  /-- The elements that forwarding keeps (R67): the byte of LEG_CREATE word 11 that gives the ID, and data bytes. -/
  kept : List (Nat × Nat) := []
  /-- Temporal layer. -/
  tid : Nat := 0
  /-- Spatial layer. -/
  sid : Nat := 0
  /-- The dependency descriptor sets start of frame for spatial layer 0 (R75). -/
  sof : Bool := false
  /-- Last packet of its picture. -/
  eof : Bool := false
  /-- It belongs to a non-reference picture (R155). -/
  nonRef : Bool := false
  /-- Its type under the payload format (R151). -/
  form : PktForm := .single
  /-- Decoding-order numbers are in use (R151). -/
  don : Bool := false
  /-- It belongs to a RASL picture (R166). -/
  rasl : Bool := false
  /-- It belongs to the recovery-point picture of a gradual refresh (R166). -/
  recovery : Bool := false
  /-- The sequence header that it carries (R163). -/
  hdr : Option SeqHdr := none
  /-- Output order of its picture: picture order count, order hint or frame_num (R164, R196). -/
  order : Int := 0
  /-- The reference slots or pictures that its picture refers to, each with the output order that the headers give it (R164). -/
  refs : List (Nat × Int) := []
  /-- Pictures that leave the decoded picture buffer before its picture is decoded (R148). -/
  drops : List Nat := []
  /-- Frame number: AV1's in the dependency descriptor, AVC's frame_num (R191, R197). -/
  frameNo : Nat := 0
  /-- The dependency descriptor carries the template structure (R179, R197). -/
  template : Bool := false
  /-- Parameter sets that it carries (R196). -/
  params : List ParamSet := []
  /-- Its picture is output when it is decoded (R196). -/
  shown : Bool := true
  /-- Layers (as an operating-point mask) for which the packet is a switch point (R76). -/
  switch : Nat := 0
  /-- Reference slots or pictures from which it takes something other than samples, size and order (R198). -/
  takes : List Nat := []
  /-- Width and height of its frame in luma samples; 0 by 0: as the sequence header has it (R149, R196). -/
  frame : Nat × Nat := (0, 0)
  /-- Its picture or the parameter sets active with it fail R195. -/
  synthBad : Bool := false
  /-- Slots or pictures that it refreshes (R198). -/
  refreshes : List Nat := []
  /-- Random access point kind: 0 none, 1 IDR, 2 IRAP, 3 key frame, 4 gradual-refresh start (R271). -/
  rap : Nat := 0
  /-- Audio duration in 1/48 ms. -/
  dur : Nat := 960
  /-- It carries in-band FEC data for the packet before it (R95). -/
  inbandFec : Bool := false
  /-- Original sequence number when the packet is an RTX packet (RFC 4588). -/
  osn : BitVec 16 := 0
  /-- MKI carried by the packet (R356). -/
  mki : Nat := 0
  /-- What its tag verifies under. -/
  prot : Protect := {}
  /-- A word of it is poisoned (R21). -/
  poisoned : Bool := false
  /-- Launch time set by its producer, ns (R390). -/
  launch : Option Nat := none
  /-- Recovered by FlexFEC (R69). -/
  recovered : Bool := false
deriving DecidableEq, Repr, Inhabited

/-- A UDP datagram addressed to an owned address (R62). -/
structure Datagram where
  /-- Local address index 0-63. -/
  laddr : Nat := 0
  lport : Nat := 0
  raddr : Addr := {}
  rport : Nat := 0
  /-- First payload byte. -/
  first : Nat := 0
  /-- Second payload byte. -/
  second : Nat := 0
  /-- SSRC of an RTP packet. -/
  ssrc : Word := 0
deriving DecidableEq, Repr, Inhabited

/-- What a DRAM request carries, by the rows of R256. -/
inductive Traffic
  /-- Loads and stores of a control core. -/
  | control
  /-- PTU frame buffers. -/
  | ptuFrame
  /-- TSU records. -/
  | tsuRecord
  /-- Audio jitter buffers and sample buffers. -/
  | audioBuffer
  /-- Packet-path buffers in POOL_4. -/
  | packetBuffer
  /-- Ledger cache misses. -/
  | ledgerMiss
  /-- Gouge reference and reconstruction accesses. -/
  | codecRef
  /-- Coded pictures in POOL_5 to POOL_7. -/
  | codedPicture
  /-- Decoder output buffers. -/
  | decoderOut
  /-- Ashlar source fetches. -/
  | ashlarFetch
  /-- Canvas writes. -/
  | canvasWrite
  /-- Hint buffers. -/
  | hintBuffer
  /-- Image slots. -/
  | imageSlot
  /-- Cairn appends. -/
  | cairnAppend
  /-- Reads for catch-up, export and replay. -/
  | cairnRead
  /-- Quoin mirroring. -/
  | mirroring
  /-- Trace buffers. -/
  | traceBuffer
  /-- Image loads. -/
  | imageLoad
deriving DecidableEq, Repr, Inhabited

/-- A fabric request (R22-R26). -/
structure FabReq where
  /-- Master number (R266). -/
  master : Nat := 0
  /-- Byte address. -/
  addr : Nat := 0
  write : Bool := false
  /-- Bytes to write. -/
  data : List Byte := []
  /-- Bytes to read. -/
  len : Nat := 0
  /-- What it carries: with its master it sets its class (R256). -/
  traffic : Traffic := .control
  /-- Target subsystem. -/
  target : Nat := 6
  /-- Target instance group within its subsystem (R494); 0xFFF: the port of the whole subsystem. -/
  inst : Nat := 0xFFF
  /-- A fence on the target took effect while the request was in flight. -/
  fenced : Bool := false
  /-- Word indices whose data is poisoned. -/
  poison : List Nat := []
deriving DecidableEq, Repr, Inhabited

/-- What a controller reads: words from an address, and what the request carries (R256, R264). -/
structure ReadSpan where
  words : Nat := 0
  traffic : Traffic := .control
deriving DecidableEq, Repr, Inhabited

/-- A flit at the receiving end of a fabric link (R18, R20): the request it carries, or the reply to one. -/
structure FabFlit where
  /-- It carries the data of a reply back to the requester; otherwise a request to its target. -/
  reply : Bool := false
  /-- The request; a write's bytes are the first ones of the flit's words, at most len. -/
  req : FabReq := {}
  /-- The 16 data words, each with its parity bit. -/
  words : List (Word × Bool) := []
deriving DecidableEq, Repr, Inhabited

/-- The walk that FWE makes next (R77). -/
structure WalkRun where
  /-- Stream whose chain is walked. -/
  stream : Nat := 0
  /-- Entries whose copies meet a poisoned word (R21). -/
  poisoned : List Nat := []
deriving DecidableEq, Repr, Inhabited

/-- A flit of the host link as decoded (R314, R316). -/
structure RxFlit where
  /-- Codewords that FEC corrected. -/
  corrected : Nat := 0
  /-- Its 256 bytes, or none of that length when FEC could not correct them. -/
  bytes : List Byte := []
deriving DecidableEq, Repr, Inhabited

/-- A binding request received by Keystone (R64). -/
structure StunReq where
  /-- It carries the leg's remote username fragment and a valid MESSAGE-INTEGRITY. -/
  user : List Byte := []
  /-- Password under which its MESSAGE-INTEGRITY verifies. -/
  password : List Byte := []
  /-- USE-CANDIDATE present. -/
  nominate : Bool := false
  raddr : Addr := {}
  rport : Nat := 0
deriving DecidableEq, Repr, Inhabited

/-- A report block of RFC 3550 (R68, R235). -/
structure ReportBlock where
  /-- The source reported on. -/
  ssrc : Word := 0
  /-- Fraction lost, 1/256. -/
  fractionLost : Nat := 0
  /-- Packets lost since the first one. -/
  lost : Int := 0
  /-- Extended highest sequence number received. -/
  highest : Nat := 0
  /-- Interarrival jitter in units of the source's RTP clock. -/
  jitter : Nat := 0
  /-- Middle word of the NTP time of the last SR; 0 for none. -/
  lsr : Nat := 0
  /-- Delay since that SR, 1/65536 s. -/
  dlsr : Nat := 0
deriving DecidableEq, Repr, Inhabited

/-- An SR or RR (R68, R235). -/
structure RtcpReport where
  /-- Its sender. -/
  ssrc : Word := 0
  /-- Middle word of the NTP time that an SR carries; none: an RR. -/
  ntpMid : Option Nat := none
  blocks : List ReportBlock := []
deriving DecidableEq, Repr, Inhabited

/-- One packet of an RFC 8888 report: output SSRC, sequence, and the reported arrival (ns on the receiver's clock), none
when lost (R235). -/
structure FbReport where
  ssrc : Word := 0
  seq : BitVec 16 := 0
  arrivalNs : Option Nat := none
deriving DecidableEq, Repr, Inhabited

/-- A thread descriptor's fields as posted (R396). -/
structure Desc where
  cls : Nat := 0
  affinity : List Nat := []
  priority : Nat := 0
  flow : Option Nat := none
  budgetUs : Nat := 0
deriving DecidableEq, Repr, Inhabited

/-- A slice, tile or tile group of a picture that a decode job ran (R160). -/
structure UnitResult where
  /-- Spatial layer of its frame. -/
  sid : Nat := 0
  /-- Its 16×16 blocks in raster order, as runs of a first block and a number: a tile of several columns has one run a block row. -/
  runs : List (Nat × Nat) := []
  /-- Sequence numbers of the packets that carry it. -/
  seqs : List (BitVec 16) := []
  /-- A syntax error in what the unit carries. -/
  bad : Bool := false
  /-- A reference fetch met a poisoned word (R21). -/
  refPoison : Bool := false
deriving DecidableEq, Repr, Inhabited

/-- The outcome of a decode job (R147, R158-R166). -/
structure DecodeResult where
  /-- The picture's units; blocks that none of them holds form one more. -/
  units : List UnitResult := []
  /-- It uses an unsupported tool inside a conforming sequence (R163). -/
  unsupported : Bool := false
deriving DecidableEq, Repr, Inhabited

/-- A block of an encoded picture as mode decision split it (R182). -/
structure BlockCode where
  x : Nat := 0
  y : Nat := 0
  w : Nat := 16
  h : Nat := 16
  /-- The reference of an inter block, by its place among those of the picture; none: intra. -/
  ref : Option Nat := none
  /-- Its reference fetch met a poisoned word (R21, R185). -/
  poisoned : Bool := false
deriving DecidableEq, Repr, Inhabited

/-- What the row coder produced for one spatial layer, or one synthesised picture (R190). -/
structure LayerCode where
  /-- Quantiser of the picture. -/
  qp : Nat := 0
  /-- Bits of each row at the quantiser offsets -2 to 2. -/
  rows : List (List Nat) := []
  /-- Bits of the remaining rows at minimum cost, from the row where that starts. -/
  fill : Nat := 0
  /-- Its slices, tiles or tile groups. -/
  units : Nat := 1
  /-- Its blocks in coding order. -/
  blocks : List BlockCode := []
deriving DecidableEq, Repr, Inhabited

/-- The outcome of an encode job (R177, R187-R191). -/
structure EncodeResult where
  /-- Its spatial layers, or the synthesised pictures. -/
  layers : List LayerCode := []
deriving DecidableEq, Repr, Inhabited

/-- A downstream PHY frame at its expected position (R284). -/
structure PhyFrame where
  /-- PSync bits that differ from the pattern. -/
  psyncErrors : Nat := 0
  /-- Counter-structure HEC: 0 good, 1 corrected, 2 uncorrectable. -/
  hec : Nat := 0
  /-- Superframe counter. -/
  counter : Nat := 0
  /-- FEC codewords received. -/
  codewords : Nat := 0
  /-- FEC codewords corrected. -/
  corrected : Nat := 0
  /-- FEC bits corrected. -/
  bits : Nat := 0
  /-- FEC codewords uncorrectable. -/
  uncorrectable : Nat := 0
  /-- Received optical power, 0.002 dBm. -/
  rxPower : Word := 0
deriving DecidableEq, Repr, Inhabited

/-- An XGEM frame (R287). -/
structure Xgem where
  /-- XGEM Port-ID. -/
  portId : Nat := 0
  /-- Key index, 0 for no encryption. -/
  keyIdx : Nat := 0
  /-- Last fragment of its Ethernet frame. -/
  last : Bool := true
  /-- The header HEC is uncorrectable. -/
  hecBad : Bool := false
  /-- Words of the PHY frame's payload left when the header is uncorrectable. -/
  lostWords : Nat := 0
  /-- Payload bytes of this fragment. -/
  bytes : Nat := 0
  /-- The Ethernet frame's source MAC address is one of the module's own. -/
  ownMac : Bool := false
  /-- The UDP datagram that the Ethernet frame carries, if any. -/
  d : Option Datagram := none
deriving DecidableEq, Repr, Inhabited

/-- A downstream PLOAM message (R286). -/
structure Ploam where
  /-- The message carries a MIC that does not verify. -/
  micBad : Bool := false
  /-- Addressed to this ONU-ID, or to all ONUs. -/
  forUs : Bool := true
  /-- Serial number named: vendor ID and vendor-specific serial number; none for the broadcast serial number. -/
  serial : Option (Word × Word) := none
  /-- ONU-ID assigned, equalisation delay, Alloc-ID, key index or power level. -/
  value : Nat := 0
  /-- Assign (1) or remove (0) an Alloc-ID; enable (1) or disable (0) a serial number; Sleep_Allow ON (1) or OFF (0); Key_Control
  generate (0), select (1) or retire (2). -/
  option : Nat := 0
  /-- An answer is required. -/
  answer : Bool := true
  /-- Line rate of a burst profile: 1 24.8832 Gb/s, 2 49.7664 Gb/s, 3 9.95328 Gb/s. -/
  rate : Nat := 0
  /-- Preamble of a burst profile, bits. -/
  preamble : Nat := 0
  /-- Delimiter of a burst profile, bits. -/
  delimiter : Nat := 0
  /-- FEC of a burst profile. -/
  fec : Bool := false
deriving DecidableEq, Repr, Inhabited

/-- A BWmap grant (R292). -/
structure Grant where
  /-- 0 data grant, 1 serial-number grant, 2 ranging grant. -/
  kind : Nat := 0
  /-- Alloc-ID. -/
  alloc : Nat := 0
  /-- Bytes granted. -/
  bytes : Nat := 0
  /-- Burst profile named. -/
  profile : Nat := 0
  /-- A buffer-status report is asked. -/
  report : Bool := false
  /-- The BWmap entry is bad. -/
  bad : Bool := false
  /-- StartTime, in 1/9,720 of the PHY frame; 0xFFFF: the grant continues the burst of the one before it. -/
  start : Nat := 0
deriving DecidableEq, Repr, Inhabited

/-- An OMCI message (R297). -/
structure Omci where
  /-- Transaction. -/
  trans : Nat := 0
  /-- Action (message type) as ITU-T G.988 numbers it. -/
  action : Nat := 0
  /-- Managed-entity class. -/
  cls : Nat := 0
  /-- Managed-entity instance. -/
  inst : Nat := 0
  /-- Attribute values set, one word each in attribute order; the sequence number of a MIB upload next; an OLT challenge in a set table. -/
  vals : List Word := []
  /-- Wire bytes of the message, as words. -/
  wire : List Word := []
deriving DecidableEq, Repr, Inhabited

/-- A Course or Quoin frame (R411-R413). -/
structure CourseFrame where
  /-- Bits of the alignment word that differ, 0-48. -/
  alignErrors : Nat := 0
  /-- The CRC-16 of bytes 6-27 passes. -/
  crcOk : Bool := true
  /-- Byte 6, the frame counter. -/
  counter : Nat := 0
  /-- Byte 7, the three copies of the justification. -/
  just : Nat := 0
  /-- Bytes 8-9: pointer and the no-start bit. -/
  ptr : Nat := 0
  /-- Byte 11 bit 0, remote defect. -/
  rdi : Bool := false
deriving DecidableEq, Repr, Inhabited

/-- A media container (R414). -/
structure Container where
  /-- The CRC-16 of its header passes. -/
  crcOk : Bool := true
  /-- Container number. -/
  number : Nat := 0
  /-- Cells it carries, fill cells apart. -/
  cells : Nat := 0
  /-- Index of the first cell whose header CRC fails. -/
  badAt : Option Nat := none
deriving DecidableEq, Repr, Inhabited

/-- What the decodes of a block met (R21, R96). -/
structure BlockRun where
  /-- Decodes that have missed the block, by core and stream (R96). -/
  late : List (Nat × Nat) := []
  /-- Streams whose audio for the block meets a poisoned word (R21). -/
  poisoned : List Nat := []
deriving DecidableEq, Repr, Inhabited

/-- A cell carrying audio, levels or a selection (R121). -/
structure AudioCell where
  /-- TSU nanoseconds modulo 2^48. -/
  time : Nat := 0
  group : Nat := 0
  kind : Nat := 0
  domain : Nat := 0
  bus : Nat := 0
  slot : Nat := 0
  /-- Sender's cluster position. -/
  source : Nat := 0
  flags : Nat := 0
  members : Nat := 0
  /-- The 48 payload words. -/
  words : List Word := []
deriving DecidableEq, Repr, Inhabited

/-- A service Ethernet frame (R430). -/
structure EthFrame where
  /-- Length in bytes. -/
  len : Nat := 64
  /-- VID of its tag, when it carries one. -/
  tag : Option Nat := none
  /-- What it carries: 0 a datagram to port 47,110; 1 a heartbeat datagram; 2 ARP, NA or ICMP for its own address; 3 anything
  else. -/
  kind : Nat := 3
  /-- Its first 128 bytes. -/
  head : List Byte := []
deriving DecidableEq, Repr, Inhabited

/-- The commands of the block: one constructor per row of spec/opcode_table.json. -/
inductive Instr
  /-- `NOP` (R341): Command that performs nothing and echoes its parameter words. -/
  | nop (c : Cmd)
  /-- `GET_INFO` (R341): Command returning the ten identity words. -/
  | getInfo (c : Cmd)
  /-- `SET_MODE` (R53): Command requesting a mode change at the next Plumb epoch boundary. -/
  | setMode (c : Cmd)
  /-- `GET_STATUS` (R342): Command returning the 18 status words. -/
  | getStatus (c : Cmd)
  /-- `RESET_DOMAIN` (R343): Long command that fences and resets one subsystem or instance group. -/
  | resetDomain (c : Cmd)
  /-- `RESET_DOMAIN_READY` (R343): The reset domain becomes ready after table restore, and EVT_LONG_DONE is sent. -/
  | resetDomainReady (sub inst : Nat)
  /-- `SUBSCRIBE_EVENTS` (R344): Command setting the event mask and backup-path mirroring. -/
  | subscribeEvents (c : Cmd)
  /-- `IMAGE_WRITE` (R345): Command writing one firmware chunk into the slot that is not running. -/
  | imageWrite (c : Cmd)
  /-- `IMAGE_COMMIT` (R345): Long command that verifies and commits the written firmware image. -/
  | imageCommit (c : Cmd)
  /-- `IMAGE_COMMIT_DONE` (R345): The commit finishes: the header is written, EVT_LONG_DONE is sent and, with activate set, the module resets. -/
  | imageCommitDone (readbackOk : Bool)
  /-- `CONFIG_READ` (R345): Command returning a staged or committed configuration item. -/
  | configRead (c : Cmd)
  /-- `CONFIG_WRITE` (R345): Command writing the staged copy of a configuration item. -/
  | configWrite (c : Cmd)
  /-- `CONFIG_COMMIT` (R345): Long command that checks the staged items and writes the older configuration slot. -/
  | configCommit (c : Cmd)
  /-- `CONFIG_COMMIT_DONE` (R345): The configuration slot is written, at-commit items apply and EVT_LONG_DONE carries the new sequence. -/
  | configCommitDone
  /-- `PON_STATUS` (R308): Command returning the 16 PON status words. -/
  | ponStatus (c : Cmd)
  /-- `PON_SET_PROFILE` (R308): Command setting or reading the rate policy, sleep permission, T_eqd, k and Registration ID, with an optional restart. -/
  | ponSetProfile (c : Cmd)
  /-- `PON_OMCI_RELAY` (R300): Command setting the delegated OMCI classes, sending an answer, or reading the list. -/
  | ponOmciRelay (c : Cmd)
  /-- `PON_PM_READ` (R308): Command returning the counters and flags of one PM bin. -/
  | ponPmRead (c : Cmd)
  /-- `PON_PROTECT_CTRL` (R304): Command that arms, disarms or reports the protection trigger. -/
  | ponProtectCtrl (c : Cmd)
  /-- `LEG_CREATE` (R88): Command creating a network, tree or producer leg in CREATED. -/
  | legCreate (c : Cmd)
  /-- `LEG_MODIFY` (R88): Command changing the flagged leg fields as an item of the leg's flow. -/
  | legModify (c : Cmd)
  /-- `LEG_DELETE` (R88): Command tearing a leg down to FREE within 2 ms. -/
  | legDelete (c : Cmd)
  /-- `STREAM_ADD` (R88): Command adding a REMOTE or LOCAL stream to a leg slot. -/
  | streamAdd (c : Cmd)
  /-- `STREAM_REMOVE` (R88): Command unlinking a stream's chain, stopping its appends and freeing the slot. -/
  | streamRemove (c : Cmd)
  /-- `SUB_ADD` (R78): Command adding, updating or replacing a Ledger entry. -/
  | subAdd (c : Cmd)
  /-- `SUB_REMOVE` (R73): Command unlinking a Ledger entry. -/
  | subRemove (c : Cmd)
  /-- `CONF_CREATE` (R88): Command creating a conference and reserving its N transcoded slots. -/
  | confCreate (c : Cmd)
  /-- `CONF_DELETE` (R88): Command detaching the members and releasing the mixer and ring. -/
  | confDelete (c : Cmd)
  /-- `LEG_STATS` (R88): Command returning the 16 leg counters, with optional clear. -/
  | legStats (c : Cmd)
  /-- `SHAPER_SET` (R88): Command setting one leg, service or port shaper node. -/
  | shaperSet (c : Cmd)
  /-- `AUD_MIXER_SET` (R126): Command setting mixer, always-on, encode-group, binding, matrix, equaliser or echo settings. -/
  | audMixerSet (c : Cmd)
  /-- `AUD_ROUTE_SET` (R116): Command writing one routing gain into both banks, applied with a crossfade. -/
  | audRouteSet (c : Cmd)
  /-- `AUD_GAIN_SET` (R114): Command changing a row's trim at its next zero crossing. -/
  | audGainSet (c : Cmd)
  /-- `AUD_BANK_SWAP` (R115): Command making the inactive bank active at the next block boundary. -/
  | audBankSwap (c : Cmd)
  /-- `AUD_METER_READ` (R119): Command returning meter RMS and peak values. -/
  | audMeterRead (c : Cmd)
  /-- `AUD_PROGRAM_LOAD` (R145): Command loading, starting, halting, attaching, detaching, parameterising or reporting a customer Mallet core. -/
  | audProgramLoad (c : Cmd)
  /-- `VID_DECODER_BIND` (R173): Command binding, unbinding, masking or reporting a decoder context. -/
  | vidDecoderBind (c : Cmd)
  /-- `VID_ENCODER_SET` (R202): Command setting, releasing or reporting an encoder context. -/
  | vidEncoderSet (c : Cmd)
  /-- `VID_KEYFRAME` (R203): Command requesting a context key picture or an entry repair. -/
  | vidKeyframe (c : Cmd)
  /-- `ENTRY_REPAIR_DONE` (R203): An entry repair ends with its result, and EVT_LONG_DONE is sent. -/
  | entryRepairDone (entry result : Nat)
  /-- `VID_SYNTH_POLICY` (R204): Command setting the synthesis share, permissions and limits. -/
  | vidSynthPolicy (c : Cmd)
  /-- `VID_CORE_QUIESCE` (R174): Command that quiesces, returns or reports a Gouge core. -/
  | vidCoreQuiesce (c : Cmd)
  /-- `CORE_QUIESCED` (R174): The core's job is pre-empted at a band end and the core enters QUIESCED; EVT_LONG_DONE is sent. -/
  | coreQuiesced (core : Nat)
  /-- `CANVAS_SET` (R228): Command setting, deleting or reporting a canvas. -/
  | canvasSet (c : Cmd)
  /-- `LAYER_SET` (R229): Command setting, clearing or reporting a layer. -/
  | layerSet (c : Cmd)
  /-- `LAYER_IMAGE_LOAD` (R230): Command loading a chunk, freeing, or reporting an image slot. -/
  | layerImageLoad (c : Cmd)
  /-- `IMAGE_CONVERSION_DONE` (R230): The image's last chunk is converted and EVT_LONG_DONE reports opacity. -/
  | imageConversionDone (slot : Nat)
  /-- `FLIP_GROUP_SET` (R231): Command setting a hold-off, committing staged changes, or reporting a flip group. -/
  | flipGroupSet (c : Cmd)
  /-- `GOV_CLASS_SET` (R253): Command setting, reading or restoring a leg class. -/
  | govClassSet (c : Cmd)
  /-- `GOV_OVERRIDE` (R249): Command pinning, capping, freezing or releasing a leg or an encoder target. -/
  | govOverride (c : Cmd)
  /-- `GOV_READ` (R253): Command returning the governor state of a leg, encoder or port. -/
  | govRead (c : Cmd)
  /-- `KEY_LOAD` (R360): Command loading an SRTP slot, the PON pre-shared key or the backup-path key. -/
  | keyLoad (c : Cmd)
  /-- `KEY_RETIRE` (R361): Command zeroing a key slot. -/
  | keyRetire (c : Cmd)
  /-- `KEY_STATUS` (R362): Command returning a slot's state, fingerprint and usage. -/
  | keyStatus (c : Cmd)
  /-- `TWIN_KEY_LOAD` (R363): Command loading the twin key-encryption key. -/
  | twinKeyLoad (c : Cmd)
  /-- `TIME_READ` (R393): Command returning the TSU time, state and source. -/
  | timeRead (c : Cmd)
  /-- `TIME_SOURCE_SET` (R393): Command setting source priorities, the SYNC function and the 1PPS comparator. -/
  | timeSourceSet (c : Cmd)
  /-- `TIME_STEP` (R393): Command requesting a time step or a UTC offset change. -/
  | timeStep (c : Cmd)
  /-- `TIME_THRESHOLD_SET` (R393): Command setting the jump threshold and late tolerance. -/
  | timeThresholdSet (c : Cmd)
  /-- `CLUSTER_ROLE_SET` (R432): Command setting the role, adding or removing a lock group, or reporting. -/
  | clusterRoleSet (c : Cmd)
  /-- `COURSE_PORT_SET` (R432): Command enabling or reporting a Course port. -/
  | coursePortSet (c : Cmd)
  /-- `TWIN_PAIR` (R421): Long command that forms or dissolves a twin pair, or reports it. -/
  | twinPair (c : Cmd)
  /-- `PAIRING_DONE` (R421): Pairing ends with DONE, NO_PARTNER or KEY_MISMATCH, and EVT_LONG_DONE is sent. -/
  | pairingDone (prefer : Nat)
  /-- `TWIN_SWITCH` (R432): Long command requesting a planned or forced protection switch. -/
  | twinSwitch (c : Cmd)
  /-- `SVCETH_SET` (R432): Command setting addresses, link, a wake filter, or reporting the service Ethernet. -/
  | svcethSet (c : Cmd)
  /-- `STORE_POLICY_SET` (R276): Command setting a ring, stream appends, or reading the ring. -/
  | storePolicySet (c : Cmd)
  /-- `STORE_EXPORT` (R277): Command starting, cancelling or reporting a Cairn export. -/
  | storeExport (c : Cmd)
  /-- `EXPORT_DONE` (R277): An export ends and EVT_LONG_DONE reports its result. -/
  | exportDone (n : Nat)
  /-- `STORE_REPLAY` (R278): Command starting, stopping or reporting a replay. -/
  | storeReplay (c : Cmd)
  /-- `REPLAY_END` (R278): A replay ends (DONE, OVERTAKEN, STOPPED, ABORTED or NO_SOURCE), and EVT_LONG_DONE is sent. -/
  | replayEnd (n reason : Nat)
  /-- `MEM_STATUS` (R279): Command returning memory summary, channel, error log or region data. -/
  | memStatus (c : Cmd)
  /-- `POWER_STATE_SET` (R471): Long command entering a sleep state. -/
  | powerStateSet (c : Cmd)
  /-- `SLEEP_ENTERED` (R471): Entry step 3 completes, EVT_LONG_DONE is sent and the entry window begins. -/
  | sleepEntered
  /-- `PERF_LEVEL_SET` (R475): Command setting a domain group's performance level. -/
  | perfLevelSet (c : Cmd)
  /-- `PAD_RELEASE` (R475): Command releasing a latched pad group. -/
  | padRelease (c : Cmd)
  /-- `CLOCK_SELECT` (R475): Command switching or forcing a clock multiplexer in SERVICE. -/
  | clockSelect (c : Cmd)
  /-- `RESOURCE_CLAIM` (R476): Command claiming, releasing, reporting or setting up SYNC, EVT, a comparator or a customer core. -/
  | resourceClaim (c : Cmd)
  /-- `TRACE_CTRL` (R406): Command setting the trace mask and mode. -/
  | traceCtrl (c : Cmd)
  /-- `TRACE_READ` (R406): Command returning trace records. -/
  | traceRead (c : Cmd)
  /-- `COUNTER_READ` (R486): Command returning a counter family, with optional clear. -/
  | counterRead (c : Cmd)
  /-- `FAULT_LOG_READ` (R346): Command returning fault log entries, newest first. -/
  | faultLogRead (c : Cmd)
  /-- `LOOPBACK` (R346): Long command running a port or DRAM loopback test. -/
  | loopback (c : Cmd)
  /-- `LOOPBACK_DONE` (R346): The loopback duration ends and EVT_LONG_DONE reports pass and errors. -/
  | loopbackDone (target errors mib : Nat)
  /-- `REG_READ` (R347): Command reading a range of registers. -/
  | regRead (c : Cmd)
  /-- `REG_WRITE` (R347): Command writing a range of registers in ascending order. -/
  | regWrite (c : Cmd)
  /-- `BACKUP_ACKNOWLEDGEMENT` (R338): A packet with flags bits 0 and 1 acknowledges an event on the backup path. -/
  | backupAcknowledgement (queue code : Nat) (tag seq : Word)
  /-- `NOT_A_COMMAND_DISCARD` (R330): A reply- or event-flagged packet on the Yelheli Link is discarded and its credit returned. -/
  | notACommandDiscard (queue : Nat)
  /-- `BACKUP_DATAGRAM` (R338): A UDP datagram to port 47,110 is checked by its tag and queued as a command. -/
  | backupDatagram (source : Addr) (port : Nat) (bytes : List Byte)
  /-- `BACKUP_EVENT_RESEND` (R338): An unacknowledged backup-path event is resent every 100 ms, up to 5 times. -/
  | backupEventResend
  /-- `FATAL_FAULT_RESET` (R480): Firmware resets the module with cause 6 within 100 ms after a fatal fault. -/
  | fatalFaultReset
  /-- `SYS_RESET_REQ_WRITE` (R495): A write of 0x0000_B007 resets the module with cause 7. -/
  | sysResetReqWrite (value : Word)
  /-- `HANDOFF_SET` (R321): A write setting HLP_CTRL.handoff stops the bootstrap responder. -/
  | handoffSet
  /-- `TRAIN_READY_SET` (R499): A write setting HLP_CTRL.train_ready makes TRAIN acceptable. -/
  | trainReadySet
  /-- `HLP_LANE_POL_WRITE` (R499): A write setting lane polarity inversion before the lock. -/
  | hlpLanePolWrite (value : Word) (w : Writer)
  /-- `TSU_INCR_WRITE` (R502): A write of the TSU increment, clamped, applies from the next tick. -/
  | tsuIncrWrite (value : Word)
  /-- `TSU_INCR_DITHER_WRITE` (R369): A write of the dither value of the TSU increment. -/
  | tsuIncrDitherWrite (value : Word)
  /-- `TSU_TIME_SEC_READ` (R492): A read of TSU_TIME_SEC latches the other words for the requester. -/
  | tsuTimeSecRead (requester : Nat)
  /-- `TSU_CMP_SEC_READ` (R492): A read of a comparator's seconds latches its other words. -/
  | tsuCmpSecRead (requester n : Nat)
  /-- `COMPARE_WORDS_WRITE` (R503): An owner writes comparator compare words, taken into force at the next arming. -/
  | compareWordsWrite (n which : Nat) (value : Word) (w : Writer)
  /-- `COMPARATOR_ARM_WRITE` (R503): A write of TSU_CMP_CTRL.armed arms or disarms a comparator. -/
  | comparatorArmWrite (n : Nat) (value : Word) (w : Writer)
  /-- `COMPARATOR_FIRED_CLEAR` (R503): A W1C write clears a comparator's fired bit. -/
  | comparatorFiredClear (n : Nat) (value : Word) (w : Writer)
  /-- `XING_OVERRUN_CLEAR` (R497): A W1C write clears sticky crossing-overrun bits. -/
  | xingOverrunClear (value : Word)
  /-- `MSS_AGE_LIMIT_WRITE` (R504): A write setting the C1–C3 age limits; invalid fields keep their value. -/
  | mssAgeLimitWrite (value : Word)
  /-- `PU_REGION_WRITE` (R505): A write into the protection-region array writes nothing and raises MSS_PU_WRITE_LOCKED. -/
  | puRegionWrite (addr value : Word)
  /-- `KEY_REGISTER_WRITE` (R506): A REG_WRITE to the CPE key registers is refused with LOCKED. -/
  | keyRegisterWrite (addr value : Word) (w : Writer)
  /-- `RC_COUNTER_READ` (R11): A read of a read-clear counter returns its value and clears it. -/
  | rcCounterRead (addr : Word)
  /-- `REGISTER_WRITE_PLAIN` (R11): A write to any register without a row of its own, under its access code. -/
  | registerWritePlain (addr value : Word) (w : Writer)
  /-- `FABRIC_REQUEST` (R23): A fabric request is checked by the protection unit and served or DENIED. -/
  | fabricRequest (r : FabReq)
  /-- `FABRIC_FLIT_ARRIVAL` (R20): A receiver checks a flit's parity and refuses it, accepts it or delivers it poisoned. number is the
  flit's number in its sender's replay buffer. -/
  | fabricFlitArrival (link number : Nat) (f : FabFlit)
  /-- `DRAM_READ` (R264): A controller reads a burst, checks parity and re-reads or poisons. bad gives the words that fail on the first,
  second and third read, from the word at addr. -/
  | dramRead (addr : Nat) (span : ReadSpan) (bad : List (List Nat))
  /-- `RETRAINING_PAUSE` (R261): A channel's 600 ns retraining pause starts at its TSU slot. -/
  | retrainingPause (ch : Nat) (marginOk : Bool)
  /-- `INGRESS_DATAGRAM` (R62): A UDP datagram to an owned address is classified and demultiplexed. -/
  | ingressDatagram (port : Nat) (d : Datagram)
  /-- `RTP_PACKET_INGRESS` (R27): An RTP packet is authenticated, decrypted, measured and forked. -/
  | rtpPacketIngress (stream : Nat) (p : RtpPkt)
  /-- `CAIRN_APPEND_TIMEOUT` (R28): A Cairn write not accepted within 100 µs is dropped and counted. -/
  | cairnAppendTimeout (conf number : Nat)
  /-- `BUFFER_RELEASE` (R84): A consumer decrements a buffer's reference count. -/
  | bufferRelease (pool index : Nat)
  /-- `CHAIN_WALK` (R77): FWE walks a stream's Ledger chain and rewrites each copy. -/
  | chainWalk (w : WalkRun)
  /-- `STUN_BINDING_REQUEST` (R64): Keystone answers an ICE-lite binding request and may confirm or change the path. -/
  | stunBindingRequest (leg : Nat) (r : StunReq)
  /-- `CONSENT_RESPONSE` (R65): A consent success response refreshes consent and gives an RTT sample. -/
  | consentResponse (leg rttUs : Nat) (valid : Bool)
  /-- `CONSENT_CHECK_SEND` (R65): Keystone sends a consent binding request at a 4–6 s interval. -/
  | consentCheckSend (leg : Nat)
  /-- `CONSENT_EXPIRY` (R65): 30 s without a consent response moves the leg to CONSENT_LOST. -/
  | consentExpiry (leg : Nat)
  /-- `DTLS_DATAGRAM_INGRESS` (R63): A DTLS datagram is delivered to the host tagged with its leg. -/
  | dtlsDatagramIngress (leg : Nat) (bytes : List Byte)
  /-- `HOST_DATA_FRAME` (R319): A data frame from the host is checked and sent as DTLS or treated as an IP arrival. -/
  | hostDataFrame (bytes : List Byte)
  /-- `RTCP_SR_RR` (R68): A received SR or RR is consumed and passed to Plumb. -/
  | rtcpSrRr (leg : Nat) (r : RtcpReport)
  /-- `RTCP_SDES` (R68): A received SDES has its CNAME consumed. -/
  | rtcpSdes (leg : Nat) (cname : List Byte)
  /-- `RTCP_BYE` (R68): A received BYE raises EVT_LEG detail 4. -/
  | rtcpBye (leg : Nat) (ssrc : Word)
  /-- `GENERIC_NACK` (R79): A received NACK is answered from Cairn or discarded. -/
  | genericNack (leg : Nat) (ssrc : Word) (seqs : List Nat)
  /-- `PLI_FIR` (R68): A received PLI or FIR goes to Plumb as a refresh need. -/
  | pliFir (leg : Nat) (ssrc : Word) (fir : Bool)
  /-- `CONGESTION_FEEDBACK` (R235): A received RFC 8888 report is matched to send records for Plumb. -/
  | congestionFeedback (leg : Nat) (reports : List FbReport)
  /-- `RTCP_OTHER_TYPE` (R68): An RTCP packet of any other type is dropped and counted. -/
  | rtcpOtherType (port : Nat)
  /-- `FLEXFEC_REPAIR_PACKET` (R69): A FlexFEC repair packet is used to recover lost packets. -/
  | flexfecRepairPacket (stream : Nat) (recovered : List RtpPkt)
  /-- `FLEXFEC_RECOVERY_TIMEOUT` (R69): A packet not recovered within 20 ms is counted as lost. -/
  | flexfecRecoveryTimeout (stream seq : Nat)
  /-- `SR_SEND` (R68): One SR per output SSRC is sent at a 0.5–1.5 s interval. -/
  | srSend (leg : Nat) (ssrc : Word)
  /-- `NACK_SEND` (R68): A NACK for an ingress gap is sent 5 ms after the gap, at most twice. -/
  | nackSend (stream seq : Nat)
  /-- `FEEDBACK_SEND` (R68): RFC 8888 feedback is sent every 20 ms per ingress stream. -/
  | feedbackSend (stream : Nat)
  /-- `PORT_READY_SERVE` (R386): A port can take a frame and TSH serves by priority and DWRR. -/
  | portReadyServe (port : Nat)
  /-- `PACED_LAUNCH` (R389): A paced port's comparator launches the next stamped frame. -/
  | pacedLaunch (port : Nat)
  /-- `LAUNCH_TIME_REACHED` (R390): A frame with launch time L is launched or dropped as late when TSU reaches L. -/
  | launchTimeReached (leg service port : Nat)
  /-- `AUDIO_BLOCK_BOUNDARY` (R33): A 1 ms audio block starts: releases, decode dispatch, mixing stages and queue sampling. -/
  | audioBlockBoundary (run : BlockRun)
  /-- `ANCHOR_WINDOW_END` (R94): At the end of each 1 s window the jitter buffer moves its anchor. -/
  | anchorWindowEnd (stream : Nat)
  /-- `ENCODE_GROUP_FRAME` (R111): An encode group encodes and packetises a frame after its span ends. -/
  | encodeGroupFrame (conf group : Nat)
  /-- `TRIM_ZERO_CROSSING` (R114): A pending trim applies at the row's zero crossing, or after 4 ms. -/
  | trimZeroCrossing (conf row : Nat)
  /-- `PLUMB_EPOCH_BOUNDARY` (R232): A 10 ms epoch ends: levels, selection, reclaim and the computation start. -/
  | plumbEpochBoundary
  /-- `PLUMB_PUBLICATION` (R234): Plumb publishes every leg's decisions at b + 10 ms. -/
  | plumbPublication (late : List Nat)
  /-- `LEVEL_CELL_SEND` (R125): A member sends its level cell 1 ms after the epoch boundary. -/
  | levelCellSend (group : Nat)
  /-- `SELECTION_CELL_SEND` (R125): The manager sends the selection cell 3 ms after the boundary. -/
  | selectionCellSend (group : Nat)
  /-- `CLUSTER_SUM_DEADLINE` (R123): At the step deadlines the manager sums partials and members fall back if no full sum is held. -/
  | clusterSumDeadline (group step : Nat)
  /-- `SLOT_BLOCK_MISSED` (R140): At 900 µs without done the slot enters bypass. -/
  | slotBlockMissed (core : Nat)
  /-- `MALLET_NOP` (R134): Mallet instruction nop: moves only. -/
  | malletNop (core : Nat)
  /-- `MAC` (R131): Mallet instruction: acc += a × b. -/
  | mac (core : Nat)
  /-- `MSU` (R131): Mallet instruction: acc −= a × b. -/
  | msu (core : Nat)
  /-- `MPY` (R134): Mallet instruction: acc = a × b. -/
  | mpy (core : Nat)
  /-- `CLR` (R134): Mallet instruction: acc = 0. -/
  | clr (core : Nat)
  /-- `ASRA` (R134): Mallet instruction: arithmetic right shift of an accumulator. -/
  | asra (core : Nat)
  /-- `STA` (R131): Mallet instruction: store a shifted, saturated accumulator. -/
  | sta (core : Nat)
  /-- `ADD` (R134): Mallet instruction: d = a + b with wrap. -/
  | add (core : Nat)
  /-- `SUB` (R134): Mallet instruction: d = a − b with wrap. -/
  | sub (core : Nat)
  /-- `ADDS` (R134): Mallet instruction: saturating add. -/
  | adds (core : Nat)
  /-- `SUBS` (R134): Mallet instruction: saturating subtract. -/
  | subs (core : Nat)
  /-- `AND` (R134): Mallet instruction: bitwise and. -/
  | and (core : Nat)
  /-- `OR` (R134): Mallet instruction: bitwise or. -/
  | or (core : Nat)
  /-- `XOR` (R134): Mallet instruction: bitwise exclusive or. -/
  | xor (core : Nat)
  /-- `SHL` (R134): Mallet instruction: shift left. -/
  | shl (core : Nat)
  /-- `SHR` (R134): Mallet instruction: logical shift right. -/
  | shr (core : Nat)
  /-- `ASR` (R134): Mallet instruction: arithmetic shift right. -/
  | asr (core : Nat)
  /-- `MIN` (R134): Mallet instruction: signed minimum. -/
  | min (core : Nat)
  /-- `MAX` (R134): Mallet instruction: signed maximum. -/
  | max (core : Nat)
  /-- `ABS` (R134): Mallet instruction: absolute value. -/
  | abs (core : Nat)
  /-- `MOVI` (R134): Mallet instruction: load an immediate, short or long form. -/
  | movi (core : Nat)
  /-- `MOV` (R134): Mallet instruction: register-to-register move. -/
  | mov (core : Nat)
  /-- `LOOP` (R135): Mallet instruction: set up a counted loop. -/
  | loop (core : Nat)
  /-- `BR` (R134): Mallet instruction: conditional branch. -/
  | br (core : Nat)
  /-- `CALL` (R134): Mallet instruction: call with the return stack. -/
  | call (core : Nat)
  /-- `RET` (R134): Mallet instruction: return. -/
  | ret (core : Nat)
  /-- `DONE` (R139): Mallet instruction: block finished, wait for the next input. -/
  | done (core : Nat)
  /-- `HALT` (R134): Mallet instruction: the core enters LOADED. -/
  | halt (core : Nat)
  /-- `ILLEGAL_INSTRUCTION` (R128): An illegal opcode or access faults the core, which enters FAULTED. -/
  | illegalInstruction (core : Nat)
  /-- `ASSEMBLY_DEADLINE` (R153): A picture is released at its assembly deadline with what is present. -/
  | assemblyDeadline (ctx : Nat)
  /-- `DECODE_JOB_COMPLETE` (R147): A decode job finishes and the picture is fenced and reported to Plumb. -/
  | decodeJobComplete (ctx : Nat) (r : DecodeResult)
  /-- `DECODE_WATCHDOG` (R168): A job holding a core for 50 ms trips the watchdog; the core is reset. -/
  | decodeWatchdog (core : Nat)
  /-- `CATCH_UP_TIMEOUT` (R156): Catch-up that fails to reach live within 500 ms enters WAITING_RAP. -/
  | catchUpTimeout (ctx : Nat)
  /-- `ENCODER_SOURCE_PICTURE` (R178): A source picture arrives at an encoder context and waits or replaces the waiting one. src is the
  canvas or the decoder context that it comes from. -/
  | encoderSourcePicture (ctx src : Nat)
  /-- `ENCODE_JOB_COMPLETE` (R177): An encode job ends and FWE packetises the temporal unit. -/
  | encodeJobComplete (ctx : Nat) (r : EncodeResult)
  /-- `SYNTH_CATCH_UP_DONE` (R196): A synthesis catch-up reaches the live point and encoding starts. dec is the job's hidden decoder
  context. -/
  | synthCatchUpDone (job dec : Nat)
  /-- `SYNTH_ENCODE_DONE` (R197): Synthesised pictures are sent and held packets follow. -/
  | synthEncodeDone (job : Nat) (r : EncodeResult)
  /-- `SYNTH_NO_TIME` (R200): A repair job that has not reached encode within 500 ms ends NO_TIME. -/
  | synthNoTime (job : Nat)
  /-- `BRIDGED_LIMIT_EXPIRY` (R199): A bridged rendition that meets no sender access point within the limit triggers a keyframe request. -/
  | bridgedLimitExpiry (job : Nat)
  /-- `FLIP_DEADLINE` (R218): At a canvas flip deadline, layers latch pictures and composition starts. -/
  | flipDeadline (canvas : Nat) (poisoned : List (Nat × Nat × Nat))
  /-- `COMPOSITION_FINISHED` (R219): A frame's composition ends, on time or late. -/
  | compositionFinished (canvas : Nat)
  /-- `PSYNC_CANDIDATE` (R284): The hunt finds a PSync candidate and enters CONFIRM_1. -/
  | psyncCandidate (path : Nat) (counter : Nat)
  /-- `EXPECTED_FRAME_POSITION` (R284): At each expected frame position the path confirms, misses or declares LODS. -/
  | expectedFramePosition (path : Nat) (f : PhyFrame)
  /-- `XGEM_FRAME` (R287): An XGEM frame is delineated, filtered, decrypted and delivered to FWE. -/
  | xgemFrame (f : Xgem)
  /-- `BURST_PROFILE` (R290): PLOAM Burst_Profile stores a profile for later BWmaps. -/
  | burstProfile (p : Ploam)
  /-- `ASSIGN_ONU_ID` (R289): PLOAM Assign_ONU-ID moves O2-3 to O4. -/
  | assignOnuId (p : Ploam)
  /-- `RANGING_TIME` (R289): PLOAM Ranging_Time sets EqD and enters O5. -/
  | rangingTime (p : Ploam)
  /-- `DEACTIVATE_ONU_ID` (R289): PLOAM Deactivate_ONU-ID returns the module to O1. -/
  | deactivateOnuId (p : Ploam)
  /-- `DISABLE_SERIAL_NUMBER` (R289): PLOAM Disable_Serial_Number enters or leaves O7. -/
  | disableSerialNumber (p : Ploam)
  /-- `REQUEST_REGISTRATION` (R286): PLOAM Request_Registration is answered with Registration. -/
  | requestRegistration (p : Ploam)
  /-- `ASSIGN_ALLOC_ID` (R291): PLOAM Assign_Alloc-ID assigns an allocation. -/
  | assignAllocId (p : Ploam)
  /-- `KEY_CONTROL` (R295): PLOAM Key_Control makes Keystone generate and report a unicast key. -/
  | keyControl (p : Ploam)
  /-- `SLEEP_ALLOW` (R302): PLOAM Sleep_Allow sets sleep permission or wakes the module. -/
  | sleepAllow (p : Ploam)
  /-- `CHANGE_POWER_LEVEL` (R286): PLOAM Change_Power_Level is acted on. -/
  | changePowerLevel (p : Ploam)
  /-- `POWER_CONSUMPTION_INQUIRE` (R286): PLOAM Power_Consumption_Inquire is answered with a report. -/
  | powerConsumptionInquire (p : Ploam)
  /-- `REFUSED_PLOAM` (R286): A TWDM or channel PLOAM is refused with a parameter-error Acknowledge. -/
  | refusedPloam (p : Ploam)
  /-- `BWMAP_GRANT` (R292): A grant in the BWmap schedules a burst, or answers a serial-number or ranging grant. -/
  | bwmapGrant (g : Grant)
  /-- `UPSTREAM_BURST` (R292): At the scheduled instant the PTU sends the burst, fills it and reports. -/
  | upstreamBurst (port : Nat)
  /-- `TRANSMIT_MONITOR_TRIP` (R294): Optical output outside the burst windows disables the laser. -/
  | transmitMonitorTrip
  /-- `OMCI_MESSAGE` (R297): An OMCI message is handled by Keystone or relayed to the host. -/
  | omciMessage (m : Omci)
  /-- `OMCI_RELAY_TIMEOUT` (R300): No host answer within 2 s gives a device-busy answer. -/
  | omciRelayTimeout (tid : Nat)
  /-- `TIME_OF_DAY_PAIR` (R301): An OLT-G time-of-day write is matched and passed to TSU as an update. -/
  | timeOfDayPair (n sec ns : Nat)
  /-- `TO1_EXPIRY` (R289): TO1 expiry returns the module to O1. -/
  | to1Expiry
  /-- `TO2_EXPIRY` (R289): TO2 expiry in O6 returns the module to O1. -/
  | to2Expiry
  /-- `PROTECTION_TIMER_EXPIRY` (R304): LODS still in force after 4 ms raises the protection trigger. -/
  | protectionTimerExpiry
  /-- `RATE_NO_CANDIDATE_TIMEOUT` (R282): The 50G path's 1 s without a candidate permits XGS-PON activation. -/
  | rateNoCandidateTimeout
  /-- `I_HOLD_EXPIRY` (R302): I_hold expiry moves AWAKE_HELD to AWAKE_FREE. -/
  | iHoldExpiry
  /-- `WATCH_PEEK_TICK` (R302): Every 1 ms the receiver samples a frame for wake conditions. -/
  | watchPeekTick (wake : Nat)
  /-- `I_LOWPOWER_EXPIRY` (R302): I_lowpower expiry moves WATCH to AWARE. -/
  | iLowpowerExpiry
  /-- `I_AWARE_EXPIRY` (R302): I_aware expiry moves AWARE to WATCH. -/
  | iAwareExpiry
  /-- `PM_BIN_BOUNDARY` (R305): A 15-minute or day PM bin closes and a new one opens. -/
  | pmBinBoundary (day : Bool)
  /-- `POLL` (R313): Sideband POLL is answered with STATUS. -/
  | poll
  /-- `POWER_LOSS` (R313): Sideband POWER_LOSS is acknowledged and starts the save on sag. -/
  | powerLoss
  /-- `TRAIN` (R314): Sideband TRAIN starts link training from LANE_SYNC. -/
  | train (payload : Byte)
  /-- `BOOT` (R321): Sideband BOOT carries one command for the bootstrap responder. -/
  | boot (bytes : List Byte)
  /-- `WAKE_PATTERN` (R313): The sideband WAKE pattern is detected as an edge wake source. -/
  | wakePattern
  /-- `SIDEBAND_CRC_FAIL` (R313): A sideband message whose CRC fails is ignored and counted. -/
  | sidebandCrcFail
  /-- `LANE_SYMBOL_LOCK` (R314): A lane gains symbol lock and the link enters EQUALIZE. -/
  | laneSymbolLock (mask : Nat)
  /-- `LANE_SYNC_TIMEOUT` (R314): No lane locks within 2 ms and the link returns to SIDEBAND_UP. -/
  | laneSyncTimeout
  /-- `EQUALIZE_DONE` (R315): Equalisation ends, the width is chosen and FEC_LOCK begins. -/
  | equalizeDone (good : Nat)
  /-- `FEC_ALIGNMENT_LOCK` (R314): Alignment-marker lock and deskew enter CREDIT_INIT, or fail within 5 ms. -/
  | fecAlignmentLock (ok : Bool)
  /-- `CREDIT_INIT` (R317): Both sides advertise credits and the link becomes ACTIVE, or fail within 1 ms. -/
  | creditInit (credits : List Nat)
  /-- `FLIT_RECEIVED` (R316): A host-link flit is checked, acknowledged and delivered, or NAKed. -/
  | flitReceived (f : RxFlit)
  /-- `FLIT_NAK` (R317): A NAK makes the sender replay from the next flit. -/
  | flitNak (seq : Nat)
  /-- `CREDIT_RETURN` (R317): Returned credits let a sender continue on a channel. -/
  | creditReturn (ch n : Nat)
  /-- `LINK_RETRAIN` (R318): A replay, codeword or lock failure starts a retrain. -/
  | linkRetrain
  /-- `RETRAIN_FAILED` (R318): A failed retrain returns the link to SIDEBAND_UP and flushes flits. -/
  | retrainFailed
  /-- `SOF_MARK` (R320): An SOF flit is captured and used to trim the always-on oscillator. -/
  | sofMark (cycles : Nat)
  /-- `SOF_MISS` (R320): A missing mark is counted; 16 in a row hold the trim. -/
  | sofMiss
  /-- `AON_TRIM_WINDOW` (R457): At the end of each 8 ms window CPR adjusts the always-on trim. -/
  | aonTrimWindow (count : Nat)
  /-- `KEY_DELAYED_RETIRE` (R356): The former current slot is retired 1 s after a key rollover. -/
  | keyDelayedRetire (slot : Nat)
  /-- `TIME_SOURCE_UPDATE` (R376): An update from the source in use is stepped, slewed or refused. -/
  | timeSourceUpdate (source : Nat) (tSrc tCap : Nat)
  /-- `STEP_APPLY` (R378): A waiting step applies at the next audio block boundary and moves every client. -/
  | stepApply
  /-- `SOURCE_QUALIFICATION_LOSS` (R374): A source stops qualifying and TSU may enter HOLDOVER. -/
  | sourceQualificationLoss (source : Nat)
  /-- `PPS_INPUT_PULSE` (R380): A 1PPS rising edge is captured as a time-source update. -/
  | ppsInputPulse
  /-- `COMPARATOR_FIRE` (R382): A comparator fires and starts its owner's action. -/
  | comparatorFire (n : Nat)
  /-- `EVT_INPUT_EDGE` (R476): An active edge on the EVT input is captured and counted. -/
  | evtInputEdge
  /-- `THREAD_POST` (R397): A thread is posted and enters READY or FLOW_WAIT, or merges. -/
  | threadPost (n : Nat) (d : Desc)
  /-- `CORE_FREE_DISPATCH` (R398): A free core takes the highest-priority READY thread. -/
  | coreFreeDispatch (core : Nat)
  /-- `THREAD_COMPLETE` (R397): A running thread completes and its flow releases the next. -/
  | threadComplete (core : Nat)
  /-- `THREAD_YIELD` (R401): A running thread yields and re-enters at the tail of its flow. -/
  | threadYield (core : Nat)
  /-- `THREAD_BLOCK` (R397): A running thread blocks. -/
  | threadBlock (core : Nat)
  /-- `RUN_BUDGET_OVERRUN` (R399): A run exceeding its budget raises TDS_RUN_OVERRUN. -/
  | runBudgetOverrun (core : Nat)
  /-- `COURSE_FRAME` (R413): A Course or Quoin frame is checked for alignment and justification. -/
  | courseFrame (port : Nat) (f : CourseFrame)
  /-- `CONTAINER_RECEIVED` (R414): A media container's header is checked and its cells delineated. -/
  | containerReceived (port : Nat) (c : Container)
  /-- `AUDIO_CELL` (R121): A cell carrying a partial, full sum, contribution, level or selection is received. -/
  | audioCell (port : Nat) (c : AudioCell)
  /-- `IP_PACKET_CELL` (R415): An IP packet cell is classified as an arrival on its port. -/
  | ipPacketCell (port : Nat) (d : Datagram)
  /-- `HELLO` (R416): A HELLO cell reports a peer's role, position and state. -/
  | hello (port : Nat) (words : List Word)
  /-- `TIME_CELL` (R419): A TIME cell gives a link's offset and delay. -/
  | timeCell (port : Nat) (words : List Word)
  /-- `GROUP_CELL` (R418): A GROUP cell carries the manager's lock-group settings. -/
  | groupCell (port : Nat) (words : List Word)
  /-- `HELLO_SEND` (R416): A HELLO is sent every 100 ms on each enabled port. -/
  | helloSend (port : Nat)
  /-- `TIME_CELL_SEND` (R416): A TIME cell is sent every 1 s on each port in SYNC. -/
  | timeCellSend (port : Nat)
  /-- `GROUP_CELL_SEND` (R416): The manager sends GROUP cells every 1 s. -/
  | groupCellSend
  /-- `MANAGER_PATH_LOST` (R420): A path to the manager lost for 10 ms suspends the member. -/
  | managerPathLost
  /-- `HEARTBEAT` (R423): A HEARTBEAT from the partner updates fitness, acknowledgements and time. -/
  | heartbeat (quoin : Bool) (words : List Word)
  /-- `HEARTBEAT_SEND` (R423): A HEARTBEAT is sent every 1 ms with mirrored counts. -/
  | heartbeatSend
  /-- `HEARTBEAT_LOSS` (R425): No heartbeat on either path for 10 ms raises trigger code 5. -/
  | heartbeatLoss
  /-- `MIRROR` (R422): The standby applies a MIRROR record in sequence. -/
  | mirror (seq kind index : Nat) (image : List Word)
  /-- `TAKEOVER` (R426): A TAKEOVER cell starts the standby's takeover. -/
  | takeover (code : Nat)
  /-- `TAKEOVER_ACK` (R426): A TAKEOVER_ACK answers TAKEOVER. -/
  | takeoverAck
  /-- `YIELD` (R428): A YIELD resolves dual active. -/
  | yield (takeoverNs : Nat)
  /-- `HOST_LINK_OUTAGE_TRIGGER` (R425): The host link out of ACTIVE for 20 ms raises trigger code 1. -/
  | hostLinkOutageTrigger
  /-- `SWITCH_POWERED` (R426): The taking-over module is powered, raises indices and becomes active. -/
  | switchPowered
  /-- `ADDRESS_ANNOUNCE` (R426): Gratuitous ARP and unsolicited NA are sent and repeated at +10 and +20 ms. -/
  | addressAnnounce
  /-- `SWITCH_COMPLETE` (R426): Egress resumes on every leg and EVT_TWIN detail 5 is raised. -/
  | switchComplete
  /-- `SERVICE_ETHERNET_FRAME` (R430): A service Ethernet frame is received, filtered and handled. -/
  | serviceEthernetFrame (f : EthFrame)
  /-- `COLLISION` (R430): A collision backs off the transmission or drops it after 16 attempts. -/
  | collision (late : Bool)
  /-- `SPEED_POLICY_TIMER` (R430): 10 s of low use at 100 Mb/s restarts autonegotiation at 10 Mb/s. -/
  | speedPolicyTimer (util : Nat)
  /-- `TRANSCEIVER_HOT_PLUG` (R516): An SFP112 transceiver is inserted or removed. -/
  | transceiverHotPlug (port : Nat) (inserted : Bool) (mw : Nat)
  /-- `INPUT_POWER_APPLIED` (R434): The input passes 44 V; converters, oscillator and bank charge start. -/
  | inputPowerApplied (dv : Nat)
  /-- `BANK_CHARGED` (R435): The bank reaches 40 V; capacitance is measured and the save armed. -/
  | bankCharged (tUs : Nat)
  /-- `HOLDUP_CHARGE_TIMEOUT` (R436): The bank not at 40 V within 400 ms leaves the save disarmed. -/
  | holdupChargeTimeout
  /-- `CRYSTAL_STABLE` (R456): The crystal is judged stable and the PLLs start. -/
  | crystalStable
  /-- `CRYSTAL_TIMEOUT` (R456): No amplitude within 20 ms raises CPR_XTAL_FAILED. -/
  | crystalTimeout
  /-- `BOOT_ROM_HANDOFF` (R442): The boot ROM verifies a slot, programs and locks protection and jumps to firmware. -/
  | bootRomHandoff
  /-- `BOOT_WATCHDOG` (R443): No handoff within 5 s resets with cause 5. -/
  | bootWatchdog
  /-- `CONFIGURATION_CHOSEN` (R445): Firmware chooses the configuration slot or factory defaults. -/
  | configurationChosen
  /-- `DRAM_TRAINED` (R447): DRAM training completes and handoff and train-ready are set. -/
  | dramTrained (mask : Nat)
  /-- `MODULE_READY` (R448): Link up and PON, Course and twin done or timed out: the boot mode is entered and admission opens. -/
  | moduleReady
  /-- `INPUT_SAG` (R449): Input below 40 V for 1 µs starts the save on sag. -/
  | inputSag
  /-- `SAVE_MARKER_WRITTEN` (R455): The save's completion marker is written. -/
  | saveMarkerWritten
  /-- `BANK_ABORT_VOLTAGE` (R449): The bank at 30 V stops writing and shuts the converters down. -/
  | bankAbortVoltage
  /-- `INPUT_RETURN_HOLD` (R453): Input held 100 ms after a save resets with cause 8 or 2. -/
  | inputReturnHold
  /-- `INPUT_OVERVOLTAGE` (R512): Input above 60 V opens the input switch and starts the save. -/
  | inputOvervoltage
  /-- `OVERTEMPERATURE_TRIP` (R523): Junction at 115 °C opens the input switch and starts the save. -/
  | overtemperatureTrip
  /-- `POWER_WINDOW` (R48): Each 1 ms power average is checked; two over the maximum step down Gouge and Mallet. -/
  | powerWindow (dw : Nat)
  /-- `ADMISSION_RESUME` (R48): After 1 s at or below 95 % of maximum, admission resumes. -/
  | admissionResume
  /-- `LEVEL_CHANGE_COMPLETE` (R466): A performance-level glide completes. -/
  | levelChangeComplete (group : Nat)
  /-- `CLOCK_INPUT_STOPPED` (R459): A multiplexer input shows no edge for 160 ns and a forced recovery may follow. -/
  | clockInputStopped (input : Nat)
  /-- `SWITCH_STUCK_TIMEOUT` (R459): A switch not complete within 64 new-clock cycles raises CPR_SWITCH_STUCK. -/
  | switchStuckTimeout (mux : Nat)
  /-- `PLL_UNLOCK` (R460): A PLL loses lock: full reset or forced crystal and relock. -/
  | pllUnlock (p : Nat)
  /-- `PON_CLOCK_RETURN` (R460): The PON clock returns in SYNC and CMUX_7 switches back. -/
  | ponClockReturn
  /-- `DRAIN_END` (R468): A draining domain goes OFF when empty or at the 2 ms limit. -/
  | drainEnd (domain : Nat) (outstanding : List Nat)
  /-- `DOMAIN_POWERED` (R468): A powering domain becomes ON within 100 µs. -/
  | domainPowered (domain : Nat)
  /-- `HANDSHAKE_OVERRUN` (R463): A handshake request lost to an unfinished round trip sets the overrun bit. -/
  | handshakeOverrun (src dst : Nat)
  /-- `ENTRY_WINDOW_END` (R473): The sleep entry window ends; a present level wake wakes the module. -/
  | entryWindowEnd
  /-- `WAKE_EVENT` (R472): An enabled wake source wakes the module from a sleep state. -/
  | wakeEvent (source : Nat)
  /-- `WAKE_COMPLETE` (R473): Wake reverses entry and EVT_POWER detail 3 is raised. -/
  | wakeComplete
  /-- `EXPORT_RECORD_SEND` (R273): An export sends its next record as host-link credits allow. -/
  | exportRecordSend (n : Nat)
  /-- `REPLAY_RECORD_SEND` (R274): A replay sends its next record at its launch offset. -/
  | replayRecordSend (n : Nat)
  /-- `SIDEBAND_PROTOCOL_START` (R312): Within 20 ms after the input passes 44 V the sideband protocol starts, the link enters SIDEBAND_UP and the bootstrap responder answers. -/
  | sidebandProtocolStart
  /-- `COURSE_SYNC_TIMEOUT` (R432): A Course port that has not reached SYNC within 100 ms after enable raises fault 0x4002 CTI_LOF. -/
  | courseSyncTimeout (port : Nat)
  /-- `FULL_RESYNCHRONISATION_DONE` (R422): A full resynchronisation of the standby's mirror ends and the standby may become fit again. -/
  | fullResynchronisationDone
  /-- `SERVICE_ETHERNET_LINK_CHANGE` (R430): The service Ethernet link comes up at a negotiated speed, or goes down. -/
  | serviceEthernetLinkChange (up fast : Bool)
  /-- `FRAME_BECOMES_ELIGIBLE` (R385): A leg, service or port bucket refills enough that a waiting head frame on an unpaced port becomes eligible and is served. -/
  | frameBecomesEligible (port : Nat)
  /-- `PULSE_WIDTH_EXPIRY` (R381): A 1PPS output pulse ends after 1 ms, or an EVT output pulse ends after its set pulse width, and the pin returns to rest. -/
  | pulseWidthExpiry (which : Nat)
deriving DecidableEq, Repr

end Sys2Proof
end

