-- ==== Sys2Proof/Decode.lean ====
section
/-!
DEFINITION. Table words: the opcode table gives no row any bits, so no word spells a command.
-/

namespace Sys2Proof

/-- The command a word spells by the table's bits. spec/opcode_table.json gives no row any field, so a word spells none
(log 5). -/
def decodeTableWord (_nbits _w : Nat) : Option Instr := none

end Sys2Proof
end

