-- ==== Sys2Proof/Machine/Hash.lean ====
section
/-!
DEFINITION. Checks and digests: CRC-8 (R313), CRC-32C (R325), SHA-256 and HMAC-SHA-256 (R338, R355), all over lists of
bytes, and the little-endian byte helpers they share.
-/

namespace Sys2Proof.Machine

/-- The four bytes of a word, least significant first (R9). -/
def wordBytes (w : Word) : List Byte :=
  [w.extractLsb' 0 8, w.extractLsb' 8 8, w.extractLsb' 16 8, w.extractLsb' 24 8]

/-- The bytes of a list of words, each little-endian. -/
def wordsBytes (ws : List Word) : List Byte := ws.flatMap wordBytes

/-- The n bytes of a number, least significant first (R9). -/
def leBytes : Nat → Nat → List Nat
  | 0, _ => []
  | n + 1, v => v % 256 :: leBytes n (v / 256)

/-- The little-endian word of up to four bytes. -/
def bytesWord : List Byte → Word
  | [] => 0
  | b :: bs => (bytesWord bs <<< 8) ||| b.zeroExtend 32

/-- The words of a list of bytes, four bytes each, the last padded with zeros. -/
def bytesWords : List Byte → List Word
  | [] => []
  | [a] => [bytesWord [a]]
  | [a, b] => [bytesWord [a, b]]
  | [a, b, c] => [bytesWord [a, b, c]]
  | a :: b :: c :: d :: rest => bytesWord [a, b, c, d] :: bytesWords rest

/-- One step of an MSB-first CRC-8 with polynomial 0x07 (R313). -/
def crc8Bits : Nat → Byte → Byte
  | 0, c => c
  | n + 1, c => crc8Bits n (if c.msb then (c <<< 1) ^^^ 0x07 else c <<< 1)

/-- CRC-8 of a list of bytes (R313). -/
def crc8 (bs : List Byte) : Byte := bs.foldl (fun c b => crc8Bits 8 (c ^^^ b)) 0

/-- One reflected CRC-32C step, n bits. -/
def crc32cBits : Nat → Word → Word
  | 0, c => c
  | n + 1, c => crc32cBits n (if c.getLsbD 0 then (c >>> 1) ^^^ 0x82F63B78 else c >>> 1)

/-- CRC-32C: polynomial 0x1EDC6F41 reflected, initial value and final exclusive-or 0xFFFF_FFFF (R325). -/
def crc32c (bs : List Byte) : Word :=
  (bs.foldl (fun c b => crc32cBits 8 (c ^^^ b.zeroExtend 32)) 0xFFFFFFFF) ^^^ 0xFFFFFFFF

/-- SHA-256 round constants. -/
def shaK : List Word :=
  [0x428a2f98, 0x71374491, 0xb5c0fbcf, 0xe9b5dba5, 0x3956c25b, 0x59f111f1, 0x923f82a4, 0xab1c5ed5] ++
  [0xd807aa98, 0x12835b01, 0x243185be, 0x550c7dc3, 0x72be5d74, 0x80deb1fe, 0x9bdc06a7, 0xc19bf174] ++
  [0xe49b69c1, 0xefbe4786, 0x0fc19dc6, 0x240ca1cc, 0x2de92c6f, 0x4a7484aa, 0x5cb0a9dc, 0x76f988da] ++
  [0x983e5152, 0xa831c66d, 0xb00327c8, 0xbf597fc7, 0xc6e00bf3, 0xd5a79147, 0x06ca6351, 0x14292967] ++
  [0x27b70a85, 0x2e1b2138, 0x4d2c6dfc, 0x53380d13, 0x650a7354, 0x766a0abb, 0x81c2c92e, 0x92722c85] ++
  [0xa2bfe8a1, 0xa81a664b, 0xc24b8b70, 0xc76c51a3, 0xd192e819, 0xd6990624, 0xf40e3585, 0x106aa070] ++
  [0x19a4c116, 0x1e376c08, 0x2748774c, 0x34b0bcb5, 0x391c0cb3, 0x4ed8aa4a, 0x5b9cca4f, 0x682e6ff3] ++
  [0x748f82ee, 0x78a5636f, 0x84c87814, 0x8cc70208, 0x90befffa, 0xa4506ceb, 0xbef9a3f7, 0xc67178f2]

/-- SHA-256 initial digest words. -/
def shaInit : List Word :=
  [0x6a09e667, 0xbb67ae85, 0x3c6ef372, 0xa54ff53a, 0x510e527f, 0x9b05688c, 0x1f83d9ab, 0x5be0cd19]

/-- SHA-256 message schedule: extends the window of the last 16 words by n words. -/
def shaExtend : Nat → List Word → List Word
  | 0, _ => []
  | n + 1, w =>
    let x15 := w.getD 1 0
    let x2 := w.getD 14 0
    let s0 := x15.rotateRight 7 ^^^ x15.rotateRight 18 ^^^ (x15 >>> 3)
    let s1 := x2.rotateRight 17 ^^^ x2.rotateRight 19 ^^^ (x2 >>> 10)
    let x := w.getD 0 0 + s0 + w.getD 9 0 + s1
    x :: shaExtend n (w.drop 1 ++ [x])

/-- One SHA-256 round over the digest words a-h. -/
def shaRound (h : List Word) (kw : Word × Word) : List Word :=
  match h with
  | [a, b, c, d, e, f, g, hh] =>
    let s1 := e.rotateRight 6 ^^^ e.rotateRight 11 ^^^ e.rotateRight 25
    let ch := (e &&& f) ^^^ (~~~e &&& g)
    let t1 := hh + s1 + ch + kw.1 + kw.2
    let s0 := a.rotateRight 2 ^^^ a.rotateRight 13 ^^^ a.rotateRight 22
    let maj := (a &&& b) ^^^ (a &&& c) ^^^ (b &&& c)
    [t1 + s0 + maj, a, b, c, d + t1, e, f, g]
  | _ => h

/-- A big-endian word of four bytes. -/
def beWord (bs : List Byte) : Word := bytesWord bs.reverse

/-- Splits bytes into n big-endian words. -/
def beWords : Nat → List Byte → List Word
  | 0, _ => []
  | n + 1, bs => beWord (bs.take 4) :: beWords n (bs.drop 4)

/-- SHA-256 over n 64-byte blocks. -/
def shaBlocks : Nat → List Byte → List Word → List Word
  | 0, _, h => h
  | n + 1, bs, h =>
    let w := beWords 16 bs
    let h' := (shaK.zip (w ++ shaExtend 48 w)).foldl shaRound h
    shaBlocks n (bs.drop 64) (List.zipWith (· + ·) h h')

/-- The padding of a SHA-256 message of n bytes. -/
def shaPad (n : Nat) : List Byte :=
  0x80 :: (List.replicate ((119 - n % 64) % 64) 0 ++ ([0, 0, 0, 0] ++ (wordBytes (BitVec.ofNat 32 (8 * n))).reverse))

/-- SHA-256 of a list of bytes, as 32 bytes. -/
def sha256 (bs : List Byte) : List Byte :=
  let m := bs ++ shaPad bs.length
  (shaBlocks (m.length / 64) m shaInit).flatMap fun w => (wordBytes w).reverse

/-- HMAC-SHA-256 (R338). -/
def hmacSha256 (key msg : List Byte) : List Byte :=
  let k := if key.length > 64 then sha256 key else key
  let k := k ++ List.replicate (64 - k.length) 0
  sha256 (k.map (· ^^^ 0x5c) ++ sha256 (k.map (· ^^^ 0x36) ++ msg))

end Sys2Proof.Machine
end

