-- ==== Sys2Proof/Config.lean ====
section
/-!
DEFINITION. What an implementation fixes and what the specification leaves open: constants with no body, so that nothing can
be proved about their values.
-/

namespace Sys2Proof.Config

/-- Free values: the n-th value drawn wherever the specification gives a result no value (log 4). -/
opaque freeValue : Nat → BitVec 64

/-- SYS_REV: hardware revision and boot ROM version, per silicon (R495). -/
opaque sysRev : Word

/-- Block version of a subsystem, per silicon (R494). -/
opaque blockVersion : Nat → Word

/-- Vendor-specific serial number (R288, R495). -/
opaque serialNumber : Word

/-- FACTORY trim of the always-on oscillator, in 25 ppm steps (R445). -/
opaque factoryTrim : Int

/-- Whether an image's trailer holds the key whose hash was fused at manufacture, with a signature that verifies (R441). -/
opaque imageSigned : List Byte → Bool

/-- The fabric address by which Keystone reaches a register, for the registers whose accesses pass the protection unit (R40). -/
opaque registerFabric : Nat → Option Nat

/-- The control core that performs a command's register accesses, modulo 16 (R40, R266). -/
opaque commandCore : Nat

/-- CNAME that the host has set for a leg: no command of the specification carries it (R68). -/
opaque legCname : Nat → List Byte

/-- Address in working memory of a Ledger entry that is not cached (R72). -/
opaque ledgerAddress : Nat → Nat

/-- PLL settings that the boot ROM writes (R497). -/
opaque pllConfig : Nat → Word

/-- The IP addresses the module owns, by local address index: IPv6 or not, and its words. No command of the specification sets them
(00 scope, R62). -/
opaque ownedAddress : Nat → Option (Bool × List Word)

/-- The ports that hold an owned address, by local address index (R426). -/
opaque addressPorts : Nat → List Nat

/-- RFC 3394 wrapping of key words under a key-encryption key, inside CPE (R364). -/
opaque keyWrap : List Word → List Word → List Word

/-- RFC 3394 unwrapping: none when the integrity check fails (R364). -/
opaque keyUnwrap : List Word → List Word → Option (List Word)

/-- The key-encryption key that the PON standard derives from the Registration ID and the pre-shared key (R295). -/
opaque ponKek : List Word → Option (List Word) → List Word

/-- The answer to the OLT's challenge in mutual authentication, from the pre-shared key, the OLT's challenge and the module's own (R297). -/
opaque ponAnswer : List Word → List Word → List Word → List Word

/-- The bridge core on which a stream is decoded (R96, R486). -/
opaque decodeCore : Nat → Nat

/-- The fault code of an illegal instruction or access of a customer core: the catalogue names none (R128, R482). -/
opaque programFault : Nat

/-- The post-modify register of a sta instruction (R134). -/
opaque staModifier : BitVec 64 → Nat

/-- The register class that a movi's field d names (R134). -/
opaque moviClass : Nat → Nat

/-- The register that a mov writes: class and index (R134). -/
opaque movDest : BitVec 64 → Nat × Nat

/-- The register that a mov reads: class and index (R134). -/
opaque movSource : BitVec 64 → Nat × Nat

/-- The last instruction of a loop's body, from the loop's word and its index (R134). -/
opaque loopEnd : BitVec 64 → Nat → Nat

/-- Whether branch offsets count from the branch (0) or from the instruction after it (1) (R133). -/
opaque branchBase : Nat

/-- Pictures of the decoded picture buffer that a context's level requires, by codec, width and height (R170). -/
opaque dpbPictures : Nat → Nat → Nat → Nat

/-- How a decoded frame is laid out and what of it was lost (R149, R161). -/
structure FrameInfo where
  /-- Coded width and height in luma samples. -/
  w : Nat
  h : Nat
  /-- Place of the output's first sample in the coded frame. -/
  cx : Nat
  cy : Nat
  depth : Nat
  mono : Bool
  intra : Bool
  /-- Concealed 16×16 blocks, in raster order. -/
  lost : List Nat
deriving DecidableEq, Repr

/-- The content of a decoded frame: mid-grey where there is none, what the coded data gives, or that with its concealed blocks taken from an
earlier frame (R161, R164). -/
inductive Img
  | grey (depth : Nat)
  | coded (token : BitVec 64) (info : FrameInfo)
  | mended (token : BitVec 64) (info : FrameInfo) (earlier : Img)
deriving DecidableEq, Repr

/-- What a frame's coded data decodes to: codec, the content of its packets and its references (R149). -/
opaque frameToken : Nat → List Nat → List Img → BitVec 64

/-- A sample of what coded data decodes to: plane (0 Y, 1 Cb, 2 Cr), column and row of the coded frame (R149). -/
opaque codedSample : BitVec 64 → Nat → Nat → Nat → Nat

/-- The motion vector of a decoded 16×16 block in 1/16 of a luma sample (R161). -/
opaque blockVector : BitVec 64 → Nat → Int × Int

/-- An interpolated luma sample of a reference at a place in 1/8 of a sample, by the codec's filters, from its whole samples (R184). -/
opaque subPel : Nat → (Int → Int → Nat) → Int → Int → Nat

/-- Samples by which a codec's reference pictures are padded on each side (R184). -/
opaque refPadding : Nat → Nat

/-- λ of a codec at a quantiser (R183). -/
opaque lambda : Nat → Int → Nat

/-- Cost of coding a vector in 1/8 of a sample, by codec (R183). -/
opaque vectorCost : Nat → Int × Int → Nat

/-- What an encoder's picture reconstructs to: codec, the depth of mode decision and the in-loop filters of the effort, luma samples of its
source, quantisers of its rows and its references (R182, R191). -/
opaque reconToken : Nat → Nat × Nat → List Nat → List Int → List (BitVec 64) → BitVec 64

/-- A reconstructed picture at the size of the spatial layer above it, for inter-layer prediction (R181). -/
opaque upscaled : BitVec 64 → BitVec 64

/-- A luma sample of a reconstructed picture (R184). -/
opaque reconSample : BitVec 64 → Nat → Nat → Nat

/-- The entropy coder's state after a row: the state before it, its quantiser and its bits (R190). -/
opaque entropyNext : BitVec 64 → Int → Nat → BitVec 64

/-- Payload bytes of the parameter sets ahead of a key picture, by codec, before the limit of the maximum payload (R179). -/
opaque paramBytes : Nat → Nat

/-- Data bytes of a dependency descriptor, without and with the template structure, and of a frame marking extension (R179). -/
opaque descriptorBytes : Bool → Nat

/-- Data bytes of a frame marking extension (R179). -/
opaque markingBytes : Nat

/-- Taps of the polyphase bridges in Q2.30: bridge 0 F-W and 1 W-N, and a place from the end to the middle of its linear-phase
impulse response (R91). -/
opaque bridgeTap : Nat → Nat → Int

/-- The 24-bit sample of an exact result that 24 bits cannot hold, where the specification names no saturation (R91, R115). -/
opaque outsideSample : Int → BitVec 24

/-- A decoder's state after a packet, from its codec, its state, the length in ms of the gap before the packet and the packet's
content (R92, R96). -/
opaque decoderNext : Nat → BitVec 64 → Nat → Nat → BitVec 64

/-- A sample that a decoder delivers: codec, domain, the decoder's state, the gap before the packet in ms, the packet's content and the
sample's place (R92). -/
opaque decodedSample : Nat → Nat → BitVec 64 → Nat → Nat → Nat → BitVec 24

/-- A sample decoded from in-band FEC data: domain, the decoder's state, the content of the packet that carries it, and the sample's place
before that packet (R95). -/
opaque fecSample : Nat → BitVec 64 → Nat → Nat → BitVec 24

/-- A sample of Opus packet-loss concealment: domain, the decoder's state, ms since the gap began and the sample's place (R95). -/
opaque plcSample : Nat → BitVec 64 → Nat → Nat → BitVec 24

/-- An encoder's settings: codec, domain, bitrate, complexity and in-band FEC (R92, R110). -/
abbrev EncSettings := Nat × Nat × Nat × Nat × Bool

/-- Payload bytes of an Opus frame, modulo 1275, from the encoder's settings, its state and its input (R92). -/
opaque opusBytes : EncSettings → BitVec 64 → List Int → Nat

/-- Content of an Opus or G.722 frame (R92). -/
opaque encodedData : EncSettings → BitVec 64 → List Int → Nat

/-- An encoder's state after a frame (R92, R113). -/
opaque encoderNext : EncSettings → BitVec 64 → List Int → BitVec 64

/-- Data byte of an element of a packet's header extension: SSRC, sequence number, element ID, index; only its low 8 bits count (R67, R270). -/
opaque extByte : Word → Nat → Nat → Nat → Nat

end Sys2Proof.Config
end

