-- ==== Sys2Proof/Machine/State.lean ====
section
/-!
DEFINITION. The state of the whole module as plain data: every register, table, queue, counter and mode the
specification names, the queue of waiting commands, the record of what the module has sent, and the reasons a run stops.
-/

namespace Sys2Proof.Machine

/-- Reasons the model stops with a fault. -/
inductive Fault
  /-- A DRAM read reaches a byte address of 2^41 or above, which does not exist
  (R254). Raised by DRAM_READ. Safe: the specification gives no such storage. -/
  | noSuchAddress (addr : Nat)
deriving DecidableEq, Repr

/-- Reasons the model refuses. -/
inductive Refusal
  /-- The command has no meaning in the model yet. Raised by arms of exec only. Safe: nothing is claimed. -/
  | notModelled (mnemonic : String)
deriving DecidableEq, Repr

/-- Command statuses (R339). -/
inductive Status
  | ok | accepted | badOpcode | badLength | badParam | badTarget | badCrc | resourceBusy | noCapacity | unavailable
  | modeForbids | staleSequence | keyExhausted | linebufShort | timeJumpRefused | locked | internalFault
deriving DecidableEq, Repr, Inhabited

/-- The status code of R339. -/
def Status.code : Status → Nat
  | .ok => 0x0000
  | .accepted => 0x0001
  | .badOpcode => 0x0100
  | .badLength => 0x0101
  | .badParam => 0x0102
  | .badTarget => 0x0103
  | .badCrc => 0x0104
  | .resourceBusy => 0x0200
  | .noCapacity => 0x0201
  | .unavailable => 0x0202
  | .modeForbids => 0x0203
  | .staleSequence => 0x0300
  | .keyExhausted => 0x0301
  | .linebufShort => 0x0302
  | .timeJumpRefused => 0x0303
  | .locked => 0x0304
  | .internalFault => 0x0400

/-- The six modes (R41). -/
inductive Mode
  | converse | assembly | studio | frugal | shadow | service
deriving DecidableEq, Repr, Inhabited

/-- The mode code of R41. -/
def Mode.code : Mode → Nat
  | .converse => 0
  | .assembly => 1
  | .studio => 2
  | .frugal => 3
  | .shadow => 4
  | .service => 5

/-- Power-domain states (R468). -/
inductive DomState
  | on | draining | off | powering
deriving DecidableEq, Repr, Inhabited

/-- The state code of CPR_DOM_n (R498). -/
def DomState.code : DomState → Nat
  | .on => 0
  | .draining => 1
  | .off => 2
  | .powering => 3

/-- Stages of the boot (R447). -/
inductive BootStage
  /-- The boot ROM runs. -/
  | rom
  /-- The boot ROM found no bootable slot and stays in the bootstrap responder (R442). -/
  | romStopped
  /-- Firmware runs; the configuration is not chosen yet. -/
  | firmware
  /-- The configuration is chosen (R445). -/
  | configured
  /-- DRAM is trained and handoff and train-ready are set. -/
  | trained
deriving DecidableEq, Repr, Inhabited

/-- Host-link states (R314). -/
inductive LinkState
  | detect | power | sidebandUp | laneSync | equalize | fecLock | creditInit | active
deriving DecidableEq, Repr, Inhabited

/-- The state code of HLP_LINK (R499). -/
def LinkState.code : LinkState → Nat
  | .detect => 0
  | .power => 1
  | .sidebandUp => 2
  | .laneSync => 3
  | .equalize => 4
  | .fecLock => 5
  | .creditInit => 6
  | .active => 7

/-- Frame-sync states (R285, R413). -/
inductive SyncState
  | hunt | confirm1 | confirm2 | sync | syncMiss
deriving DecidableEq, Repr, Inhabited

/-- The state code in PON_STATUS and the CTI status registers (R308, R501). -/
def SyncState.code : SyncState → Nat
  | .hunt => 0
  | .confirm1 => 1
  | .confirm2 => 2
  | .sync => 3
  | .syncMiss => 4

/-- PON activation states (R289). -/
inductive ActState
  | o1 | o23 | o4 | o5 | o6 | o7
deriving DecidableEq, Repr, Inhabited

/-- Watchful-sleep states (R302). -/
inductive PonSleep
  | awakeHeld | awakeFree | watch | watchPeek | aware
deriving DecidableEq, Repr, Inhabited

/-- Time states (R373). -/
inductive TsuState
  | unset | tracking | holdover
deriving DecidableEq, Repr, Inhabited

/-- The state code of TSU_STATE (R502). -/
def TsuState.code : TsuState → Nat
  | .unset => 0
  | .tracking => 1
  | .holdover => 2

/-- Leg states other than FREE, which is absence from the table (R61). -/
inductive LegState
  | created | active | consentLost | deleting
deriving DecidableEq, Repr, Inhabited

/-- The state code of LEG_STATS word 0 and EVT_LEG; FREE is 0 (R88). -/
def LegState.code : LegState → Nat
  | .created => 1
  | .active => 2
  | .consentLost => 3
  | .deleting => 4

/-- Leg kinds (R58). -/
inductive LegKind
  | network | tree | producer
deriving DecidableEq, Repr, Inhabited

/-- SRTP key-slot states (R353). -/
inductive SlotState
  | empty | loaded | current | locked
deriving DecidableEq, Repr, Inhabited

/-- The state code of KEY_STATUS word 0 (R362). -/
def SlotState.code : SlotState → Nat
  | .empty => 0
  | .loaded => 1
  | .current => 2
  | .locked => 3

/-- What a frame queued in the shaper carries (R383). -/
inductive FrameKind
  | rtp | rtcp | stun | dtls | rtx | fec | cell | arp
deriving DecidableEq, Repr, Inhabited

/-- Thread states other than FREE, which is absence from the table (R397). -/
inductive ThrState
  | blocked | flowWait | ready | running
deriving DecidableEq, Repr, Inhabited

/-- States of a customer Mallet core (R128). -/
inductive CoreState
  | empty | loading | loaded | running | faulted
deriving DecidableEq, Repr, Inhabited

/-- The state code of AUD_PROGRAM_LOAD status (R145). -/
def CoreState.code : CoreState → Nat
  | .empty => 0
  | .loading => 1
  | .loaded => 2
  | .running => 3
  | .faulted => 4

/-- Decoder-context states other than FREE (R156). -/
inductive DecState
  | catchingUp | waitingRap | decoding | refused
deriving DecidableEq, Repr, Inhabited

/-- Encoder-context states other than FREE (R176). -/
inductive EncState
  | ready | encoding
deriving DecidableEq, Repr, Inhabited

/-- Phases of a repair job (R196). -/
inductive JobPhase
  | catchUp | encode | bridged
deriving DecidableEq, Repr, Inhabited

/-- States of the delay-gradient estimator (R236). -/
inductive GovState
  | normal | overuse | underuse
deriving DecidableEq, Repr, Inhabited

/-- A layer's settings: words 1-8 of LAYER_SET (R229). -/
abbrev LayerSet := List Word

/-- A reply or event packet as sent (R324, R331). -/
structure Packet where
  /-- event flag (R324). -/
  event : Bool := false
  /-- more parts follow (R324, R332). -/
  more : Bool := false
  /-- acknowledgement requested (R324). -/
  ackReq : Bool := false
  /-- opcode, or event code (R324, R334). -/
  opcode : Nat := 0
  /-- tag (R324). -/
  tag : Word := 0
  /-- status, in a reply; final status, in EVT_LONG_DONE (R324). -/
  status : Status := .ok
  /-- send sequence of the queue (R324). -/
  seq : Word := 0
  /-- payload words (R324). -/
  words : List Word := []
deriving DecidableEq, Repr, Inhabited

/-- A data frame to the host (R319). -/
structure DataFrame where
  /-- kind of the frame (R319). -/
  kind : Nat := 0
  /-- flags (R319). -/
  flags : Nat := 0
  /-- leg index of kind 0, channel tag of kinds 2 and 3 (R319). -/
  tag : Nat := 0
  /-- sequence, per kind and tag (R319). -/
  seq : Nat := 0
  /-- TSU time of the frame (R319). -/
  timeNs : Nat := 0
  /-- Payload length in bytes. -/
  len : Nat := 0
  /-- Flits of it already sent (R317). -/
  flits : Nat := 0
  /-- Payload: the bytes of a DTLS datagram or of a raw picture; of an IP packet its leg, SSRC and sequence, for its own bytes are
encrypted; of a Cairn record its header bytes, then the bytes of its part or the content of its packet. -/
  data : List Nat := []
deriving DecidableEq, Repr, Inhabited

/-- A command packet waiting in a command queue (R328): its opcode and its parsed packet. -/
structure QCmd where
  /-- opcode field (R324). -/
  op : Nat
  /-- refusal found at arrival, to be replied in command order (R329, R330). -/
  refused : Option Status
  /-- parsed packet (R324). -/
  cmd : Cmd
deriving DecidableEq, Repr

/-- QCmd at reset. -/
def QCmd.reset : QCmd where
  op := 0
  refused := none
  cmd := default

/-- The reply sent for the last accepted sequence, kept for a repeated sequence (R329). -/
structure SentReply where
  /-- opcode of the command (R331). -/
  op : Nat
  /-- tag of the command (R331). -/
  tag : Word
  /-- status (R331). -/
  status : Status
  /-- reply words (R331). -/
  words : List Word
deriving DecidableEq, Repr

/-- SentReply at reset. -/
def SentReply.reset : SentReply where
  op := 0
  tag := 0
  status := .ok
  words := []

/-- An event raised and not yet sent (R337). -/
structure EvRec where
  /-- event code (R334). -/
  code : Nat
  /-- command's tag, or event number (R324). -/
  tag : Word
  /-- final status for EVT_LONG_DONE (R324). -/
  status : Status
  /-- detail (R335). -/
  detail : Nat
  /-- words from word 1 (R335). -/
  words : List Word
deriving DecidableEq, Repr

/-- EvRec at reset. -/
def EvRec.reset : EvRec where
  code := 0
  tag := 0
  status := .ok
  detail := 0
  words := []

/-- A long operation outstanding on a queue (R333). -/
structure LongOp where
  /-- opcode (R333). -/
  op : Nat
  /-- tag (R333). -/
  tag : Word
  /-- which object of that opcode the operation works on (R333). -/
  key : Nat
deriving DecidableEq, Repr

/-- LongOp at reset. -/
def LongOp.reset : LongOp where
  op := 0
  tag := 0
  key := 0

/-- One command queue of one path (R327, R338) with its event store (R337). -/
structure CmdQ where
  /-- commands waiting (R327). -/
  waiting : List QCmd
  /-- a command started whose reply is still to come (TIME_STEP, PERF_LEVEL_SET) (R328). -/
  inService : Option QCmd
  /-- last sequence accepted; none right after CREDIT_INIT (R329). -/
  lastSeq : Option Word
  /-- last sequence accepted before the most recent link loss (R329, R342). -/
  seqBeforeLoss : Word
  /-- reply of the last accepted sequence (R329). -/
  lastReply : Option SentReply
  /-- module's send sequence (R329). -/
  sendSeq : Word
  /-- credits the host has advertised for this channel (R327). -/
  txCredits : Nat
  /-- replies, or their parts, waiting for a credit (R327). -/
  outReplies : List Packet
  /-- where the reply in progress goes on the backup path (R338). -/
  replyTo : Option (Addr × Nat)
  /-- event store, oldest first (R337). -/
  events : List EvRec
  /-- events lost since the previous delivered event (R335). -/
  lost : Nat
  /-- CPX_EVQ_LOST (R496). -/
  evLost : Nat
  /-- module's event number (R324). -/
  evNumber : Word
  /-- long operations outstanding (R333). -/
  longOps : List LongOp
  /-- family 0x0000 words 0-3 (R486). -/
  cntAccepted : Nat
  /-- family 0x0000 words 4-7 (R486). -/
  cntRefused : Nat
  /-- family 0x0000 words 8-11 (R486). -/
  cntRepeated : Nat
  /-- family 0x0000 words 12-15 (R486). -/
  cntDiscarded : Nat
  /-- sequence gaps counted (R329). -/
  gaps : Nat
deriving DecidableEq, Repr

/-- CmdQ at reset. -/
def CmdQ.reset : CmdQ where
  waiting := []
  inService := none
  lastSeq := none
  seqBeforeLoss := 0
  lastReply := none
  sendSeq := 0
  txCredits := 0
  outReplies := []
  replyTo := none
  events := []
  lost := 0
  evLost := 0
  evNumber := 0
  longOps := []
  cntAccepted := 0
  cntRefused := 0
  cntRepeated := 0
  cntDiscarded := 0
  gaps := 0

/-- One entry of the fault log (R483). -/
structure FaultEntry where
  /-- TSU time of the first occurrence (R483). -/
  timeNs : Nat
  /-- fault code (R483). -/
  code : Nat
  /-- flags bit 0 (R483). -/
  fatal : Bool
  /-- flags bit 1 (R483). -/
  restored : Bool
  /-- flags bit 2 (R483). -/
  unset : Bool
  /-- repeats folded (R483). -/
  repeats : Nat
  /-- entry number (R483). -/
  number : Nat
  /-- parameters (R479). -/
  params : List Word
  /-- always-on age reference of the first occurrence (R484). -/
  bornNs : Nat
deriving DecidableEq, Repr

/-- FaultEntry at reset. -/
def FaultEntry.reset : FaultEntry where
  timeNs := 0
  code := 0
  fatal := false
  restored := false
  unset := false
  repeats := 0
  number := 0
  params := []
  bornNs := 0

/-- One decision-trace record (R403). -/
structure TraceRec where
  /-- time (R403). -/
  timeNs : Nat
  /-- subsystem id (R403). -/
  sub : Nat
  /-- kind (R403). -/
  kind : Nat
  /-- core (R403). -/
  core : Nat
  /-- object (R403). -/
  object : Nat
  /-- flow (R403). -/
  flow : Nat
  /-- detail (R403). -/
  detail : Nat
deriving DecidableEq, Repr

/-- TraceRec at reset. -/
def TraceRec.reset : TraceRec where
  timeNs := 0
  sub := 0
  kind := 0
  core := 0
  object := 0
  flow := 0
  detail := 0

/-- A mirrored event the host has not acknowledged (R338). -/
structure BackupEvent where
  /-- queue (R338). -/
  queue : Nat
  /-- event code (R338). -/
  code : Nat
  /-- tag (R338). -/
  tag : Word
  /-- send sequence (R338). -/
  seq : Word
  /-- the packet sent (R338). -/
  packet : Packet
  /-- times sent again (R338). -/
  resends : Nat
  /-- when last sent (R338). -/
  sentNs : Nat
deriving DecidableEq, Repr

/-- BackupEvent at reset. -/
def BackupEvent.reset : BackupEvent where
  queue := 0
  code := 0
  tag := 0
  seq := 0
  packet := default
  resends := 0
  sentNs := 0

/-- Control complex (Keystone): command interpreter, queues, modes, faults, trace. -/
structure Cpx where
  /-- Q0-Q3 of the Yelheli Link, then Q0-Q3 of the backup path (R327, R338). -/
  queues : List CmdQ
  /-- event mask in force (0xFF at CREDIT_INIT) (R344). -/
  evMask : Nat
  /-- mirroring to the backup path (R344). -/
  mirror : Bool
  /-- backup path enabled (item 0x4010 as applied) (R338). -/
  backupOn : Bool
  /-- source of the latest datagram that passed its tag (R338). -/
  backupPeer : Option (Addr × Nat)
  /-- events sent on the backup path and not acknowledged (R338). -/
  backupUnacked : List BackupEvent
  /-- unacknowledged events counted as lost (R338). -/
  backupEventsLost : Nat
  /-- datagrams whose tag failed (R338). -/
  backupTagFails : Nat
  /-- mode in force (R41, R495). -/
  mode : Mode
  /-- mode SERVICE was entered from (R43, R56). -/
  base : Mode
  /-- pending mode (R52, R495). -/
  pending : Option Mode
  /-- TSU time of the pending boundary, or 0 (R342). -/
  pendingAt : Nat
  /-- ready (R448, R495). -/
  ready : Bool
  /-- fault log, newest first (always-on domain) (R483). -/
  faults : List FaultEntry
  /-- SYS_FAULT_NUM (R488, R495). -/
  faultNum : Nat
  /-- SYS_FAULT_LAST (always-on domain) (R488, R495). -/
  faultLast : Nat
  /-- <CODE>_HDR_FAULT of each subsystem (R494). -/
  hdrFault : List Nat
  /-- a fatal fault awaits its reset (R480). -/
  fatal : Bool
  /-- times of the cause-6 resets of the last hour (always-on domain) (R481, R495). -/
  cause6 : List Nat
  /-- ready withheld (R481, R495). -/
  held : Bool
  /-- a register write asked for the reset of cause 7, which follows its reply (R437). -/
  resetAsked : Bool
  /-- last reset cause (0: power-on) (R437, R495). -/
  resetCause : Nat
  /-- SYS_SCRATCH_n (R495). -/
  scratch : List Word
  /-- firmware started after a skipped slot (R443). -/
  fwFallback : Bool
  /-- firmware version running, 0 before firmware (R341). -/
  fwVersion : Word
  /-- firmware slot: 0 none, 1 FW_A, 2 FW_B (R341). -/
  fwSlot : Nat
  /-- configuration: 0 none, 1 CFG_A, 2 CFG_B, 3 factory defaults (R341). -/
  cfgSlot : Nat
  /-- trace subsystem mask (R508). -/
  traceMask : Nat
  /-- trace mode (R508). -/
  traceMode : Nat
  /-- trace buffer, oldest first (R346). -/
  trace : List TraceRec
  /-- records lost to wrap or refused when full (R508). -/
  traceLost : Nat
  /-- RESET_DOMAIN targets running: subsystem, instance (0xFFF whole) (R343). -/
  resetting : List (Nat × Nat)
  /-- LOOPBACK targets running (R346). -/
  loopbacks : List Nat
  /-- targets of loopbacks and the elapsed times at which their durations end (R346). -/
  loopEnds : List (Nat × Nat)
deriving DecidableEq, Repr

/-- Cpx at reset. -/
def Cpx.reset : Cpx where
  queues := List.replicate 8 CmdQ.reset
  evMask := 0xFF
  mirror := false
  backupOn := false
  backupPeer := none
  backupUnacked := []
  backupEventsLost := 0
  backupTagFails := 0
  mode := .converse
  base := .converse
  pending := none
  pendingAt := 0
  ready := false
  faults := []
  faultNum := 0
  faultLast := 0
  hdrFault := List.replicate 16 0
  fatal := false
  cause6 := []
  held := false
  resetAsked := false
  resetCause := 0
  scratch := List.replicate 16 0
  fwFallback := false
  fwVersion := 0
  fwSlot := 0
  cfgSlot := 0
  traceMask := 0
  traceMode := 0
  trace := []
  traceLost := 0
  resetting := []
  loopbacks := []
  loopEnds := []

/-- A firmware slot: header fields and image bytes (R439, R440). -/
structure FwSlot where
  /-- header valid (magic, header CRC, content CRC) (R439). -/
  hdr : Bool
  /-- sequence number (R439). -/
  seq : Word
  /-- content length (R439). -/
  length : Nat
  /-- bytes written in order (R438). -/
  content : List Byte
  /-- total image length of the write in progress (R345). -/
  total : Nat
deriving DecidableEq, Repr

/-- FwSlot at reset. -/
def FwSlot.reset : FwSlot where
  hdr := false
  seq := 0
  length := 0
  content := []
  total := 0

/-- A configuration slot (R439, R445). -/
structure CfgSlot where
  /-- header valid (R439). -/
  hdr : Bool
  /-- sequence number (R439). -/
  seq : Word
  /-- items (R438). -/
  items : Tbl (List Word)
deriving DecidableEq, Repr

/-- CfgSlot at reset. -/
def CfgSlot.reset : CfgSlot where
  hdr := false
  seq := 0
  items := []

/-- A performance-monitoring bin (R305, R306). -/
structure PmBin where
  /-- start (R308). -/
  start : Nat
  /-- day bin (R305). -/
  day : Bool
  /-- valid (R305). -/
  valid : Bool
  /-- partial (R305). -/
  part : Bool
  /-- suspect (R305). -/
  suspect : Bool
  /-- unaligned (R305). -/
  unaligned : Bool
  /-- seconds elapsed when closed (R308). -/
  elapsed : Nat
  /-- module-wide counters (R306). -/
  counters : List Nat
  /-- per-port counters (R306). -/
  ports : List (List Nat)
  /-- second of the bins at which it was opened (R305, R308). -/
  opened : Int
  /-- second of the bins at which it ends (R305). -/
  until_ : Int
deriving DecidableEq, Repr

/-- PmBin at reset. -/
def PmBin.reset : PmBin where
  start := 0
  day := false
  valid := false
  part := true
  suspect := false
  unaligned := true
  elapsed := 0
  counters := List.replicate 30 0
  ports := List.replicate 8 (List.replicate 6 0)
  opened := 0
  until_ := 900

/-- A save slot (R455). -/
structure SaveSlot where
  /-- header CRC passes (R455). -/
  hdr : Bool
  /-- save number (R455). -/
  number : Nat
  /-- TSU time of the trigger (R455). -/
  timeNs : Nat
  /-- 0 input, 1 POWER_LOSS (R455). -/
  trigger : Nat
  /-- capacitance below 2,400 uF (R455). -/
  capLow : Bool
  /-- capacitance used (R455). -/
  cap : Nat
  /-- bytes planned (R455). -/
  planned : Nat
  /-- directory: bytes of the items kept, in priority order (R455). -/
  dir : List Nat
  /-- bytes written (marker) (R455). -/
  written : Nat
  /-- completion marker present (R455). -/
  marker : Bool
  /-- items saved, bit k-1 for priority k (R446, R450). -/
  mask : Nat
  /-- item 1: staged configuration (R450). -/
  staged : Tbl (List Word)
  /-- item 2: fault log (R450). -/
  faults : List FaultEntry
  /-- item 2: undelivered events (R450). -/
  events : List EvRec
  /-- item 3: PM bins (R450). -/
  pm : List PmBin
  /-- item 4: roster summary as words (R454). -/
  roster : List Word
  /-- item 5: always-on trim (R450). -/
  aonTrim : Int
  /-- item 5: TSU_INCR (R450). -/
  incr : Word
  /-- bank voltage at the marker or abort, 0.1 V (R446). -/
  volts : Nat
  /-- save duration, us (R446). -/
  durUs : Nat
deriving DecidableEq, Repr

/-- SaveSlot at reset. -/
def SaveSlot.reset : SaveSlot where
  hdr := false
  number := 0
  timeNs := 0
  trigger := 0
  capLow := false
  cap := 0
  planned := 0
  dir := []
  written := 0
  marker := false
  mask := 0
  staged := []
  faults := []
  events := []
  pm := []
  roster := []
  aonTrim := 0
  incr := 0
  volts := 0
  durUs := 0

/-- The flash areas of R438. -/
structure Flash where
  /-- FW_A (R438). -/
  fwA : FwSlot
  /-- FW_B (R438). -/
  fwB : FwSlot
  /-- CFG_A (R438). -/
  cfgA : CfgSlot
  /-- CFG_B (R438). -/
  cfgB : CfgSlot
  /-- SAVE (R438). -/
  saves : List SaveSlot
  /-- a takeover was aborted by the last save (R429). -/
  takeoverLost : Bool
  /-- input was lost while the save was disarmed (cause 3 at the next boot) (R437, R453). -/
  lostDisarmed : Bool
  /-- reported-save log: last number recorded (R455). -/
  reported : Nat
  /-- vendor-specific serial number (FACTORY) (R288, R495). -/
  serial : Word
  /-- FACTORY trim of the always-on oscillator (R438, R445). -/
  factoryTrim : Int
  /-- staged configuration copy (DRAM) (R345). -/
  staged : Tbl (List Word)
  /-- committed configuration in force (R445). -/
  running : Tbl (List Word)
  /-- configuration sequence number (R341). -/
  cfgSeq : Word
  /-- IMAGE_COMMIT running: length, activate (R345). -/
  commitImage : Option (Nat × Bool)
  /-- configuration item 0x1001 (R446). -/
  bootReport : List Word
  /-- configuration items 0x1100-0x137F (R454). -/
  roster : List Word
  /-- consecutive boot-watchdog resets of FW_A, FW_B (always-on domain) (R443). -/
  attempts : Nat × Nat
deriving DecidableEq, Repr

/-- Flash at reset. -/
def Flash.reset : Flash where
  fwA := FwSlot.reset
  fwB := FwSlot.reset
  cfgA := CfgSlot.reset
  cfgB := CfgSlot.reset
  saves := List.replicate 4 SaveSlot.reset
  takeoverLost := false
  lostDisarmed := false
  reported := 0
  serial := Config.serialNumber
  factoryTrim := Config.factoryTrim
  staged := []
  running := []
  cfgSeq := 0
  commitImage := none
  bootReport := List.replicate 8 0
  roster := []
  attempts := (0, 0)

/-- A power domain of R467, R498. -/
structure Domain where
  /-- state (R468, R498). -/
  state : DomState
  /-- port fenced (R498). -/
  fenced : Bool
  /-- pads latched (R469, R498). -/
  latched : Bool
  /-- ABORTED completions at the last drain (R498). -/
  aborted : Nat
  /-- elapsed time at which the drain began (R468). -/
  drainNs : Nat
deriving DecidableEq, Repr

/-- Domain at reset. -/
def Domain.reset : Domain where
  state := .on
  fenced := false
  latched := false
  aborted := 0
  drainNs := 0

/-- Clock, Power and Reset. -/
structure Cpr where
  /-- converters on (R434). -/
  powered : Bool
  /-- CPR_INPUT.volts (R497). -/
  volts : Nat
  /-- 1 ms average input power (R497). -/
  power : Nat
  /-- CPR_HOLDUP_CAP.cap (R435, R497). -/
  cap : Nat
  /-- measurement done (R497). -/
  capValid : Bool
  /-- save armed (R436, R497). -/
  armed : Bool
  /-- CPR_HOLDUP_V (R497). -/
  bankV : Nat
  /-- CPR_HOLDUP_FAILED to be raised once firmware runs (R436). -/
  holdupFailed : Bool
  /-- CPR_HOLDUP_LOW to be raised once firmware runs (R436). -/
  holdupLow : Bool
  /-- permitted save size (R451). -/
  saveSize : Nat
  /-- always-on count since power-up (R456, R341). -/
  aonNs : Nat
  /-- always-on count at the last reset (SYS_UPTIME) (R495). -/
  resetNs : Nat
  /-- CPR_AON_TRIM.trim (R457, R497). -/
  aonTrim : Int
  /-- CPR_AON_TRIM.ref (R497). -/
  aonRef : Nat
  /-- trim held after 16 SOF misses (R320). -/
  trimHeld : Bool
  /-- the trim window contains a missed mark (R457). -/
  windowMissed : Bool
  /-- CPR_CLKMON_STATUS (R459, R497). -/
  stopped : List Bool
  /-- input in force of CMUX_0-8 (R458, R497). -/
  cmux : List Nat
  /-- switch stuck of CMUX_0-8 (R459, R497). -/
  stuck : List Bool
  /-- multiplexer switches in progress: mux, new input (R459). -/
  switching : List (Nat × Nat)
  /-- CPR_PLL_LOCK (R497). -/
  pllLock : List Bool
  /-- CPR_PLL_CFG_p (boot ROM's values) (R497). -/
  pllCfg : List Word
  /-- crystal judged stable (R456). -/
  crystal : Bool
  /-- crystal did not start (R456). -/
  crystalFailed : Bool
  /-- CPR_XING_OVERRUN (R463, R497). -/
  xing : List Bool
  /-- control level before S2 (R470). -/
  ctlBefore : Nat
  /-- control, Mallet, Gouge, Ashlar performance levels (R465, R497). -/
  levels : List Nat
  /-- level changes in progress: group, target level (R466). -/
  changing : List (Nat × Nat)
  /-- groups whose PERF_LEVEL_SET reply is to come: group, queue index (R475). -/
  perfReply : List (Nat × Nat)
  /-- Mallet stepped down (R48, R497). -/
  steppedM : Bool
  /-- Gouge stepped down (R48, R497). -/
  steppedG : Bool
  /-- consecutive 1 ms windows above the maximum (R48). -/
  overWindows : Nat
  /-- ms the average has stayed at or below 95 % (R48). -/
  coolMs : Nat
  /-- admission stopped by a step-down (R48). -/
  powerStop : Bool
  /-- sleep state in force S0-S3 (R470, R497). -/
  sleep : Nat
  /-- wake mask in force (R472, R497). -/
  wakeMask : Nat
  /-- sleep state being entered (R471). -/
  entering : Option Nat
  /-- entry window open (R471). -/
  window : Bool
  /-- wake source seen during entry (R474). -/
  wakeDue : Option Nat
  /-- wake running: state left, source bit (R473). -/
  waking : Option (Nat × Nat)
  /-- pads of the SYNC and EVT ring latched: bit 0 SYNC, bit 1 EVT (R469). -/
  ringPads : Nat
  /-- EVT_POWER detail 3 waiting for the link: state left, source, us (R473). -/
  woke : Option (Nat × Nat × Nat)
  /-- always-on count at the wake (R477). -/
  wakeNs : Nat
  /-- CPR_DOM_n (R467, R498). -/
  domains : List Domain
  /-- whole subsystems fenced (R25, R342). -/
  fencedSubs : List Nat
  /-- boot stage (R447). -/
  boot : BootStage
  /-- a save on sag has started (R449). -/
  saving : Bool
  /-- TSU time of the trigger (R455). -/
  saveNs : Nat
  /-- marker written (R449). -/
  saveDone : Bool
  /-- the bank reached 30.0 V (R449). -/
  saveAborted : Bool
  /-- input has returned to 44 V or above (R453). -/
  inputBack : Bool
  /-- input switch opened (R512, R523). -/
  switchOpen : Bool
  /-- junction trip holds the module off (R523). -/
  overtemp : Bool
  /-- family 0x1000 word 1: drains aborted (R486). -/
  drains : Nat
  /-- family 0x1000 word 0: crossing overruns (R486). -/
  overruns : Nat
  /-- family 0x1000 word 2: step-downs (R486). -/
  stepDowns : Nat
  /-- the last power-down saved on sag (boot report word 0 [9]) (R341). -/
  lastSaved : Bool
  /-- step 9 of bring-up (R448). -/
  bringNs : Nat
  /-- 400 ms have passed since the input passed 44 V (R436). -/
  holdDone : Bool
  /-- elapsed time of the boot ROM's handoff, from which the boot watchdog counts (R444). -/
  handNs : Nat
  /-- elapsed time at which the input came back during a save or after an abort (R453). -/
  backNs : Nat
  /-- elapsed time at which the window of the always-on trim began (R457). -/
  trimNs : Nat
  /-- elapsed time at which the 1 ms power window began (R48). -/
  powerNs : Nat
  /-- elapsed time at which the entry window opened (R471). -/
  windowNs : Nat
  /-- elapsed time at which each multiplexer's switch began (R459). -/
  switchNs : List Nat
deriving DecidableEq, Repr

/-- Cpr at reset. -/
def Cpr.reset : Cpr where
  powered := true
  volts := 480
  power := 0
  cap := 0
  capValid := false
  armed := false
  bankV := 0
  holdupFailed := false
  holdupLow := false
  saveSize := 0
  aonNs := 0
  resetNs := 0
  aonTrim := Config.factoryTrim
  aonRef := 0
  trimHeld := false
  windowMissed := false
  stopped := List.replicate 18 false
  cmux := [0, 0, 0, 0, 0, 0, 0, 0, 0]
  stuck := List.replicate 9 false
  switching := []
  pllLock := List.replicate 8 false
  pllCfg := (List.range 8).map Config.pllConfig
  crystal := false
  crystalFailed := false
  xing := List.replicate 14 false
  ctlBefore := 0
  levels := [0, 0, 0, 0]
  changing := []
  perfReply := []
  steppedM := false
  steppedG := false
  overWindows := 0
  coolMs := 0
  powerStop := false
  sleep := 0
  wakeMask := 0
  entering := none
  window := false
  wakeDue := none
  waking := none
  ringPads := 0
  woke := none
  wakeNs := 0
  domains := List.replicate 28 Domain.reset
  fencedSubs := []
  boot := .rom
  saving := false
  saveNs := 0
  saveDone := false
  saveAborted := false
  inputBack := false
  switchOpen := false
  overtemp := false
  drains := 0
  overruns := 0
  stepDowns := 0
  lastSaved := false
  bringNs := 0
  holdDone := false
  handNs := 0
  backNs := 0
  trimNs := 0
  powerNs := 0
  windowNs := 0
  switchNs := List.replicate 9 0

/-- A flit as sent, kept for replay (R316, R317). -/
structure Flit where
  /-- flit sequence (R316). -/
  seq : Nat
  /-- channel (R316). -/
  chan : Nat
  /-- times sent (R318). -/
  sends : Nat
deriving DecidableEq, Repr

/-- Flit at reset. -/
def Flit.reset : Flit where
  seq := 0
  chan := 0
  sends := 1

/-- Host Link Port. -/
structure Hlp where
  /-- HLP_CTRL.handoff (R499). -/
  handoff : Bool
  /-- HLP_CTRL.train_ready (R499). -/
  trainReady : Bool
  /-- HLP_LINK.state (reset value 2) (R314, R499). -/
  link : LinkState
  /-- 0 none, 1 x1, 2 x2, 3 x4 (R499). -/
  width : Nat
  /-- NRZ in use (R499). -/
  nrz : Bool
  /-- lanes in use (R499). -/
  lanes : Nat
  /-- HLP_LANE_POL.rx_inv (R499). -/
  rxInv : Nat
  /-- HLP_LANE_POL.tx_inv (R499). -/
  txInv : Nat
  /-- receive polarity in use since the last LANE_SYNC (R499). -/
  rxInvUse : Nat
  /-- transmit polarity in use since the last LANE_SYNC (R499). -/
  txInvUse : Nat
  /-- HLP_CNT_FEC_CORR ... HLP_CNT_SB_CRC (R323, R499). -/
  counters : List Nat
  /-- last HLP fault code (STATUS answer) (R313). -/
  lastFault : Nat
  /-- wake pending (STATUS answer) (R313). -/
  wakePending : Bool
  /-- full equalisation asked (R314). -/
  full : Bool
  /-- widest width in TRAIN: 0 x4, 1 x2, 2 x1 (R313). -/
  widest : Nat
  /-- lanes with symbol lock (R314). -/
  locked : Nat
  /-- lanes chosen for the width (R315). -/
  chosen : Nat
  /-- training has restarted in NRZ (R315). -/
  nrzTried : Bool
  /-- FEC_LOCK failures of this width (R314). -/
  fecFails : Nat
  /-- coefficients of the last equalisation held (R314). -/
  coeffs : Bool
  /-- the training running is a retrain (R318). -/
  retraining : Bool
  /-- next flit sequence to send (R316). -/
  txSeq : Nat
  /-- next flit sequence expected (R316). -/
  rxSeq : Nat
  /-- sequenced flits kept for replay (R317, R499). -/
  replay : List Flit
  /-- bytes of the frame being received on each channel (R316). -/
  assembly : List (List Byte)
  /-- credits the host has advertised on channels 0-5 (R317). -/
  chanCredits : List Nat
  /-- credits the module has advertised and not got back as packets (R317). -/
  rxCredits : List Nat
  /-- data-frame sequences (R319). -/
  frameSeq : Tbl Nat
  /-- data frames waiting for credits on channels 4 and 5 (R317). -/
  frameQueue : List DataFrame
  /-- consecutive missed SOF marks (R320). -/
  sofMisses : Nat
  /-- good marks since the hold (R320). -/
  sofSeen : Nat
  /-- uncorrectable codewords of the last 1 ms (R318). -/
  uncorr : List Nat
  /-- link out of ACTIVE for 20 ms already reported (R425). -/
  outage : Bool
  /-- when the training state was entered, ns of the always-on clock (R314). -/
  stateNs : Nat
  /-- elapsed time at which the link left ACTIVE (R425). -/
  outNs : Nat
deriving DecidableEq, Repr

/-- Hlp at reset. -/
def Hlp.reset : Hlp where
  handoff := false
  trainReady := false
  link := .sidebandUp
  width := 0
  nrz := false
  lanes := 0
  rxInv := 0
  txInv := 0
  rxInvUse := 0
  txInvUse := 0
  counters := List.replicate 9 0
  lastFault := 0
  wakePending := false
  full := true
  widest := 0
  locked := 0
  chosen := 0
  nrzTried := false
  fecFails := 0
  coeffs := false
  retraining := false
  txSeq := 0
  rxSeq := 0
  replay := []
  assembly := List.replicate 6 []
  chanCredits := [0, 0, 0, 0, 0, 0]
  rxCredits := [256, 256, 256, 256, 0, 0]
  frameSeq := []
  frameQueue := []
  sofMisses := 0
  sofSeen := 0
  uncorr := []
  outage := false
  stateNs := 0
  outNs := 0

/-- A downstream or Course receive path (R285, R413). -/
structure SyncPath where
  /-- sync state (R285). -/
  sync : SyncState
  /-- path hunted (R282). -/
  enabled : Bool
  /-- superframe or frame counter last adopted (R284). -/
  counter : Nat
  /-- consecutive misses (R285). -/
  misses : Nat
  /-- loss of sync declared (R284). -/
  lods : Bool
deriving DecidableEq, Repr

/-- SyncPath at reset. -/
def SyncPath.reset : SyncPath where
  sync := .hunt
  enabled := false
  counter := 0
  misses := 0
  lods := false

/-- A burst profile (R290). -/
structure Profile where
  /-- line rate (R290). -/
  rate : Nat
  /-- profile index (R290). -/
  index : Nat
  /-- preamble (R290). -/
  preamble : Nat
  /-- delimiter (R290). -/
  delimiter : Nat
  /-- FEC on (R290). -/
  fec : Bool
  /-- first frame whose BWmap may name it (R290). -/
  fromFrame : Nat
deriving DecidableEq, Repr

/-- Profile at reset. -/
def Profile.reset : Profile where
  rate := 0
  index := 0
  preamble := 0
  delimiter := 0
  fec := false
  fromFrame := 0

/-- What an RTCP packet that the module sends says (R68). -/
inductive RtcpBody
  /-- A sender report with its report blocks, and the SDES that follows it. -/
  | sr (ntpNs : Nat) (rtpTs : Word) (packets bytes : Nat) (blocks : List ReportBlock) (cname : List Byte)
  /-- A BYE. -/
  | bye
  /-- A generic NACK of one packet of a source. -/
  | nack (media : Word) (seq : Nat)
  /-- A PLI for a source. -/
  | pli (media : Word)
  /-- A FIR for a source. -/
  | fir (media : Word)
  /-- An RFC 8888 report on a source, made at a TSU time in ns: sequence numbers with their arrivals in TSU ns. -/
  | feedback (media : Word) (madeNs : Nat) (arrivals : List (Nat × Nat))
deriving DecidableEq, Repr

/-- A frame queued or launched (R383, R388). -/
structure Frame where
  /-- leg (R383). -/
  leg : Nat
  /-- egress port (R383). -/
  port : Nat
  /-- service (R383). -/
  service : Nat
  /-- counted length (R384). -/
  len : Nat
  /-- what it carries (R383). -/
  proto : FrameKind
  /-- output SSRC (R77). -/
  ssrc : Word
  /-- output sequence (R77). -/
  seq : BitVec 16
  /-- output timestamp (R77). -/
  ts : Word
  /-- output payload type (R77). -/
  pt : Nat
  /-- transport-wide sequence (R67). -/
  twcc : Nat
  /-- payload size before the cipher (R384). -/
  payload : Nat
  /-- buffer reference held (R28). -/
  buf : Option Nat
  /-- Ledger entry (R70). -/
  entry : Option Nat
  /-- key slot used (R352). -/
  slot : Option Nat
  /-- when queued (R391). -/
  queuedNs : Nat
  /-- launch time L of its producer (R390). -/
  launch : Option Nat
  /-- stamp on a paced port (R389). -/
  stamp : Nat
  /-- header extension elements written on egress: ID and data bytes (R67). -/
  exts : List (Nat × Nat)
  /-- audio level written in its extension (R67). -/
  level : Option Nat
  /-- bytes that pass the module untouched: a DTLS datagram (R63). -/
  data : List Nat
  /-- the RTP packet that it carries (R77, R179). -/
  pkt : Option RtpPkt
  /-- VLAN tags on it, outermost first: VID and PCP (R297, R384) (R297, R384). -/
  tags : List (Nat × Nat)
  /-- what an RTCP packet says (R68). -/
  rtcp : Option RtcpBody
deriving DecidableEq, Repr

/-- Frame at reset. -/
def Frame.reset : Frame where
  leg := 0
  port := 0
  service := 0
  len := 0
  proto := .rtp
  ssrc := 0
  seq := 0
  ts := 0
  pt := 0
  twcc := 0
  payload := 0
  buf := none
  entry := none
  slot := none
  queuedNs := 0
  launch := none
  stamp := 0
  exts := []
  level := none
  data := []
  pkt := none
  tags := []
  rtcp := none

/-- A grant that waits for its burst (R290, R292). -/
structure PonGrant where
  /-- bytes granted (R292). -/
  bytes : Nat
  /-- a buffer-status report is asked (R292). -/
  report : Bool
  /-- profile of its burst: that of the first grant (R290). -/
  profile : Nat
  /-- when its burst begins: the StartTime plus the equalisation delay, ns of the always-on clock (R292). -/
  dueNs : Nat
deriving DecidableEq, Repr

/-- PonGrant at reset. -/
def PonGrant.reset : PonGrant where
  bytes := 0
  report := false
  profile := 0
  dueNs := 0

/-- A PON port (R291, R500). -/
structure PonPort where
  /-- Alloc-ID, 0xFFFF none (R500). -/
  alloc : Nat
  /-- XGEM Port-ID, 0xFFFF none (R500). -/
  xgem : Nat
  /-- bytes granted in the last 1 s (R238). -/
  granted : List (Nat × Nat)
  /-- frames TSH released, waiting for grants (R292). -/
  queue : List Frame
  /-- grants waiting for their bursts (R292). -/
  grants : List PonGrant
  /-- bytes of the head frame already sent as fragments (R292). -/
  sentHead : Nat
  /-- last raise of PTU_ALLOC_UNCONFIGURED (R291). -/
  lastUnconf : Option Nat
deriving DecidableEq, Repr

/-- PonPort at reset. -/
def PonPort.reset : PonPort where
  alloc := 0xFFFF
  xgem := 0xFFFF
  granted := []
  queue := []
  grants := []
  sentHead := 0
  lastUnconf := none

/-- A relayed OMCI transaction (R300). -/
structure Relay where
  /-- transaction (R300). -/
  trans : Nat
  /-- class (R300). -/
  cls : Nat
  /-- when the host was asked, ns of the always-on clock (R300). -/
  startNs : Nat
deriving DecidableEq, Repr

/-- Relay at reset. -/
def Relay.reset : Relay where
  trans := 0
  cls := 0
  startNs := 0

/-- PON_SET_PROFILE settings (R308). -/
structure PonProfile where
  /-- rate policy (R282). -/
  policy : Nat
  /-- watchful sleep permitted (R302). -/
  sleepOk : Bool
  /-- T_eqd, 0 unknown (R301). -/
  teqd : Nat
  /-- k; 0 means 32,768 (R308). -/
  k : Nat
  /-- Registration ID (R288). -/
  regId : List Word
deriving DecidableEq, Repr

/-- PonProfile at reset. -/
def PonProfile.reset : PonProfile where
  policy := 0
  sleepOk := false
  teqd := 0
  k := 0
  regId := List.replicate 9 0

/-- PON Terminal Unit. -/
structure Ptu where
  /-- activation state (R289, R500). -/
  act : ActState
  /-- activated rate: 0 none, 1 50G-PON, 2 XGS-PON (R308). -/
  rate : Nat
  /-- rate of the last activation (R283). -/
  lastRate : Nat
  /-- 50G-PON receive path (R285). -/
  p50 : SyncPath
  /-- XGS-PON receive path (R285). -/
  pXgs : SyncPath
  /-- the 50G-PON path has confirmed no candidate for 1 s (R282). -/
  noCand50 : Bool
  /-- ONU-ID (R500). -/
  onuId : Nat
  /-- equalisation delay (R500). -/
  eqd : Nat
  /-- burst profiles (R290). -/
  profiles : List Profile
  /-- a Burst_Profile has been received since O1 (R289). -/
  profLearned : Bool
  /-- default Alloc-ID in force (equals the ONU-ID) (R291). -/
  defAlloc : Bool
  /-- PON ports 0-7 (R291). -/
  ports : List PonPort
  /-- received optical power (R500). -/
  rxPower : Word
  /-- transmitted optical power (R500). -/
  txPower : Word
  /-- upstream key index in use (R500). -/
  keyIdx : Nat
  /-- burst profile in use (R500). -/
  profUse : Nat
  /-- unicast keys held valid, indices 1 and 2 (R295). -/
  ukeys : List (Option (List Word))
  /-- broadcast keys held valid, indices 1 and 2 (R295). -/
  bkeys : List (Option (List Word))
  /-- TO1 running (R289). -/
  to1 : Bool
  /-- TO2 running (R289). -/
  to2 : Bool
  /-- 4 ms protection timer running (R304). -/
  prot : Bool
  /-- the trigger was raised in this LODS (R307). -/
  protFired : Bool
  /-- protection trigger armed (the default) (R304). -/
  armed : Bool
  /-- triggers raised (R308). -/
  triggers : Nat
  /-- triggers counted and not passed on (R304). -/
  trigCount : Nat
  /-- TSU time of the last trigger (R308). -/
  lastTrigNs : Nat
  /-- Alloc-IDs the OLT has assigned (R291). -/
  allocs : List Nat
  /-- grants of the default Alloc-ID waiting for their bursts (R292). -/
  defGrants : List PonGrant
  /-- since when seconds in O5 are uncounted, ns of the always-on clock (R306). -/
  o5Since : Nat
  /-- last second counted in counter 10 (R306). -/
  fecSec : Option Nat
  /-- time-of-day pairs for frames still to come: frame, instant (full TSU) (R301). -/
  todWait : List (Nat × Nat)
  /-- transmitter held off after a monitor trip (R294). -/
  txOff : Bool
  /-- transmitter on (R289). -/
  laser : Bool
  /-- dying-gasp indication set (R293). -/
  dyingGasp : Bool
  /-- Sleep_Allow ON (R302). -/
  sleepAllow : Bool
  /-- watchful-sleep state (R302). -/
  sleepSt : PonSleep
  /-- I_hold from the ME (R302). -/
  iHold : Nat
  /-- I_aware from the ME (R302). -/
  iAware : Nat
  /-- I_lowpower from the ME (R302). -/
  iLow : Nat
  /-- power level last asked by Change_Power_Level (R286). -/
  powerLevel : Nat
  /-- Registration ID in force since the last entry to O1 (R308). -/
  regInUse : List Word
  /-- running profile (R308). -/
  profile : PonProfile
  /-- time of day received (R308). -/
  todSeen : Bool
  /-- last offset of a time-of-day arrival (R308). -/
  lastTodOff : Int
  /-- captured starts of frames received in SYNC: path, counter, instant (R301). -/
  frames : List (Nat × Nat × Nat)
  /-- frames received (R284). -/
  frameNo : Nat
  /-- counters adopted after a mismatch in SYNC (R284). -/
  ctrAdopted : Nat
  /-- delegated OMCI classes, 0 unused (R300). -/
  delegated : List Nat
  /-- relayed transactions pending (R300). -/
  relays : List Relay
  /-- ONU data: MIB data sync (R297). -/
  mibSync : Nat
  /-- attributes of the managed entities, key class*65536+instance (R297). -/
  omci : Tbl (List Word)
  /-- unicast XGEM Port-IDs configured (R297). -/
  uniPorts : List Nat
  /-- multicast XGEM Port-IDs configured (R297). -/
  mcPorts : List Nat
  /-- reassembly buffers (R287). -/
  frag : List (Nat × Nat)
  /-- delineation lost until the next PHY frame (R287). -/
  wordLost : Bool
  /-- current 15-minute bin (R305). -/
  cur15 : PmBin
  /-- past 15-minute bins, newest first (R305). -/
  past15 : List PmBin
  /-- current day bin (R305). -/
  curDay : PmBin
  /-- past day bins, newest first (R305). -/
  pastDay : List PmBin
  /-- family 0x3000 (R486). -/
  total : List Nat
  /-- family 0x3001 (R486). -/
  portTotal : List (List Nat)
  /-- since when milliseconds in LODS are uncounted, ns of the always-on clock (R306). -/
  lodsSince : Nat
  /-- number of 15-minute bins closed (R309). -/
  binNo : Nat
  /-- when TO1 was started, ns (R289). -/
  to1Ns : Nat
  /-- when TO2 was started, ns (R289). -/
  to2Ns : Nat
  /-- when the 4 ms protection timer was started, ns (R304). -/
  protNs : Nat
  /-- when the 50G-PON path last confirmed a candidate, lost sync or began to hunt, ns (R282). -/
  confNs : Nat
  /-- when the sleep state was entered, ns (R302). -/
  sleepNs : Nat
  /-- when WATCH was entered or the last 1 ms tick came, ns (R302). -/
  peekNs : Nat
  /-- when the burst of the last grant with a StartTime begins, ns (R292). -/
  burstNs : Nat
  /-- profile of the burst of the last grant with a StartTime (R290). -/
  burstProf : Nat
  /-- Port-IDs whose fragment sequence is broken: what follows of it is discarded (R287). -/
  broken : List Nat
  /-- upstream PLOAM messages that wait for a burst of the default Alloc-ID: type, content (R291). -/
  ploamQ : List (Nat × List Word)
  /-- OMCI answers that wait for bursts of the default Alloc-ID: transaction, content (R291). -/
  omciQ : List (Nat × List Word)
  /-- bytes of the first OMCI answer already sent as fragments (R291, R292). -/
  omciHead : Nat
  /-- mutual authentication: the module's challenge and its answer to the OLT's (R297). -/
  auth : List Word
deriving DecidableEq, Repr

/-- Ptu at reset. -/
def Ptu.reset : Ptu where
  act := .o1
  rate := 0
  lastRate := 0
  p50 := { SyncPath.reset with enabled := true }
  pXgs := { SyncPath.reset with enabled := true }
  noCand50 := false
  onuId := 0xFFFF
  eqd := 0
  profiles := []
  profLearned := false
  defAlloc := false
  ports := List.replicate 8 PonPort.reset
  rxPower := 0
  txPower := 0
  keyIdx := 0
  profUse := 0
  ukeys := [none, none]
  bkeys := [none, none]
  to1 := false
  to2 := false
  prot := false
  protFired := false
  armed := true
  triggers := 0
  trigCount := 0
  lastTrigNs := 0
  allocs := []
  defGrants := []
  o5Since := 0
  fecSec := none
  todWait := []
  txOff := false
  laser := false
  dyingGasp := false
  sleepAllow := false
  sleepSt := .awakeHeld
  iHold := 0
  iAware := 0
  iLow := 0
  powerLevel := 0
  regInUse := List.replicate 9 0
  profile := PonProfile.reset
  todSeen := false
  lastTodOff := 0
  frames := []
  frameNo := 0
  ctrAdopted := 0
  delegated := List.replicate 16 0
  relays := []
  mibSync := 0
  omci := []
  uniPorts := []
  mcPorts := []
  frag := []
  wordLost := false
  cur15 := PmBin.reset
  past15 := []
  curDay := { PmBin.reset with day := true, until_ := 86400 }
  pastDay := []
  total := List.replicate 30 0
  portTotal := List.replicate 8 (List.replicate 6 0)
  lodsSince := 0
  binNo := 0
  to1Ns := 0
  to2Ns := 0
  protNs := 0
  confNs := 0
  sleepNs := 0
  peekNs := 0
  burstNs := 0
  burstProf := 0
  broken := []
  ploamQ := []
  omciQ := []
  omciHead := 0
  auth := []

/-- A Course port (0-3) or Quoin lane (4-5). -/
structure CtiPort where
  /-- enabled (R501). -/
  enabled : Bool
  /-- child side (R432). -/
  child : Bool
  /-- peer position (R501). -/
  peer : Nat
  /-- frame alignment state (R413). -/
  path : SyncPath
  /-- peer reports remote defect (R501). -/
  rdi : Bool
  /-- pointer in force (R501). -/
  ptr : Nat
  /-- consecutive frames whose pointer differed (R414). -/
  ptrDiff : Nat
  /-- pointer values that differed (R414). -/
  ptrDiffs : Nat
  /-- container in progress discarded (R414). -/
  contDrop : Bool
  /-- one-way delay (R501). -/
  delay : Nat
  /-- peer offset (R501). -/
  offset : Int
  /-- frame counters adopted that did not follow (R284). -/
  ctrAdopted : Nat
  /-- enabled and not yet in SYNC since (R432). -/
  syncWait : Bool
  /-- message sequence sent, cluster control (R416). -/
  txSeq : Nat
  /-- message sequence last received, cluster control (R416). -/
  rxSeq : Nat
  /-- containers sent whose departure was captured, latest first (R416). -/
  txTimes : List (Nat × Nat)
  /-- latest containers received and their arrivals, latest first (R416). -/
  rxTimes : List (Nat × Nat)
  /-- TSU time of the last HELLO sent (R416). -/
  helloNs : Nat
  /-- TSU time of the last TIME cell sent (R416). -/
  timeNs : Nat
  /-- LOF declarations (R432). -/
  lofs : Nat
  /-- justifications (R432). -/
  justs : Nat
  /-- justifications that read 3 (R412). -/
  invJust : Nat
  /-- pointer adoptions (R432). -/
  adopts : Nat
  /-- containers discarded (R432). -/
  contDisc : Nat
  /-- cells lost (R432). -/
  cellsLost : Nat
  /-- last HELLO of the peer (R416). -/
  hello : Option (List Word)
  /-- transceiver present and within 3.5 W (R516). -/
  plugged : Bool
  /-- elapsed time since which a port that was in SYNC has lost its frame (R413, R420). -/
  lostNs : Option Nat
  /-- elapsed time of the enable whose SYNC is awaited (R432). -/
  syncNs : Nat
deriving DecidableEq, Repr

/-- CtiPort at reset. -/
def CtiPort.reset : CtiPort where
  enabled := false
  child := false
  peer := 0
  path := SyncPath.reset
  rdi := false
  ptr := 0
  ptrDiff := 0
  ptrDiffs := 0
  contDrop := false
  delay := 0
  offset := 0
  ctrAdopted := 0
  syncWait := false
  txSeq := 0
  rxSeq := 0
  txTimes := []
  rxTimes := []
  helloNs := 0
  timeNs := 0
  lofs := 0
  justs := 0
  invJust := 0
  adopts := 0
  contDisc := 0
  cellsLost := 0
  hello := none
  plugged := true
  lostNs := none
  syncNs := 0

/-- A service Ethernet wake filter (R431). -/
structure WakeFilter where
  /-- enabled (R432). -/
  on : Bool
  /-- check value (R432). -/
  check : Nat
  /-- byte mask (R431). -/
  mask : List Word
deriving DecidableEq, Repr

/-- WakeFilter at reset. -/
def WakeFilter.reset : WakeFilter where
  on := false
  check := 0
  mask := [0, 0, 0, 0]

/-- Service Ethernet MAC. -/
structure SvcEth where
  /-- IPv4 address, 0 none (R432). -/
  ip4 : Word
  /-- IPv4 prefix length (R432). -/
  pfx4 : Nat
  /-- IPv6 address (R432). -/
  ip6 : List Word
  /-- IPv6 prefix length (R432). -/
  pfx6 : Nat
  /-- IPv4 gateway (R432). -/
  gw4 : Word
  /-- IPv6 gateway (R432). -/
  gw6 : List Word
  /-- VID, 0 untagged (R430). -/
  vid : Nat
  /-- PCP (R430). -/
  pcp : Nat
  /-- accept untagged (R430). -/
  untagged : Bool
  /-- speed policy (R432). -/
  policy : Nat
  /-- link up (R501). -/
  up : Bool
  /-- 100 Mb/s (R501). -/
  fast : Bool
  /-- advertised: 0 both, 1 100 Mb/s only, 2 10 Mb/s only (R430). -/
  advert : Nat
  /-- wake filters (R431). -/
  filters : List WakeFilter
  /-- transmit queue (R430). -/
  txq : List Frame
  /-- receive buffer occupied (R430). -/
  rxBytes : Nat
  /-- transmit attempts of the head frame (R430). -/
  attempts : Nat
  /-- back-off exponent (R430). -/
  backoff : Nat
  /-- frames sent ... heartbeats received (R432, R486). -/
  counters : List Nat
  /-- elapsed time since which transmit utilisation is watched at 100 Mb/s (R430). -/
  fastNs : Nat
deriving DecidableEq, Repr

/-- SvcEth at reset. -/
def SvcEth.reset : SvcEth where
  ip4 := 0
  pfx4 := 0
  ip6 := [0, 0, 0, 0]
  pfx6 := 0
  gw4 := 0
  gw6 := [0, 0, 0, 0]
  vid := 0
  pcp := 0
  untagged := true
  policy := 0
  up := false
  fast := false
  advert := 0
  filters := List.replicate 8 WakeFilter.reset
  txq := []
  rxBytes := 0
  attempts := 0
  backoff := 0
  counters := List.replicate 9 0
  fastNs := 0

/-- A lock group this module is a member of (R418). -/
structure LockGroup where
  /-- lock group (R418). -/
  group : Nat
  /-- conference (R418). -/
  conf : Nat
  /-- last GROUP cell of the manager (R416). -/
  settings : Option (List Word)
deriving DecidableEq, Repr

/-- LockGroup at reset. -/
def LockGroup.reset : LockGroup where
  group := 0
  conf := 0
  settings := none

/-- A MIRROR record (R422, R423). -/
structure MirrorRec where
  /-- sequence (R422). -/
  seq : Nat
  /-- object kind (R423). -/
  kind : Nat
  /-- object index (R423). -/
  index : Nat
  /-- object image (R423). -/
  image : List Word
deriving DecidableEq, Repr

/-- MirrorRec at reset. -/
def MirrorRec.reset : MirrorRec where
  seq := 0
  kind := 0
  index := 0
  image := []

/-- Cluster and Twin Interface. -/
structure Cti where
  /-- cluster role: 0 none, 1 manager, 2 worker (R408). -/
  role : Nat
  /-- position (R408). -/
  position : Nat
  /-- parent port (R432). -/
  parent : Nat
  /-- lock groups held (R418). -/
  groups : List LockGroup
  /-- TSU time of the last periodic GROUP cells (R416). -/
  groupNs : Nat
  /-- suspended from every lock group (R420). -/
  suspended : Bool
  /-- suspension cause (R420). -/
  cause : Nat
  /-- suspensions (R432). -/
  suspensions : Nat
  /-- consecutive offsets beyond 10 us (R420). -/
  badOffsets : Nat
  /-- consecutive offsets within 5 us (R420). -/
  goodOffsets : Nat
  /-- path to the manager lost (R420). -/
  pathLost : Bool
  /-- tree found invalid (R408). -/
  treeBad : Bool
  /-- COURSE_0-3, QUOIN_0-1 (R410). -/
  ports : List CtiPort
  /-- service Ethernet (R430). -/
  svc : SvcEth
  /-- twin role: 0 none, 1 active, 2 standby, 3 failed (R501). -/
  twin : Nat
  /-- pair formed (R421). -/
  paired : Bool
  /-- partner serial named (R421). -/
  partner : Word
  /-- preferred role (R432). -/
  prefer : Nat
  /-- TWIN_PAIR form running (R421). -/
  forming : Bool
  /-- partner heartbeat received within 10 ms (R501). -/
  heartbeat : Bool
  /-- last HEARTBEAT of the partner (R423). -/
  partnerHb : Option (List Word)
  /-- the five conditions of R424 (R424, R501). -/
  fit : Nat
  /-- last MIRROR sequence sent (R422). -/
  mirrorSent : Nat
  /-- last MIRROR sequence applied (R422). -/
  mirrorApplied : Nat
  /-- records applied (the mirrored objects) (R422). -/
  mirrorHeld : List MirrorRec
  /-- full resynchronisation running (R422). -/
  resync : Bool
  /-- twin-key fingerprints agree (R363). -/
  keyAgree : Bool
  /-- switch running: trigger code (R426). -/
  switching : Option Nat
  /-- TWIN_SWITCH forced (R425). -/
  switchForced : Bool
  /-- the switch is a planned TWIN_SWITCH (R427). -/
  switchPlanned : Bool
  /-- TSU time of T (R426). -/
  switchT : Nat
  /-- switches (R432). -/
  switches : Nat
  /-- TSU time of the last takeover (R423). -/
  takeoverNs : Nat
  /-- all egress stopped (R426). -/
  egressStopped : Bool
  /-- address announcements still to be made (R426). -/
  announce : Nat
  /-- last address announcement (R426). -/
  announceNs : Option Nat
  /-- takeovers that a save on the standby aborted, counted at the next boot (R429). -/
  abortedTakeover : Nat
  /-- twin control message sequence (R416). -/
  twinTxSeq : Nat
  /-- mode mirrored from the partner (R422). -/
  mirroredMode : Mode
  /-- MIRROR sequences known to be sent and not known to be applied, and since when (R424). -/
  mirrorTimes : List (Nat × Nat)
  /-- when the last full mirror was sent (R422). -/
  fullNs : Option Nat
  /-- last heartbeat on either path (R425). -/
  hbNs : Option Nat
  /-- last heartbeat on the Quoin link (R430, R374). -/
  quoinNs : Option Nat
  /-- last HEARTBEAT sent (R423). -/
  hbSentNs : Nat
  /-- last update given to time source 2 (R423). -/
  twinTimeNs : Nat
  /-- when TWIN_PAIR form started (R432). -/
  formNs : Nat
  /-- TWIN_SWITCH accepted and not yet acted on: forced (R432). -/
  switchAsk : Option Bool
  /-- this module is taking over (R426). -/
  taking : Bool
  /-- TAKEOVER_ACK received in this switch (R426). -/
  ackSeen : Bool
  /-- settings of lock groups that the manager has reported (R120, R416). -/
  reported : Tbl (List Word)
  /-- offset from the manager along the path, ns (R419, R432). -/
  mgrOffset : Int
  /-- one-way delay of the part of the path that this module does not see, ns (R419, R420). -/
  upDelay : Nat
  /-- the mode whose policies and capacities the mirrored mode applies (R56). -/
  mirroredBase : Mode
deriving DecidableEq, Repr

/-- Cti at reset. -/
def Cti.reset : Cti where
  role := 0
  position := 0
  parent := 0
  groups := []
  groupNs := 0
  suspended := false
  cause := 0
  suspensions := 0
  badOffsets := 0
  goodOffsets := 0
  pathLost := false
  treeBad := false
  ports := List.replicate 6 CtiPort.reset
  svc := SvcEth.reset
  twin := 0
  paired := false
  partner := 0
  prefer := 0
  forming := false
  heartbeat := false
  partnerHb := none
  fit := 0
  mirrorSent := 0
  mirrorApplied := 0
  mirrorHeld := []
  resync := false
  keyAgree := false
  switching := none
  switchForced := false
  switchPlanned := false
  switchT := 0
  switches := 0
  takeoverNs := 0
  egressStopped := false
  announce := 0
  announceNs := none
  abortedTakeover := 0
  twinTxSeq := 0
  mirroredMode := .converse
  mirrorTimes := []
  fullNs := none
  hbNs := none
  quoinNs := none
  hbSentNs := 0
  twinTimeNs := 0
  formNs := 0
  switchAsk := none
  taking := false
  ackSeen := false
  reported := []
  mgrOffset := 0
  upDelay := 0
  mirroredBase := .converse

/-- A launch comparator (R382, R503). -/
structure Cmp where
  /-- compare seconds word(s) (R503). -/
  sec : Nat
  /-- compare nanoseconds word (R503). -/
  ns : Nat
  /-- compare fraction (R503). -/
  frac : Nat
  /-- value in force while armed (R503). -/
  value : Nat
  /-- compare words written since armed (R503). -/
  dirty : Bool
  /-- armed (R503). -/
  armed : Bool
  /-- fired (R503). -/
  fired : Bool
  /-- 0 free, 1 host, 2 TSH, 3 CTI (3 for n 0-7) (R503). -/
  owner : Nat
deriving DecidableEq, Repr

/-- Cmp at reset. -/
def Cmp.reset : Cmp where
  sec := 0
  ns := 0
  frac := 0
  value := 0
  dirty := false
  armed := false
  fired := false
  owner := 0

/-- Latched words of one requester (R492). -/
structure TsuLatch where
  /-- control core or command path (R492). -/
  who : Nat
  /-- latched time (R492). -/
  time : Option Nat
  /-- latched comparator words (R492). -/
  cmp : List (Nat × Nat)
deriving DecidableEq, Repr

/-- TsuLatch at reset. -/
def TsuLatch.reset : TsuLatch where
  who := 0
  time := none
  cmp := []

/-- A step of time waiting for the next audio block boundary (R378). -/
structure StepReq where
  /-- Δ of the step (R378). -/
  delta : Int
  /-- function: 0-2 of TIME_STEP, 4 the first update from UNSET (R395). -/
  fn : Nat
  /-- queue whose TIME_STEP made it (R393). -/
  command : Option Nat
deriving DecidableEq, Repr

/-- StepReq at reset. -/
def StepReq.reset : StepReq where
  delta := 0
  fn := 0
  command := none

/-- Time and Sync Unit. -/
structure Tsu where
  /-- TSU time as one number of 2^-16 ns (R368). -/
  now : Nat
  /-- TSU_INCR (R502). -/
  incr : Nat
  /-- TSU_INCR_DITHER (R502). -/
  dither : Nat
  /-- dither accumulator (R369). -/
  acc : Nat
  /-- TSU_UTC_OFFSET (R370, R502). -/
  utcOff : Int
  /-- time state (R373, R502). -/
  state : TsuState
  /-- source in use, 3 none (R502). -/
  source : Nat
  /-- priority list (R375). -/
  prio : List Nat
  /-- SYNC function (R379, R502). -/
  syncFn : Nat
  /-- comparator named for the 1PPS output (R381). -/
  ppsCmp : Nat
  /-- sources qualified (R374). -/
  qualified : List Bool
  /-- trim (R376). -/
  trim : Int
  /-- slew (R376). -/
  slew : Int
  /-- offset still to be removed by the slew (R376). -/
  slewLeft : Int
  /-- time of the last accepted update (R376). -/
  lastAccept : Option Nat
  /-- offset of the last update judged (R393). -/
  lastOff : Int
  /-- updates accepted (R393). -/
  accepted : Nat
  /-- updates refused (R393). -/
  refused : Nat
  /-- updates of other sources counted (R375). -/
  ignored : Nat
  /-- last refused update (R377). -/
  lastRefused : Option (Nat × Int)
  /-- last EVT_TIME_JUMP detail 1 of each source (R377). -/
  refusedEvt : List (Nat × Nat)
  /-- jump threshold (R393). -/
  jump : Nat
  /-- late tolerance (R390). -/
  late : Nat
  /-- step waiting (R378). -/
  step : Option StepReq
  /-- updates held while the step from UNSET waits (R376). -/
  heldUpd : List (Nat × Nat × Nat)
  /-- comparators (R382). -/
  cmps : List Cmp
  /-- latched words (R492). -/
  latches : List TsuLatch
  /-- owner of SYNC (R476). -/
  syncOwner : Nat
  /-- owner of EVT (R476). -/
  evtOwner : Nat
  /-- EVT direction: output (R476). -/
  evtOut : Bool
  /-- EVT polarity: falling (R476). -/
  evtFall : Bool
  /-- EVT output comparator (R476). -/
  evtCmp : Nat
  /-- EVT pulse width (R476). -/
  evtWidth : Nat
  /-- EVT set up (R476). -/
  evtSet : Bool
  /-- EVT output active (R476). -/
  evtHigh : Bool
  /-- 1PPS output high (R381). -/
  ppsHigh : Bool
  /-- edges counted (R476). -/
  evtEdges : Nat
  /-- TSU time of the last edge (R476). -/
  evtLast : Nat
  /-- captures of the last 1PPS pulses (R374). -/
  ppsTimes : List Nat
  /-- captures 0.5 s or more from a whole second (R380). -/
  ppsBad : Nat
  /-- tick referred to the PON receive clock (R37, R376). -/
  ponRef : Bool
  /-- elapsed time of the last pair or pulse of each time source (R374). -/
  seenNs : List Nat
  /-- elapsed time at which the 1PPS output rose (R381). -/
  ppsRise : Nat
  /-- elapsed time at which the EVT output was driven active (R476). -/
  evtRise : Nat
deriving DecidableEq, Repr

/-- Tsu at reset. -/
def Tsu.reset : Tsu where
  now := 0
  incr := 0x00020000
  dither := 0
  acc := 0
  utcOff := 37
  state := .unset
  source := 3
  prio := [0, 1, 2]
  syncFn := 0
  ppsCmp := 8
  qualified := [false, false, false]
  trim := 0
  slew := 0
  slewLeft := 0
  lastAccept := none
  lastOff := 0
  accepted := 0
  refused := 0
  ignored := 0
  lastRefused := none
  refusedEvt := []
  jump := 1000
  late := 1000
  step := none
  heldUpd := []
  cmps := List.replicate 8 { Cmp.reset with owner := 3 } ++ List.replicate 56 Cmp.reset
  latches := []
  syncOwner := 0
  evtOwner := 0
  evtOut := false
  evtFall := false
  evtCmp := 0
  evtWidth := 0
  evtSet := false
  evtHigh := false
  ppsHigh := false
  evtEdges := 0
  evtLast := 0
  ppsTimes := []
  ppsBad := 0
  ponRef := false
  seenNs := List.replicate 3 0
  ppsRise := 0
  evtRise := 0

/-- A protection region (R266, R505). -/
structure Region where
  /-- base (R505). -/
  base : Nat
  /-- limit (R505). -/
  limit : Nat
  /-- master mask (R505). -/
  mask : Nat
  /-- read right (R505). -/
  rd : Bool
  /-- write right (R505). -/
  wr : Bool
  /-- enabled (R505). -/
  on : Bool
deriving DecidableEq, Repr

/-- Region at reset. -/
def Region.reset : Region where
  base := 0
  limit := 0
  mask := 0
  rd := false
  wr := false
  on := false

/-- a request that waits to be served (R24, R254, R261). -/
structure HeldReq where
  /-- place in the order in which requests were issued (R24). -/
  seq : Nat
  /-- TSU time of its arrival, in ns (R257). -/
  at_ : Nat
  /-- the request (R22). -/
  req : FabReq
deriving DecidableEq, Repr

/-- HeldReq at reset. -/
def HeldReq.reset : HeldReq where
  seq := 0
  at_ := 0
  req := {}

/-- a flit held in the replay buffer of a fabric link end until it is accepted (R18, R20). -/
structure ReplayFlit where
  /-- number of the flit at its sender (R20). -/
  number : Nat
  /-- arrivals of it that failed parity (R20). -/
  tries : Nat
  /-- it carries a reply (R20). -/
  reply : Bool
  /-- place of its request in the order in which requests were issued (R24). -/
  seq : Nat
  /-- its request (R22, R24, R26). -/
  req : FabReq
deriving DecidableEq, Repr

/-- ReplayFlit at reset. -/
def ReplayFlit.reset : ReplayFlit where
  number := 0
  tries := 0
  reply := false
  seq := 0
  req := {}

/-- A DRAM channel (R254, R504). -/
structure MemCh where
  /-- in service (R504). -/
  inService : Bool
  /-- self-refresh (R504). -/
  selfRef : Bool
  /-- doubled refresh (R504). -/
  doubled : Bool
  /-- recovered replays (R504). -/
  replays : Nat
  /-- poisoned reads (R504). -/
  poisons : Nat
  /-- retraining pauses run (R504). -/
  pauses : Nat
  /-- pauses discarded (R504). -/
  discards : Nat
  /-- consecutive discarded pauses (R262). -/
  discRow : Nat
  /-- error log: address, TSU seconds (R279). -/
  log : List (Nat × Nat)
  /-- requests that wait for the end of a pause, oldest first, at most 2,048 (R254, R257, R261). -/
  queue : List HeldReq
  /-- TSU time of the slot of its last pause, in ns (R261). -/
  lastSlot : Option Nat
  /-- TSU time at which it last came out of a pause or of self-refresh, in ns (R257, R261). -/
  openNs : Nat
  /-- its controller's clock is stopped (R263). -/
  stopped : Bool
deriving DecidableEq, Repr

/-- MemCh at reset. -/
def MemCh.reset : MemCh where
  inService := false
  selfRef := false
  doubled := false
  replays := 0
  poisons := 0
  pauses := 0
  discards := 0
  discRow := 0
  log := []
  queue := []
  lastSlot := none
  openNs := 0
  stopped := false

/-- An entry of a stream's index of random access points (R271). -/
structure RapEntry where
  /-- record number, counted since the ring was made (R271). -/
  number : Nat
  /-- TSU time (R271). -/
  timeNs : Nat
  /-- RTP timestamp (R271). -/
  ts : Word
  /-- 0 IDR, 1 IRAP, 2 key frame, 3 gradual-refresh start (R271). -/
  kind : Nat
  /-- ring whose record it is (R271). -/
  conf : Nat
  /-- segment of the record (R271). -/
  segment : Nat
  /-- offset of the record in its segment (R271). -/
  offset : Nat
deriving DecidableEq, Repr

/-- RapEntry at reset. -/
def RapEntry.reset : RapEntry where
  number := 0
  timeNs := 0
  ts := 0
  kind := 0
  conf := 0
  segment := 0
  offset := 0

/-- A Cairn record (R270). -/
structure CairnRec where
  /-- 0 packet, 1 raw first part, 2 pad, 3 raw later part (R270). -/
  kind : Nat
  /-- payload length (R270). -/
  length : Nat
  /-- stream, or canvas (R270). -/
  source : Nat
  /-- flags (R270). -/
  flags : Nat
  /-- temporal and spatial id (R270). -/
  layer : Nat
  /-- TSU time (R270). -/
  timeNs : Nat
  /-- sequence number, or part index (R270). -/
  seq : Nat
  /-- payload type (R270). -/
  pt : Nat
  /-- RTP timestamp, or whole length (R270). -/
  ts : Word
  /-- SSRC (R270). -/
  ssrc : Word
  /-- record number, counted since the ring was made; its header holds it modulo 2^32 (R270). -/
  number : Nat
  /-- segment it lies in, counted since the ring was made (R268). -/
  segment : Nat
  /-- the RTP packet stored (R270). -/
  pkt : Option RtpPkt
  /-- buffer whose append reference is held until the fabric accepts the write (R28). -/
  buf : Option Nat
  /-- byte offset of the record in its segment (R271). -/
  offset : Nat
  /-- payload bytes of a raw-picture part (R270). -/
  data : List Nat
  /-- elapsed time at which the append was handed to the fabric (R28). -/
  atNs : Nat
deriving DecidableEq, Repr

/-- CairnRec at reset. -/
def CairnRec.reset : CairnRec where
  kind := 0
  length := 0
  source := 0
  flags := 0
  layer := 0
  timeNs := 0
  seq := 0
  pt := 0
  ts := 0
  ssrc := 0
  number := 0
  segment := 0
  pkt := none
  buf := none
  offset := 0
  data := []
  atNs := 0

/-- A conference's Cairn ring (R268). -/
structure Ring where
  /-- size in segments of 1 MiB (R268). -/
  sizeMiB : Nat
  /-- retention (R268). -/
  retentionMs : Nat
  /-- records, oldest first (R268). -/
  recs : List CairnRec
  /-- next record number (R270). -/
  next : Nat
  /-- segment being written (R268). -/
  seg : Nat
  /-- bytes used of that segment (R270). -/
  used : Nat
  /-- oldest segment held (R268). -/
  first : Nat
  /-- append drops (R269). -/
  drops : Nat
  /-- early reclaims (R272). -/
  early : Nat
  /-- conference deleted, exports finishing (R275). -/
  closing : Bool
deriving DecidableEq, Repr

/-- Ring at reset. -/
def Ring.reset : Ring where
  sizeMiB := 0
  retentionMs := 15000
  recs := []
  next := 0
  seg := 0
  used := 0
  first := 0
  drops := 0
  early := 0
  closing := false

/-- An export (R273, R277). -/
structure Export where
  /-- conference (R277). -/
  conf : Nat
  /-- stream, 0xFFFF all (R277). -/
  stream : Nat
  /-- include raw pictures (R277). -/
  raw : Bool
  /-- start (R277). -/
  startNs : Nat
  /-- end (R277). -/
  endNs : Nat
  /-- host channel tag (R277). -/
  tag : Nat
  /-- next record number to read (R273). -/
  next : Nat
  /-- records sent (R277). -/
  sent : Nat
  /-- records skipped (R277). -/
  skipped : Nat
  /-- queue of its command (R333). -/
  q : Nat
  /-- running (R277). -/
  running : Bool
  /-- result, 15 running (R277). -/
  result : Nat
deriving DecidableEq, Repr

/-- Export at reset. -/
def Export.reset : Export where
  conf := 0
  stream := 0xFFFF
  raw := false
  startNs := 0
  endNs := 0
  tag := 0
  next := 0
  sent := 0
  skipped := 0
  q := 0
  running := true
  result := 15

/-- A replay (R274, R278). -/
structure Replay where
  /-- source stream (R278). -/
  source : Nat
  /-- target LOCAL stream (R278). -/
  target : Nat
  /-- launch time (R278). -/
  launchNs : Nat
  /-- conference whose ring it reads (R274). -/
  conf : Nat
  /-- next record number (R274). -/
  next : Nat
  /-- first record's time; none: no point to start at (R274). -/
  firstNs : Option Nat
  /-- sequence offset applied (R274). -/
  firstSeq : Word
  /-- timestamp offset applied (R274). -/
  tsOff : Word
  /-- packets sent (R278). -/
  sent : Nat
  /-- its stream was removed (R275). -/
  dropped : Bool
  /-- queue of its command (R333). -/
  q : Nat
  /-- running (R278). -/
  running : Bool
  /-- result (R278). -/
  result : Nat
  /-- a record that it had still to read was reclaimed (R274). -/
  lost : Bool
  /-- first record number after the removal of its stream (R275). -/
  limit : Nat
deriving DecidableEq, Repr

/-- Replay at reset. -/
def Replay.reset : Replay where
  source := 0
  target := 0
  launchNs := 0
  conf := 0
  next := 0
  firstNs := none
  firstSeq := 0
  tsOff := 0
  sent := 0
  dropped := false
  q := 0
  running := true
  result := 15
  lost := false
  limit := 0

/-- Memory Subsystem: fabric, DRAM, protection unit, Cairn. -/
structure Mss where
  /-- age limit of C1, 0.5 us (R504). -/
  ageC1 : Nat
  /-- age limit of C2 (R504). -/
  ageC2 : Nat
  /-- age limit of C3 (R504). -/
  ageC3 : Nat
  /-- Cairn area (R504). -/
  area : Nat
  /-- protection unit locked (R504). -/
  locked : Bool
  /-- protection regions (R266). -/
  regions : List Region
  /-- MSS_FENCE_DROP_n (R504). -/
  fenceDrop : List Nat
  /-- channels (R254). -/
  chans : List MemCh
  /-- DRAM contents, canonical form (R254). -/
  dram : List Host.Cell
  /-- words stored with their parity inverted (R265). -/
  badParity : List Nat
  /-- working memory not reserved (R255). -/
  workFree : Nat
  /-- Cairn rings by conference (R268). -/
  rings : Tbl Ring
  /-- random access points by stream, newest first (R271). -/
  index : Tbl (List RapEntry)
  /-- streams whose appends are disabled (R276). -/
  noAppend : List Nat
  /-- exports (R273). -/
  exports : Tbl Export
  /-- replays (R274). -/
  replays : Tbl Replay
  /-- TSU time at which the last pause ends (R261). -/
  pauseEnd : Nat
  /-- segments reclaimed early, module total (R272, R279). -/
  early : Nat
  /-- requests served in the last 1 s (R279). -/
  traffic : List (Nat × Nat × Nat × Nat)
  /-- latencies of C0 requests over the last 1 s (R279). -/
  c0Lats : List (Nat × Nat)
  /-- the same since the last clear (R279). -/
  c0MaxClear : Nat
  /-- replay buffer of each link end, at most 64 flits (R18, R20). -/
  linkReplay : Tbl (List ReplayFlit)
  /-- memory weights in force, C1, C2 and C3 (R43, R257). -/
  weights : Nat × Nat × Nat
  /-- bytes written to ports other than memory, by target times 2^48 plus address: the writer, the byte and
  whether its word was poisoned (R21, R24). -/
  portMem : Tbl (Nat × Byte × Bool)
  /-- channel whose pause ends at pauseEnd (R261). -/
  pauseCh : Nat
  /-- requests that wait for an earlier one of their requester, or for room at a channel, oldest first (R24, R254). -/
  behind : List HeldReq
  /-- requests issued so far (R24). -/
  issued : Nat
deriving DecidableEq, Repr

/-- Mss at reset. -/
def Mss.reset : Mss where
  ageC1 := 4
  ageC2 := 4
  ageC3 := 4
  area := 1536
  locked := false
  regions := List.replicate 256 Region.reset
  fenceDrop := List.replicate 16 0
  chans := List.replicate 16 MemCh.reset
  dram := []
  badParity := []
  workFree := 0
  rings := []
  index := []
  noAppend := []
  exports := []
  replays := []
  pauseEnd := 0
  early := 0
  traffic := []
  c0Lats := []
  c0MaxClear := 0
  linkReplay := []
  weights := (9, 5, 2)
  portMem := []
  pauseCh := 0
  behind := []
  issued := 0

/-- A buffer pool (R81, R486). -/
structure Pool where
  /-- buffers (R81). -/
  count : Nat
  /-- free now (R486). -/
  free : Nat
  /-- exhaustions (R486). -/
  exhaust : Nat
  /-- fallbacks into the pool (R486). -/
  fallbacks : Nat
  /-- reserve draws (R486). -/
  reserve : Nat
  /-- buffers quarantined (R84). -/
  quarantined : Nat
  /-- counts of free buffers that ended within the last 1 s, each with its end (R486). -/
  past : List (Nat × Nat)
deriving DecidableEq, Repr

/-- Pool at reset. -/
def Pool.reset : Pool where
  count := 0
  free := 0
  exhaust := 0
  fallbacks := 0
  reserve := 0
  quarantined := 0
  past := []

/-- Pools 0-7 with their default counts (R81). -/
def Pool.defaults : List Pool :=
  [32768, 16384, 8192, 20480, 1048576, 262144, 65536, 16384].map
    fun n => { Pool.reset with count := n, free := n }


/-- A buffer in use (R28, R84). -/
structure Buf where
  /-- pool (R82). -/
  pool : Nat
  /-- reference count (R84). -/
  refs : Nat
  /-- quarantined (R84). -/
  quarantined : Bool
  /-- the consumer that holds the decode or level read reference: subsystem and stream (R28, R85). -/
  reader : Option (Nat × Nat)
deriving DecidableEq, Repr

/-- Buf at reset. -/
def Buf.reset : Buf where
  pool := 0
  refs := 0
  quarantined := false
  reader := none

/-- Buffer Pool Manager. -/
structure Bpm where
  /-- pools 0-7 with their default counts (R81). -/
  pools : List Pool
  /-- buffers in use, by pool * 2^24 + index (R84). -/
  bufs : Tbl Buf
  /-- references released at a reset or power-down, by subsystem (R85). -/
  blockDrops : List Nat
deriving DecidableEq, Repr

/-- Bpm at reset. -/
def Bpm.reset : Bpm where
  pools := Pool.defaults
  bufs := []
  blockDrops := List.replicate 16 0

/-- Counters of LEG_STATS (R88), each saturating. -/
structure LegStats where
  /-- ingress packets (R88). -/
  inPkts : Nat
  /-- ingress bytes (R88). -/
  inBytes : Nat
  /-- egress packets (R88). -/
  outPkts : Nat
  /-- egress bytes (R88). -/
  outBytes : Nat
  /-- drops (R88). -/
  drops : Nat
  /-- SRTP authentication failures (R88). -/
  authFail : Nat
  /-- late-rewrite and duplicate discards (R88). -/
  late : Nat
  /-- NACKs received (R88). -/
  nacksIn : Nat
  /-- retransmissions sent (R88). -/
  rtx : Nat
  /-- NACKs discarded under R79 (R88). -/
  nacksDrop : Nat
  /-- last consent RTT in us; 0xFFFF_FFFF none (R88). -/
  rttUs : Nat
deriving DecidableEq, Repr

/-- LegStats at reset. -/
def LegStats.reset : LegStats where
  inPkts := 0
  inBytes := 0
  outPkts := 0
  outBytes := 0
  drops := 0
  authFail := 0
  late := 0
  nacksIn := 0
  rtx := 0
  nacksDrop := 0
  rttUs := 0xFFFFFFFF

/-- A leg (R57, R61, R88). -/
structure Leg where
  /-- state (R61). -/
  state : LegState
  /-- kind (R58). -/
  kind : LegKind
  /-- IPv6 (R88). -/
  ipv6 : Bool
  /-- ICE-lite (R88). -/
  ice : Bool
  /-- send RFC 8888 feedback (R88). -/
  feedback : Bool
  /-- leg class (R88). -/
  cls : Nat
  /-- egress port (R88). -/
  port : Nat
  /-- local address index (R88). -/
  laddr : Nat
  /-- local port (R88). -/
  lport : Nat
  /-- remote address (R88). -/
  raddr : Addr
  /-- remote port (R88). -/
  rport : Nat
  /-- extension IDs (R88). -/
  extIds : Word
  /-- local ICE username fragment (R88). -/
  lufrag : List Byte
  /-- remote ICE username fragment (R88). -/
  rufrag : List Byte
  /-- local ICE password (R88). -/
  lpwd : List Byte
  /-- conference (R88). -/
  conf : Option Nat
  /-- path confirmed (R61). -/
  confirmed : Bool
  /-- audio known to carry the RFC 6464 extension (R45). -/
  levelKnown : Bool
  /-- holds the transcoded slot of a leg not known to carry it (R45). -/
  slot : Bool
  /-- last valid consent response (or entry to ACTIVE) (R65). -/
  consentNs : Nat
  /-- consent requests sent (R65). -/
  consentTx : Nat
  /-- binding requests ignored (R64). -/
  stunIgnored : Nat
  /-- CNAME received (R68). -/
  cname : List Byte
  /-- last EVT_LEG detail 3 (R62). -/
  unkEvt : Option Nat
  /-- counters (R88). -/
  stats : LegStats
  /-- next transport-wide sequence number sent (R67). -/
  twccTx : Nat
  /-- audio Ledger entry the module maintains (R112). -/
  listenEntry : Option Nat
  /-- always-on time of the next consent request, drawn when the last one was sent (R65). -/
  consentDue : Option Nat
  /-- CNAME of the leg in sent SDES, set by the host (R68). -/
  cnameTx : List Byte
deriving DecidableEq, Repr

/-- Leg at reset. -/
def Leg.reset : Leg where
  state := .created
  kind := .network
  ipv6 := false
  ice := false
  feedback := false
  cls := 0
  port := 0
  laddr := 0
  lport := 0
  raddr := default
  rport := 0
  extIds := 0
  lufrag := []
  rufrag := []
  lpwd := []
  conf := none
  confirmed := false
  levelKnown := false
  slot := false
  consentNs := 0
  consentTx := 0
  stunIgnored := 0
  cname := []
  unkEvt := none
  stats := LegStats.reset
  twccTx := 0
  listenEntry := none
  consentDue := none
  cnameTx := []

/-- Audio released to a decoder and not yet delivered (R92, R93). -/
structure PlayItem where
  /-- audio left of the packet, in 1/48 ms (R93). -/
  left : Nat
  /-- audio already delivered of it, in 1/48 ms (R93). -/
  at_ : Nat
  /-- the packet is poisoned (R95). -/
  poisoned : Bool
  /-- state of the decoder before the packet (R92). -/
  state : BitVec 64
  /-- length of the gap before the packet, ms (R95). -/
  gap : Nat
  /-- content of the packet (R92). -/
  data : Nat
deriving DecidableEq, Repr

/-- PlayItem at reset. -/
def PlayItem.reset : PlayItem where
  left := 0
  at_ := 0
  poisoned := false
  state := 0
  gap := 0
  data := 0

/-- A jitter buffer (R93). -/
structure Jitter where
  /-- anchored (R93). -/
  anchored : Bool
  /-- anchor release time (R93). -/
  anchorNs : Nat
  /-- anchor timestamp (R93). -/
  anchorTs : Word
  /-- packets held with their release times (R93). -/
  pkts : List (Nat × RtpPkt)
  /-- overflows (R93). -/
  overflow : Nat
  /-- late packets (R93). -/
  late : Nat
  /-- late packets in this window (R94). -/
  winLate : Nat
  /-- largest lateness in this window (R94). -/
  winWorst : Nat
  /-- smallest margin in this window (R94). -/
  winMargin : Option Int
  /-- anchor move waiting for a quiet block (R94). -/
  move : Int
  /-- when the move was decided (R94). -/
  moveSince : Nat
  /-- blocks concealed (R95). -/
  concealed : Nat
  /-- length of the gap being filled (R95). -/
  gapMs : Nat
  /-- ms left of the ramp back in after poison (R95). -/
  rampMs : Nat
  /-- decoded since its last released packet or before (R99). -/
  dec : Bool
  /-- audio released and not yet delivered (R93). -/
  play : List PlayItem
  /-- the stream is resumed by a takeover: its buffer anchors at 5 ms (R426). -/
  quick : Bool
  /-- decoded block (R92). -/
  block : List Int
  /-- the block was concealed or poisoned (R95). -/
  blockBad : Bool
  /-- last 10 ms delivered before a gap (R95). -/
  hist : List Int
  /-- energy decoded in this epoch (R97). -/
  acc : Nat
  /-- samples decoded in this epoch (R97). -/
  cnt : Nat
  /-- RTP ticks from the anchor to the newest timestamp, not wrapped (R93). -/
  tsOff : Int
  /-- ms of concealment by which a later anchor is absorbed (R94). -/
  gapDue : Nat
  /-- state of the decoder (R92, R96). -/
  decState : BitVec 64
  /-- anchor moves made without a quiet block (R94, R116). -/
  ver : Nat
  /-- released audio as it runs without such a move, while outputs cross over (R94, R116). -/
  oldPlay : Option (List PlayItem)
  /-- block of it (R94, R116). -/
  oldBlock : List Int
  /-- playout delay that its anchor follows (ns) (R94). -/
  delay : Nat
deriving DecidableEq, Repr

/-- Jitter at reset. -/
def Jitter.reset : Jitter where
  anchored := false
  anchorNs := 0
  anchorTs := 0
  pkts := []
  overflow := 0
  late := 0
  winLate := 0
  winWorst := 0
  winMargin := none
  move := 0
  moveSince := 0
  concealed := 0
  gapMs := 0
  rampMs := 0
  dec := false
  play := []
  quick := false
  block := []
  blockBad := false
  hist := []
  acc := 0
  cnt := 0
  tsOff := 0
  gapDue := 0
  decState := 0
  ver := 0
  oldPlay := none
  oldBlock := []
  delay := 0

/-- reception statistics of an ingress stream, by RFC 3550 (R68). -/
structure RtpRx where
  /-- first sequence number received (R68). -/
  base : Option Nat
  /-- extended highest sequence number received (R68). -/
  top : Nat
  /-- packets received (R68). -/
  count : Nat
  /-- packets expected at the last report (R68). -/
  expPrior : Nat
  /-- packets received at the last report (R68). -/
  recPrior : Nat
  /-- interarrival jitter times 16, RTP units (R68). -/
  jitter : Nat
  /-- transit time of the last packet, RTP units (R68). -/
  transit : Option Int
  /-- middle NTP word of the last SR received and its arrival (ns) (R68). -/
  sr : Option (Nat × Nat)
deriving DecidableEq, Repr

/-- RtpRx at reset. -/
def RtpRx.reset : RtpRx where
  base := none
  top := 0
  count := 0
  expPrior := 0
  recPrior := 0
  jitter := 0
  transit := none
  sr := none

/-- A stream (R57, R59, R88). -/
structure Stream where
  /-- true: LOCAL (R59). -/
  origin : Bool
  /-- payload type (R88). -/
  pt : Nat
  /-- codec code (R66). -/
  codec : Nat
  /-- SSRC (R88). -/
  ssrc : Word
  /-- RTX payload type (R88). -/
  rtxPt : Nat
  /-- FlexFEC payload type (R88). -/
  fecPt : Nat
  /-- RTX SSRC (R88). -/
  rtxSsrc : Word
  /-- FlexFEC SSRC (R88). -/
  fecSsrc : Word
  /-- head of its Ledger chain (R70). -/
  head : Option Nat
  /-- chain unusable until STREAM_REMOVE (R71). -/
  unusable : Bool
  /-- timestamp of the last packet received (R75). -/
  lastTs : Option Word
  /-- highest sequence received (R68). -/
  maxSeq : Option Word
  /-- gaps seen (R68). -/
  gaps : List (Nat × Nat × Nat)
  /-- packets counted as lost (R69). -/
  lostPkts : Nat
  /-- packets recovered by FlexFEC (R69). -/
  recovered : Nat
  /-- when its last packet was forked (R274). -/
  lastNs : Nat
  /-- last RFC 8888 report (R68). -/
  fbNs : Nat
  /-- wire bytes of the last 1 s by layer (R235). -/
  layerBytes : List (Nat × Nat × Nat)
  /-- jitter buffer (R93). -/
  jitter : Jitter
  /-- last keyframe request (R247). -/
  lastReq : Option Nat
  /-- nothing since the last key picture makes it fail R195 (R195). -/
  synthOk : Bool
  /-- 10-bit (R200). -/
  ten : Bool
  /-- times synthesis was withheld (R201). -/
  withheldNs : List Nat
  /-- no synthesis before this time (R201). -/
  backoffNs : Nat
  /-- last measured lossless bits per pixel (R200). -/
  bpp : Option Nat
  /-- LOCAL: next sequence number produced (R179). -/
  txSeq : Word
  /-- LOCAL: 0 none, 1 audio encode group, 2 video encoder context (R59). -/
  binding : Nat
  /-- arrivals to report in RFC 8888 feedback (R68). -/
  feedback : List (Nat × Nat)
  /-- reception statistics for report blocks (R68). -/
  rx : RtpRx
deriving DecidableEq, Repr

/-- Stream at reset. -/
def Stream.reset : Stream where
  origin := false
  pt := 0
  codec := 0
  ssrc := 0
  rtxPt := 0
  fecPt := 0
  rtxSsrc := 0
  fecSsrc := 0
  head := none
  unusable := false
  lastTs := none
  maxSeq := none
  gaps := []
  lostPkts := 0
  recovered := 0
  lastNs := 0
  fbNs := 0
  layerBytes := []
  jitter := Jitter.reset
  lastReq := none
  synthOk := true
  ten := false
  withheldNs := []
  backoffNs := 0
  bpp := none
  txSeq := 0
  binding := 0
  feedback := []
  rx := RtpRx.reset

/-- A Ledger entry (R70). -/
structure Entry where
  /-- next entry of the chain; none: last (R70). -/
  next : Option Nat
  /-- source stream (R70). -/
  source : Nat
  /-- destination leg (R70). -/
  dest : Nat
  /-- operating-point mask in force (R70). -/
  active : Nat
  /-- operating-point mask requested (R70). -/
  target : Nat
  /-- egress port (R70). -/
  port : Nat
  /-- 0 AUD, 1 CTL, 2 VID, 3 REP (R70). -/
  service : Nat
  /-- flags bit 0 (R70). -/
  valid : Bool
  /-- flags bit 1 (R70). -/
  paused : Bool
  /-- flags bit 2 (R70). -/
  rtx : Bool
  /-- flags bit 3 (R70). -/
  fec : Bool
  /-- flags bit 4 (R70). -/
  awaiting : Bool
  /-- flags bit 5 (R70). -/
  tree : Bool
  /-- flags bit 6 (R70). -/
  contPend : Bool
  /-- output SSRC (R70). -/
  ssrcOut : Word
  /-- added to the input sequence (R70). -/
  seqOff : BitVec 16
  /-- input sequence at the last change of seq_off (R70). -/
  chgSeq : BitVec 16
  /-- added to the input timestamp (R70). -/
  tsOff : Word
  /-- last in-order input sequence examined (R70). -/
  lastIn : BitVec 16
  /-- output payload type (R70). -/
  ptOut : Nat
  /-- last output timestamp sent (R70). -/
  lastTs : Word
  /-- a walk has visited the entry (last_in is set) (R77). -/
  started : Bool
  /-- seq_off as it stood when the source changed (R77). -/
  seqOffOld : BitVec 16
  /-- TSU time of the last send (R77). -/
  lastSendNs : Nat
  /-- target mask given at SUB_ADD (R242). -/
  ceiling : Nat
  /-- video share last published (R241). -/
  share : Nat
  /-- retransmission window: output seq, Cairn record, ns, output timestamp (R79). -/
  window : List (Nat × Option Nat × Nat × Word)
  /-- when flags bit 4 was set (R246). -/
  awaitNs : Nat
  /-- since when a higher point has passed the test (R243). -/
  upSince : List (Nat × Nat)
  /-- up-switch hold (R243). -/
  holdMs : Nat
  /-- last up-switch (R243). -/
  lastUp : Nat
  /-- last decrease within 5 s of an up-switch (R243). -/
  lastFailNs : Nat
  /-- since when the share has been below half the lowest point (R243). -/
  lowSince : Option Nat
  /-- synthetic mask (R198). -/
  synth : List Nat
  /-- repair job serving the entry (R197). -/
  repair : Option Nat
  /-- repair queue: arrival (ns) and packet (R197). -/
  repairQ : List (Nat × RtpPkt)
  /-- synthesised packets kept: output sequence, packet, elapsed ns at which they go (R197). -/
  synPk : List (Nat × RtpPkt × Nat)
  /-- next RTX sequence number (R79). -/
  rtxSeq : Nat
  /-- protected packets since the last repair packet (R240). -/
  fecRun : Nat
  /-- longest packet of that run (R240). -/
  fecLen : Nat
  /-- pictures withheld (R198). -/
  withheld : Nat
  /-- refresh needs to handle at the next computation: trigger of R252 plus 16 times the method of R203 (R246). -/
  needs : List Nat
  /-- maintained by an audio leg binding (R112). -/
  maintained : Bool
  /-- TSU time of the next SR of its output SSRC, drawn when the last one was sent (R68). -/
  srDue : Option Nat
  /-- highest output sequence number sent (R79). -/
  outTop : Option Nat
  /-- last_in as it stood when the source changed (R77). -/
  lastInOld : BitVec 16
  /-- packets sent, for its sender reports (R68). -/
  outPkts : Nat
  /-- payload bytes sent, for its sender reports (R68). -/
  outBytes : Nat
deriving DecidableEq, Repr

/-- Entry at reset. -/
def Entry.reset : Entry where
  next := none
  source := 0
  dest := 0
  active := 0
  target := 0
  port := 0
  service := 0
  valid := true
  paused := false
  rtx := false
  fec := false
  awaiting := false
  tree := false
  contPend := false
  ssrcOut := 0
  seqOff := 0
  chgSeq := 0
  tsOff := 0
  lastIn := 0
  ptOut := 0
  lastTs := 0
  started := false
  seqOffOld := 0
  lastSendNs := 0
  ceiling := 0
  share := 0
  window := []
  awaitNs := 0
  upSince := []
  holdMs := 2000
  lastUp := 0
  lastFailNs := 0
  lowSince := none
  synth := []
  repair := none
  repairQ := []
  synPk := []
  rtxSeq := 0
  fecRun := 0
  fecLen := 0
  withheld := 0
  needs := []
  maintained := false
  srDue := none
  outTop := none
  lastInOld := 0
  outPkts := 0
  outBytes := 0

/-- A packet forked and waiting for its chain walk (R27, R28, R86). -/
structure WalkItem where
  /-- source stream (R77). -/
  stream : Nat
  /-- the packet (R77). -/
  pkt : RtpPkt
  /-- its buffer (R28). -/
  buf : Option Nat
  /-- egress copies counted at the fork (R28). -/
  planned : Nat
  /-- its Cairn record (R79). -/
  recNo : Option Nat
  /-- it starts a picture (R75). -/
  starts : Bool
deriving DecidableEq, Repr

/-- WalkItem at reset. -/
def WalkItem.reset : WalkItem where
  stream := 0
  pkt := default
  buf := none
  planned := 0
  recNo := none
  starts := false

/-- Forwarding Engine: legs, streams, conferences' identity and the Ledger. -/
structure Fwe where
  /-- legs not FREE (R57). -/
  legs : Tbl Leg
  /-- streams in use (R57). -/
  streams : Tbl Stream
  /-- Ledger entries linked (R70). -/
  ledger : Tbl Entry
  /-- family 0x8000 (R486). -/
  portCnt : List (List Nat)
  /-- IP addresses owned (scope, R62). -/
  owned : List (Option Addr)
  /-- packet path fenced (R25). -/
  fenced : Bool
  /-- packets filtered (R152). -/
  filtered : Nat
  /-- POOL_7 buffers that hold synthesised packets, and when they go (R197). -/
  synBufs : List (Nat × Nat)
  /-- packets waiting for their chain walks, oldest first (R86). -/
  walkQ : List WalkItem
deriving DecidableEq, Repr

/-- Fwe at reset. -/
def Fwe.reset : Fwe where
  legs := []
  streams := []
  ledger := []
  portCnt := List.replicate 15 [0, 0, 0, 0]
  owned := (List.range 64).map (fun i => (Config.ownedAddress i).map fun a => (⟨a.1, a.2⟩ : Addr))
  fenced := false
  filtered := 0
  synBufs := []
  walkQ := []

/-- An SRTP key slot (R352, R353). -/
structure Slot where
  /-- state (R353). -/
  state : SlotState
  /-- suite (R349). -/
  suite : Nat
  /-- MKI length (R360). -/
  mkiLen : Nat
  /-- MKI (R360). -/
  mki : Nat
  /-- master key (R354). -/
  key : List Word
  /-- master salt (R354). -/
  salt : List Word
  /-- packet limit (R358). -/
  pktLimit : Nat
  /-- byte limit (R358). -/
  byteLimit : Nat
  /-- packets used (R358). -/
  pkts : Nat
  /-- bytes used (R358). -/
  bytes : Nat
  /-- tag failures (R362). -/
  tagFails : Nat
  /-- replay drops and drops under R359, R356 (R362). -/
  replays : Nat
  /-- 7/8 of a limit reported (R359). -/
  warned : Bool
  /-- initial rollover counter (R360). -/
  initRoc : Word
  /-- delayed retirement due (R356). -/
  retireNs : Option Nat
  /-- fingerprint (R355). -/
  fp : Word
deriving DecidableEq, Repr

/-- Slot at reset. -/
def Slot.reset : Slot where
  state := .empty
  suite := 0
  mkiLen := 0
  mki := 0
  key := []
  salt := []
  pktLimit := 0x80000000
  byteLimit := 0x40000000000
  pkts := 0
  bytes := 0
  tagFails := 0
  replays := 0
  warned := false
  initRoc := 0
  retireNs := none
  fp := 0

/-- Rollover counter and replay windows of one SSRC in one direction (R351). -/
structure SsrcCtx where
  /-- leg (R351). -/
  leg : Nat
  /-- direction (R351). -/
  dir : Nat
  /-- SSRC (R351). -/
  ssrc : Word
  /-- rollover counter (R351). -/
  roc : Nat
  /-- highest SRTP index (R351). -/
  top : Nat
  /-- SRTP indices seen inside the window (R351). -/
  seen : List Nat
  /-- highest SRTCP index (R351). -/
  cTop : Nat
  /-- SRTCP indices seen inside the window (R351). -/
  cSeen : List Nat
deriving DecidableEq, Repr

/-- SsrcCtx at reset. -/
def SsrcCtx.reset : SsrcCtx where
  leg := 0
  dir := 0
  ssrc := 0
  roc := 0
  top := 0
  seen := []
  cTop := 0
  cSeen := []

/-- Cipher Engine. -/
structure Cpe where
  /-- key slots not EMPTY (R352). -/
  slots : Tbl Slot
  /-- current position of each pair (leg*2+dir); unlisted 0 (R352). -/
  ptrs : Tbl Nat
  /-- rollover counters and replay windows (R351). -/
  ctxs : List SsrcCtx
  /-- PON pre-shared key (R360). -/
  psk : Option (List Word)
  /-- backup-path key (R360). -/
  backupKey : Option (List Word)
  /-- twin key-encryption key (R363). -/
  twinKek : Option (List Word)
  /-- CPE_KEY_INDEX (R506). -/
  keyIndex : Nat
  /-- CPE_SRTP_KEY words written and not yet installed (R506). -/
  keyStage : List Word
  /-- wrapped keys rejected (R364). -/
  unwrapFails : Nat
  /-- replay drops (R351). -/
  replayDrops : Nat
deriving DecidableEq, Repr

/-- Cpe at reset. -/
def Cpe.reset : Cpe where
  slots := []
  ptrs := []
  ctxs := []
  psk := none
  backupKey := none
  twinKek := none
  keyIndex := 0
  keyStage := List.replicate 12 0
  unwrapFails := 0
  replayDrops := 0

/-- A token bucket (R385). -/
structure Bucket where
  /-- rate, 0 unlimited (R383). -/
  rate : Nat
  /-- burst (R383). -/
  burst : Nat
  /-- tokens (R385). -/
  tokens : Int
  /-- what has filled toward the next 1/256 byte (R385). -/
  part : Nat
  /-- elapsed time of the last debit (R385). -/
  fillNs : Nat
deriving DecidableEq, Repr

/-- Bucket at reset. -/
def Bucket.reset : Bucket where
  rate := 0
  burst := 0
  tokens := 0
  part := 0
  fillNs := 0

/-- One service queue of one leg on one port, with its round state (R386, R387). -/
structure FrameQ where
  /-- frames queued (R387). -/
  frames : List Frame
  /-- deficit (R386). -/
  deficit : Nat
deriving DecidableEq, Repr

/-- FrameQ at reset. -/
def FrameQ.reset : FrameQ where
  frames := []
  deficit := 0

/-- Statistics of a leg service queue or a port service queue (R391). -/
structure QStat where
  /-- overflow drops in this window (R391). -/
  overflow : Nat
  /-- late drops in this window (R391). -/
  late : Nat
  /-- frames launched in this window (R391). -/
  launched : Nat
  /-- samples of this window (R391). -/
  n : Nat
  /-- smallest depth sampled (R391). -/
  minD : Nat
  /-- largest depth sampled (R391). -/
  maxD : Nat
  /-- sum of the depths sampled (R391). -/
  sumD : Nat
  /-- smallest head-of-line delay sampled (R391). -/
  minH : Nat
  /-- largest head-of-line delay sampled (R391). -/
  maxH : Nat
  /-- sum of the head-of-line delays sampled (R391). -/
  sumH : Nat
  /-- record of the last completed window (R391). -/
  lastWin : List Word
deriving DecidableEq, Repr

/-- QStat at reset. -/
def QStat.reset : QStat where
  overflow := 0
  late := 0
  launched := 0
  n := 0
  minD := 0
  maxD := 0
  sumD := 0
  minH := 0
  maxH := 0
  sumH := 0
  lastWin := List.replicate 8 0

/-- Leg-level shaper node (R383, R386). -/
structure LegShape where
  /-- leg bucket (R383). -/
  bucket : Bucket
  /-- DWRR weight (R386). -/
  weight : Nat
  /-- burst set by SHAPER_SET (R249). -/
  burstSet : Option Nat
deriving DecidableEq, Repr

/-- LegShape at reset. -/
def LegShape.reset : LegShape where
  bucket := Bucket.reset
  weight := 16
  burstSet := none

/-- Port-level shaper node (R383, R507). -/
structure PortShape where
  /-- port bucket (R507). -/
  bucket : Bucket
  /-- service buckets AUD, CTL, VID, REP (R383). -/
  services : List Bucket
  /-- counted overhead (R384). -/
  overhead : Nat
  /-- paced with a comparator (R507). -/
  paced : Bool
  /-- comparator in use (R507). -/
  cmp : Nat
  /-- timed queue in stamp order (R389). -/
  timed : List Frame
  /-- leg last served in each service (R386). -/
  round : List Nat
  /-- epochs whose class minimums exceeded the budget (R238). -/
  shortfall : Nat
deriving DecidableEq, Repr

/-- PortShape at reset. -/
def PortShape.reset : PortShape where
  bucket := Bucket.reset
  services := List.replicate 4 Bucket.reset
  overhead := 0
  paced := false
  cmp := 0
  timed := []
  round := [0, 0, 0, 0]
  shortfall := 0

/-- Ports 0-14 with the default overheads of R384. -/
def PortShape.defaults : List PortShape :=
  (List.range 15).map fun p =>
    { PortShape.reset with overhead := if p < 8 then 8 else if p = 14 then 20 else 0 }


/-- Traffic Shaper. -/
structure Tsh where
  /-- leg nodes (R383). -/
  legs : Tbl LegShape
  /-- ports 0-14 with the default overheads of R384 (R383). -/
  ports : List PortShape
  /-- queues, by (leg*4+service)*16+port (R383). -/
  queues : Tbl FrameQ
  /-- statistics of the leg service queues, by leg*4+service (R391). -/
  legStats : Tbl QStat
  /-- statistics of the port service queues (R391). -/
  portStats : List QStat
  /-- TSU second of the window in progress (R391). -/
  winSec : Nat
deriving DecidableEq, Repr

/-- Tsh at reset. -/
def Tsh.reset : Tsh where
  legs := []
  ports := PortShape.defaults
  queues := []
  legStats := []
  portStats := List.replicate 60 QStat.reset
  winSec := 0

/-- A thread descriptor (R396, R397). -/
structure Thread where
  /-- state (R397). -/
  state : ThrState
  /-- class, affinity, priority, flow, run budget (R396). -/
  d : Desc
  /-- pending (R396). -/
  pend : Bool
  /-- when it became READY (R398). -/
  readyNs : Nat
  /-- order in which it became READY (R398). -/
  readyNo : Nat
  /-- priority in its ready list (R402). -/
  prio : Nat
  /-- raised under R402 (R404). -/
  raised : Bool
  /-- core while RUNNING (control 0-15, Mallet 16+n) (R397). -/
  core : Nat
  /-- when dispatched (R404). -/
  startNs : Nat
  /-- the run in progress has passed its budget (R399). -/
  overrun : Bool
deriving DecidableEq, Repr

/-- Thread at reset. -/
def Thread.reset : Thread where
  state := .blocked
  d := default
  pend := false
  readyNs := 0
  readyNo := 0
  prio := 0
  raised := false
  core := 0
  startNs := 0
  overrun := false

/-- Load counters of one core (R407). -/
structure CoreLoad where
  /-- mean wait of the last window (R508). -/
  wait : Nat
  /-- load of the last window (R508). -/
  load : Nat
  /-- waits of this window (R407). -/
  sumWait : Nat
  /-- dispatches of this window (R407). -/
  dispatches : Nat
  /-- running time of this window (R407). -/
  busy : Nat
deriving DecidableEq, Repr

/-- CoreLoad at reset. -/
def CoreLoad.reset : CoreLoad where
  wait := 0
  load := 0
  sumWait := 0
  dispatches := 0
  busy := 0

/-- Task Dispatcher (Headstock). -/
structure Tds where
  /-- descriptors not FREE (R396). -/
  threads : Tbl Thread
  /-- descriptor running on each core (R397). -/
  running : Tbl Nat
  /-- threads waiting in each flow, in post order (R401). -/
  flows : Tbl (List Nat)
  /-- READY order counter (R398). -/
  order : Nat
  /-- load counters (R407). -/
  loads : Tbl CoreLoad
  /-- items aborted on fenced cores (R400). -/
  aborts : Nat
  /-- TSU second of the load window (R407). -/
  winSec : Nat
deriving DecidableEq, Repr

/-- Tds at reset. -/
def Tds.reset : Tds where
  threads := []
  running := []
  flows := []
  order := 0
  loads := []
  aborts := 0
  winSec := 0

/-- The input samples that the two polyphase bridges keep (R91). -/
structure Bridge where
  /-- of the F-W bridge (R91). -/
  fw : List Int
  /-- of the W-N bridge (R91). -/
  wn : List Int
deriving DecidableEq, Repr

/-- Bridge at reset. -/
def Bridge.reset : Bridge where
  fw := []
  wn := []

/-- The last inputs and outputs of an equaliser section (R115). -/
structure Biquad where
  /-- last input (R115). -/
  x1 : Int
  /-- input before it (R115). -/
  x2 : Int
  /-- last output (R115). -/
  y1 : Int
  /-- output before it (R115). -/
  y2 : Int
deriving DecidableEq, Repr

/-- Biquad at reset. -/
def Biquad.reset : Biquad where
  x1 := 0
  x2 := 0
  y1 := 0
  y2 := 0

/-- A row as it ran before a change that outputs still cross over from (R116). -/
structure RowAlt where
  /-- version of the row (R116). -/
  ver : Nat
  /-- equaliser coefficients by row*4+biquad (R115, R116). -/
  eq : Tbl (List Word)
  /-- it takes the audio without the anchor move (R94, R116). -/
  oldSrc : Bool
  /-- equaliser state (R115). -/
  biquads : List Biquad
  /-- bridge state (R91). -/
  bridge : Bridge
  /-- conditioned samples waiting for the sum block (R118). -/
  cond : List Int
deriving DecidableEq, Repr

/-- RowAlt at reset. -/
def RowAlt.reset : RowAlt where
  ver := 0
  eq := []
  oldSrc := false
  biquads := []
  bridge := Bridge.reset
  cond := []

/-- An input row of a mixer (R102, R103). -/
structure Row where
  /-- stream feeding the row (R102). -/
  src : Option Nat
  /-- leg of the row (R102). -/
  leg : Option Nat
  /-- selected leg that has not entered yet (R98). -/
  nextLeg : Option Nat
  /-- its stream (R99). -/
  nextSrc : Nat
  /-- trim in force (R103). -/
  trim : Nat
  /-- trim waiting for a zero crossing (R114). -/
  trimNew : Option Nat
  /-- block boundary from which the crossing is awaited (R114). -/
  trimNs : Nat
  /-- fade gain at the start of the fade, 0x8000 unity (R99). -/
  fadeA : Nat
  /-- fade gain at its end (R99). -/
  fadeB : Nat
  /-- length of the fade (R99). -/
  fadeTot : Nat
  /-- samples of the fade elapsed (R99). -/
  fadePos : Nat
  /-- time selected (R98). -/
  heldMs : Nat
  /-- time the smoothed level has been below the floor (R98). -/
  lowMs : Nat
  /-- boundary at which the fade out ends (R100). -/
  leaving : Option Nat
  /-- conditioned samples waiting for the sum block (R118). -/
  cond : List Int
  /-- fade gains, length and position of that block (R99). -/
  condFade : Nat × Nat × Nat × Nat
  /-- trim change within that block (R114). -/
  condHit : Option (Nat × Nat)
  /-- last sample of the previous block (R114). -/
  last : Int
  /-- last block of a leg that has left, fading out over 1 ms (R100). -/
  tail : Option (List Int)
  /-- that block was concealed (R138). -/
  concealed : Bool
  /-- energy of this epoch (R119). -/
  acc : Nat
  /-- samples of this epoch (R119). -/
  cnt : Nat
  /-- row meter RMS (R119). -/
  rms : Nat
  /-- row meter peak: magnitude times 2^40 (R119). -/
  peak : Nat
  /-- when the peak was taken (R119). -/
  peakNs : Nat
  /-- effect slot's core on the row (R137). -/
  core : Option Nat
  /-- equaliser state (R115). -/
  biquads : List Biquad
  /-- bridge state (R91). -/
  bridge : Bridge
  /-- version of the row: it rises when its equaliser changes or its audio moves (R116). -/
  ver : Nat
  /-- version of the samples waiting for the sum block (R116, R118). -/
  condVer : Nat
  /-- anchor moves of its stream that it has taken (R94, R116). -/
  srcVer : Nat
  /-- earlier versions that outputs still take (R116). -/
  alts : List RowAlt
  /-- of the selected leg that has not entered: 0 no packet released since, 1 released, 2 decoded (R99). -/
  nextSeen : Nat
  /-- rate domain of the last block of a leg that has left (R91, R100). -/
  tailDomain : Nat
  /-- the block on its way to the sum was concealed or poisoned (R121). -/
  sumBad : Bool
deriving DecidableEq, Repr

/-- Row at reset. -/
def Row.reset : Row where
  src := none
  leg := none
  nextLeg := none
  nextSrc := 0
  trim := 0x8000
  trimNew := none
  trimNs := 0
  fadeA := 0x8000
  fadeB := 0x8000
  fadeTot := 0
  fadePos := 0
  heldMs := 0
  lowMs := 0
  leaving := none
  cond := []
  condFade := (0x8000, 0x8000, 0, 0)
  condHit := none
  last := 0
  tail := none
  concealed := false
  acc := 0
  cnt := 0
  rms := 511
  peak := 0
  peakNs := 0
  core := none
  biquads := List.replicate 4 Biquad.reset
  bridge := Bridge.reset
  ver := 0
  condVer := 0
  srcVer := 0
  alts := []
  nextSeen := 0
  tailDomain := 0
  sumBad := false

/-- A parameter bank (R115). -/
structure Bank where
  /-- routing gains by row*8+bus; unlisted 0 (R102). -/
  matrix : Tbl Nat
  /-- equaliser coefficients by row*4+biquad (R115). -/
  eq : Tbl (List Word)
  /-- echo-handling enables (R115). -/
  echo : Word
deriving DecidableEq, Repr

/-- Bank at reset. -/
def Bank.reset : Bank where
  matrix := []
  eq := []
  echo := 0

/-- One computation of an output: routing gains, scaling or limiting, and its sum blocks (R105, R106). -/
structure Stage where
  /-- routing gains of the computation (R102). -/
  gains : List Nat
  /-- limiter computation (R109). -/
  limiter : Bool
  /-- it takes the lock group's full sum (R420). -/
  locked : Bool
  /-- versions of the rows that it takes (R116). -/
  vers : List Nat
  /-- a crossfade of it is due whatever has changed (R378). -/
  stale : Bool
  /-- gain k at the start of the ramp (R105). -/
  k : Nat
  /-- gain the ramp leads to (R105). -/
  kTo : Nat
  /-- samples of the ramp left (R105). -/
  kLeft : Nat
  /-- limiter gain g[k-1] (R106). -/
  gain : Nat
  /-- sum of the block in progress (R103). -/
  sum : List Int
  /-- active rows of that block (R105). -/
  nSum : Nat
  /-- sum of the block before, in the output stage (R106). -/
  look : List Int
  /-- active rows of that block (R105). -/
  nLook : Nat
deriving DecidableEq, Repr

/-- Stage at reset. -/
def Stage.reset : Stage where
  gains := []
  limiter := false
  locked := false
  vers := []
  stale := false
  k := 32767
  kTo := 32767
  kLeft := 0
  gain := 0x7FFFFFFF
  sum := []
  nSum := 0
  look := []
  nLook := 0

/-- Output stage of one bus or one mix-minus (R105, R106, R109, R116). -/
structure OutSt where
  /-- computation in force (R116). -/
  cur : Stage
  /-- computation that a crossfade leaves (R116). -/
  old : Stage
  /-- place in a crossfade of the block in progress (R116). -/
  xSum : Option Nat
  /-- place in a crossfade of the block in the output stage (R116). -/
  xLook : Option Nat
  /-- saturated samples (R105). -/
  sat : Nat
  /-- energy of this epoch (R119). -/
  acc : Nat
  /-- samples of this epoch (R119). -/
  cnt : Nat
  /-- meter RMS (R119). -/
  rms : Nat
  /-- meter peak: magnitude times 2^40 (R119). -/
  peak : Nat
  /-- when the peak was taken (R119). -/
  peakNs : Nat
  /-- limiter gain reduction (R119). -/
  red : Nat
  /-- effect slot's core on the bus (R137). -/
  core : Option Nat
deriving DecidableEq, Repr

/-- OutSt at reset. -/
def OutSt.reset : OutSt where
  cur := Stage.reset
  old := Stage.reset
  xSum := none
  xLook := none
  sat := 0
  acc := 0
  cnt := 0
  rms := 511
  peak := 0
  peakNs := 0
  red := 0
  core := none

/-- An encode group (R110). -/
structure Group where
  /-- bus (R126). -/
  bus : Nat
  /-- producer stream (R126). -/
  stream : Nat
  /-- codec code (R126). -/
  codec : Nat
  /-- rate domain (R126). -/
  domain : Nat
  /-- 0 10 ms, 1 20 ms, 2 40 ms, 3 60 ms (R126). -/
  frame : Nat
  /-- complexity, 15 mode default (R126). -/
  complexity : Nat
  /-- complexity in force (R54). -/
  compNow : Nat
  /-- in-band FEC (R126). -/
  fec : Bool
  /-- bitrate (R126). -/
  bitrate : Nat
  /-- boundary at which it started (R111). -/
  startNs : Option Nat
  /-- disabled, ending at its next frame boundary (R126). -/
  ending : Bool
  /-- settings waiting for the next frame boundary (R126). -/
  pending : Option (List Word)
  /-- mixed samples gathered for the frame in progress (R118). -/
  fifo : List Int
  /-- frames encoded (R110). -/
  frames : Nat
  /-- complexities of the frames whose input is being gathered, oldest first (R54, R117). -/
  comps : List Nat
  /-- output bridge state (R91, R110). -/
  bridge : Bridge
  /-- state of the encoder (R92, R113). -/
  encState : BitVec 64
deriving DecidableEq, Repr

/-- Group at reset. -/
def Group.reset : Group where
  bus := 0
  stream := 0
  codec := 0
  domain := 0
  frame := 1
  complexity := 15
  compNow := 5
  fec := false
  bitrate := 0
  startNs := none
  ending := false
  pending := none
  fifo := []
  frames := 0
  comps := []
  bridge := Bridge.reset
  encState := 0

/-- A partial sum received (R121, R122). -/
structure Partial where
  /-- sender position (R121). -/
  source : Nat
  /-- bus (R121). -/
  bus : Nat
  /-- positions that it includes (R121). -/
  members : Nat
  /-- flags (R121). -/
  flags : Nat
  /-- samples (R121). -/
  samples : List Int
deriving DecidableEq, Repr

/-- Partial at reset. -/
def Partial.reset : Partial where
  source := 0
  bus := 0
  members := 0
  flags := 0
  samples := []

/-- A conference and its mixer (R57, R102). -/
structure Conf where
  /-- selection N (R98). -/
  n : Nat
  /-- low-latency path (R88). -/
  lowLat : Bool
  /-- mixer domain (R90). -/
  domain : Nat
  /-- lock group (R88). -/
  lock : Nat
  /-- bus count (R126). -/
  buses : Nat
  /-- N from the next epoch boundary (R101). -/
  nNew : Option Nat
  /-- bus count from the next epoch boundary (R126). -/
  busesNew : Option Nat
  /-- rows (R102). -/
  rows : List Row
  /-- always-on inputs: leg, stream slot (R126). -/
  alwaysOn : List (Option (Nat × Nat))
  /-- always-on changes waiting for the next block boundary (R126). -/
  onPending : List (Nat × Option (Nat × Nat))
  /-- active bank: 0 A, 1 B (R115). -/
  active : Nat
  /-- bank A (R115). -/
  bankA : Bank
  /-- bank B (R115). -/
  bankB : Bank
  /-- pending swap's boundary (R115). -/
  swapAt : Option Nat
  /-- encode groups (R110). -/
  groups : Tbl Group
  /-- frame-grid origins (R111). -/
  grids : Tbl Nat
  /-- smoothed levels, -511 at joining (R98). -/
  smooth : Tbl Int
  /-- levels of the epoch just ended (R97). -/
  level : Tbl Int
  /-- extension levels of the packets released in this epoch (R97). -/
  levelAcc : Tbl (List Nat)
  /-- output stages of the buses (R105). -/
  outs : List OutSt
  /-- output stages of the mix-minus feeds (R105). -/
  mmOuts : List OutSt
  /-- listen bus and output SSRC (R112). -/
  bindings : Tbl (Nat × Word)
  /-- leg bindings waiting for the next frame boundary of the bus (R126). -/
  bindNew : List (Nat × Nat × Word)
  /-- transcoded slots reserved (N and always-on) (R45). -/
  slots : Nat
  /-- consecutive incomplete cluster blocks (R123). -/
  missedSum : Nat
  /-- incomplete cluster blocks (R123). -/
  missedTotal : Nat
  /-- partial sums received for the block (R122). -/
  partials : List Partial
  /-- buses whose full sum the block holds (R122). -/
  fullSum : List (Nat × Bool)
  /-- contributions of its own speakers in the block, as sent (R124). -/
  contribSent : Tbl (List Int)
  /-- contribution mismatches (R124). -/
  mismatch : Nat
  /-- level cells received for the epoch (R125). -/
  levelCells : List (Nat × List Word)
  /-- selection cell waiting for the next epoch boundary (R125). -/
  selCell : Option (List Word)
  /-- manager: position, leg, ms held and ms low of each slot (R125). -/
  mgr : List (Option (Nat × Nat × Nat × Nat))
  /-- selection cells missed (R125). -/
  selMisses : Nat
  /-- buses whose partial this module has sent in the block (R122). -/
  partSent : List Nat
  /-- contributions of the lock group received for the block, by slot*8+bus (R122, R124). -/
  contribIn : Tbl (List Int)
  /-- the arrival deadline of the block has passed (R123). -/
  sumClosed : Bool
  /-- children from which partials of the lock group come, with the time of the last (ns) (R123). -/
  peers : Tbl Nat
deriving DecidableEq, Repr

/-- Conf at reset: one bus until AUD_MIXER_SET says otherwise (DESIGN CHOICE, log 106). -/
def Conf.reset : Conf where
  n := 4
  lowLat := false
  domain := 0
  lock := 0
  buses := 1
  nNew := none
  busesNew := none
  rows := List.replicate 32 Row.reset
  alwaysOn := List.replicate 16 none
  onPending := []
  active := 0
  bankA := Bank.reset
  bankB := Bank.reset
  swapAt := none
  groups := []
  grids := []
  smooth := []
  level := []
  levelAcc := []
  outs := List.replicate 8 OutSt.reset
  mmOuts := List.replicate 16 OutSt.reset
  bindings := []
  bindNew := []
  slots := 0
  missedSum := 0
  missedTotal := 0
  partials := []
  fullSum := []
  contribSent := []
  mismatch := 0
  levelCells := []
  selCell := none
  mgr := List.replicate 16 none
  selMisses := 0
  partSent := []
  contribIn := []
  sumClosed := false
  peers := []

/-- A customer Mallet core 224-255 (R128, R129). -/
structure Core where
  /-- state (R128). -/
  state : CoreState
  /-- x0-x15 (R129). -/
  x : List Word
  /-- acc0-acc3 (R129). -/
  acc : List (BitVec 72)
  /-- p0-p7 (R129). -/
  p : List Word
  /-- b0-b7 (R129). -/
  b : List Word
  /-- l0-l7 (R129). -/
  l : List Word
  /-- m0-m7 (R129). -/
  m : List Word
  /-- sr[0] (R129). -/
  z : Bool
  /-- sr[1] (R129). -/
  n : Bool
  /-- sr[2], sticky (R129). -/
  sat : Bool
  /-- sr[3], sticky (R129). -/
  av : Bool
  /-- instruction index (R143). -/
  pc : Nat
  /-- return addresses (R134). -/
  stack : List Nat
  /-- open loops: first, last instruction, iterations left (R135). -/
  loops : List (Nat × Nat × Nat)
  /-- program memory; unlisted 0 (R136). -/
  prog : Tbl (BitVec 64)
  /-- X data and mailbox (R136). -/
  xmem : List Host.Cell
  /-- Y data and mailbox (R136). -/
  ymem : List Host.Cell
  /-- cluster slice (R136). -/
  slice : List Host.Cell
  /-- chunks stored (R145). -/
  image : List Byte
  /-- total image length of the load (R145). -/
  total : Nat
  /-- entry instruction index (R143). -/
  entry : Nat
  /-- declared point kinds and domains (R143). -/
  kinds : Nat
  /-- declared worst-case cycles (R143). -/
  cycles : Nat
  /-- done executed, waiting for the next input block (R134). -/
  waiting : Bool
  /-- cycles since release (R145). -/
  used : Nat
  /-- largest cycle count per block (R145). -/
  maxUsed : Nat
  /-- host parameters (R138). -/
  params : List Word
  /-- point attached (R137). -/
  attached : Option (Nat × Bool × Nat)
  /-- boundary at which the attachment takes effect (R141). -/
  attachNs : Nat
  /-- slot being detached (R141). -/
  detach : Bool
  /-- an input has been delivered for the block in progress (R139). -/
  delivered : Bool
  /-- when done last executed (R139). -/
  doneNs : Nat
  /-- the block in progress has been counted as missed (R140). -/
  counted : Bool
  /-- slot in bypass (R140). -/
  bypass : Bool
  /-- place in the crossfade to the program's output (R140). -/
  wet : Nat
  /-- blocks completed on time since a miss (R140). -/
  onTime : Nat
  /-- control bit 11 (R138). -/
  missFlag : Bool
  /-- missed blocks (R145). -/
  missed : Nat
  /-- last fault code (R145). -/
  lastFault : Nat
  /-- occupant of the row at the last delivery (R137). -/
  occupant : Option Nat
  /-- claim released, crossfade running (R142). -/
  releasing : Bool
  /-- where the running crossfade of the slot leads: 0 dry, 4 the output (R140, R141). -/
  wetTo : Nat
  /-- it halts when its slot has been detached (R145). -/
  halting : Bool
  /-- it runs a block that has been delivered (R139, R145). -/
  inBlock : Bool
deriving DecidableEq, Repr

/-- Core at reset. -/
def Core.reset : Core where
  state := .empty
  x := List.replicate 16 0
  acc := List.replicate 4 0
  p := List.replicate 8 0
  b := List.replicate 8 0
  l := List.replicate 8 0
  m := List.replicate 8 0
  z := false
  n := false
  sat := false
  av := false
  pc := 0
  stack := []
  loops := []
  prog := []
  xmem := []
  ymem := []
  slice := []
  image := []
  total := 0
  entry := 0
  kinds := 0
  cycles := 0
  waiting := false
  used := 0
  maxUsed := 0
  params := [0, 0]
  attached := none
  attachNs := 0
  detach := false
  delivered := false
  doneNs := 0
  counted := false
  bypass := false
  wet := 0
  onTime := 0
  missFlag := false
  missed := 0
  lastFault := 0
  occupant := none
  releasing := false
  wetTo := 0
  halting := false
  inBlock := false

/-- Audio Engine (Mallet, Caliper). -/
structure Aue where
  /-- conferences (R57). -/
  confs : Tbl Conf
  /-- customer cores claimed (R127). -/
  cores : Tbl Core
  /-- family 0xC000 (R486). -/
  coreCnt : Tbl (List Nat)
  /-- last block boundary run (R33). -/
  blockNs : Nat
  /-- start of the block before the present one (R33, R140). -/
  lastNs : Nat
deriving DecidableEq, Repr

/-- Aue at reset. -/
def Aue.reset : Aue where
  confs := []
  cores := []
  coreCnt := []
  blockNs := 0
  lastNs := 0

/-- What a Gouge core runs: a decode, an encode, or the lossless encodes of a synthesis (R157, R200). -/
inductive JobKind
  | decode
  | encode
  | synth
deriving DecidableEq, Repr

/-- A picture assembled or released (R153). -/
structure Pic where
  /-- RTP timestamp (R153). -/
  ts : Word
  /-- packets present (R152). -/
  pkts : List RtpPkt
  /-- arrival of its first packet (R153). -/
  firstNs : Nat
  /-- coded size (R147). -/
  bits : Nat
  /-- sequence numbers present or filtered (R153). -/
  seqs : List (BitVec 16)
  /-- sequence number of its marker-bit packet (R153). -/
  mark : Option (BitVec 16)
  /-- complete at release (R153). -/
  whole : Bool
  /-- coded data over 4 MiB (R154). -/
  tooBig : Bool
  /-- release time (R157). -/
  relNs : Nat
  /-- operating-point mask in force from it on (R75, R173). -/
  mask : Nat
  /-- packets of a type that is not accepted (R151). -/
  badSeqs : List (BitVec 16)
  /-- lowest sequence number met (R152). -/
  first : BitVec 16
deriving DecidableEq, Repr

/-- Pic at reset. -/
def Pic.reset : Pic where
  ts := 0
  pkts := []
  firstNs := 0
  bits := 0
  seqs := []
  mark := none
  whole := false
  tooBig := false
  relNs := 0
  mask := 0xFF
  badSeqs := []
  first := 0

/-- A picture of a decoded picture buffer (R148). -/
structure RefPic where
  /-- RTP timestamp (R148). -/
  ts : Word
  /-- spatial layer (R74). -/
  sid : Nat
  /-- output order (R164). -/
  order : Int
  /-- output width (R161). -/
  w : Nat
  /-- output height (R161). -/
  h : Nat
  /-- degraded (R165). -/
  degraded : Bool
  /-- content (R148). -/
  img : Config.Img
  /-- picture buffer (R170). -/
  buf : Nat
deriving DecidableEq, Repr

/-- RefPic at reset. -/
def RefPic.reset : RefPic where
  ts := 0
  sid := 0
  order := 0
  w := 0
  h := 0
  degraded := false
  img := .grey 8
  buf := 0

/-- A fenced output picture (R171). -/
structure OutPic where
  /-- fence sequence (R171). -/
  number : Nat
  /-- RTP timestamp (R171). -/
  ts : Word
  /-- width (R171). -/
  w : Nat
  /-- height (R171). -/
  h : Nat
  /-- concealed fraction (R162). -/
  frac : Nat
  /-- degraded (R165). -/
  degraded : Bool
  /-- substituted (R164). -/
  subst : Bool
  /-- refresh (R166). -/
  refresh : Bool
  /-- 10-bit (R171). -/
  ten : Bool
  /-- output buffer index (R171). -/
  buf : Nat
  /-- fence time (R171). -/
  fenceNs : Nat
  /-- binding of its context that produced it (R156). -/
  serial : Nat
  /-- content (R148). -/
  img : Config.Img
deriving DecidableEq, Repr

/-- OutPic at reset. -/
def OutPic.reset : OutPic where
  number := 0
  ts := 0
  w := 0
  h := 0
  frac := 0
  degraded := false
  subst := false
  refresh := false
  ten := false
  buf := 0
  fenceNs := 0
  serial := 0
  img := .grey 8

/-- A decoder context (R148, R156, R173). -/
structure Dec where
  /-- state (R156). -/
  state : DecState
  /-- source stream (R173). -/
  stream : Nat
  /-- mask in force (R173). -/
  mask : Nat
  /-- mask requested (R173). -/
  maskNew : Nat
  /-- 10-bit (R173). -/
  ten : Bool
  /-- maximum width (R173). -/
  maxW : Nat
  /-- maximum height (R173). -/
  maxH : Nat
  /-- frame rate (R173). -/
  rate : Nat
  /-- assembly delay (0: the class's playout delay) (R173). -/
  delayMs : Nat
  /-- consumers declared (R173). -/
  consumers : Nat
  /-- consumers taken (R170). -/
  taken : Nat
  /-- pictures in assembly, oldest first (R152). -/
  asm : List Pic
  /-- backlog: released pictures not yet decoded (R155). -/
  ready : List Pic
  /-- core of the last job (R173). -/
  core : Nat
  /-- timestamp of the last released picture (R153). -/
  lastRel : Option Word
  /-- last sequence of the last released picture (R153). -/
  lastSeq : Option (BitVec 16)
  /-- backlog exceeded 3 and has not fallen to 1 (R155). -/
  draining : Bool
  /-- current width (R173). -/
  width : Nat
  /-- current height (R173). -/
  height : Nat
  /-- output pictures not released (R171). -/
  outs : List OutPic
  /-- output count (R171). -/
  outNo : Nat
  /-- pictures decoded (R173). -/
  decoded : Nat
  /-- pictures concealed (R173). -/
  concealed : Nat
  /-- concealed fraction of the last picture (R173). -/
  lastFrac : Nat
  /-- syntax errors (R173). -/
  synErr : Nat
  /-- substituted references (R173). -/
  substs : Nat
  /-- late packets (R173). -/
  late : Nat
  /-- pictures discarded (R173). -/
  discards : Nat
  /-- deadline misses (R173). -/
  misses : Nat
  /-- pictures degraded (R173). -/
  degr : Nat
  /-- next Cairn record of a catch-up (R156). -/
  catchNext : Nat
  /-- when the catch-up started (R156). -/
  catchNs : Nat
  /-- decoding started at the last IRAP picture (R166). -/
  rasl : Bool
  /-- no picture concealed since a gradual refresh started (R166). -/
  gdrClean : Bool
  /-- refresh need reported in this WAITING_RAP (R156). -/
  needSent : Bool
  /-- unbinding waits for the job in service (R156). -/
  unbinding : Bool
  /-- working memory reserved (R170). -/
  workBytes : Nat
  /-- hidden context of a repair job (R196). -/
  hidden : Bool
  /-- decoded picture buffer by slot or picture (R148). -/
  dpb : Tbl RefPic
  /-- sequence header in force (R163). -/
  seq : Option SeqHdr
  /-- number of the binding (R156). -/
  serial : Nat
  /-- codec of its stream (R149). -/
  codec : Nat
  /-- picture buffers reserved (R170). -/
  bufs : Nat
  /-- pictures released while catching up and not yet decoded from Cairn (R156, R167). -/
  missed : List Pic
deriving DecidableEq, Repr

/-- Dec at reset. -/
def Dec.reset : Dec where
  state := .waitingRap
  stream := 0
  mask := 0
  maskNew := 0
  ten := false
  maxW := 0
  maxH := 0
  rate := 0
  delayMs := 0
  consumers := 0
  taken := 0
  asm := []
  ready := []
  core := 0
  lastRel := none
  lastSeq := none
  draining := false
  width := 0
  height := 0
  outs := []
  outNo := 0
  decoded := 0
  concealed := 0
  lastFrac := 0
  synErr := 0
  substs := 0
  late := 0
  discards := 0
  misses := 0
  degr := 0
  catchNext := 0
  catchNs := 0
  rasl := false
  gdrClean := false
  needSent := false
  unbinding := false
  workBytes := 0
  hidden := false
  dpb := []
  seq := none
  serial := 0
  codec := 8
  bufs := 0
  missed := []

/-- A Gouge core (R146, R168, R174). -/
structure Gouge where
  /-- 0 in service, 1 quiescing, 2 quiesced, 3 out of service (R174). -/
  svc : Nat
  /-- job in service (R157). -/
  job : Option (JobKind × Nat)
  /-- when the job took the core (R168). -/
  startNs : Nat
  /-- watchdog trips of the last hour (R168). -/
  trips : List Nat
  /-- jobs run (R486). -/
  jobs : Nat
  /-- deadline misses (R486). -/
  misses : Nat
  /-- watchdog trips (R486). -/
  wd : Nat
  /-- starts and ends of the jobs run in the last 1 s (R486). -/
  runs : List (Nat × Nat)
deriving DecidableEq, Repr

/-- Gouge at reset. -/
def Gouge.reset : Gouge where
  svc := 0
  job := none
  startNs := 0
  trips := []
  jobs := 0
  misses := 0
  wd := 0
  runs := []

/-- A source picture of an encoder (R178). -/
structure SrcPic where
  /-- RTP timestamp (R179). -/
  ts : Word
  /-- when it arrived (R177). -/
  relNs : Nat
  /-- its number in its source (R178). -/
  number : Nat
  /-- binding of a decoder source (R178). -/
  serial : Nat
  /-- width (R175). -/
  w : Nat
  /-- height (R175). -/
  h : Nat
  /-- 10-bit samples (R180). -/
  ten : Bool
  /-- content of a decoder picture (R175). -/
  img : Config.Img
  /-- planes of a canvas (R175). -/
  planes : List Nat × List Nat × List Nat
  /-- layout hints of a canvas (R185). -/
  hints : List Word
deriving DecidableEq, Repr

/-- SrcPic at reset. -/
def SrcPic.reset : SrcPic where
  ts := 0
  relNs := 0
  number := 0
  serial := 0
  w := 0
  h := 0
  ten := false
  img := .grey 8
  planes := ([], [], [])
  hints := []

/-- A coded block and its vector in 1/8 of a sample (R183). -/
structure MvBlock where
  /-- column (R183). -/
  x : Nat
  /-- row (R183). -/
  y : Nat
  /-- width (R182). -/
  w : Nat
  /-- height (R182). -/
  h : Nat
  /-- chosen vector; none: intra (R183). -/
  vec : Option (Int × Int)
  /-- coded as skip (R185). -/
  skip : Bool
deriving DecidableEq, Repr

/-- MvBlock at reset. -/
def MvBlock.reset : MvBlock where
  x := 0
  y := 0
  w := 0
  h := 0
  vec := none
  skip := false

/-- A picture that an encoder refers to (R191). -/
structure EncRef where
  /-- output order (R191). -/
  order : Int
  /-- temporal layer (R181). -/
  tid : Nat
  /-- frame number (R191). -/
  frameNo : Nat
  /-- reconstruction (R191). -/
  token : BitVec 64
  /-- its blocks (R183). -/
  blocks : List MvBlock
deriving DecidableEq, Repr

/-- EncRef at reset. -/
def EncRef.reset : EncRef where
  order := 0
  tid := 0
  frameNo := 0
  token := 0
  blocks := []

/-- Reference state of a spatial layer of an encoder (R191). -/
structure EncLayer where
  /-- newest emitted picture of each temporal layer (R191). -/
  slots : Tbl EncRef
  /-- most recent emitted picture (R191). -/
  last : Option EncRef
  /-- temporal layers whose newest picture was discarded (R191). -/
  gone : List Nat
  /-- frame number of the next picture (R191). -/
  frameNo : Nat
  /-- vectors chosen in the previous picture (R183). -/
  vecs : List (Int × Int)
  /-- state of the entropy coder (R190). -/
  entropy : BitVec 64
  /-- temporal layer of the last picture of T0 or T1 (R181, R191). -/
  prevTid : Nat
deriving DecidableEq, Repr

/-- EncLayer at reset. -/
def EncLayer.reset : EncLayer where
  slots := []
  last := none
  gone := []
  frameNo := 0
  vecs := []
  entropy := 0
  prevTid := 0

/-- What an effort level enables (R182). -/
structure EffortTools where
  /-- references of a picture (R182). -/
  refs : Nat
  /-- smallest inter partition (R182). -/
  smallest : Nat
  /-- candidates of a partition whose rate-distortion cost is taken; 0 none, 255 every one (R182). -/
  rdBest : Nat
  /-- eighth-sample vectors (R182). -/
  eighth : Bool
  /-- 0 fixed strength, 1 chosen for the picture, 2 with the search of CDEF and restoration, ALF or SAO (R182). -/
  filters : Nat
  /-- coarse search of the whole window (R182). -/
  coarse : Bool
deriving DecidableEq, Repr

/-- EffortTools at reset. -/
def EffortTools.reset : EffortTools where
  refs := 1
  smallest := 16
  rdBest := 0
  eighth := false
  filters := 0
  coarse := false

/-- A job that is ready or in service (R157). -/
structure VJob where
  /-- what it does (R157). -/
  kind : JobKind
  /-- its context, or repair job (R157). -/
  key : Nat
  /-- deadline in TSU ns; none: one that has none (R157, R159). -/
  deadline : Option Nat
  /-- core time that it has taken (R168). -/
  heldNs : Nat
deriving DecidableEq, Repr

/-- VJob at reset. -/
def VJob.reset : VJob where
  kind := .decode
  key := 0
  deadline := none
  heldNs := 0

/-- An encode job: the source picture and the settings in force at its start (R177, R189, R192). -/
structure EncJob where
  /-- key picture (R193). -/
  key : Bool
  /-- it begins a coded sequence (R187). -/
  first : Bool
  /-- temporal layer (R181). -/
  tid : Nat
  /-- target in force at its start (R189). -/
  target : Nat
  /-- output stream (R202). -/
  out : Nat
  /-- width (R202). -/
  w : Nat
  /-- height (R202). -/
  h : Nat
  /-- codec code (R202). -/
  codec : Nat
  /-- scalable structure (R181). -/
  struct_ : Nat
  /-- R_max (R186). -/
  rmax : Nat
  /-- D (R186). -/
  dMs : Nat
  /-- maximum payload (R202). -/
  payload : Nat
  /-- spatial shares, S0 first (R202). -/
  shares : List Nat
  /-- source frame rate (R189). -/
  rate : Nat
  /-- frame divisor (R202). -/
  div : Nat
  /-- source picture (R178). -/
  pic : SrcPic
  /-- tools of the effort in force (R182, R192). -/
  tools : EffortTools
  /-- 10-bit (R180). -/
  ten : Bool
  /-- AVC High (R180). -/
  high : Bool
  /-- picture order count or order hint (R191). -/
  order : Int
deriving DecidableEq, Repr

/-- EncJob at reset. -/
def EncJob.reset : EncJob where
  key := false
  first := false
  tid := 0
  target := 0
  out := 0
  w := 0
  h := 0
  codec := 8
  struct_ := 0
  rmax := 0
  dMs := 0
  payload := 0
  shares := []
  rate := 1
  div := 1
  pic := SrcPic.reset
  tools := EffortTools.reset
  ten := false
  high := false
  order := 0

/-- An encoder context (R175, R176, R202). -/
structure Enc where
  /-- state (R176). -/
  state : EncState
  /-- output stream (R202). -/
  out : Nat
  /-- source kind: decoder context (R202). -/
  fromDec : Bool
  /-- source index (R202). -/
  src : Nat
  /-- width (R202). -/
  w : Nat
  /-- height (R202). -/
  h : Nat
  /-- codec code (R202). -/
  codec : Nat
  /-- scalable structure (R181). -/
  struct_ : Nat
  /-- effort as set, 7 mode default (R202). -/
  effortSet : Nat
  /-- effort in force (R202). -/
  effort : Nat
  /-- 10-bit (R202). -/
  ten : Bool
  /-- AVC High (R202). -/
  high : Bool
  /-- motion hints (R202). -/
  hints : Bool
  /-- frame divisor (R202). -/
  div : Nat
  /-- R_max (R202). -/
  rmax : Nat
  /-- D (R202). -/
  dMs : Nat
  /-- target in force (R202). -/
  target : Nat
  /-- maximum payload (R202). -/
  payload : Nat
  /-- spatial shares, S0 first (R202). -/
  shares : List Nat
  /-- source pictures since the last one kept (R176). -/
  divCount : Nat
  /-- place in the temporal pattern (R181). -/
  phase : Nat
  /-- fullness F_o (R187). -/
  full : List Int
  /-- budget of discarded pictures (R189). -/
  carry : List Nat
  /-- source picture waiting (R178). -/
  waitPic : Option SrcPic
  /-- job in service (R177). -/
  job : Option EncJob
  /-- source skips whose frame intervals are still to be added (R188). -/
  owed : Nat
  /-- the next picture is a key picture (R193). -/
  keyNext : Bool
  /-- a Plumb key request waits for the 1 s interval (R193). -/
  keyAsk : Bool
  /-- last key picture asked by Plumb (R193). -/
  lastKeyReq : Option Nat
  /-- a new coded sequence starts (R192). -/
  newSeq : Bool
  /-- consecutive source skips (R178). -/
  skipRow : Nat
  /-- consecutive discarded key pictures (R191). -/
  keyFails : Nat
  /-- pictures emitted (R202). -/
  emitted : Nat
  /-- key pictures emitted (R202). -/
  keys : Nat
  /-- skip-filled pictures (R202). -/
  skipFill : Nat
  /-- discarded pictures (R202). -/
  discards : Nat
  /-- source skips (R202). -/
  skips : Nat
  /-- H over the last second (R202). -/
  lowH : List (Nat × Nat)
  /-- pinned target (R249). -/
  pinned : Option Nat
  /-- computed target (R244). -/
  fine : Nat
  /-- legs counted (R253). -/
  legs : Nat
  /-- hidden context of a bridged rendition (R199). -/
  hidden : Bool
  /-- release waits for the job in service (R176). -/
  releasing : Bool
  /-- row costs of the last picture of each spatial layer (R190). -/
  rowPlan : List (List Nat)
  /-- budget of the last picture of each spatial layer (R189). -/
  budgets : List Nat
  /-- binding and number of the last source picture (R178). -/
  lastSrc : Option (Nat × Nat)
  /-- output order of the next picture (R191). -/
  order : Int
  /-- reference state of each spatial layer (R191). -/
  refs : List EncLayer
  /-- quantisers of the rows of the last picture of each layer (R190). -/
  quants : List (List Int)
  /-- GOV_OVERRIDE functions 4 and 5 accepted for the next publication: function and rate (R250, R253). -/
  ovNew : List (Nat × Nat)
deriving DecidableEq, Repr

/-- Enc at reset. -/
def Enc.reset : Enc where
  state := .ready
  out := 0
  fromDec := false
  src := 0
  w := 0
  h := 0
  codec := 8
  struct_ := 0
  effortSet := 7
  effort := 1
  ten := false
  high := false
  hints := false
  div := 1
  rmax := 0
  dMs := 0
  target := 0
  payload := 0
  shares := []
  divCount := 0
  phase := 0
  full := []
  carry := []
  waitPic := none
  job := none
  owed := 0
  keyNext := true
  keyAsk := false
  lastKeyReq := none
  newSeq := true
  skipRow := 0
  keyFails := 0
  emitted := 0
  keys := 0
  skipFill := 0
  discards := 0
  skips := 0
  lowH := []
  pinned := none
  fine := 0
  legs := 0
  hidden := false
  releasing := false
  rowPlan := []
  budgets := []
  lastSrc := none
  order := 0
  refs := []
  quants := []
  ovNew := []

/-- A picture to synthesise (R196). -/
structure HeldPic where
  /-- RTP timestamp (R196). -/
  ts : Word
  /-- spatial layer (R196). -/
  sid : Nat
  /-- output order (R196). -/
  order : Int
  /-- frame number that it reproduces (R197). -/
  frameNo : Nat
  /-- slots or pictures that hold it (R196). -/
  slots : List Nat
  /-- the picture shown at the live point (R196). -/
  shown : Bool
  /-- width (R196). -/
  w : Nat
  /-- height (R196). -/
  h : Nat
deriving DecidableEq, Repr

/-- HeldPic at reset. -/
def HeldPic.reset : HeldPic where
  ts := 0
  sid := 0
  order := 0
  frameNo := 0
  slots := []
  shown := false
  w := 0
  h := 0

/-- A repair job (R194-R201). -/
structure Job where
  /-- source stream (R194). -/
  stream : Nat
  /-- mask (R194). -/
  mask : Nat
  /-- entries served (R194). -/
  entries : List Nat
  /-- phase (R196). -/
  phase : JobPhase
  /-- when it started (R200). -/
  startNs : Nat
  /-- record number of the random access point (R196). -/
  rap : Nat
  /-- live point's RTP timestamp, once fixed (R196). -/
  live : Option Word
  /-- pictures to synthesise in coding order: timestamp, spatial layer, luma samples (R196). -/
  held : List HeldPic
  /-- slots or pictures that they fill (R198). -/
  slots : List Nat
  /-- hidden decoder context (R196). -/
  hidDec : Nat
  /-- hidden encoder context (R199). -/
  hidEnc : Option Nat
  /-- bridged rendition (R199). -/
  bridged : Bool
  /-- keyframe request of the bridged limit sent (R199). -/
  asked : Bool
  /-- the sender's parameter sets active at the live point (R196). -/
  params : List ParamSet
deriving DecidableEq, Repr

/-- Job at reset. -/
def Job.reset : Job where
  stream := 0
  mask := 0
  entries := []
  phase := .catchUp
  startNs := 0
  rap := 0
  live := none
  held := []
  slots := []
  hidDec := 0
  hidEnc := none
  bridged := false
  asked := false
  params := []

/-- A record the decoder posts to Plumb (R167). -/
structure DecRecord where
  /-- context (R167). -/
  ctx : Nat
  /-- stream (R167). -/
  stream : Nat
  /-- RTP timestamp (R167). -/
  ts : Word
  /-- concealed fraction (R167). -/
  frac : Nat
  /-- refresh need (R167). -/
  need : Bool
  /-- degraded (R167). -/
  degraded : Bool
  /-- substituted (R167). -/
  subst : Bool
  /-- refresh (R167). -/
  refresh : Bool
  /-- discarded (R167). -/
  discarded : Bool
  /-- syntax errors (R167). -/
  errs : Nat
  /-- of a hidden context (R167, R199). -/
  hidden : Bool
  /-- TSU time at which it was posted (R167, R232). -/
  atNs : Nat
deriving DecidableEq, Repr

/-- DecRecord at reset. -/
def DecRecord.reset : DecRecord where
  ctx := 0
  stream := 0
  ts := 0
  frac := 0
  need := false
  degraded := false
  subst := false
  refresh := false
  discarded := false
  errs := 0
  hidden := false
  atNs := 0

/-- Video Codec Array (Gouge). -/
structure Vca where
  /-- decoder contexts not FREE (R148). -/
  decs : Tbl Dec
  /-- encoder contexts not FREE (R175). -/
  encs : Tbl Enc
  /-- cores (R146). -/
  cores : List Gouge
  /-- repair jobs (R194). -/
  jobs : Tbl Job
  /-- next job number (R194). -/
  jobNo : Nat
  /-- synthesis share, 255 mode default (R204). -/
  share : Nat
  /-- bridged renditions allowed (R204). -/
  allowBridge : Bool
  /-- AV1 synthesis allowed (R204). -/
  allowAv1 : Bool
  /-- VVC synthesis allowed (R204). -/
  allowVvc : Bool
  /-- burst limit (R204). -/
  burstMs : Nat
  /-- bridged limit (R204). -/
  bridgeS : Nat
  /-- policy waiting for the next epoch boundary (R204). -/
  polNew : Option (Nat × Nat × Nat × Nat)
  /-- records posted to Plumb (R167). -/
  records : List DecRecord
  /-- results of entry repairs asked by VID_KEYFRAME, to be reported (R203). -/
  results : List (Nat × Nat)
  /-- jobs ready or in service, in order of arrival (R157). -/
  sched : List VJob
  /-- start of the epoch whose core time is accounted (R157). -/
  epochNs : Nat
  /-- core time in that epoch of jobs that have left their cores: decode, encode, without deadline (R157, R159). -/
  used : Nat × Nat × Nat
  /-- bindings made (R156). -/
  bindNo : Nat
  /-- pictures of freed contexts that Ashlar holds: binding, number, bytes (R156). -/
  orphans : List (Nat × Nat × Nat)
  /-- status words of encoder contexts that are FREE, counters kept until a set (R202). -/
  encOld : Tbl (List Word)
  /-- status words of decoder contexts that are FREE, counters kept until a binding (R173). -/
  decOld : Tbl (List Word)
deriving DecidableEq, Repr

/-- Vca at reset. -/
def Vca.reset : Vca where
  decs := []
  encs := []
  cores := List.replicate 32 Gouge.reset
  jobs := []
  jobNo := 0
  share := 255
  allowBridge := true
  allowAv1 := true
  allowVvc := true
  burstMs := 250
  bridgeS := 10
  polNew := none
  records := []
  results := []
  sched := []
  epochNs := 0
  used := (0, 0, 0)
  bindNo := 0
  orphans := []
  encOld := []
  decOld := []

/-- A picture that a layer latches or may latch (R209, R218). -/
structure LayerPic where
  /-- source kind: 0 decoder context, 1 image slot, 2 canvas (R210). -/
  kind : Nat
  /-- source index (R210). -/
  src : Nat
  /-- fence sequence or frame count (R218). -/
  number : Nat
  /-- width (R229). -/
  w : Nat
  /-- height (R229). -/
  h : Nat
  /-- 10-bit samples (R205). -/
  ten : Bool
  /-- fence time (R220). -/
  fenceNs : Nat
  /-- planes of a canvas's frame; a decoder's and an image's stay with their source (R225). -/
  planes : List Nat × List Nat × List Nat
  /-- binding of the context that produced it (R156). -/
  serial : Nat
  /-- content of a decoder picture (R209). -/
  img : Config.Img
deriving DecidableEq, Repr

/-- LayerPic at reset. -/
def LayerPic.reset : LayerPic where
  kind := 0
  src := 0
  number := 0
  w := 0
  h := 0
  ten := false
  fenceNs := 0
  planes := ([], [], [])
  serial := 0
  img := .grey 8

/-- What a layer shows (R209). -/
structure Shown where
  /-- 0 nothing yet, 1 live, 2 previous, 3 placeholder, 4 fill (R229). -/
  what : Nat
  /-- the shown picture (R209). -/
  pic : Option LayerPic
  /-- unfit (R215). -/
  unfit : Bool
  /-- consecutive misses (R220). -/
  misses : Nat
deriving DecidableEq, Repr

/-- Shown at reset. -/
def Shown.reset : Shown where
  what := 0
  pic := none
  unfit := false
  misses := 0

/-- A layer (R209, R229). -/
structure Layer where
  /-- settings in force; empty before the first deadline (R229). -/
  set : LayerSet
  /-- settings accepted for the next deadline (R222). -/
  next : Option LayerSet
  /-- staged settings; empty for a staged clear (R222). -/
  staged : Option LayerSet
  /-- cleared at the next deadline (R229). -/
  gone : Bool
  /-- newest picture eligible and not latched (R218). -/
  wait : Option LayerPic
  /-- newest picture of the source judged (R218). -/
  seen : Option Nat
  /-- what it shows (R209). -/
  shown : Shown
  /-- pictures latched (R229). -/
  latched : Nat
  /-- late deadlines (R229). -/
  late : Nat
  /-- pictures superseded (R229). -/
  super : Nat
  /-- pictures skipped (R229). -/
  skipped : Nat
  /-- the next deadline to run came before `next` or `gone` was accepted (R222, R229). -/
  skip : Bool
  /-- pictures that its source has fenced or finished and no deadline has judged, oldest first, each with its concealed fraction (R218). -/
  offers : List (LayerPic × Nat)
  /-- settings whose crop the shown picture takes: those of its own source (R215, R222). -/
  cropSet : LayerSet
deriving DecidableEq, Repr

/-- Layer at reset. -/
def Layer.reset : Layer where
  set := []
  next := none
  staged := none
  gone := false
  wait := none
  seen := none
  shown := Shown.reset
  latched := 0
  late := 0
  super := 0
  skipped := 0
  skip := false
  offers := []
  cropSet := []

/-- A visible layer as drawn in a frame, bottom first (R216, R226). -/
structure Drawn where
  /-- layer (R226). -/
  layer : Nat
  /-- destination x (R226). -/
  x : Nat
  /-- destination y (R226). -/
  y : Nat
  /-- destination width (R226). -/
  w : Nat
  /-- destination height (R226). -/
  h : Nat
  /-- occluder (R216). -/
  occl : Bool
  /-- picture drawn: kind, source, number, binding and fence time; none for a fill colour (R226). -/
  pic : Option (List Nat)
  /-- crop (R226). -/
  crop : List Nat
  /-- poisoned tiles of it (R21, R226). -/
  bad : List (Nat × Nat)
deriving DecidableEq, Repr

/-- Drawn at reset. -/
def Drawn.reset : Drawn where
  layer := 0
  x := 0
  y := 0
  w := 0
  h := 0
  occl := false
  pic := none
  crop := []
  bad := []

/-- A flip group (R221). -/
structure FlipGroup where
  /-- hold-off (R221). -/
  holdMs : Nat
  /-- pending (R221). -/
  pending : Bool
  /-- earliest fence time (R221). -/
  first : Nat
  /-- flips held (R231). -/
  held : Nat
deriving DecidableEq, Repr

/-- FlipGroup at reset. -/
def FlipGroup.reset : FlipGroup where
  holdMs := 4
  pending := false
  first := 0
  held := 0

/-- An image slot (R230). -/
structure Image where
  /-- width (R230). -/
  w : Nat
  /-- height (R230). -/
  h : Nat
  /-- chunks stored (R230). -/
  pix : List Word
  /-- loaded (R230). -/
  loaded : Bool
  /-- every alpha is 255 (R212). -/
  solid : Bool
  /-- conversion running (R230). -/
  converting : Bool
  /-- luma (R212). -/
  y : List Nat
  /-- Cb at 4:2:0 (R212). -/
  cb : List Nat
  /-- Cr at 4:2:0 (R212). -/
  cr : List Nat
  /-- alpha (R212). -/
  alpha : List Nat
  /-- POOL_7 buffers held (R230). -/
  bufs : List Nat
deriving DecidableEq, Repr

/-- Image at reset. -/
def Image.reset : Image where
  w := 0
  h := 0
  pix := []
  loaded := false
  solid := false
  converting := false
  y := []
  cb := []
  cr := []
  alpha := []
  bufs := []

/-- A canvas (R205, R228). -/
structure Canvas where
  /-- width (R228). -/
  w : Nat
  /-- height (R228). -/
  h : Nat
  /-- frame rate (R228). -/
  rate : Nat
  /-- 10-bit (R228). -/
  ten : Bool
  /-- second destination (R228). -/
  dest : Nat
  /-- hints (R228). -/
  hints : Bool
  /-- background Y, Cb, Cr (R228). -/
  bg : Nat × Nat × Nat
  /-- word 4 (R228). -/
  param : Word
  /-- phase (R228). -/
  phaseUs : Nat
  /-- die (R205). -/
  die : Nat
  /-- TSU second of the next frame (R206). -/
  sec : Nat
  /-- index of the next frame in that second (R206). -/
  k : Nat
  /-- layers (R209). -/
  layers : Tbl Layer
  /-- flip groups set or pending; unlisted default (R221). -/
  groups : Tbl FlipGroup
  /-- CANVAS_SET accepted for the next deadline (R222). -/
  changes : Option (List Word)
  /-- frames being composed, oldest first: when each must have ended, and its planes (R219). -/
  composing : List (Nat × Nat × List Nat × List Nat × List Nat)
  /-- planes of the newest finished frame (R208). -/
  frame : List Nat × List Nat × List Nat
  /-- visible layers of the last flip (R226). -/
  drawn : List Drawn
  /-- end of composition of the newest finished frame (R218). -/
  frameNs : Nat
  /-- frames composed (R228). -/
  frames : Nat
  /-- late compositions (R228). -/
  late : Nat
  /-- consecutive late compositions (R219). -/
  lateRow : Nat
  /-- second-destination drops (R228). -/
  drops : Nat
  /-- hints of the last frame (R226). -/
  hintsOut : List Word
  /-- working memory reserved (R208). -/
  workBytes : Nat
  /-- frames since the last one stored in Cairn (R224). -/
  nth : Nat
  /-- frame time of the newest finished frame, ns (R179, R206). -/
  frameAt : Nat
  /-- the next deadline to run came before `changes` was accepted (R222). -/
  skip : Bool
deriving DecidableEq, Repr

/-- Canvas at reset. -/
def Canvas.reset : Canvas where
  w := 0
  h := 0
  rate := 0
  ten := false
  dest := 0
  hints := false
  bg := (0, 0, 0)
  param := 0
  phaseUs := 0
  die := 0
  sec := 0
  k := 0
  layers := []
  groups := []
  changes := none
  composing := []
  frame := ([], [], [])
  drawn := []
  frameNs := 0
  frames := 0
  late := 0
  lateRow := 0
  drops := 0
  hintsOut := []
  workBytes := 0
  nth := 0
  frameAt := 0
  skip := false

/-- Layer Compositor (Ashlar). -/
structure Lco where
  /-- canvases (R205). -/
  canvases : Tbl Canvas
  /-- image slots in use (R230). -/
  images : Tbl Image
deriving DecidableEq, Repr

/-- Lco at reset. -/
def Lco.reset : Lco where
  canvases := []
  images := []

/-- Parameters of a leg class (R248). -/
structure ClassP where
  /-- minimum rate (R248). -/
  minR : Nat
  /-- cap (R248). -/
  cap : Nat
  /-- start rate (R248). -/
  start : Nat
  /-- increase limit, 0 mode default (R248). -/
  up : Nat
  /-- decrease factor, 0 mode default (R248). -/
  down : Nat
  /-- fairness weight (R248). -/
  weight : Nat
  /-- Opus minimum (R248). -/
  opusMin : Nat
  /-- Opus maximum (R248). -/
  opusMax : Nat
  /-- FEC maximum (R248). -/
  fecMax : Nat
  /-- playout delay (R248). -/
  playout : Nat
  /-- switch wait (R248). -/
  wait : Nat
  /-- refresh method (R248). -/
  method : Nat
  /-- trace estimates (R248). -/
  trace : Bool
deriving DecidableEq, Repr

/-- ClassP at reset. -/
def ClassP.reset : ClassP where
  minR := 30
  cap := 20000
  start := 300
  up := 0
  down := 0
  weight := 16
  opusMin := 12
  opusMax := 40
  fecMax := 25
  playout := 40
  wait := 1000
  method := 0
  trace := false

/-- A send record (R235). -/
structure SendRec where
  /-- transport-wide sequence (R235). -/
  twcc : Nat
  /-- output SSRC (R235). -/
  ssrc : Word
  /-- sequence (R235). -/
  seq : Nat
  /-- wire size (R235). -/
  size : Nat
  /-- send time (R235). -/
  sentNs : Nat
  /-- reported arrival (R235). -/
  arrNs : Option Nat
  /-- reported on (R235). -/
  reported : Bool
  /-- when reported (R235). -/
  repNs : Nat
  /-- sent for an AUD entry (R235). -/
  aud : Bool
deriving DecidableEq, Repr

/-- SendRec at reset. -/
def SendRec.reset : SendRec where
  twcc := 0
  ssrc := 0
  seq := 0
  size := 0
  sentNs := 0
  arrNs := none
  reported := false
  repNs := 0
  aud := false

/-- A leg's estimates as last published (R232, R253). -/
structure GovShown where
  /-- estimator state (R253). -/
  state : GovState
  /-- A_delay (R253). -/
  aDelay : Nat
  /-- A_loss (R253). -/
  aLoss : Nat
  /-- acked rate (R253). -/
  acked : Nat
  /-- p (R253). -/
  lossP : Nat
  /-- trend (R253). -/
  trend : Int
  /-- gamma (R253). -/
  gamma : Int
deriving DecidableEq, Repr

/-- GovShown at reset. -/
def GovShown.reset : GovShown where
  state := .normal
  aDelay := 20000
  aLoss := 300
  acked := 0
  lossP := 0
  trend := 0
  gamma := 819200

/-- Plumb's decision for one leg, computed in an epoch and published at its end (R232, R234). -/
structure Decision where
  /-- R of the rate controller (R237). -/
  rate : Nat
  /-- 0 hold, 1 increase, 2 decrease (R253). -/
  action : Nat
  /-- in-band FEC (R239). -/
  inband : Bool
  /-- FEC share (R239). -/
  fecPc : Nat
  /-- audio rate a (R235). -/
  audio : Nat
deriving DecidableEq, Repr

/-- Decision at reset. -/
def Decision.reset : Decision where
  rate := 0
  action := 0
  inband := false
  fecPc := 0
  audio := 0

/-- Governance of one leg (R235-R253). -/
structure Gov where
  /-- send records (R235). -/
  sent : List SendRec
  /-- estimator state (R236). -/
  state : GovState
  /-- acc (R236). -/
  acc : Int
  /-- sm (R236). -/
  sm : Int
  /-- window of (arrival, sm) (R236). -/
  win : List (Int × Int)
  /-- groups seen (R236). -/
  groups : Nat
  /-- gamma (12.5 ms) (R236). -/
  gamma : Int
  /-- trend (R236). -/
  trend : Int
  /-- previous trend (R236). -/
  prevTrend : Int
  /-- over_time (R236). -/
  overTime : Int
  /-- last_adapt (R236). -/
  lastAdapt : Option Int
  /-- previous group's send and arrival (R236). -/
  lastArr : Option (Int × Int)
  /-- delay samples have been received (R235). -/
  haveDelay : Bool
  /-- loss p (R235). -/
  lossP : Nat
  /-- fraction lost of the latest RR report block (R235). -/
  lossRr : Nat
  /-- acked rate (R235). -/
  acked : Nat
  /-- jitter (R235). -/
  jitterUs : Nat
  /-- srtt; 100 ms before any sample (R235). -/
  srtt : Option Nat
  /-- A_delay (R237). -/
  aDelay : Nat
  /-- A_loss (R237). -/
  aLoss : Nat
  /-- publication of the last decrease (R237). -/
  lastDec : Option Nat
  /-- R as last published (R237). -/
  rate : Nat
  /-- estimates as last published (R253). -/
  shown : GovShown
  /-- estimate computed, to be published (R232). -/
  next : Option Decision
  /-- 0 hold, 1 increase, 2 decrease (R253). -/
  action : Nat
  /-- fair share when limited (R253). -/
  fair : Option Nat
  /-- decided Opus bitrate (R239). -/
  opus : Nat
  /-- in-band FEC (R239). -/
  inband : Bool
  /-- FEC share in % (R239). -/
  fecPc : Nat
  /-- video budget V (R239). -/
  video : Nat
  /-- pin (R249). -/
  pin : Option Nat
  /-- cap (R249). -/
  capR : Option Nat
  /-- frozen (R249). -/
  frozen : Bool
  /-- overrides waiting for the next publication, in order of arrival (R250). -/
  ovNew : List (Nat × Nat)
  /-- requests sent (R253). -/
  requests : Nat
  /-- repairs (R253). -/
  repairs : Nat
  /-- epochs carried over (R253). -/
  carried : Nat
  /-- Plumb has published R for the leg (R383). -/
  published : Bool
  /-- increase limit in force this epoch (R237). -/
  up : Nat
  /-- decrease factor in force this epoch (R237). -/
  beta : Nat
  /-- receiver reports (jitter in us, loss in 1/1,024) and round-trip times (us) that arrived at a boundary and belong to the next epoch (R232, R235, R251). -/
  later : List (Option (Nat × Nat) × Option Nat)
  /-- the override in force came from SHAPER_SET (R249). -/
  byShaper : Bool
deriving DecidableEq, Repr

/-- Gov at reset. -/
def Gov.reset : Gov where
  sent := []
  state := .normal
  acc := 0
  sm := 0
  win := []
  groups := 0
  gamma := 819200
  trend := 0
  prevTrend := 0
  overTime := 0
  lastAdapt := none
  lastArr := none
  haveDelay := false
  lossP := 0
  lossRr := 0
  acked := 0
  jitterUs := 0
  srtt := none
  aDelay := 0
  aLoss := 0
  lastDec := none
  rate := 0
  shown := GovShown.reset
  next := none
  action := 0
  fair := none
  opus := 0
  inband := false
  fecPc := 0
  video := 0
  pin := none
  capR := none
  frozen := false
  ovNew := []
  requests := 0
  repairs := 0
  carried := 0
  published := false
  up := 0
  beta := 850
  later := []
  byShaper := false

/-- Leg Governor (Plumb). -/
structure Lgv where
  /-- leg classes (R248). -/
  classes : List ClassP
  /-- class changes waiting for the next epoch boundary (R248). -/
  classNew : List (Nat × Nat × ClassP)
  /-- governance of legs (R232). -/
  legs : Tbl Gov
  /-- boundary of the computation in progress (R232). -/
  epoch : Nat
  /-- a computation awaits its publication (R232). -/
  computing : Bool
  /-- entries' refresh needs of the epoch ended (R246). -/
  needNow : List (Nat × Nat)
  /-- consecutive epochs with carry-over (R233). -/
  overRow : Nat
  /-- last LGV_PIN_OVERCOMMIT of each port (R250). -/
  pinEvt : Tbl Nat
  /-- decoder contexts in need of a refresh (R246). -/
  decNeeds : List Nat
  /-- the last epoch boundary that has passed (R33). -/
  boundNs : Nat
  /-- no epoch in progress since a step, until the next epoch boundary (R378). -/
  gap : Bool
  /-- mode default of the increase limit in force (R43). -/
  modeUp : Nat
  /-- mode default of the decrease factor in force (R43). -/
  modeDown : Nat
  /-- entries whose PLI or FIR arrived at a boundary and belongs to the next epoch (R232, R246, R251). -/
  needLater : List (Nat × Nat)
  /-- source and ceiling of each entry at the last computation (R251). -/
  ceilings : Tbl (Nat × Nat)
deriving DecidableEq, Repr

/-- Lgv at reset. -/
def Lgv.reset : Lgv where
  classes := List.replicate 8 ClassP.reset
  classNew := []
  legs := []
  epoch := 0
  computing := false
  needNow := []
  overRow := 0
  pinEvt := []
  decNeeds := []
  boundNs := 0
  gap := false
  modeUp := 80
  modeDown := 850
  needLater := []
  ceilings := []

/-- What the module sends or drives, as `State.out` records it (the model's own record, log 2). -/
inductive Output
  /-- A reply or event on a command queue (R331, R334); on the backup path with its destination. -/
  | packet (backup : Bool) (queue : Nat) (dest : Option (Addr × Nat)) (p : Packet)
  /-- The bootstrap responder's answer (R321). -/
  | boot (p : Packet)
  /-- A sideband answer: type and payload (R313). -/
  | sideband (type : Nat) (payload : List Nat)
  /-- A frame handed to its port (R388). -/
  | frame (port : Nat) (f : Frame)
  /-- A data frame to the host (R319). -/
  | data (d : DataFrame)
  /-- A cell sent on a Course port (9-12) or on the Quoin lanes (13): port, 16 times the cell type of R415 plus its kind, words
  (R121, R415, R416, R423). -/
  | cell (port kind : Nat) (words : List Word)
  /-- An upstream PLOAM message: type and words (R286). -/
  | ploam (type : Nat) (words : List Word)
  /-- An upstream burst: Alloc-ID, payload bytes, buffer report, dying-gasp indication (R292, R293). -/
  | burst (alloc bytes report : Nat) (dyingGasp : Bool)
  /-- An OMCI answer: transaction and words (R297). -/
  | omci (trans : Nat) (words : List Word)
  /-- A frame of the service Ethernet sent by Keystone: kind and words (R430). -/
  | eth (kind : Nat) (words : List Word)
  /-- A host-link control flit: 0 acknowledge, 1 NAK (R317). -/
  | flit (kind seq : Nat)
  /-- A fabric completion: master, status in R22 order, data read, mask of poisoned words (R22). -/
  | completion (master status : Nat) (data : List Nat) (mask : List Nat)
  /-- A gratuitous ARP, or for IPv6 an unsolicited NA, for an owned address (by index) on a port (R426). -/
  | announce (port address : Nat)
  /-- A pin driven: 0 SYNC, 1 EVT, with its level (R381, R476). -/
  | pin (which : Nat) (high : Bool)
  /-- A fence of a decoder context, with its 16-byte record (R171). -/
  | fence (ctx : Nat) (record : List Byte)
deriving DecidableEq, Repr


/-- The whole module, its waiting commands and what it has sent. -/
structure State where
  /-- control complex (R16). -/
  cpx : Cpx
  /-- flash and configuration (R438). -/
  flash : Flash
  /-- clock, power and reset (R16). -/
  cpr : Cpr
  /-- host link port (R16). -/
  hlp : Hlp
  /-- PON terminal (R16). -/
  ptu : Ptu
  /-- cluster and twin (R16). -/
  cti : Cti
  /-- time and sync (R16). -/
  tsu : Tsu
  /-- memory (R16). -/
  mss : Mss
  /-- buffer pools (R16). -/
  bpm : Bpm
  /-- forwarding (R16). -/
  fwe : Fwe
  /-- cipher (R16). -/
  cpe : Cpe
  /-- shaper (R16). -/
  tsh : Tsh
  /-- task dispatcher (R16). -/
  tds : Tds
  /-- audio (R16). -/
  aue : Aue
  /-- video codecs (R16). -/
  vca : Vca
  /-- compositor (R16). -/
  lco : Lco
  /-- governor (R16). -/
  lgv : Lgv
  /-- MODEL: what the module has sent, newest last (MODEL). -/
  out : List Output
  /-- MODEL: count of free values drawn (MODEL). -/
  free : Nat
  /-- MODEL: commands waiting, first in first out (MODEL). -/
  pending : List Instr
deriving DecidableEq, Repr

/-- The module right after reset: every field at the value the specification states for reset, and the values that
the assumption log names where it states none. -/
def State.reset : State where
  cpx := Cpx.reset
  flash := Flash.reset
  cpr := Cpr.reset
  hlp := Hlp.reset
  ptu := Ptu.reset
  cti := Cti.reset
  tsu := Tsu.reset
  mss := Mss.reset
  bpm := Bpm.reset
  fwe := Fwe.reset
  cpe := Cpe.reset
  tsh := Tsh.reset
  tds := Tds.reset
  aue := Aue.reset
  vca := Vca.reset
  lco := Lco.reset
  lgv := Lgv.reset
  out := []
  free := 0
  pending := []
end Sys2Proof.Machine
end

