-- ==== Sys2Proof/Machine/Ops.lean ====
section
/-!
DEFINITION. The shared operations: tables, bit fields, sparse byte memories, time, the command queues and their replies and
events, faults, twin triggers and resets. Every meaning is written over these.
-/

namespace Sys2Proof.Machine

/-! ### Tables, lists and fields -/

/-- The entry of a table at a key. -/
def tget {α : Type} : Tbl α → Nat → Option α
  | [], _ => none
  | (k, a) :: t, n => if k = n then some a else tget t n

/-- Whether a table holds a key. -/
def thas {α : Type} (t : Tbl α) (n : Nat) : Bool := (tget t n).isSome

/-- Writes an entry, keeping the keys rising. -/
def tset {α : Type} : Tbl α → Nat → α → Tbl α
  | [], n, a => [(n, a)]
  | (k, b) :: t, n, a => if n < k then (n, a) :: (k, b) :: t else if n = k then (n, a) :: t else (k, b) :: tset t n a

/-- Removes an entry. -/
def terase {α : Type} (t : Tbl α) (n : Nat) : Tbl α := t.filter fun e => e.1 ≠ n

/-- Changes the entry at a key, if there is one. -/
def tmod {α : Type} (t : Tbl α) (n : Nat) (f : α → α) : Tbl α := t.map fun e => if e.1 = n then (e.1, f e.2) else e

/-- The lowest key at or above n that a table with rising keys does not hold. -/
def tfree {α : Type} : Tbl α → Nat → Nat
  | [], n => n
  | (k, _) :: t, n => if k < n then tfree t n else if k = n then tfree t (n + 1) else n

/-- The keys of a table rise strictly. -/
def twf {α : Type} : Tbl α → Bool
  | [] => true
  | [_] => true
  | (k, _) :: (k', b) :: t => decide (k < k') && twf ((k', b) :: t)

/-- len bits of a word from bit lo. -/
def field (w : Word) (lo len : Nat) : Nat := (w.toNat >>> lo) % 2 ^ len

/-- One bit of a word. -/
def bit (w : Word) (i : Nat) : Bool := w.getLsbD i

/-- Parameter word i of a command, 0 past the end. -/
def word (c : Cmd) (i : Nat) : Word := c.words.getD i 0

/-- A word of a number, modulo 2^32. -/
def w32 (n : Nat) : Word := BitVec.ofNat 32 n

/-- A word of a signed number. -/
def i32 (n : Int) : Word := BitVec.ofInt 32 n

/-- The low and high words of a 64-bit number. -/
def w64 (n : Nat) : List Word := [w32 n, w32 (n / 2 ^ 32)]

/-- The 64-bit number in two words, low first. -/
def nat64 (lo hi : Word) : Nat := lo.toNat + hi.toNat * 2 ^ 32

/-- 1 for true. -/
def b1 (b : Bool) : Nat := if b then 1 else 0

/-- An increment of a 32-bit counter that saturates (R487). -/
def inc32 (n : Nat) (k : Nat := 1) : Nat := min (n + k) 0xFFFFFFFF

/-- An increment of a 64-bit counter that saturates (R88). -/
def inc64 (n : Nat) (k : Nat := 1) : Nat := min (n + k) 0xFFFFFFFFFFFFFFFF

/-- The first status whose case holds: the checks of a command in their stated order (R330, R529). -/
def firstFail : List (Bool × Status) → Option Status
  | [] => none
  | (b, st) :: cs => if b then some st else firstFail cs

/-- The signed 16-bit difference of two sequence numbers (R77). -/
def seqDiff (a b : BitVec 16) : Int := (a - b).toInt

/-- Sums the bits set in n, over k bits. -/
def popcount : Nat → Nat → Nat
  | 0, _ => 0
  | k + 1, n => n % 2 + popcount k (n / 2)

/-! ### Sparse byte memories -/

/-- The byte at an address; an unlisted address reads 0. -/
def readCell : List Host.Cell → Nat → Byte
  | [], _ => 0
  | (k, b) :: m, a => if k = a then b else readCell m a

/-- Writes one byte in canonical form: addresses strictly rising and no entry of value 0. -/
def writeCell : List Host.Cell → Nat → Byte → List Host.Cell
  | [], a, b => if b = 0 then [] else [(a, b)]
  | (k, c) :: m, a, b =>
    if a < k then (if b = 0 then (k, c) :: m else (a, b) :: (k, c) :: m)
    else if a = k then (if b = 0 then m else (a, b) :: m)
    else (k, c) :: writeCell m a b

/-- The n bytes from an address. -/
def readBytes (m : List Host.Cell) (a : Nat) : Nat → List Byte
  | 0 => []
  | n + 1 => readCell m a :: readBytes m (a + 1) n

/-- Writes bytes from an address upwards. -/
def writeBytes (m : List Host.Cell) (a : Nat) : List Byte → List Host.Cell
  | [] => m
  | b :: bs => writeBytes (writeCell m a b) (a + 1) bs

/-- A 32-bit little-endian read. -/
def readWord (m : List Host.Cell) (a : Nat) : Word := bytesWord (readBytes m a 4)

/-- A 32-bit little-endian write. -/
def writeWord (m : List Host.Cell) (a : Nat) (w : Word) : List Host.Cell := writeBytes m a (wordBytes w)

/-- The canonical form of a sparse memory: addresses strictly rising, no entry equal to what an unlisted address reads as. -/
def Memory.wf : List Host.Cell → Bool
  | [] => true
  | [(_, b)] => decide (b ≠ 0)
  | (a, b) :: (a', b') :: m => decide (b ≠ 0) && decide (a < a') && Memory.wf ((a', b') :: m)

/-! ### Free values -/

/-- Draws a free value: a value the specification leaves open. -/
def draw (s : State) : BitVec 64 × State := (Config.freeValue s.free, { s with free := s.free + 1 })

/-- A free value below a bound; any value when the bound is 0. -/
def drawBelow (n : Nat) (s : State) : Nat × State :=
  let (v, s) := draw s
  (v.toNat % n, s)

/-! ### Time -/

/-- TSU time in nanoseconds, the fraction dropped (R368). -/
def nowNs (s : State) : Nat := s.tsu.now / 65536

/-- A capture into the TSU tick domain: the time with an uncertainty of 2 to 3 ticks, a free value of 4 to 6 ns (R380, R464). -/
def capture (s : State) : Nat × State :=
  let (u, s) := drawBelow 131073 s
  (s.tsu.now + 262144 + u, s)

/-- A timestamp that a subsystem takes of an event: its capture into TSU time, in ns (R35, R464). -/
def stamp (s : State) : Nat × State :=
  let (cap, s) := capture s
  (cap / 65536, s)

/-- Clamp of a signed number. -/
def clampInt (lo hi x : Int) : Int := max lo (min hi x)

/-- TSU_INCR and TSU_INCR_DITHER for a relative correction in 2^-32, clamped to 200 ppm (R369, R376). -/
def setIncrement (c : Int) (s : State) : State :=
  let t := (0x200000000 + 2 * clampInt (-858993) 858993 c).toNat
  { s with tsu.incr := t / 65536, tsu.dither := t % 65536 }

/-- A slew in progress over n ns of the TSU clock: it removes its part of the offset and ends when none is left (R376). -/
def runSlew (n : Nat) (s : State) : State :=
  if s.tsu.slew = 0 then s
  else
    let left := s.tsu.slewLeft - n * s.tsu.slew
    if (0 < s.tsu.slewLeft ∧ 0 < left) ∨ (s.tsu.slewLeft < 0 ∧ left < 0) then { s with tsu.slewLeft := left }
    else setIncrement s.tsu.trim { s with tsu.slewLeft := 0, tsu.slew := 0 }

/-- Advances TSU time to an instant given in 2^-16 ns, if it lies ahead, with the always-on count and the slew in progress (R376,
R456). -/
def advanceTo (t : Nat) (s : State) : State :=
  if s.tsu.now < t then
    let n := (t - s.tsu.now) * 2 / s.tsu.incr
    runSlew n { s with tsu.now := t, cpr.aonNs := s.cpr.aonNs + n }
  else s

/-- Advances time to an instant of the always-on clock, in ns, if it lies ahead. -/
def advanceAon (t : Nat) (s : State) : State := advanceTo (s.tsu.now + ((t - s.cpr.aonNs) * s.tsu.incr + 1) / 2) s

/-- The first multiple of p (ns) strictly after the TSU time, in ns. -/
def nextBoundaryNs (p : Nat) (s : State) : Nat := (s.tsu.now / (p * 65536) + 1) * p

/-- The first multiple of p (ns) at or after the TSU time, in ns. -/
def atBoundaryNs (p : Nat) (s : State) : Nat := ((s.tsu.now + p * 65536 - 1) / (p * 65536)) * p

/-- The next boundary to come of period p (ns) after the last one met, which may have passed by less than a period. -/
def boundaryAfter (p last : Nat) (s : State) : Nat :=
  let a := atBoundaryNs p s
  if a ≤ last + 2 * p then last + p else a

/-- The next epoch boundary, in ns: the one after the last; after a step no epoch is in progress until the first boundary at or after
the new time (R33, R378). -/
def epochDue (s : State) : Nat :=
  if s.lgv.gap then atBoundaryNs 10000000 s else boundaryAfter 10000000 s.lgv.boundNs s

/-- The epoch boundary has come and its computation has not been made: what arrives now belongs to the next epoch (R232, R251). -/
def atBoundary (s : State) : Bool := decide (epochDue s ≤ nowNs s)

/-! ### Command queues, replies and events (R324-R338) -/

/-- The index of a queue in `Cpx.queues`: Q0-Q3 of the link, then of the backup path. -/
def queueIndex (backup : Bool) (queue : Nat) : Nat := queue % 4 + 4 * b1 backup

/-- A queue of the state. -/
def queueOf (s : State) (qi : Nat) : CmdQ := s.cpx.queues.getD qi CmdQ.reset

/-- Changes one queue. -/
def modQueue (qi : Nat) (f : CmdQ → CmdQ) (s : State) : State :=
  { s with cpx.queues := s.cpx.queues.modify qi f }

/-- Records an output. -/
def emit (o : Output) (s : State) : State := { s with out := s.out ++ [o] }

/-- Most parameter words of a packet on the queue's path (R326). -/
def pathWords (qi : Nat) : Nat := if qi < 4 then 4096 else 352

/-- The parts of a reply or event that does not fit its path (R332). fuel bounds the number of parts. -/
def splitPacket (limit : Nat) (p : Packet) : Nat → List Packet
  | 0 => [p]
  | n + 1 =>
    if p.words.length ≤ limit then [p]
    else { p with words := p.words.take limit, more := true } ::
      splitPacket limit { p with words := p.words.drop limit } n

/-- Sends n flits of a frame on a channel: each takes the next flit sequence and is kept for replay, the last 512 in all (R316,
R317). -/
def sendFlits (chan : Nat) : Nat → State → State
  | 0, s => s
  | n + 1, s =>
    let seq := s.hlp.txSeq
    sendFlits chan n { s with
      hlp.txSeq := (seq + 1) % 4096
      hlp.replay := (s.hlp.replay ++ [(⟨seq, chan, 1⟩ : Flit)]).drop (s.hlp.replay.length + 1 - 512) }

/-- Flits of a frame of n bytes (R326). -/
def flitsOf (bytes : Nat) : Nat := (bytes + 243) / 244

/-! ### The transmit side of the service Ethernet (R430, R432) -/

/-- Adds to a counter of the service Ethernet: 0 sent, 1 received, 2 collisions, 3 excessive collisions, 4 late collisions,
5 transmit drops, 6 receive overflow drops, 7 VLAN drops, 8 heartbeats received (R432). -/
def svcCount (i : Nat) (s : State) : State := { s with cti.svc.counters := s.cti.svc.counters.modify i fun n => inc32 n }

/-- Time of a frame of counted length n on the wire, in ns. -/
def svcWireNs (s : State) (n : Nat) : Nat := n * 8 * (if s.cti.svc.fast then 10 else 100)

/-- Removes the frames whose last bit has left by now, counting each as sent. -/
def svcDrain (s : State) : State :=
  let done := s.cti.svc.txq.filter fun f => f.stamp ≤ s.cpr.aonNs
  if done.isEmpty ∨ !s.cti.svc.up then s
  else
    { s with
      cti.svc.counters := s.cti.svc.counters.modify 0 fun n => inc32 n done.length
      cti.svc.txq := s.cti.svc.txq.filter fun f => s.cpr.aonNs < f.stamp, cti.svc.attempts := 0, cti.svc.backoff := 0 }

/-- The Quoin heartbeat is up: one came within 10 ms (R423, R425). -/
def quoinUp (s : State) : Bool := (s.cti.quoinNs.map fun t => decide (s.cpr.aonNs < t + 10000000)).getD false

/-- The transmit queue asks for 100 Mb/s when it exceeds 8 frames, under the automatic policy, and never while the Quoin heartbeat
is down; a restart takes the link down until it is negotiated (R430, R432). -/
def svcSpeedUp (s : State) : State :=
  if 8 < s.cti.svc.txq.length ∧ s.cti.svc.policy = 0 ∧ !s.cti.svc.fast ∧ (!s.cti.paired || quoinUp s) then
    { s with cti.svc.advert := 1, cti.svc.up := false }
  else s

/-- Places a frame in the transmit queue, to leave after those before it (R430). -/
def svcPlace (f : Frame) (s : State) : State :=
  let start := max s.cpr.aonNs (((s.cti.svc.txq.getLast?).map (·.stamp)).getD 0)
  svcSpeedUp { s with cti.svc.txq := s.cti.svc.txq ++ [{ f with stamp := start + svcWireNs s f.len }] }

/-- The number of an address's words in network byte order. -/
def addrNum (ws : List Word) : Nat := (wordsBytes ws).foldl (fun n b => n * 256 + b.toNat) 0

/-- Whether the module can reach a destination on the service segment: directly when it is on-link, else through the gateway of its
family (R432). -/
def svcRoute (s : State) (a : Addr) : Bool :=
  let v := s.cti.svc
  if a.v6 then
    decide (addrNum a.words / 2 ^ (128 - v.pfx6) = addrNum v.ip6 / 2 ^ (128 - v.pfx6)) || decide (addrNum v.gw6 ≠ 0)
  else decide (addrNum a.words / 2 ^ (32 - v.pfx4) = addrNum [v.ip4] / 2 ^ (32 - v.pfx4)) || decide (v.gw4 ≠ 0)

/-- Queues a datagram of Keystone's own on the service Ethernet; one with no route, or at a full queue, is a transmit drop. The counted
bytes are payload, UDP, IP and Ethernet overheads. Answers whether it was queued (R430, R432). -/
def svcSend (dest : Addr) (bytes : Nat) (s : State) : Bool × State :=
  let s := svcDrain s
  if !svcRoute s dest ∨ 64 ≤ s.cti.svc.txq.length then (false, svcCount 5 s)
  else
    let n := max 64 (bytes + 8 + (if dest.v6 then 40 else 20) + 18 + 4 * b1 (decide (s.cti.svc.vid ≠ 0)))
    (true, svcPlace { Frame.reset with port := 14, len := n } s)

/-! ### Packets -/

/-- Sends a packet with its tag to a destination on the backup path (R338). -/
def sendBackup (out : Output) (dest : Option (Addr × Nat)) (p : Packet) (s : State) : State :=
  match dest with
  | none => s
  | some d =>
    let (ok, s) := svcSend d.1 (36 + 4 * p.words.length) s
    if ok then emit out s else s

/-- Sends one packet on a queue: it takes the queue's next send sequence (R329). -/
def sendPacket (qi : Nat) (dest : Option (Addr × Nat)) (p : Packet) (s : State) : State :=
  let q := queueOf s qi
  let s := modQueue qi (fun q => { q with sendSeq := q.sendSeq + 1, txCredits := if qi < 4 then q.txCredits - 1 else q.txCredits }) s
  let out := Output.packet (decide (4 ≤ qi)) (qi % 4) dest { p with seq := q.sendSeq }
  if qi < 4 then emit out (sendFlits qi (flitsOf (20 + 4 * p.words.length)) s) else sendBackup out dest p s

/-- The packet of a stored event; word 0 holds the detail and the events lost (R324, R335). -/
def eventPacket (q : CmdQ) (e : EvRec) : Packet :=
  { event := true, opcode := e.code, tag := e.tag, status := e.status
    words := w32 (e.detail % 256 + (min q.lost 0xFFFF) * 65536) :: e.words }

/-- Sends what a link queue holds while credits last: replies first, then events, oldest first (R327, R337). fuel bounds the
number of packets. -/
def pumpLink (qi : Nat) : Nat → State → State
  | 0, s => s
  | n + 1, s =>
    let q := queueOf s qi
    if s.hlp.link ≠ .active ∨ q.txCredits = 0 then s
    else match q.outReplies with
      | p :: ps => pumpLink qi n (modQueue qi (fun q => { q with outReplies := ps }) (sendPacket qi none p s))
      | [] => match q.events with
        | e :: es =>
          pumpLink qi n (modQueue qi (fun q => { q with events := es, lost := 0 }) (sendPacket qi none (eventPacket q e) s))
        | [] => s

/-- Sends everything a queue may send now. The backup path has no credits (R338). -/
def pump (qi : Nat) (s : State) : State :=
  let q := queueOf s qi
  if qi < 4 then pumpLink qi (q.outReplies.length + q.events.length) s
  else
    let s := q.outReplies.foldl (fun s p => sendPacket qi q.replyTo p s) s
    modQueue qi (fun q => { q with outReplies := [] }) s

/-- Stores an event in a link queue's store, dropping the oldest general event when 1,024 are held (R337). -/
def storeEvent (qi : Nat) (e : EvRec) (s : State) : State :=
  pump qi <| modQueue qi (fun q =>
    if e.code ≠ 0x8008 ∧ 1024 ≤ (q.events.filter fun x => x.code ≠ 0x8008).length then
      let i := q.events.findIdx fun x => x.code ≠ 0x8008
      { q with events := q.events.eraseIdx i ++ [e], lost := min (q.lost + 1) 0xFFFF, evLost := inc32 q.evLost }
    else { q with events := q.events ++ [e] }) s

/-- Sends an event on the backup path with acknowledge requested and keeps it until it is acknowledged (R338). -/
def sendBackupEvent (queue : Nat) (e : EvRec) (s : State) : State :=
  let qi := 4 + queue
  let q := queueOf s qi
  let p := { eventPacket q e with ackReq := true, seq := q.sendSeq }
  match s.cpx.backupPeer with
  | none => s
  | some peer =>
    let s := sendPacket qi (some peer) p s
    { s with cpx.backupUnacked := s.cpx.backupUnacked ++ [⟨queue, e.code, e.tag, q.sendSeq, p, 0, s.cpr.aonNs⟩] }

/-- The queue that carries an event code (R334). -/
def eventQueue (code : Nat) : Nat := if code = 0x8002 ∨ code = 0x8005 then 1 else 0

/-- Raises an event: an unsubscribed one is not raised; a subscribed one goes to its queue's store, and to the backup path
when mirrored (R334-R338, R344). -/
def raiseEvent (code detail : Nat) (ws : List Word) (s : State) : State :=
  if (s.cpx.evMask >>> (code - 0x8001)) % 2 = 0 then s
  else
    let qi := eventQueue code
    let e : EvRec := { EvRec.reset with code := code, detail := detail, words := ws }
    let s1 := storeEvent qi { e with tag := (queueOf s qi).evNumber }
      (modQueue qi (fun q => { q with evNumber := q.evNumber + 1 }) s)
    if s.cpx.mirror ∧ s.cpx.backupOn then
      sendBackupEvent qi { e with tag := (queueOf s (4 + qi)).evNumber }
        (modQueue (4 + qi) (fun q => { q with evNumber := q.evNumber + 1 }) s1)
    else s1

/-- EVT_LEG (R89). -/
def evtLeg (detail leg : Nat) (ws : List Word) (s : State) : State := raiseEvent 0x8002 detail (w32 leg :: ws) s

/-- EVT_TWIN (R433). -/
def evtTwin (detail : Nat) (ws : List Word) (s : State) : State := raiseEvent 0x8006 detail ws s

/-- Ends a long operation: EVT_LONG_DONE with the command's tag on the command's queue (R333, R336). -/
def longDone (qi op : Nat) (tag : Word) (st : Status) (ws : List Word) (s : State) : State :=
  let e : EvRec := { code := 0x8008, tag := tag, status := st, detail := 0, words := w32 op :: ws }
  let s := modQueue qi (fun q =>
    { q with longOps := q.longOps.eraseIdx (q.longOps.findIdx fun l => l.op = op ∧ l.tag = tag) }) s
  if qi < 4 then storeEvent qi e s else sendBackupEvent (qi - 4) e s

/-- The long operation of an opcode and key that is outstanding: its queue and record. -/
def findLong (op key : Nat) (s : State) : Option (Nat × LongOp) :=
  (List.range 8).findSome? fun qi =>
    ((queueOf s qi).longOps.find? fun l => l.op = op ∧ l.key = key).map fun l => (qi, l)

/-- Ends the outstanding long operation of an opcode and key, if there is one. -/
def endLong (op key : Nat) (st : Status) (ws : List Word) (s : State) : State :=
  match findLong op key s with
  | some (qi, l) => longDone qi op l.tag st ws s
  | none => s

/-- Ends n long operations of an opcode and key. -/
def endLongs (op key : Nat) (ws : List Word) : Nat → State → State
  | 0, s => s
  | n + 1, s => endLongs op key ws n (endLong op key .ok ws s)

/-- Ends every outstanding long operation of an opcode and key. -/
def endEveryLong (op key : Nat) (ws : List Word) (s : State) : State :=
  endLongs op key ws ((s.cpx.queues.map fun q => (q.longOps.filter fun l => l.op = op ∧ l.key = key).length).sum) s

/-- Whether a long operation of an opcode is outstanding. -/
def longOpen (op : Nat) (s : State) : Bool := s.cpx.queues.any fun q => q.longOps.any fun l => l.op = op

/-! ### The twin's triggers (R425, R426) -/

/-! ### Power domains and CTI ports (R408, R467) -/

/-- A power domain (R498 numbering). -/
def domainOf (s : State) (d : Nat) : Domain := s.cpr.domains.getD d Domain.reset

/-- Changes one domain. -/
def modDomain (d : Nat) (f : Domain → Domain) (s : State) : State := { s with cpr.domains := s.cpr.domains.modify d f }

/-- A port: 0-3 Course, 4-5 Quoin. -/
def ctiPort (s : State) (p : Nat) : CtiPort := s.cti.ports.getD p CtiPort.reset

/-- Changes a port. -/
def modCtiPort (p : Nat) (f : CtiPort → CtiPort) (s : State) : State := { s with cti.ports := s.cti.ports.modify p f }

/-- A port that is enabled runs: its cage's domain is ON, no near-end loopback holds it, and a Course port needs a role (R346, R408, R467). -/
def portOn (s : State) (p : Nat) : Bool :=
  (ctiPort s p).enabled && !s.cpx.loopbacks.contains p && decide ((domainOf s (20 + p)).state = .on) && decide (p < 6) && (decide (4 ≤ p) || decide (s.cti.role ≠ 0))

/-- A port may send: it runs, and its pad is not held at its reset value (R469, R516). -/
def portSends (s : State) (p : Nat) : Bool := portOn s p && (ctiPort s p).plugged && !(domainOf s (20 + p)).latched

/-- A lane of the Quoin link can carry cells (R423). -/
def quoinSends (s : State) : Bool := portSends s 4 || portSends s 5

/-- Sends a twin control cell on the Quoin lanes; with neither lane running it is lost. A MIRROR's sequence is its record's number (R416,
R422, R423). -/
def sendTwin (kind : Nat) (ws : List Word) (s : State) : State :=
  let s := if kind = 1 then s else { s with cti.twinTxSeq := (s.cti.twinTxSeq + 1) % 2 ^ 32 }
  let n := if kind = 1 then s.cti.mirrorSent else s.cti.twinTxSeq
  if quoinSends s then emit (.cell 13 (64 + kind) ([w32 (kind + s.cti.position * 256), w32 n] ++ ws)) s else s

/-- Whether the partner is fit for a switch with this trigger code, as far as this module knows (R424, R425). -/
def twinFit (code : Nat) (s : State) : Bool :=
  if code = 4 ∧ s.cti.switchForced then
    (if s.cti.twin = 2 then decide (s.ptu.act = .o5) else bit ((s.cti.partnerHb.getD []).getD 0 0) 2) && s.cti.heartbeat
  else if code = 5 then decide (s.cti.fit % 16 = 15)
  else decide (s.cti.fit % 32 = 31) && !s.cti.resync

/-- A trigger raised on the active module: it stops all egress and sends TAKEOVER, or, when the standby is not fit, keeps the
legs and raises EVT_TWIN detail 6 (R425, R426). -/
def twinTrigger (code : Nat) (s : State) : State :=
  if s.cti.twin = 1 ∧ s.cti.paired ∧ s.cti.switching = none then
    if twinFit code s then
      sendTwin 2 [w32 code] <| evtTwin 4 [w32 code]
        { s with cti.switching := some code, cti.switchT := nowNs s, cti.egressStopped := true }
    else evtTwin 6 [w32 s.cti.fit] s
  else s

/-! ### Faults (R478-R485) -/

/-- The 32-byte log entry as 8 words (R483). -/
def faultWords (e : FaultEntry) : List Word :=
  w64 e.timeNs ++ [w32 (e.code + (b1 e.fatal + 2 * b1 e.restored + 4 * b1 e.unset) * 65536 + (min e.repeats 255) * 2 ^ 24),
    w32 e.number] ++ (e.params ++ [0, 0, 0, 0]).take 4

/-- Whether a fault folds into a logged entry: same code, same parameter 0, less than 1 s of always-on time (R484). -/
def folds (code : Nat) (params : List Word) (aonNs : Nat) (e : FaultEntry) : Bool :=
  !e.restored && decide (e.code = code ∧ e.params.getD 0 0 = params.getD 0 0 ∧ aonNs - e.bornNs < 1000000000)

/-- The fatal reaction of R480: admission stops, and the active of a pair raises trigger 2. -/
def fatalReaction (s : State) : State := twinTrigger 2 { s with cpx.fatal := true }

/-- Raises a fault: it is logged with the time of its capture and reported, or folded into an entry less than 1 s old (R35, R464, R480-R485). -/
def raiseFault (code : Nat) (params : List Word) (fatal : Bool) (s : State) : State :=
  let s := { s with cpx.faultLast := code, cpx.hdrFault := s.cpx.hdrFault.set (code / 4096) code }
  let i := s.cpx.faults.findIdx (folds code params s.cpr.aonNs)
  let s :=
    if i < s.cpx.faults.length then
      { s with cpx.faults := s.cpx.faults.modify i fun e => { e with repeats := min (e.repeats + 1) 255 } }
    else
      let num := (s.cpx.faultNum + 1) % 2 ^ 32
      let (now, s) := stamp s
      let e : FaultEntry :=
        { timeNs := now, code := code, fatal := fatal, restored := false, unset := decide (s.tsu.state = .unset)
          repeats := 0, number := num, params := params, bornNs := s.cpr.aonNs }
      raiseEvent 0x8001 (b1 fatal) (faultWords e)
        { s with cpx.faultNum := num, cpx.faults := (e :: s.cpx.faults).take 1000 }
  if fatal then fatalReaction s else s

/-- A recoverable fault. -/
def fault (code : Nat) (params : List Word) (s : State) : State := raiseFault code params false s

end Sys2Proof.Machine
end

