-- ==== Sys2Proof/Machine/Domains.lean ====
section
/-!
DEFINITION. Power domains and fences as the whole module sees them (R25, R40, R467, R494, R498).
-/

namespace Sys2Proof.Machine

/-- The subsystem of a power domain (R467). -/
def domainSub (d : Nat) : Nat := if d < 16 then 12 else if d < 18 then 13 else if d < 20 then 14 else if d < 27 then 4 else 5

/-- The instance group of a power domain within its subsystem (R494). -/
def domainInst (d : Nat) : Nat := if d < 16 then d else if d < 18 then d - 16 else if d < 20 then d - 18 else if d < 27 then d - 20 else 0

/-- The domains of a subsystem (R467, R494). -/
def subDomains (sub : Nat) : List Nat := (List.range 28).filter fun d => domainSub d = sub

/-- Whether an instance group is fenced or not ON (R494 inst_off). -/
def domainDown (s : State) (d : Nat) : Bool :=
  let x := domainOf s d
  x.fenced || decide (x.state ≠ .on)

/-- HDR_STATUS.inst_off of a subsystem (R494). -/
def instOff (s : State) (sub : Nat) : Nat :=
  ((subDomains sub).map fun d => b1 (domainDown s d) * 2 ^ domainInst d).sum

/-- Whether a whole subsystem window is fenced, draining or off: it is fenced as a whole, or it has groups and all are down
(R40). -/
def subDown (s : State) (sub : Nat) : Bool :=
  s.cpr.fencedSubs.contains sub ||
    (decide (sub = 12 ∨ sub = 13 ∨ sub = 14) && (subDomains sub).all fun d => domainDown s d)

/-- The power domain of an instance group (R467, R494). -/
def instDomain (sub inst : Nat) : Nat :=
  if sub = 12 then inst else if sub = 13 then 16 + inst else if sub = 14 then 18 + inst else if sub = 4 then 20 + inst else 27

/-- Instance groups of a subsystem (R343). -/
def instGroups (sub : Nat) : Nat :=
  if sub = 12 then 16 else if sub = 13 ∨ sub = 14 then 2 else if sub = 4 then 7 else if sub = 5 then 1 else 0

/-- Whether a fabric port is fenced, draining or off: that of a whole subsystem, or that of one of its instance groups (R22, R25). -/
def portDown (s : State) (sub inst : Nat) : Bool :=
  subDown s sub || (decide (inst < instGroups sub) && domainDown s (instDomain sub inst))

/-- The channel of an address (R254). -/
def channelOf (addr : Nat) : Nat := addr / 256 % 16

/-- A channel. -/
def chanOf (s : State) (ch : Nat) : MemCh := s.mss.chans.getD ch MemCh.reset

/-- Changes a channel. -/
def modChan (ch : Nat) (f : MemCh → MemCh) (s : State) : State := { s with mss.chans := s.mss.chans.modify ch f }

/-- Bytes of DRAM: 2 TiB (R254). -/
def dramBytes : Nat := 2 ^ 41

/-- The subchannel of an address (R254). -/
def subchannelOf (addr : Nat) : Nat := addr / 64 % 2

/-- The low bank-group bit of an address (R254). -/
def bankGroupOf (addr : Nat) : Nat := addr / 128 % 2

/-- The class of what a request carries (R256). -/
def trafficClass : Traffic → Nat
  | .control | .ptuFrame | .tsuRecord | .audioBuffer | .packetBuffer | .ledgerMiss => 0
  | .codecRef | .codedPicture | .decoderOut => 1
  | .ashlarFetch | .canvasWrite | .hintBuffer | .imageSlot => 2
  | .cairnAppend | .cairnRead | .mirroring | .traceBuffer | .imageLoad => 3

/-- The class of a request: its master sets it. Control cores carry C0; a customer core, which no row of R256 names, C0 too
(log 14); an engine what its traffic takes (R256). -/
def reqClass (r : FabReq) : Nat := if r.master < 16 ∨ 32 ≤ r.master then 0 else trafficClass r.traffic

/-- What is older than 1 s leaves the records of traffic and of latency (R279). -/
def recent (s : State) (t : Nat) : Bool := decide (s.cpr.aonNs < t + 1000000000)

/-- Bytes that one channel moved in a class; channel 16: spread evenly over all sixteen (R254, R279). -/
def recordBurst (cls ch n : Nat) (s : State) : State :=
  { s with mss.traffic := (s.cpr.aonNs, cls, ch, n) :: s.mss.traffic.filter fun t => recent s t.1 }

/-- The latency of a C0 request: a free value within its bound of 4 us (R258, R279). -/
def recordLatency (s : State) : State :=
  let (lat, s) := drawBelow 4001 s
  { s with
    mss.c0Lats := (s.cpr.aonNs, lat) :: s.mss.c0Lats.filter fun t => recent s t.1
    mss.c0MaxClear := max s.mss.c0MaxClear lat }

/-- A burst served (R256, R258, R279). -/
def recordTraffic (cls ch n : Nat) (s : State) : State :=
  let s := recordBurst cls ch n s
  if cls = 0 then recordLatency s else s

/-- What an engine moves to or from its buffers in DRAM, in consecutive blocks that rotate over the channels (R254, R256, R279). -/
def engineTraffic (t : Traffic) (n : Nat) (s : State) : State := if n = 0 then s else recordTraffic (trafficClass t) 16 n s

/-- Bytes of a 4:2:0 picture, at 8 bits or at 10 (R170, R208). -/
def pictureBytes (w h : Nat) (ten : Bool) : Nat := if ten then w * h * 3 else w * h * 3 / 2

/-- One enabled region wholly contains a request, includes its master and grants the access (R266). -/
def regionGrants (r : FabReq) (n : Nat) (g : Region) : Bool :=
  g.on && decide (g.base ≤ r.addr ∧ r.addr + n ≤ g.limit + 1) && decide (g.mask / 2 ^ r.master % 2 = 1) && (if r.write then g.wr else g.rd)

/-- The protection unit permits an access (R266). -/
def permitted (s : State) (r : FabReq) (n : Nat) : Bool := s.mss.regions.any (regionGrants r n)

/-- The window of an address: a subsystem id, or 16 for SYS (R38). -/
def windowOf (addr : Nat) : Nat := addr / 65536

/-- An address that R40 lets an access reach: aligned, in a window, and neither its window nor its instance group down. -/
def accessStatus (s : State) (addr : Nat) : Option Status :=
  let sub := windowOf addr
  let off := addr % 65536
  if addr % 4 ≠ 0 then some .badParam
  else if 16 < sub then some .badTarget
  else if sub = 16 ∨ (sub = 1 ∧ off < 0x100) then none
  else if subDown s sub then some .unavailable
  else if sub = 4 ∧ 0x8000 ≤ off ∧ off < 0x8400 ∧ domainDown s (20 + (off - 0x8000) / 256) then some .unavailable
  else if sub = 4 ∧ 0x8400 ≤ off ∧ off < 0x8600 ∧ domainDown s (24 + (off - 0x8400) / 256) then some .unavailable
  else none

/-- The request that an access to a register makes, for a register behind the protection unit (R40). -/
def registerRequest (write : Bool) (addr : Nat) : Option FabReq :=
  (Config.registerFabric addr).map fun a =>
    { master := Config.commandCore % 16, addr := a, write := write, len := 4, target := windowOf addr }

/-- The first access of a range that the protection unit refuses (R40, R266). -/
def deniedAccess (s : State) (write : Bool) (addrs : List Nat) : Option FabReq :=
  (addrs.filterMap (registerRequest write)).find? fun r => !permitted s r 4

/-- FAB_DENIED for a refused register access (R23, R40). -/
def accessFault (r : FabReq) (s : State) : State := fault 0x6102 (w32 r.master :: w64 r.addr) s

/-- A register write or read of Keystone's or an owner's, as R40 lets it through: nothing where the window or the instance group is down, and
FAB_DENIED where the protection unit refuses it. -/
def regAccess (write : Bool) (addr : Nat) (eff : State → State) (s : State) : State :=
  if accessStatus s addr ≠ none then s
  else match deniedAccess s write [addr] with
    | some r => accessFault r s
    | none => eff s

/-- What a fence ends: the replays of flits to a port that is down are abandoned, and the requests that wait for it with them; each of
these requests completes UNAVAILABLE, and no parity fault is raised (R25, R26). -/
def fenceSettle (s : State) : State :=
  let hit := fun r : FabReq => portDown s r.target r.inst
  let held := (s.mss.linkReplay.flatMap (·.2)).map (·.req)
  let waits := (s.mss.chans.flatMap (·.queue) ++ s.mss.behind).map (·.req)
  let s := { s with
    mss.linkReplay := s.mss.linkReplay.map fun l => (l.1, l.2.filter fun f => !hit f.req)
    mss.chans := s.mss.chans.map fun c => { c with queue := c.queue.filter fun x => !hit x.req }
    mss.behind := s.mss.behind.filter fun x => !hit x.req }
  ((held ++ waits).filter hit).foldl (fun s r => emit (.completion r.master 1 [] []) s) s

/-- The subsystem a command's effect lies in, by its opcode; 0 where it is the control complex's own (R340, R16). -/
def opSub (op : Nat) : Nat :=
  if op = 0x030B then 10
  else [0, 0, 3, 8, 12, 13, 14, 15, 9, 5, 4, 6, 1, 0, 0].getD (op / 256) 0

/-- Long operations that a subsystem serves end UNAVAILABLE (R348). -/
def endSubLongs (sub : Nat) (s : State) : State :=
  (List.range 8).foldl (fun s qi =>
    ((queueOf s qi).longOps.filter fun l => opSub l.op = sub).foldl (fun s l => longDone qi l.op l.tag .unavailable [] s) s) s

/-- Fences a port, the whole subsystem's with its long operations or one instance group's (R25, R343, R348). -/
def fencePort (sub inst : Nat) (s : State) : State :=
  fenceSettle (if inst = 0xFFF then endSubLongs sub { s with cpr.fencedSubs := s.cpr.fencedSubs ++ [sub] }
    else modDomain (instDomain sub inst) (fun d => { d with fenced := true }) s)

/-- Lifts the fence of a port; a domain that is not ON keeps its own (R343, R468). -/
def liftFence (sub inst : Nat) (s : State) : State :=
  if inst = 0xFFF then { s with cpr.fencedSubs := s.cpr.fencedSubs.filter fun x => x ≠ sub }
  else modDomain (instDomain sub inst) (fun d => if d.state = .on then { d with fenced := false } else d) s

/-- A module of a pair that is not active relays cluster traffic over the Quoin lanes to its active partner (R409, R427). -/
def relays (s : State) : Bool := decide (s.cti.twin = 2 ∨ s.cti.twin = 3)

/-- Passes a cell on over the Quoin lanes (R409): 16 times its type plus its kind, and its words. -/
def relayCell (kind : Nat) (ws : List Word) (s : State) : State :=
  if quoinSends s then emit (.cell 13 kind ws) s else s

end Sys2Proof.Machine
end

