-- ==== Sys2Proof/Machine/Operands.lean ====
section
/-!
DEFINITION. How a command packet is received, checked, started and answered (R326-R333, R528), and the admission checks that
commands share (R43-R51).
-/

namespace Sys2Proof.Machine

/-- What an opcode's own checks and effect give. -/
inductive Res
  /-- Refused with a status; nothing is performed. -/
  | refuse (st : Status)
  /-- Refused with a status and a side effect, such as a logged fault. -/
  | refuseWith (st : Status) (s : State)
  /-- Performed: OK with reply words. -/
  | done (ws : List Word) (s : State)
  /-- A long operation started on the object key: ACCEPTED (R333). -/
  | accepted (key : Nat) (s : State)
  /-- Started; the reply follows at a later event. -/
  | deferred (s : State)

/-- Refuses with the first case that holds, else goes on. -/
def checks (cs : List (Bool × Status)) (k : Res) : Res :=
  match firstFail cs with
  | some st => .refuse st
  | none => k

/-- The queue a command arrived on. -/
def qiOf (c : Cmd) : Nat := queueIndex c.backup c.queue

/-- Whether a command can arrive on its path: the link is ACTIVE, or the backup path is enabled and keyed (R314, R338). -/
def pathOpen (c : Cmd) (s : State) : Bool :=
  s.cpr.powered && (if c.backup then s.cpx.backupOn && s.cpe.backupKey.isSome else decide (s.hlp.link = .active))

/-- Whether Keystone can start the next command of a queue: awake, and the previous reply sent (R328, R348, R473). -/
def canStart (qi : Nat) (s : State) : Bool :=
  let q := queueOf s qi
  decide (s.cpr.sleep = 0) && s.cpr.waking.isNone && q.inService.isNone && q.outReplies.isEmpty

/-- Returns the credit of a command or packet of a link queue (R327). -/
def returnCredit (qi : Nat) (s : State) : State :=
  if qi < 4 then { s with hlp.rxCredits := s.hlp.rxCredits.modify qi fun n => min (n + 1) 256 } else s

/-- Sends a reply: it is counted when refused, kept for a repeated sequence, split for its path and sent as credits allow
(R327, R329, R331, R332, R486). Only OK and ACCEPTED carry words. -/
def reply (c : Cmd) (op : Nat) (st : Status) (ws : List Word) (s : State) : State :=
  let ws := if st = .ok ∨ st = .accepted then ws else []
  let parts := splitPacket (pathWords (qiOf c)) { opcode := op, tag := c.tag, status := st, words := ws } (ws.length / 352)
  pump (qiOf c) <| returnCredit (qiOf c) <| modQueue (qiOf c) (fun q =>
    { q with
      outReplies := q.outReplies ++ parts, replyTo := c.src, lastReply := some ⟨op, c.tag, st, ws⟩, inService := none
      cntRefused := if 0x0100 ≤ st.code then inc32 q.cntRefused else q.cntRefused }) s

/-- A reply that is not the reply of an accepted sequence: BAD_CRC, version, length and STALE_SEQUENCE (R330). The last
accepted command's reply stays the one kept. -/
def replyUnaccepted (c : Cmd) (op : Nat) (st : Status) (s : State) : State :=
  let kept := (queueOf s (qiOf c)).lastReply
  modQueue (qiOf c) (fun q => { q with lastReply := kept }) (reply c op st [] s)

/-- Replies to the refused commands at the head of a queue, in command order; only BAD_OPCODE follows an accepted sequence (R328,
R330). -/
def drainRefused (qi : Nat) : List QCmd → State → State
  | [], s => s
  | w :: ws, s =>
    match w.refused with
    | some st =>
      if canStart qi s then
        let s := modQueue qi (fun q => { q with waiting := ws }) s
        drainRefused qi ws (if st = .badOpcode then reply w.cmd w.op st [] s else replyUnaccepted w.cmd w.op st s)
      else s
    | none => s

/-- Sends the reply of a started command and then those of refused commands behind it. -/
def finish (c : Cmd) (op : Nat) (st : Status) (ws : List Word) (s : State) : State :=
  let s := reply c op st ws s
  drainRefused (qiOf c) (queueOf s (qiOf c)).waiting s

/-- Orders 6 to 8 of R330: queue field and more-follows, parameter count (R528) and path limit (R326), target instance. -/
def headerChecks (lens : Nat → Bool) (c : Cmd) : List (Bool × Status) :=
  [(decide (c.qfield ≠ c.queue) || c.more, .badParam),
   (!lens c.words.length || decide (pathWords (qiOf c) < c.words.length), .badLength),
   (decide (c.target ≠ 0), .badTarget)]

/-- The commands whose objects the active module of a pair mirrors to the standby (R422). -/
def mirroredOps : List Nat :=
  [0x0003, 0x0301, 0x0302, 0x0303, 0x0304, 0x0305, 0x0306, 0x0307, 0x0308, 0x0309, 0x030B, 0x0401, 0x0402, 0x0403,
    0x0404, 0x0501, 0x0502, 0x0601, 0x0602, 0x0604, 0x0701, 0x0702, 0x0801, 0x0802]

/-- The object kind of a MIRROR record for a command's object. -/
def mirrorKind (op : Nat) : Nat := op / 256 * 16 + op % 16

/-- A record's image as it crosses: key words only wrapped, and only while the twin keys agree (R363, R364). -/
def sealed (kind : Nat) (image : List Word) (s : State) : Option (List Word) :=
  if kind ≠ 0x81 then some image
  else match s.cpe.twinKek with
    | some kek => if s.cti.keyAgree then some (image.take 6 ++ Config.keyWrap kek (image.drop 6)) else none
    | none => none

/-- Sends a MIRROR record, numbered in one sequence (R422, R423). -/
def sendMirror (kind index : Nat) (image : List Word) (s : State) : State :=
  match sealed kind image s with
  | some ws =>
    let n := (s.cti.mirrorSent + 1) % 2 ^ 32
    let s := engineTraffic .mirroring (4 * ws.length) s
    sendTwin 1 (w32 (kind + index * 256) :: ws)
      { s with cti.mirrorSent := n, cti.mirrorTimes := s.cti.mirrorTimes ++ [(n, s.cpr.aonNs)] }
  | none => s

/-- Mirrors a change of an object: it is kept for a full mirror, and sent when this module is the active of a pair (R421, R422). The
mode and the configuration are read from their own registers and not kept. -/
def mirror (kind index : Nat) (image : List Word) (s : State) : State :=
  let s := if kind = 3 ∨ kind = 20 then s else { s with cti.mirrorHeld := s.cti.mirrorHeld ++ [⟨0, kind, index, image⟩] }
  if s.cti.twin = 1 ∧ s.cti.paired then sendMirror kind index image s else s

/-- Code of a mode (R41). -/
def modeCode : Mode → Nat
  | .converse => 0
  | .assembly => 1
  | .studio => 2
  | .frugal => 3
  | .shadow => 4
  | .service => 5

/-- The mode whose policies and capacities a mode applies: SERVICE applies those of the mode it is entered from, on a takeover those the
partner's SERVICE applied (R55, R56). -/
def effMode (s : State) (m : Mode) : Mode :=
  if m = .service then
    (if s.cpx.mode = .service then s.cpx.base else if s.cpx.mode = .shadow then s.cti.mirroredBase else s.cpx.mode)
  else m

/-- A mode's record: its code, and the code of the mode whose policies it applies (R55, R56). -/
def modeImage (m : Mode) (s : State) : List Word := [w32 (modeCode m + modeCode (effMode s m) * 256)]

/-- The image of an object as changed by a command that has been performed: the command's words, with the index the module picked where
the command left it to the module, the N that CONF_CREATE gave a conference, and the policies of a mode (R43, R56). -/
def mirrorImage (op : Nat) (ws reply : List Word) (s : State) : List Word :=
  match ws, reply with
  | w :: rest, r :: _ =>
    if op = 0x0003 then modeImage (s.cpx.pending.getD s.cpx.mode) s
    else if op = 0x0308 then
      let k := field r 0 16
      w32 (w.toNat / 2097152 * 2097152 + ((tget s.aue.confs k).map (·.n)).getD 0 * 65536 + k) :: rest
    else if op = 0x0301 ∧ field w 0 16 = 0xFFFF then w32 (w.toNat / 65536 * 65536 + field r 0 16) :: rest
    else ws
  | _, _ => ws

/-- A function that only reads an object: nothing is mirrored (R173, R202, R228, R229, R231, R253). -/
def readsOnly (op fn : Nat) : Bool :=
  decide (op = 0x0501 ∧ fn = 3) || decide (op = 0x0701 ∧ fn = 1) ||
    (([0x0502, 0x0601, 0x0602, 0x0604] : List Nat).contains op && decide (fn = 2))

/-- Mirrors a command that has been performed; only SRTP keys are mirrored, not the module's own (R363, R364). -/
def mirrorCmd (op : Nat) (c : Cmd) (reply : List Word) (s : State) : State :=
  if !mirroredOps.contains op || readsOnly op (field (word c 0) 16 4) || (decide (op = 0x0801) && decide (field (word c 0) 28 4 ≠ 0)) then s
  else mirror (mirrorKind op) (field (word c 0) 0 16) (mirrorImage op c.words reply s) s

/-- A command performed: its objects mirrored, and the reply OK with its words (R327, R422). -/
def answered (op : Nat) (c : Cmd) (ws : List Word) (s : State) : State := finish c op .ok ws (mirrorCmd op c ws s)

/-- A long operation started on an object: it is outstanding on the command's queue, and the reply is ACCEPTED (R333). -/
def answeredLong (op : Nat) (c : Cmd) (key : Nat) (s : State) : State :=
  finish c op .accepted [] (modQueue (qiOf c) (fun q => { q with longOps := q.longOps ++ [⟨op, c.tag, key⟩] }) (mirrorCmd op c [] s))

/-- A command performed whose reply follows at a later event: it stays in service on its queue (R328). -/
def answeredLater (op : Nat) (c : Cmd) (s : State) : State :=
  modQueue (qiOf c) (fun q => { q with inService := some { QCmd.reset with op := op, cmd := c } }) (mirrorCmd op c [] s)

/-- Starts an accepted command: the checks of R330 from order 6, then the opcode's own body; a command to a subsystem that is
fenced, draining or off gets UNAVAILABLE (R25, R339); the limit of 64 long operations is checked last (R333). -/
def start (op : Nat) (lens : Nat → Bool) (c : Cmd) (body : State → Res) (s : State) : State :=
  match firstFail (headerChecks lens c) with
  | some st => finish c op st [] s
  | none =>
    match body s with
    | .refuse st => finish c op st [] s
    | .refuseWith st s' => finish c op st [] s'
    | r =>
      if opSub op ≠ 0 ∧ subDown s (opSub op) then finish c op .unavailable [] s
      else match r with
      | .done ws s' => answered op c ws s'
      | .accepted key s' =>
        if 64 ≤ (queueOf s (qiOf c)).longOps.length then finish c op .resourceBusy [] s else answeredLong op c key s'
      | .deferred s' => answeredLater op c s'
      | _ => s

/-- How a new sequence stands to the last accepted one (R329). -/
inductive SeqCase
  | accept (gap : Bool) | repeated | stale
deriving DecidableEq, Repr

/-- The comparison of R329 under serial-number arithmetic. -/
def seqCase (last : Option Word) (seq : Word) : SeqCase :=
  match last with
  | none => .accept false
  | some l =>
    if seq = l then .repeated
    else if 0 < (seq - l).toInt then .accept (decide (seq ≠ l + 1))
    else .stale

/-- Records an accepted sequence (R329, R486). -/
def acceptSeq (c : Cmd) (gap : Bool) (s : State) : State :=
  modQueue (qiOf c) (fun q =>
    { q with lastSeq := some c.seq, cntAccepted := inc32 q.cntAccepted, gaps := if gap then inc32 q.gaps else q.gaps }) s

/-- A repeated sequence: the last reply is sent again, or, when that command has not replied, the duplicate is discarded
(R329). -/
def repeatReply (c : Cmd) (s : State) : State :=
  let q := queueOf s (qiOf c)
  let s := modQueue (qiOf c) (fun q => { q with cntRepeated := inc32 q.cntRepeated }) s
  match q.lastReply with
  | some r =>
    if canStart (qiOf c) s ∧ q.waiting = [] then
      let n := (queueOf s (qiOf c)).cntRefused
      modQueue (qiOf c) (fun q => { q with cntRefused := n })
        (reply { c with tag := r.tag } r.op r.status r.words s)
    else returnCredit (qiOf c) s
  | none => returnCredit (qiOf c) s

/-- Puts a command into its queue. A full backup queue discards it and counts it (R338). -/
def enqueue (op : Nat) (c : Cmd) (refused : Option Status) (s : State) : State :=
  if c.backup ∧ 16 ≤ (queueOf s (qiOf c)).waiting.length then
    modQueue (qiOf c) (fun q => { q with cntDiscarded := inc32 q.cntDiscarded }) s
  else modQueue (qiOf c) (fun q => { q with waiting := q.waiting ++ [⟨op, refused, c⟩] }) s

/-- The credit a command takes on arrival on a link queue (R327). -/
def takeCredit (qi : Nat) (s : State) : State :=
  if qi < 4 then { s with hlp.rxCredits := s.hlp.rxCredits.modify qi fun n => n - 1 } else s

/-- A command that arrives and is only queued: order 4 of R330 (R329). -/
def arrive (op : Nat) (c : Cmd) (s : State) : State :=
  if c.backup ∧ 16 ≤ (queueOf s (qiOf c)).waiting.length then enqueue op c none s
  else match seqCase (queueOf s (qiOf c)).lastSeq c.seq with
  | .accept gap => enqueue op c none (acceptSeq c gap s)
  | .repeated => repeatReply c s
  | .stale =>
    if canStart (qiOf c) s ∧ (queueOf s (qiOf c)).waiting = [] then replyUnaccepted c op .staleSequence s
    else enqueue op c (some .staleSequence) s

/-- A command of the host: when it is the head of its queue it starts; when its queue is free it arrives and starts; otherwise it
waits in its queue (R328). The backup path's datagrams and the link's flits may also queue it first. -/
def serve (op : Nat) (lens : Nat → Bool) (c : Cmd) (s : State) (body : State → Res) : State :=
  if !pathOpen c s then s
  else if canStart (qiOf c) s then
    match (queueOf s (qiOf c)).waiting with
    | [] =>
      match seqCase (queueOf s (qiOf c)).lastSeq c.seq with
      | .accept gap => start op lens c body (acceptSeq c gap (takeCredit (qiOf c) s))
      | .repeated => repeatReply c (takeCredit (qiOf c) s)
      | .stale => replyUnaccepted c op .staleSequence (takeCredit (qiOf c) s)
    | w :: ws =>
      if w.op = op ∧ w.cmd = c ∧ w.refused = none then
        start op lens c body (modQueue (qiOf c) (fun q => { q with waiting := ws }) s)
      else arrive op c (takeCredit (qiOf c) s)
  else arrive op c (takeCredit (qiOf c) s)

/-- Whether a command now presented starts at once: its path is open, its queue is free with nothing waiting, its sequence is the next
(or comes after a gap), its header passes orders 6 to 8 of R330, and its subsystem is in service (R25, R328-R330). -/
def startsNow (op : Nat) (lens : Nat → Bool) (c : Cmd) (s : State) : Bool :=
  pathOpen c s && canStart (qiOf c) s && (queueOf s (qiOf c)).waiting.isEmpty &&
    (match seqCase (queueOf s (qiOf c)).lastSeq c.seq with
      | .accept _ => true
      | _ => false) &&
    (firstFail (headerChecks lens c)).isNone && (decide (opSub op = 0) || !subDown s (opSub op))

/-- The state in which such a command's body runs: a link command's credit is taken and its sequence is accepted (R327, R329). -/
def begun (c : Cmd) (s : State) : State :=
  match seqCase (queueOf s (qiOf c)).lastSeq c.seq with
  | .accept gap => acceptSeq c gap (takeCredit (qiOf c) s)
  | _ => s

/-- Sends the reply of a started command whose event has come: the command in service on a queue. -/
def finishDeferred (qi : Nat) (st : Status) (ws : List Word) (s : State) : State :=
  match (queueOf s qi).inService with
  | some w => finish w.cmd w.op st ws s
  | none => s

/-- Exactly n parameter words (R528). -/
def exactly (n : Nat) (k : Nat) : Bool := k == n

/-- Words of a function-selected command that a table gives by function (R528). -/
def fnLens (table : List Nat) (c : Cmd) (k : Nat) : Bool :=
  match table[field (word c 0) 16 4]? with
  | some n => k == n
  | none => true

/-- Between a and b parameter words. -/
def between (a b : Nat) (k : Nat) : Bool := decide (a ≤ k ∧ k ≤ b)

/-! ### Modes, capacities and admission (R41-R51) -/

/-- The current mode and a pending one; a request must fit both (R51). -/
def modesInForce (s : State) : List Mode := s.cpx.mode :: s.cpx.pending.toList

/-- Leg capacity (R44). -/
def capLegs : Mode → Nat
  | .converse | .assembly => 16384
  | .studio | .frugal => 8192
  | .shadow | .service => 0

/-- Conference capacity (R44). -/
def capConfs : Mode → Nat
  | .converse | .assembly => 8192
  | .studio | .frugal => 4096
  | .shadow | .service => 0

/-- Transcoded audio legs (R44). -/
def capSlots : Mode → Nat
  | .converse | .assembly => 8192
  | .studio | .frugal => 4096
  | .shadow | .service => 0

/-- Decoder contexts (R44). -/
def capDecs : Mode → Nat
  | .converse | .assembly | .studio => 4096
  | .frugal => 2048
  | .shadow | .service => 0

/-- Encoder contexts, and canvases (R44). -/
def capEncs : Mode → Nat
  | .converse | .assembly | .studio => 1024
  | .frugal => 512
  | .shadow | .service => 0

/-- Performance-level ceiling of the compute domains (R47). -/
def ceiling : Mode → Nat
  | .frugal => 2
  | _ => 0

/-- Gouge clock at a performance level, in MHz (R465). -/
def gougeMHz (level : Nat) : Nat := [1000, 800, 600, 300].getD level 300

/-- Mallet clock at a performance level, in MHz (R465). -/
def malletMHz (level : Nat) : Nat := [1250, 1000, 750, 400].getD level 400

/-- Ashlar budget per die at a performance level, in layer-pixels per second (R465, R207). -/
def ashlarBudget (level : Nat) : Nat := [25600000000, 20480000000, 15360000000, 7680000000].getD level 7680000000

/-- Gouge budget at a level in core-cycles per second: only cores in service count (R46, R174). -/
def gougeBudget (s : State) (level : Nat) : Nat := (s.vca.cores.filter fun c => c.svc = 0).length * gougeMHz level * 1000000

/-- Gouge floors in percent, decode and encode (R43). -/
def gougeFloors : Mode → Nat × Nat
  | .converse => (25, 50)
  | .assembly => (50, 25)
  | .studio => (25, 60)
  | .frugal => (30, 40)
  | .shadow | .service => (0, 0)

/-- Default selection N (R43). -/
def defaultN : Mode → Nat
  | .assembly => 2
  | _ => 4

/-- Default encoder effort (R43). -/
def defaultEffort : Mode → Nat
  | .studio => 2
  | .frugal => 0
  | _ => 1

/-- Default Opus complexity (R43). -/
def defaultOpus : Mode → Nat
  | .studio => 10
  | .frugal => 3
  | _ => 5

/-- Plumb's default rate increase limit in tenths of a percent per second (R43). -/
def defaultUp : Mode → Nat
  | .converse => 80
  | .frugal => 30
  | _ => 50

/-- Plumb's default decrease factor in thousandths (R43). -/
def defaultDown : Mode → Nat
  | .studio => 900
  | .frugal => 800
  | _ => 850

/-- Default synthesis share in percent (R43). -/
def defaultShare : Mode → Nat
  | .frugal => 5
  | _ => 10

/-- Memory weights of C1, C2 and C3 (R43). -/
def memWeights : Mode → Nat × Nat × Nat
  | .converse | .frugal | .service => (9, 5, 2)
  | .assembly => (5, 5, 6)
  | .studio => (10, 4, 2)
  | .shadow => (0, 0, 16)

/-- Input power maximum in units of 0.1 W (R47). -/
def maxPower : Mode → Nat
  | .frugal => 1500
  | .shadow => 1200
  | _ => 3000

/-- Charge of a decoder context, truncated to whole core-cycles (log 100) (R46). -/
def decCharge (d : Dec) : Nat := if d.hidden then 0 else d.maxW * d.maxH * d.rate / 2

/-- Half a length, rounded up to an even number (R181). -/
def halfEven (n : Nat) : Nat := 2 * ((n / 2 + 1) / 2)

/-- Sizes of the spatial layers of a structure, top layer first (R181). -/
def layerSizes (st w h : Nat) : List (Nat × Nat) :=
  let l1 := (halfEven w, halfEven h)
  if st = 3 ∨ st = 5 then [(w, h), l1]
  else if st = 4 then [(w, h), l1, (halfEven l1.1, halfEven l1.2)]
  else [(w, h)]

/-- P of an encode: the luma samples summed over the spatial layers (R177). -/
def encP (e : Enc) : Nat := ((layerSizes e.struct_ e.w e.h).map fun z => z.1 * z.2).sum

/-- A canvas with the settings words of a CANVAS_SET (R228). -/
def canvasWith (c : Canvas) (ws : List Word) : Canvas :=
  let w := fun i => ws.getD (i - 1) 0
  { c with
    w := field (w 1) 0 16, h := field (w 1) 16 16, rate := field (w 2) 0 6, ten := bit (w 2) 6, dest := field (w 2) 7 2
    hints := bit (w 2) 9, bg := (field (w 3) 0 8, field (w 3) 8 8, field (w 3) 16 8), param := w 4, phaseUs := field (w 5) 0 20
    changes := none }

/-- A canvas with the settings that it will have after its next deadline (R222). -/
def canvasNext (c : Canvas) : Canvas := (c.changes.map (canvasWith c)).getD c

/-- Frame rate of an encoder's or a layer's source: of a canvas the rate that CANVAS_SET gave it last (R202, R222). -/
def sourceRate (s : State) (fromDec : Bool) (src : Nat) : Nat :=
  if fromDec then ((tget s.vca.decs src).map (·.rate)).getD 0
  else ((tget s.lco.canvases src).map fun c => (canvasNext c).rate).getD 0

/-- The effort that a setting gives a picture starting in a mode: the mode default for 7, and 3 only in STUDIO (R54, R192, R202). -/
def effortIn (m : Mode) (set : Nat) : Nat := if set = 7 then defaultEffort m else if set = 3 ∧ m ≠ .studio then 2 else set

/-- Charge of an encoder context: P times the output frame rate, doubled at effort 3 in force or set for the next picture, truncated to
whole core-cycles (log 100) (R46, R192, R202). -/
def encCharge (s : State) (e : Enc) : Nat :=
  if e.hidden then 0
  else
    encP e * (sourceRate s e.fromDec e.src) / e.div *
      (if e.effort = 3 ∨ effortIn (effMode s s.cpx.mode) e.effortSet = 3 then 2 else 1)

/-- Committed decoder charges. -/
def decCharges (s : State) : Nat := (s.vca.decs.map fun d => decCharge d.2).sum

/-- Committed encoder charges. -/
def encCharges (s : State) : Nat := (s.vca.encs.map fun e => encCharge s e.2).sum

/-- Whether decoder and encoder charges fit a Gouge budget with a mode's floors (R46). -/
def gougeFits (m : Mode) (budget dec enc : Nat) : Bool :=
  let f := gougeFloors m
  decide (dec + max (budget * f.2 / 100) enc ≤ budget) && decide (enc + max (budget * f.1 / 100) dec ≤ budget)

/-- Decoder charges fit (R46). -/
def decFits (s : State) (m : Mode) (dec enc : Nat) : Bool :=
  let b := gougeBudget s (ceiling m)
  decide (dec + max (b * (gougeFloors m).2 / 100) enc ≤ b)

/-- Encoder charges fit (R46). -/
def encFits (s : State) (m : Mode) (dec enc : Nat) : Bool :=
  let b := gougeBudget s (ceiling m)
  decide (enc + max (b * (gougeFloors m).1 / 100) dec ≤ b)

/-- Transcoded audio slots in use: of conferences and of legs not known to carry the level extension; no command sets a leg to an
encode of its own (R45). -/
def slotsUsed (s : State) : Nat :=
  (s.aue.confs.map fun c => c.2.slots).sum +
    (s.fwe.legs.map fun l => b1 l.2.slot).sum

/-- Decoder contexts in use; hidden ones come from the same count (R44, R199). -/
def decsUsed (s : State) : Nat := s.vca.decs.length

/-- Encoder contexts in use; hidden ones come from the same count (R44, R199). -/
def encsUsed (s : State) : Nat := s.vca.encs.length

/-- Admission is open: ready, and not stopped by a fatal fault, a save, a step-down or the hold of R481 (R48, R448, R449, R480,
R481). -/
def admissionOpen (s : State) : Bool :=
  s.cpx.ready && !s.cpx.fatal && !s.cpr.saving && !s.cpr.powerStop && !s.cpx.held

/-- Orders 2 and 3 of R49 for every mode in force, after the check that admission is open, whose place among the orders is the model's
(log 101) (R448). -/
def admission (s : State) (forbid tooMany : Mode → Bool) : List (Bool × Status) :=
  (!admissionOpen s, .unavailable) ::
    (((modesInForce s).map fun m => (decide (m = .shadow) || forbid m, Status.modeForbids)) ++
      ((modesInForce s).map fun m => (tooMany (effMode s m), Status.noCapacity)))

/-- The checks of a command on an object that exists: it is an admission request only where it enlarges the object, else what a mode
forbids still holds (R49, R50). -/
def admitGrowth (grows : Bool) (s : State) (forbid tooMany : Mode → Bool) : List (Bool × Status) :=
  if grows then admission s forbid tooMany else (modesInForce s).map fun m => (forbid m, Status.modeForbids)

/-! ### Settings of a layer (R229) -/

/-- Word n (1-8) of a layer's settings. -/
def setW (ws : LayerSet) (n : Nat) : Word := ws.getD (n - 1) 0

/-- Source kind: 0 decoder context, 1 image slot, 2 canvas, 3 none. -/
def setKind (ws : LayerSet) : Nat := field (setW ws 1) 0 2

/-- Source index. -/
def setSrc (ws : LayerSet) : Nat := field (setW ws 2) 0 16

/-- The source has ended (R209). -/
def setLost (ws : LayerSet) : Bool := decide (8 < ws.length)

/-- z. -/
def setZ (ws : LayerSet) : Nat := field (setW ws 1) 2 6

/-- Flip group. -/
def setGroup (ws : LayerSet) : Nat := field (setW ws 1) 18 5

/-- Crop x, y, width, height. -/
def setCrop (ws : LayerSet) : Nat × Nat × Nat × Nat :=
  (field (setW ws 3) 0 16, field (setW ws 3) 16 16, field (setW ws 4) 0 16, field (setW ws 4) 16 16)

/-- Destination x, y, width, height. -/
def setDest (ws : LayerSet) : Nat × Nat × Nat × Nat :=
  (field (setW ws 5) 0 16, field (setW ws 5) 16 16, field (setW ws 6) 0 16, field (setW ws 6) 16 16)

/-- Concealment limit. -/
def setLimit (ws : LayerSet) : Nat := field (setW ws 8) 12 11

/-- Miss limit. -/
def setMisses (ws : LayerSet) : Nat := field (setW ws 7) 24 8

/-- Placeholder image slot. -/
def setHolder (ws : LayerSet) : Option Nat := if bit (setW ws 8) 23 then some (field (setW ws 8) 0 12) else none

/-- The settings that a layer holds: in force, accepted and staged. -/
def layerSets (l : Layer) : List LayerSet := (l.set :: l.next.toList ++ l.staged.toList).filter fun ws => ws ≠ []

/-- The settings that will be in force after the next deadline. -/
def latestSet (l : Layer) : LayerSet := l.next.getD l.set

end Sys2Proof.Machine
end

