-- ==== Sys2Proof/Machine/Buffers.lean ====
section
/-!
DEFINITION. The buffer pools (03 R81-R85) and the host-link data frames (12 R317, R319).
-/

namespace Sys2Proof.Machine

/-- Buffer size of a pool (R81). -/
def poolSize (p : Nat) : Nat := [256, 512, 1024, 2048, 8192, 32768, 131072, 524288].getD p 0

/-- A pool. -/
def poolOf (s : State) (p : Nat) : Pool := s.bpm.pools.getD p Pool.reset

/-- Changes a pool. -/
def modPool (p : Nat) (f : Pool → Pool) (s : State) : State := { s with bpm.pools := s.bpm.pools.modify p f }

/-- Whether a pool can serve a request: only AUD and CTL draw on the reserve of 1/16 (R83). -/
def poolServes (x : Pool) (urgent : Bool) : Bool := decide (if urgent then 0 < x.free else x.count / 16 < x.free)

/-- Counts of free buffers that ended within the last 1 s (R486). -/
def pastFree (now : Nat) (p : Pool) : List (Nat × Nat) := p.past.filter fun h => now < h.1 + 1000000000

/-- The least count of free buffers of the last 1 s (R486). -/
def leastFree (now : Nat) (p : Pool) : Nat := (pastFree now p).foldl (fun n h => min n h.2) p.free

/-- A pool's count of free buffers changes. -/
def setFree (now n : Nat) (p : Pool) : Pool := { p with free := n, past := (now, p.free) :: pastFree now p }

/-- The key of a buffer in `Bpm.bufs`. -/
def bufKey (pool index : Nat) : Nat := pool * 2 ^ 24 + index

/-- Allocates a buffer for n bytes from the smallest pool that fits, falling back to larger pools up to a limit; none when no pool
can serve, which counts an exhaustion of the requesting pool (R82, R83). -/
def bufAlloc (n : Nat) (urgent : Bool) (limit refs : Nat) (s : State) : Option Nat × State :=
  let want := ((List.range 8).find? fun p => n ≤ poolSize p).getD 8
  match (List.range 8).find? fun p => want ≤ p ∧ p ≤ limit ∧ poolServes (poolOf s p) urgent with
  | none => (none, modPool want (fun x => { x with exhaust := inc32 x.exhaust }) s)
  | some p =>
    let k := tfree s.bpm.bufs (bufKey p 0)
    let s := modPool p (fun x =>
      { setFree s.cpr.aonNs (x.free - 1) x with
        fallbacks := if p = want then x.fallbacks else inc32 x.fallbacks
        reserve := if x.free ≤ x.count / 16 then inc32 x.reserve else x.reserve }) s
    let s := if p = 4 then engineTraffic .packetBuffer n s else s
    (some k, { s with bpm.bufs := tset s.bpm.bufs k { Buf.reset with pool := p, refs := refs } })

/-- Sets a buffer's reference count at the fork (R28). A count of 0 returns it to its pool. -/
def bufSetRefs (k n : Nat) (s : State) : State :=
  match tget s.bpm.bufs k with
  | none => s
  | some b =>
    if n = 0 then modPool b.pool (fun x => setFree s.cpr.aonNs (x.free + 1) x) { s with bpm.bufs := terase s.bpm.bufs k }
    else { s with bpm.bufs := tset s.bpm.bufs k { b with refs := min n 65535 } }

/-- A consumer is done with a buffer: the count falls, at 0 the buffer returns to its pool; a decrement at a count of 0 is ignored,
quarantines the buffer and raises BPM_REFCOUNT_UNDERFLOW (R28, R84). -/
def bufRelease (k : Nat) (s : State) : State :=
  match tget s.bpm.bufs k with
  | some b =>
    if b.quarantined then fault 0x7001 [w32 (k / 2 ^ 24), w32 (k % 2 ^ 24)] s
    else bufSetRefs k (b.refs - 1) s
  | none =>
    let p := k / 2 ^ 24
    let s := modPool p (fun x => { setFree s.cpr.aonNs (x.free - 1) x with quarantined := x.quarantined + 1 })
      { s with bpm.bufs := tset s.bpm.bufs k { Buf.reset with pool := p, quarantined := true } }
    fault 0x7001 [w32 p, w32 (k % 2 ^ 24)] s

/-- Releases a buffer reference that may be absent. -/
def bufReleaseOpt (k : Option Nat) (s : State) : State :=
  match k with
  | some k => bufRelease k s
  | none => s

/-- References that a subsystem releases at its reset or power-down are counted in its drop counter (R85). -/
def countReleased (sub n : Nat) (s : State) : State := { s with bpm.blockDrops := s.bpm.blockDrops.modify sub fun c => inc32 c n }

/-- A subsystem that is reset or powered down releases a reference that it holds (R85). -/
def blockRelease (sub : Nat) (k : Option Nat) (s : State) : State :=
  match k with
  | some k => countReleased sub 1 (bufRelease k s)
  | none => s

/-- The buffers whose decode or level read a subsystem holds for streams of its own choice are released (R85). -/
def releaseReads (sub : Nat) (p : Nat → Bool) (s : State) : State :=
  let hit := fun b : Buf => (b.reader.map fun r => decide (r.1 = sub) && p r.2).getD false
  (s.bpm.bufs.filter fun b => hit b.2).foldl (fun s b =>
    blockRelease sub (some b.1) { s with bpm.bufs := tmod s.bpm.bufs b.1 fun x => { x with reader := none } }) s

/-- A packet or frame of a leg takes a buffer for its bytes, by the packet path's limit; AUD and CTL may draw on the reserve. With none
to be had it is dropped and counted (R82, R83). -/
def withBuf (leg bytes service : Nat) (s : State) (k : Nat → State → State) : State :=
  match bufAlloc bytes (decide (service ≤ 1)) 4 1 s with
  | (some b, s) => k b s
  | (none, s) => { s with fwe.legs := tmod s.fwe.legs leg fun l => { l with stats.drops := inc32 l.stats.drops } }

/-- Releases the references that waiting walks hold, counted in FWE's drop counter, and drops those walks (R85). -/
def dropWalks (p : WalkItem → Bool) (s : State) : State :=
  let s := (s.fwe.walkQ.filter p).foldl (fun s (w : WalkItem) =>
    match w.buf with
    | some k => countReleased 8 w.planned (bufSetRefs k (((tget s.bpm.bufs k).map fun b => b.refs - w.planned).getD 0) s)
    | none => s) s
  { s with fwe.walkQ := s.fwe.walkQ.filter fun w => !p w }

/-- The Cairn append is done with a buffer: its record holds the reference no longer (R28, R84). -/
def appendDone (k : Nat) (s : State) : State :=
  { s with mss.rings := s.mss.rings.map fun (r : Nat × Ring) =>
      (r.1, { r.2 with recs := r.2.recs.map fun (x : CairnRec) => if x.buf = some k then { x with buf := none } else x }) }

/-- A consumer outside the packet path is done with a buffer: the decode or level read, when one is held, else the Cairn append (R28,
R84). -/
def consumerRelease (k : Nat) (s : State) : State :=
  bufRelease k (if ((tget s.bpm.bufs k).bind (·.reader)).isSome then
      { s with bpm.bufs := tmod s.bpm.bufs k fun b => { b with reader := none } }
    else appendDone k s)

/-- BUFFER_RELEASE: a consumer decrements a buffer's reference count (R84). -/
def execBufferRelease (pool index : Nat) (s : State) : Host.Outcome State Fault Refusal :=
  .next (if pool < 8 ∧ index < (poolOf s pool).count then consumerRelease (bufKey pool index) s else s)

/-! ### Data frames to the host -/

/-- Bytes of a data frame (R319). -/
def dataFrameBytes (len : Nat) : Nat := 24 + (len + 3) / 4 * 4 + 4

/-- The channel of a data frame: 4 for kinds 0 and 1, 5 for kinds 2 and 3 (R317). -/
def dataChannel (kind : Nat) : Nat := if kind ≤ 1 then 4 else 5

/-- Flit credits the host has advertised on a channel. -/
def chanCredit (s : State) (ch : Nat) : Nat := s.hlp.chanCredits.getD ch 0

/-- Sends the flits of a channel's oldest waiting frame that its credits cover; whether the frame is then whole at the host (R316,
R317). -/
def drainOne (ch : Nat) (s : State) : Bool × State :=
  match s.hlp.frameQueue.find? fun d => dataChannel d.kind = ch with
  | none => (false, s)
  | some d =>
    let left := flitsOf (dataFrameBytes d.len) - d.flits
    let n := if s.hlp.link = .active then min left (chanCredit s ch) else 0
    let i := s.hlp.frameQueue.findIdx fun d => dataChannel d.kind = ch
    let s := sendFlits ch n { s with hlp.chanCredits := s.hlp.chanCredits.modify ch fun c => c - n }
    if n = left then (true, emit (.data { d with flits := 0 }) { s with hlp.frameQueue := s.hlp.frameQueue.eraseIdx i })
    else (false, { s with hlp.frameQueue := s.hlp.frameQueue.set i { d with flits := d.flits + n } })

/-- Sends the frames of a channel in order, as far as its credits go (R317). fuel bounds their number. -/
def drainChan (ch : Nat) : Nat → State → State
  | 0, s => s
  | n + 1, s =>
    match drainOne ch s with
    | (true, s) => drainChan ch n s
    | (false, s) => s

/-- Sends what a channel's data frames may send now. -/
def drainFrames (ch : Nat) (s : State) : State := drainChan ch s.hlp.frameQueue.length s

/-- Key of a data-frame sequence: per kind and tag (R319). -/
def frameSeqKey (kind tag : Nat) : Nat := kind * 65536 + tag

/-- Queues a data frame to the host with the next sequence of its kind and tag and sends what credits allow (R317, R319). -/
def sendData (d : DataFrame) (s : State) : State :=
  let k := frameSeqKey d.kind d.tag
  let n := (tget s.hlp.frameSeq k).getD 0
  let s := { s with
    hlp.frameSeq := tset s.hlp.frameSeq k ((n + 1) % 2 ^ 32), hlp.frameQueue := s.hlp.frameQueue ++ [{ d with seq := n, flits := 0 }] }
  drainFrames (dataChannel d.kind) s

end Sys2Proof.Machine
end

