-- ==== Sys2Proof/Machine/Link.lean ====
section
/-!
DEFINITION. The transmit side of the service Ethernet MAC (17 R430, R432): its queue, drained as its frames leave the wire.
-/

namespace Sys2Proof.Machine

/-- A frame arrives at the transmit queue: at a full queue it is dropped and counted (R430). -/
def svcQueue (f : Frame) (s : State) : State :=
  let s := svcDrain s
  if 64 ≤ s.cti.svc.txq.length then svcCount 5 s else emit (.frame 14 f) (svcPlace f s)

end Sys2Proof.Machine
end

