-- ==== Sys2Proof/Machine/Power.lean ====
section
/-!
DEFINITION. Power domains, fences and wake sources, shared by every family (R25, R40, R467-R473).
-/

namespace Sys2Proof.Machine

/-- EVT_POWER (R477). -/
def evtPower (detail : Nat) (ws : List Word) (s : State) : State := raiseEvent 0x8007 detail ws s

/-- Drives the SYNC (0) or EVT (1) output, unless its pad is latched (R381, R469, R476). -/
def drivePin (which : Nat) (high : Bool) (s : State) : State :=
  if (s.cpr.ringPads >>> which) % 2 = 1 then s else emit (.pin which high) s

/-- The sleep states in which a wake source is honoured (R472). -/
def wakeStates (bit : Nat) : List Nat :=
  match bit with
  | 0 | 1 => [3]
  | 2 | 5 => [1, 2, 3]
  | 3 => [2, 3]
  | 4 => [1, 2]
  | _ => []

/-- Level wake sources; the others are edges (R472). -/
def wakeLevel (bit : Nat) : Bool := bit == 2 || bit == 3 || bit == 4

/-- The domains that S2 and S3 switch off (R470). -/
def sleepDomains : List Nat := (List.range 26) ++ [27]

/-- A wake begins: entry is reversed; the domains switched off are powered up and the DRAM controllers restart their clocks (R263, R473). -/
def startWake (bit : Nat) (s : State) : State :=
  let s := { s with
    cpr.waking := some (s.cpr.sleep, bit), cpr.wakeNs := s.cpr.aonNs, cpr.wakeDue := none, hlp.wakePending := true }
  if 2 ≤ s.cpr.sleep then
    { s with
      cpr.domains := s.cpr.domains.mapIdx fun d x =>
        if sleepDomains.contains d ∧ x.state = .off then { x with state := .powering } else x
      mss.chans := s.mss.chans.map fun c => { c with stopped := false } }
  else s

/-- A wake source is seen (R472-R474): it wakes the module from a sleep state it is enabled in; during entry steps 1 to 3 it is
kept until the entry completes; in the entry window an edge is lost and a level is kept. -/
def wakeSource (bit : Nat) (s : State) : State :=
  if (s.cpr.wakeMask >>> bit) % 2 = 0 then s
  else match s.cpr.entering with
    | some t =>
      if (wakeStates bit).contains t ∧ (s.cpr.window = false ∨ wakeLevel bit) then { s with cpr.wakeDue := some bit } else s
    | none =>
      if (wakeStates bit).contains s.cpr.sleep ∧ s.cpr.waking = none then startWake bit s else s

end Sys2Proof.Machine
end

