-- ==== Sys2Proof/Machine/Timebase.lean ====
section
/-!
DEFINITION. The time base (15 R368-R382, R393-R395), its registers (21 R492, R502, R503) and the SYNC and EVT pins (R379-R381,
R476).
-/

namespace Sys2Proof.Machine

/-- One second in 2^-16 ns. -/
def secUnits : Nat := 1000000000 * 65536

/-- TSU range: 2^48 s (R368). -/
def tsuRange : Nat := 2 ^ 48 * secUnits

/-- A TSU time in the three words of TIME_READ 0-2 (R393). -/
def timeWords (t : Nat) : List Word :=
  let sec := t / secUnits
  [w32 sec, w32 (sec / 2 ^ 32 % 65536 + (t % 65536) * 65536), w32 (t % secUnits / 65536)]

/-- The TSU time named by three words in the layout of TIME_READ 0-2. -/
def wordsTime (a b c : Word) : Nat := (a.toNat + field b 0 16 * 2 ^ 32) * secUnits + c.toNat * 65536 + field b 16 16

/-- Nanoseconds of a signed amount of 2^-16 ns, saturating at plus or minus 2^31 - 1 (R393). -/
def satNs (o : Int) : Word := i32 (clampInt (-2147483647) 2147483647 (o.tdiv 65536))

/-- A signed number of ns as two words. -/
def ns64 (o : Int) : List Word :=
  let n := o.tdiv 65536
  [BitVec.ofInt 32 n, BitVec.ofInt 32 (n / 2 ^ 32)]

/-- EVT_TIME_JUMP (R395). -/
def evtTime (detail : Nat) (ws : List Word) (s : State) : State := raiseEvent 0x8004 detail ws s

/-- One tick of the 500 MHz TSU clock: the effective increment is added, a slew in progress removes its part of the offset and
ends when none is left (R369, R376). The always-on count advances by 2 ns. -/
def idleTick (s : State) : State :=
  let acc := s.tsu.acc + s.tsu.dither
  runSlew 2 { s with
    tsu.now := (s.tsu.now + s.tsu.incr + acc / 65536) % tsuRange, tsu.acc := acc % 65536, cpr.aonNs := s.cpr.aonNs + 2 }

/-- A change of time state raises EVT_TIME_JUMP detail 4 (R373). -/
def setTimeState (t : TsuState) (s : State) : State :=
  if s.tsu.state = t then s
  else evtTime 4 [w32 s.tsu.state.code, w32 t.code] { s with tsu.state := t }

/-- The highest-priority qualified source, 3 for none (R375). -/
def bestSource (s : State) : Nat :=
  (s.tsu.prio.find? fun p => s.tsu.qualified.getD p false).getD 3

/-- Changes the source in use, raising EVT_TIME_JUMP detail 3 (R375, R395). -/
def setSource (src : Nat) (s : State) : State :=
  if s.tsu.source = src then s else evtTime 3 [w32 s.tsu.source, w32 src] { s with tsu.source := src }

/-- An update of the source in use is judged (R376, R377). -/
def judgeUpdate (src tSrc tCap : Nat) (s : State) : State :=
  let o : Int := (tSrc : Int) - tCap
  if s.tsu.state = .unset then
    match s.tsu.step with
    | some _ => { s with tsu.heldUpd := s.tsu.heldUpd ++ [(src, tSrc, tCap)] }
    | none => { s with tsu.step := some { delta := o, fn := 4, command := none }, tsu.lastOff := o, tsu.accepted := inc32 s.tsu.accepted }
  else if (s.tsu.jump * 65536 : Int) < o.natAbs then
    let s := { s with tsu.lastOff := o, tsu.refused := inc32 s.tsu.refused, tsu.lastRefused := some (src, o) }
    match s.tsu.refusedEvt.find? fun e => e.1 = src ∧ s.cpr.aonNs - e.2 < 1000000000 with
    | some _ => s
    | none =>
      evtTime 1 (w32 src :: ns64 o)
        { s with tsu.refusedEvt := (src, s.cpr.aonNs) :: s.tsu.refusedEvt.filter fun e => e.1 ≠ src }
  else
    let slew := clampInt (-429496) 429496 (Int.tdiv (o * 65536) 1000000000)
    let interval : Int := match s.tsu.lastAccept with
      | some t => (tCap : Int) - t
      | none => 0
    let trim := if s.tsu.ponRef ∨ interval ≤ 0 then s.tsu.trim else s.tsu.trim + Int.tdiv (o * 2 ^ 32) (interval * 8)
    setTimeState .tracking <| setIncrement (trim + slew)
      { s with
        tsu.lastOff := o, tsu.accepted := inc32 s.tsu.accepted, tsu.slew := slew, tsu.slewLeft := o * 65536, tsu.trim := trim
        tsu.lastAccept := some tCap }

/-- An update of a source: counted and not applied unless the source is the one TSU uses (R375). -/
def sourceUpdate (src tSrc tCap : Nat) (s : State) : State :=
  if s.tsu.qualified.getD src false = true ∧ bestSource s = src then judgeUpdate src tSrc tCap (setSource src s)
  else { s with tsu.ignored := inc32 s.tsu.ignored }

/-- With no qualified source left to use TSU enters HOLDOVER, applies no slew and reports no source (R373). -/
def noSource (s : State) : State :=
  if bestSource s = 3 ∧ s.tsu.state = .tracking then
    setSource 3 <| setTimeState .holdover <| setIncrement s.tsu.trim { s with tsu.slew := 0, tsu.slewLeft := 0 }
  else s

/-- A source stops qualifying (R374). -/
def unqualify (src : Nat) (s : State) : State := noSource { s with tsu.qualified := s.tsu.qualified.set src false }

/-- TIME_SOURCE_UPDATE: an update of a source, with the source's time and the TSU value captured (R376). -/
def execTimeSourceUpdate (source tSrc tCap : Nat) (s : State) : Host.Outcome State Fault Refusal :=
  .next (sourceUpdate source tSrc tCap s)

/-- The elapsed time at which a source stops qualifying: 60 s after the last PON pair, 2 s after the last pulse, 10 ms after the last
heartbeat of the Quoin link (R374, R425). -/
def sourceEnd (source : Nat) (s : State) : Nat :=
  if source = 2 then (s.cti.quoinNs.map (· + 10000000)).getD 0
  else s.tsu.seenNs.getD source 0 + (if source = 0 then 60000000000 else 2000000000)

/-- SOURCE_QUALIFICATION_LOSS: no pair, pulse or heartbeat of a qualified source until its time has passed (R374). -/
def execSourceQualificationLoss (source : Nat) (s : State) : Host.Outcome State Fault Refusal :=
  .next (if s.tsu.qualified.getD source false then unqualify source (advanceAon (sourceEnd source s) s) else s)

/-- Whether two captures are 1 s apart within 1 ms (R374). -/
def oneSecondApart (a b : Nat) : Bool := decide (999000000 * 65536 ≤ a - b ∧ a - b ≤ 1001000000 * 65536)

/-- Whether captures, newest first, each follow the one before after 1 s within 1 ms. -/
def secondsApart : List Nat → Bool
  | a :: b :: t => oneSecondApart a b && secondsApart (b :: t)
  | _ => true

/-- PPS_INPUT_PULSE: a rising edge is captured; the update's time is the nearest whole second; a capture 0.5 s from a whole
second is counted and discarded (R374, R380). -/
def execPpsInputPulse (s : State) : Host.Outcome State Fault Refusal :=
  if s.tsu.syncFn ≠ 1 then .next s
  else
    let (cap, s) := capture s
    let off := cap % secUnits
    if off * 2 = secUnits then .next { s with tsu.ppsBad := s.tsu.ppsBad + 1 }
    else
      let tSrc := if off * 2 < secUnits then cap - off else cap - off + secUnits
      let times := (cap :: s.tsu.ppsTimes).take 5
      let good := decide (times.length = 5) && secondsApart times && decide (s.tsu.state ≠ .unset)
      let s := { s with tsu.ppsTimes := times, tsu.seenNs := s.tsu.seenNs.set 1 s.cpr.aonNs }
      let s := if good then { s with tsu.qualified := s.tsu.qualified.set 1 true }
        else if s.tsu.qualified.getD 1 false then unqualify 1 s else s
      .next (sourceUpdate 1 tSrc cap s)

/-- EVT_INPUT_EDGE: an active edge on EVT set up as an input is captured and counted, and is a wake source (R472, R476). -/
def execEvtInputEdge (s : State) : Host.Outcome State Fault Refusal :=
  if s.tsu.evtOwner = 1 ∧ s.tsu.evtSet ∧ !s.tsu.evtOut then
    let (cap, s) := capture s
    .next (wakeSource 5 { s with tsu.evtEdges := (s.tsu.evtEdges + 1) % 2 ^ 32, tsu.evtLast := cap / 65536 })
  else .next s

/-- PULSE_WIDTH_EXPIRY: the 1PPS output (0), 1 ms after it rose, or the EVT output (1), after its pulse width, returns to rest (R381,
R476). -/
def execPulseWidthExpiry (which : Nat) (s : State) : Host.Outcome State Fault Refusal :=
  if which = 0 ∧ s.tsu.ppsHigh then
    .next (drivePin 0 false { advanceAon (s.tsu.ppsRise + 1000000) s with tsu.ppsHigh := false })
  else if which = 1 ∧ s.tsu.evtHigh then
    .next (drivePin 1 s.tsu.evtFall { advanceAon (s.tsu.evtRise + s.tsu.evtWidth * 1000) s with tsu.evtHigh := false })
  else .next s

/-! ### Registers (R492, R502, R503) -/

/-- A write of TSU_INCR, stored clamped to 0x0001_FFE6-0x0002_001A. It holds until the next accepted update, and no slew runs on (R376,
R502). -/
def writeIncr (v : Word) (s : State) : State :=
  { s with tsu.incr := max 0x1FFE6 (min 0x2001A v.toNat), tsu.slew := 0, tsu.slewLeft := 0 }

/-- The address of a word of a comparator's registers (R503). -/
def cmpAddr (n word_ : Nat) : Nat := 0x58000 + 16 * n + 4 * word_

/-- TSU_INCR_WRITE (R40, R502). -/
def execTsuIncrWrite (value : Word) (s : State) : Host.Outcome State Fault Refusal := .next (regAccess true 0x50110 (writeIncr value) s)

/-- A write of TSU_INCR_DITHER (R369, R502). -/
def writeDither (v : Word) (s : State) : State := { s with tsu.dither := field v 0 16 }

/-- TSU_INCR_DITHER_WRITE (R40, R369). -/
def execTsuIncrDitherWrite (value : Word) (s : State) : Host.Outcome State Fault Refusal :=
  .next (regAccess true 0x50114 (writeDither value) s)

/-- The latch of a requester (R492). -/
def latchOf (s : State) (who : Nat) : TsuLatch :=
  (s.tsu.latches.find? fun l => l.who = who).getD { TsuLatch.reset with who := who }

/-- Replaces a requester's latch. -/
def setLatch (l : TsuLatch) (s : State) : State :=
  { s with tsu.latches := s.tsu.latches.filter (fun x => x.who ≠ l.who) ++ [l] }

/-- A read of TSU_TIME_SEC latches the other words for the requester (R492). -/
def latchTime (who : Nat) (s : State) : State := setLatch { latchOf s who with time := some s.tsu.now } s

/-- TSU_TIME_SEC_READ (R40, R492, R502). -/
def execTsuTimeSecRead (requester : Nat) (s : State) : Host.Outcome State Fault Refusal :=
  .next (regAccess false 0x50100 (latchTime requester) s)

/-- A comparator. -/
def cmpOf (s : State) (n : Nat) : Cmp := s.tsu.cmps.getD n Cmp.reset

/-- Changes a comparator. -/
def modCmp (n : Nat) (f : Cmp → Cmp) (s : State) : State := { s with tsu.cmps := s.tsu.cmps.modify n f }

/-- The HI word of a comparator (R503). -/
def cmpHi (c : Cmp) : Nat := c.sec / 2 ^ 32 % 65536 + c.frac * 65536

/-- A read of TSU_CMP_SEC_n latches its other words for the requester (R492). -/
def latchCmp (who n : Nat) (s : State) : State :=
  let l := latchOf s who
  setLatch { l with cmp := l.cmp.filter (fun x => x.1 ≠ n) ++ [(n, cmpHi (cmpOf s n) + (cmpOf s n).ns * 2 ^ 32)] } s

/-- TSU_CMP_SEC_READ (R40, R492, R503). -/
def execTsuCmpSecRead (requester n : Nat) (s : State) : Host.Outcome State Fault Refusal :=
  .next (if n < 64 then regAccess false (cmpAddr n 0) (latchCmp requester n) s else s)

/-- Whether a writer owns a comparator: the host by its claim, a control core for TSH and CTI (R503). -/
def ownsCmp (c : Cmp) (w : Writer) : Bool :=
  match w with
  | .host => c.owner == 1
  | .core => c.owner == 2 || c.owner == 3
  | .boot => false

/-- A compare word written by the owner; the value in force of an armed comparator stays (R503). which: 0 seconds, 1 high seconds
and fraction, 2 nanoseconds. -/
def writeCmpWord (n which : Nat) (v : Word) (w : Writer) (s : State) : State :=
  if n < 64 ∧ ownsCmp (cmpOf s n) w then
    modCmp n (fun c =>
      let c := { c with dirty := c.dirty || c.armed }
      if which = 0 then { c with sec := c.sec / 2 ^ 32 * 2 ^ 32 + v.toNat }
      else if which = 1 then { c with sec := c.sec % 2 ^ 32 + field v 0 16 * 2 ^ 32, frac := field v 16 16 }
      else { c with ns := v.toNat }) s
  else s

/-- COMPARE_WORDS_WRITE (R40, R503). -/
def execCompareWordsWrite (n which : Nat) (value : Word) (w : Writer) (s : State) : Host.Outcome State Fault Refusal :=
  .next (if which < 3 then regAccess true (cmpAddr n which) (writeCmpWord n which value w) s else s)

/-- The instant a comparator's words name: a nanoseconds word of 10^9 or more is reached with the next second (R368, R382). -/
def cmpValue (c : Cmp) : Nat :=
  if c.ns < 1000000000 then c.sec * secUnits + c.ns * 65536 + c.frac else (c.sec + 1) * secUnits

/-- A write of TSU_CMP_CTRL_n by the owner: bit 0 arms with the compare words as they stand, or disarms; bit 1 clears fired
(R503). -/
def writeCmpCtrl (n : Nat) (v : Word) (w : Writer) (s : State) : State :=
  if n < 64 ∧ ownsCmp (cmpOf s n) w then
    modCmp n (fun c =>
      let c := if bit v 1 then { c with fired := false } else c
      if bit v 0 then { c with armed := true, value := cmpValue c, dirty := false } else { c with armed := false }) s
  else s

/-- COMPARATOR_ARM_WRITE (R40, R503). -/
def execComparatorArmWrite (n : Nat) (value : Word) (w : Writer) (s : State) : Host.Outcome State Fault Refusal :=
  .next (regAccess true (cmpAddr n 3) (writeCmpCtrl n value w) s)

/-- COMPARATOR_FIRED_CLEAR: the same register word, written to clear fired (R503). -/
def execComparatorFiredClear (n : Nat) (value : Word) (w : Writer) (s : State) : Host.Outcome State Fault Refusal :=
  .next (regAccess true (cmpAddr n 3) (writeCmpCtrl n value w) s)

/-- Arms a comparator for an instant, as its owner's hardware does. -/
def armCmp (n t : Nat) (s : State) : State :=
  modCmp n (fun c =>
    { c with
      sec := t / secUnits, ns := t % secUnits / 65536, frac := t % 65536, value := t, armed := true, dirty := false }) s

/-- The next whole TSU second. -/
def nextSecond (s : State) : Nat := (s.tsu.now / secUnits + 1) * secUnits

/-! ### Commands (R393) -/

/-- TIME_READ (R393). -/
def execTimeRead (c : Cmd) (s : State) : Host.Outcome State Fault Refusal :=
  .next <| serve 0x0901 (exactly 0) c s fun s =>
    .done (timeWords s.tsu.now ++
      [w32 (s.tsu.state.code + s.tsu.source * 4 + s.tsu.syncFn * 16), i32 s.tsu.utcOff, satNs s.tsu.lastOff,
        w32 s.tsu.incr, w32 s.tsu.accepted, w32 s.tsu.refused]) s

/-- Range checks of TIME_SOURCE_SET (R393). -/
def timeSourceBad (w0 w1 : Word) : Bool :=
  ([field w0 0 4, field w0 4 4, field w0 8 4].any fun p => decide (2 < p ∧ p ≠ 15)) ||
    (decide (field w1 0 2 = 2) && decide (field w1 8 6 < 8))

/-- Sets the SYNC function: the 1PPS output arms its comparator for the next whole second; leaving it returns the pin to rest;
leaving the 1PPS input ends its qualification (R379, R381, R392). -/
def setSyncFn (fn cmp : Nat) (s : State) : State :=
  let s := if s.tsu.syncFn = 2 then modCmp s.tsu.ppsCmp (fun c => { c with armed := false }) s else s
  let s := if s.tsu.ppsHigh ∧ fn ≠ 2 then drivePin 0 false { s with tsu.ppsHigh := false } else s
  let s := if s.tsu.syncFn = 1 ∧ fn ≠ 1 then
      let s := { s with tsu.ppsTimes := [] }
      if s.tsu.qualified.getD 1 false then unqualify 1 s else s
    else s
  let s := { s with tsu.syncFn := fn, tsu.ppsCmp := if 8 ≤ cmp then cmp else s.tsu.ppsCmp }
  if fn = 2 then armCmp cmp (nextSecond s) s else s

/-- The priority list of a word (R393). -/
def prioList (w : Word) : List Nat := [field w 0 4, field w 4 4, field w 8 4]

/-- TIME_SOURCE_SET (R379, R393). -/
def execTimeSourceSet (c : Cmd) (s : State) : Host.Outcome State Fault Refusal :=
  .next <| serve 0x0902 (exactly 2) c s fun s =>
    let fn := field (word c 1) 0 2
    let cmp := field (word c 1) 8 6
    checks
      [(timeSourceBad (word c 0) (word c 1), .badParam),
       (decide (fn ≠ 0 ∧ s.tsu.syncOwner ≠ 1), .unavailable),
       (decide (fn = 2 ∧ (cmpOf s cmp).owner ≠ 1), .resourceBusy)]
      (.done [] (setSyncFn fn cmp (noSource { s with tsu.prio := prioList (word c 0) })))

/-- Range checks of TIME_THRESHOLD_SET (R393). -/
def timeThresholdBad (w0 w1 : Word) : Bool :=
  decide (w0.toNat < 100 ∨ 1000000000 < w0.toNat) || decide (w1.toNat < 1 ∨ 1000000 < w1.toNat)

/-- TIME_THRESHOLD_SET (R393). -/
def execTimeThresholdSet (c : Cmd) (s : State) : Host.Outcome State Fault Refusal :=
  .next <| serve 0x0904 (exactly 2) c s fun s =>
    checks [(timeThresholdBad (word c 0) (word c 1), .badParam)]
      (.done [] { s with tsu.jump := (word c 0).toNat, tsu.late := (word c 1).toNat })

/-- Δ of a TIME_STEP function 0 to 2, fixed at execution, in 2^-16 ns (R393). -/
def stepDelta (c : Cmd) (s : State) : Int :=
  match field (word c 0) 0 2 with
  | 0 => (s.tsu.lastRefused.map (·.2)).getD 0
  | 1 => (wordsTime (word c 1) (word c 2) (word c 3) : Int) - s.tsu.now
  | _ =>
    let ns : Int := (BitVec.ofNat 64 (nat64 (word c 1) (word c 2))).toInt
    let frac : Int := field (word c 3) 0 16
    ns * 65536 + (if 0 ≤ ns then frac else -frac)

end Sys2Proof.Machine
end

