-- ==== Sys2Proof/Machine/PonState.lean ====
section
/-!
DEFINITION. What every part of the PON terminal shares: its counters, its events, its activation and sleep states (11 R282, R289,
R302, R305, R306, R309).
-/

namespace Sys2Proof.Machine

/-- EVT_PON (R309). -/
def evtPon (detail : Nat) (ws : List Word) (s : State) : State := raiseEvent 0x8005 detail ws s

/-- The pairs of counter index and threshold in a threshold managed entity's attribute words (R297). -/
def thresholdPairs : List Word → List (Nat × Nat)
  | i :: t :: ws => (i.toNat, t.toNat) :: thresholdPairs ws
  | _ => []

/-- Whether a counter's move from a to b crosses a threshold that OMCI has set on it (R297, R309). -/
def crosses (s : State) (i a b : Nat) : Bool :=
  s.ptu.omci.any fun (e : Nat × List Word) =>
    decide (e.1 / 65536 = 273 ∨ e.1 / 65536 = 274) &&
      (thresholdPairs e.2).any fun t => decide (t.1 = i ∧ t.2 ≠ 0 ∧ a < t.2 ∧ t.2 ≤ b)

/-- Adds to a module-wide PON counter, in every bin and since reset; a threshold crossed in the 15-minute bin raises EVT_PON detail 11
(R297, R306, R309, R486). -/
def ponCount (i k : Nat) (s : State) : State :=
  let up := fun t : List Nat => t.modify i fun n => inc32 n k
  let was := s.ptu.cur15.counters.getD i 0
  let s := if crosses s i was (was + k) then evtPon 11 [w32 i] s else s
  { s with ptu.cur15.counters := up s.ptu.cur15.counters, ptu.curDay.counters := up s.ptu.curDay.counters, ptu.total := up s.ptu.total }

/-- The rules of the extended VLAN managed entities. A rule word: [0] direction, 0 upstream; [2:1] adds 1, removes 2, replaces 3;
[15:4] VID; [18:16] PCP (R297). -/
def vlanRules (s : State) : List Word :=
  (s.ptu.omci.filter fun (e : Nat × List Word) => e.1 / 65536 = 171).flatMap fun (e : Nat × List Word) => e.2

/-- A rule on a frame's VLAN tags, outermost first: it adds, removes or replaces one tag (VID, PCP) (R297). -/
def ruleTag (tags : List (Nat × Nat)) (w : Word) : List (Nat × Nat) :=
  let tag := (field w 4 12, field w 16 3)
  match field w 1 2 with
  | 1 => tag :: tags
  | 2 => tags.drop 1
  | 3 => if tags.isEmpty then tags else tag :: tags.drop 1
  | _ => tags

/-- The tags that the rules of one direction leave on a frame (R297, R384). -/
def ruleTags (down : Bool) (tags : List (Nat × Nat)) (s : State) : List (Nat × Nat) :=
  ((vlanRules s).filter fun w => bit w 0 == down).foldl ruleTag tags

/-- A discarded Ethernet frame (R287). -/
def xgemDiscard (s : State) : State := ponCount 27 1 s

/-- Words are lost: the fragment sequences in reassembly are discarded whole, with what is still to come of them (R287). -/
def breakFrags (s : State) : State :=
  s.ptu.frag.foldl (fun s _ => xgemDiscard s) { s with
    ptu.frag := [], ptu.broken := s.ptu.broken ++ (s.ptu.frag.map fun (x : Nat × Nat) => x.1).filter fun p => !s.ptu.broken.contains p }

/-- Activation-state code, O1 = 1 to O7 = 7; O2-3 is 2 (R308). -/
def ActState.code : ActState → Nat
  | .o1 => 1
  | .o23 => 2
  | .o4 => 4
  | .o5 => 5
  | .o6 => 6
  | .o7 => 7

/-- Sleep-state code, in R302 order (R308). -/
def PonSleep.code : PonSleep → Nat
  | .awakeHeld => 0
  | .awakeFree => 1
  | .watch => 2
  | .watchPeek => 3
  | .aware => 4

/-- The receive path of the activated rate: 50G-PON unless the rate is XGS-PON (R283). -/
def activePath (s : State) : SyncPath := if s.ptu.rate = 2 then s.ptu.pXgs else s.ptu.p50

/-- A receive path: 0 50G-PON, 1 XGS-PON. -/
def pathOf (s : State) (path : Nat) : SyncPath := if path = 1 then s.ptu.pXgs else s.ptu.p50

/-- Changes a receive path. -/
def modPath (path : Nat) (f : SyncPath → SyncPath) (s : State) : State :=
  if path = 1 then { s with ptu.pXgs := f s.ptu.pXgs } else { s with ptu.p50 := f s.ptu.p50 }

/-- A path delivers frames: SYNC or SYNC_MISS (R285). -/
def inSync (p : SyncPath) : Bool := decide (p.sync = .sync ∨ p.sync = .syncMiss)

/-- LODS is in force on a path that is hunted (R306). -/
def lodsNow (s : State) : Bool := (s.ptu.p50.enabled && s.ptu.p50.lods) || (s.ptu.pXgs.enabled && s.ptu.pXgs.lods)

/-- Adds the whole milliseconds in LODS and the whole seconds in O5 that are not counted yet (R306). -/
def accruePon (s : State) : State :=
  let now := s.cpr.aonNs
  let s :=
    if lodsNow s then
      let ms := (now - s.ptu.lodsSince) / 1000000
      ponCount 3 ms { s with ptu.lodsSince := s.ptu.lodsSince + ms * 1000000 }
    else { s with ptu.lodsSince := now }
  if s.ptu.act = .o5 then
    let sec := (now - s.ptu.o5Since) / 1000000000
    ponCount 29 sec { s with ptu.o5Since := s.ptu.o5Since + sec * 1000000000 }
  else s

/-- An upstream PLOAM message leaves: 0 Serial_Number_ONU, 1 Registration, 2 Key_Report, 3 Acknowledge, 4 Sleep_Request,
5 Power_Consumption_Report (R286). -/
def emitPloam (type : Nat) (ws : List Word) (s : State) : State := ponCount 16 1 (emit (.ploam type ws) s)

/-- An upstream PLOAM message waits for a burst of the default Alloc-ID; without an ONU-ID, or with the transmitter held off, none is sent
(R286, R289, R291, R294). -/
def sendPloam (type : Nat) (ws : List Word) (s : State) : State :=
  if (s.ptu.act = .o4 ∨ s.ptu.act = .o5) ∧ !s.ptu.txOff then { s with ptu.ploamQ := s.ptu.ploamQ ++ [(type, ws)] } else s

/-- A sleep state change raises EVT_PON detail 9; the transmitter is off in WATCH and WATCH_PEEK (R302). The time in WATCH runs on through its
peeks. -/
def setSleep (x : PonSleep) (s : State) : State :=
  if s.ptu.sleepSt = x then s
  else
    let peek := decide (x = .watchPeek ∨ s.ptu.sleepSt = .watchPeek ∧ x = .watch)
    evtPon 9 [w32 s.ptu.sleepSt.code, w32 x.code]
      { s with
        ptu.sleepSt := x, ptu.laser := decide (s.ptu.act = .o5 ∧ x ≠ .watch ∧ x ≠ .watchPeek) && !s.ptu.txOff
        ptu.sleepNs := if peek then s.ptu.sleepNs else s.cpr.aonNs, ptu.peekNs := if peek then s.ptu.peekNs else s.cpr.aonNs }

/-- A wake of the terminal: from WATCH, WATCH_PEEK or AWARE it returns to AWAKE_HELD, and after a local wake it sends Sleep_Request (Awake)
(R302). -/
def ponWake (here : Bool) (s : State) : State :=
  let s := { s with ptu.ploamQ := s.ptu.ploamQ.filter fun (m : Nat × List Word) => m ≠ (4, [1]) }
  if s.ptu.sleepSt = .watch ∨ s.ptu.sleepSt = .watchPeek ∨ s.ptu.sleepSt = .aware then
    let s := setSleep .awakeHeld s
    if here then sendPloam 4 [0] s else s
  else s

/-- The conditions of a sleep hold: AWAKE_FREE in O5, CPR holds the terminal in S3, Sleep_Allow is ON and the profile permits it (R302). -/
def maySleep (s : State) : Bool :=
  decide (s.ptu.sleepSt = .awakeFree ∧ s.ptu.act = .o5 ∧ s.cpr.sleep = 3) && s.ptu.sleepAllow && s.ptu.profile.sleepOk

/-- Asks for sleep: Sleep_Request (WSleep) waits for its burst, and WATCH follows it (R302). -/
def ponTrySleep (s : State) : State := if maySleep s ∧ !s.ptu.ploamQ.contains (4, [1]) then sendPloam 4 [1] s else s

/-- What the sending of a PLOAM message brings: WATCH after Sleep_Request (WSleep) while the conditions hold (R302). -/
def ploamSent (m : Nat × List Word) (s : State) : State := if m = (4, [1]) ∧ maySleep s then setSleep .watch s else s

/-- A change of activation state raises EVT_PON detail 1; leaving O5 ends the qualification of PON time (R289, R374). -/
def setAct (x : ActState) (s : State) : State :=
  if s.ptu.act = x then s
  else
    let s := accruePon s
    let old := s.ptu.act
    let s := { s with
      ptu.act := x, ptu.o5Since := s.cpr.aonNs, ptu.sleepNs := s.cpr.aonNs
      ptu.laser := decide (x = .o23 ∨ x = .o4 ∨ x = .o5) && !s.ptu.txOff }
    let s := if old = .o5 ∧ s.tsu.qualified.getD 0 false then unqualify 0 s else s
    evtPon 1 [w32 old.code, w32 x.code] s

/-- A receive path under the rate policy: hunted, or not; LODS clears only when it enters SYNC (R282, R285). -/
def huntPath (on : Bool) (p : SyncPath) : SyncPath := if on then { p with enabled := true } else { SyncPath.reset with lods := p.lods }

/-- The rate policy and the Registration ID of the profile take effect at an entry to O1 (R282, R288, R308). -/
def profileAtO1 (s : State) : State :=
  let s := accruePon s
  let pol := s.ptu.profile.policy
  let fresh := !s.ptu.p50.enabled && decide (pol ≠ 2)
  { s with
    ptu.regInUse := s.ptu.profile.regId, ptu.p50 := huntPath (decide (pol ≠ 2)) s.ptu.p50, ptu.pXgs := huntPath (decide (pol ≠ 1)) s.ptu.pXgs
    ptu.noCand50 := s.ptu.noCand50 && !fresh, ptu.confNs := if fresh then s.cpr.aonNs else s.ptu.confNs }

/-- O1: ONU-ID, allocations, equalisation delay and keys are cleared, the timers stop, and the rate policy takes effect (R282, R289,
R308). -/
def enterO1 (s : State) : State :=
  let s := setSleep .awakeHeld (breakFrags s)
  setAct .o1 <| profileAtO1
    { s with
      ptu.onuId := 0xFFFF, ptu.eqd := 0, ptu.defAlloc := false, ptu.allocs := [], ptu.defGrants := [], ptu.profiles := []
      ptu.profLearned := false, ptu.ukeys := [none, none], ptu.bkeys := [none, none], ptu.keyIdx := 0
      ptu.ports := s.ptu.ports.map fun p => { p with alloc := 0xFFFF, grants := [] }, ptu.broken := []
      ptu.ploamQ := [], ptu.omciQ := [], ptu.omciHead := 0
      ptu.to1 := false, ptu.to2 := false, ptu.prot := false, ptu.protFired := false, ptu.rate := 0 }

/-- The rate the policy would activate now: 1 50G-PON, 2 XGS-PON, 0 neither (R282). -/
def chooseRate (s : State) : Nat :=
  if s.ptu.p50.enabled ∧ inSync s.ptu.p50 then 1
  else if s.ptu.pXgs.enabled ∧ (s.ptu.noCand50 ∨ !s.ptu.p50.enabled) ∧ inSync s.ptu.pXgs then 2
  else 0

end Sys2Proof.Machine
end

