-- ==== Sys2Proof/Machine/Shaper.lean ====
section
/-!
DEFINITION. The traffic shaper TSH (15 R383-R391): counted lengths, token buckets, priority and deficit-weighted round robin,
paced ports, launch times, queue limits and queue statistics.
-/

namespace Sys2Proof.Machine

/-! ### Counted lengths (R384) -/

/-- Bytes of an IP packet that carries n bytes of UDP payload. -/
def ipBytes (v6 : Bool) (n : Nat) : Nat := n + 8 + (if v6 then 40 else 20)

/-- VLAN tags (VID, PCP) that a port puts on a frame: OMCI's upstream rules on a PON port, the service Ethernet's VLAN setting on port
14 (R297, R384, R430). -/
def portTags (s : State) (port : Nat) : List (Nat × Nat) :=
  if port < 8 then ruleTags false [] s
  else if port = 14 ∧ s.cti.svc.vid ≠ 0 then [(s.cti.svc.vid, s.cti.svc.pcp)]
  else []

/-- Layer-2 frame bytes of an IP packet of n bytes on a port, as the port transmits it (R384, R319, R415). -/
def frameBytes (s : State) (port n : Nat) : Nat :=
  if port < 8 ∨ port = 14 then max 64 (14 + n + 4 + 4 * (portTags s port).length)
  else if port = 8 then dataFrameBytes n
  else 4 + (n + 3) / 4 * 4

/-- A port's shaper node. -/
def portShape (s : State) (port : Nat) : PortShape := s.tsh.ports.getD port PortShape.reset

/-- Changes a port's node. -/
def modPort (port : Nat) (f : PortShape → PortShape) (s : State) : State :=
  { s with tsh.ports := s.tsh.ports.modify port f }

/-- The counted length of an IP packet of n bytes on a port (R384). -/
def countedLen (s : State) (port n : Nat) : Nat := frameBytes s port n + (portShape s port).overhead

/-! ### Buckets (R385); tokens in 1/256 byte, time in elapsed ns -/

/-- A bucket filled continuously to an elapsed time, up to its burst: a rate of 1 kb/s gives 1/8,000,000 byte each ns. -/
def bucketFill (b : Bucket) (t : Nat) : Bucket :=
  let x : Int := min (b.burst * 8000000) (b.tokens * 31250 + (b.part + b.rate * (t - b.fillNs) : Nat))
  { b with tokens := x / 31250, part := (x % 31250).toNat, fillNs := max t b.fillNs }

/-- Tokens at an elapsed time, if no frame is debited in between. -/
def bucketAt (b : Bucket) (t : Nat) : Int := (bucketFill b t).tokens

/-- The earliest elapsed time at or after t at which the bucket holds the tokens needed (1/256 byte); none if its burst never does. -/
def bucketReady (b : Bucket) (need : Int) (t : Nat) : Option Nat :=
  if b.rate = 0 then some t
  else
    let t0 := max t b.fillNs
    if need ≤ bucketAt b t0 then some t0
    else if (b.burst * 256 : Int) < need then none
    else
      let missing := (need * 31250 - b.tokens * 31250 - b.part).toNat
      some (max t0 (b.fillNs + (missing + b.rate - 1) / b.rate))

/-- Debits n bytes at an elapsed time; a node with rate 0 counts nothing. -/
def bucketDebit (b : Bucket) (n t : Nat) : Bucket :=
  if b.rate = 0 then b
  else
    let f := bucketFill b t
    { f with tokens := f.tokens - n * 256 }

/-- Gives a bucket a rate and burst. A bucket that was unlimited starts full; otherwise its tokens carry over, up to the burst. -/
def bucketSet (b : Bucket) (rate burst t : Nat) : Bucket :=
  let f := bucketFill b t
  if b.rate = 0 then { rate := rate, burst := burst, tokens := burst * 256, part := 0, fillNs := f.fillNs }
  else if (burst * 256 : Int) ≤ f.tokens then { rate := rate, burst := burst, tokens := burst * 256, part := 0, fillNs := f.fillNs }
  else { f with rate := rate, burst := burst }

/-! ### Leg nodes -/

/-- A leg's shaper node. -/
def legShape (s : State) (leg : Nat) : LegShape := (tget s.tsh.legs leg).getD LegShape.reset

/-- The burst of R245 at a rate in kb/s, unless SHAPER_SET gave one (R249). -/
def legBurst (x : LegShape) (rate : Nat) : Nat := x.burstSet.getD (max 3000 (rate * 5 / 8))

/-- Sets a leg bucket's rate (R245, R249). -/
def setLegRate (leg rate : Nat) (s : State) : State :=
  let x := legShape s leg
  { s with tsh.legs := tset s.tsh.legs leg { x with bucket := bucketSet x.bucket rate (legBurst x rate) s.cpr.aonNs } }

/-- Tokens that a leg bucket must hold before a frame: AUD and CTL may borrow up to one burst (R385). -/
def legNeed (b : Bucket) (service len : Nat) : Int := if service ≤ 1 then len * 256 - b.burst * 256 else len * 256

/-! ### Queues (R386, R387) -/

/-- The key of a leg's service queue on a port. -/
def qKey (leg service port : Nat) : Nat := (leg * 4 + service) * 16 + port

/-- A queue. -/
def frameQ (s : State) (k : Nat) : FrameQ := (tget s.tsh.queues k).getD FrameQ.reset

/-- Stores a queue; an empty one holds no deficit and is not listed (R386). -/
def putQ (k : Nat) (fs : List Frame) (deficit : Nat) (s : State) : State :=
  { s with tsh.queues := if fs.isEmpty then terase s.tsh.queues k else tset s.tsh.queues k ⟨fs, deficit⟩ }

/-- Frames that one service of a leg may hold (R387). -/
def queueLimit (service : Nat) : Nat := [64, 256, 4096, 1024].getD service 0

/-- Frames queued for one service of a leg, on all ports. -/
def legDepth (s : State) (leg service : Nat) : Nat :=
  ((List.range 15).map fun p => (frameQ s (qKey leg service p)).frames.length).sum

/-- Changes the statistics of a frame's leg queue and port queue (R391). -/
def modStats (leg service port : Nat) (f : QStat → QStat) (s : State) : State :=
  { s with
    tsh.legStats := tset s.tsh.legStats (leg * 4 + service) (f ((tget s.tsh.legStats (leg * 4 + service)).getD QStat.reset))
    tsh.portStats := s.tsh.portStats.modify (port * 4 + service) f }

/-- Increments a 16-bit counter that saturates. -/
def inc16 (n : Nat) : Nat := min (n + 1) 0xFFFF

/-- Queues a frame at its leg, service and port. At a full queue it is dropped, its buffer reference released and the drop counted
(R383, R387). -/
def queueFrame (f : Frame) (s : State) : State :=
  if queueLimit f.service ≤ legDepth s f.leg f.service then
    bufReleaseOpt f.buf (modStats f.leg f.service f.port (fun q => { q with overflow := inc16 q.overflow }) s)
  else
    let k := qKey f.leg f.service f.port
    let q := frameQ s k
    putQ k (q.frames ++ [{ f with queuedNs := s.cpr.aonNs, tags := portTags s f.port }]) q.deficit s

/-- Queues an IP packet of n bytes of UDP payload: its counted length is fixed now (R384). -/
def queueUdp (f : Frame) (v6 : Bool) (n : Nat) (s : State) : State :=
  queueFrame { f with len := countedLen s f.port (ipBytes v6 n), payload := n } s

/-- Arms a paced port's comparator for the head of its timed queue, or disarms it (R389). -/
def armPort (port : Nat) (s : State) : State :=
  let x := portShape s port
  match x.timed with
  | f :: _ => armCmp x.cmp (f.stamp * 65536) s
  | [] => modCmp x.cmp (fun c => { c with armed := false }) s

/-- Counts discards of egress for a leg in LEG_STATS word 9 (R88). -/
def legDrops (leg n : Nat) (s : State) : State :=
  { s with fwe.legs := tmod s.fwe.legs leg fun l => { l with stats.drops := inc32 l.stats.drops n } }

/-- Drops frames queued or stamped for a leg that satisfy a test, releasing their buffer references; how many (R61, R85, R359). -/
def flushFrames (leg : Nat) (p : Frame → Bool) (s : State) : Nat × State :=
  let out := fun f : Frame => decide (f.leg = leg) && p f
  let gone := (s.tsh.queues.flatMap fun q => q.2.frames.filter out) ++ (s.tsh.ports.flatMap fun x => x.timed.filter out)
  let s := { s with
    tsh.queues := (s.tsh.queues.map fun q => (q.1, { q.2 with frames := q.2.frames.filter fun f => !out f })).filter
      fun q => !q.2.frames.isEmpty
    tsh.ports := s.tsh.ports.map fun x => { x with timed := x.timed.filter fun f => !out f } }
  let s := (List.range 15).foldl (fun s p => if (portShape s p).paced then armPort p s else s) s
  (gone.length, gone.foldl (fun s f => bufReleaseOpt f.buf s) s)

/-- Drops a leg's queued egress and counts it in the leg's drops (R61, R88). -/
def flushLeg (leg : Nat) (p : Frame → Bool) (s : State) : State :=
  let (n, s) := flushFrames leg p s
  legDrops leg n s

/-! ### Eligibility and selection (R385, R386, R390) -/

/-- Elapsed time of a TSU instant in ns that lies ahead. -/
def elapsedOf (s : State) (t : Nat) : Nat := s.cpr.aonNs + (t - nowNs s)

/-- Elapsed time at which a head frame is eligible: every bucket on its path permits it and its launch time is reached (R385,
R390). -/
def eligibleAt (s : State) (f : Frame) : Option Nat :=
  let now := s.cpr.aonNs
  let lb := (legShape s f.leg).bucket
  let p := portShape s f.port
  match bucketReady lb (legNeed lb f.service f.len) now, bucketReady (p.services.getD f.service Bucket.reset) (f.len * 256) now,
    bucketReady p.bucket (f.len * 256) now with
  | some a, some b, some c =>
    let e := max a (max b c)
    some (match f.launch with
      | some l => max e (elapsedOf s l)
      | none => e)
  | _, _, _ => none

/-- The head frames of a port's queues in one service, with their legs rising. -/
def portHeads (s : State) (port service : Nat) : List (Nat × Frame × Nat) :=
  s.tsh.queues.filterMap fun q =>
    if q.1 % 16 = port ∧ q.1 / 16 % 4 = service then (q.2.frames.head?).map fun f => (q.1 / 64, f, q.2.deficit) else none

/-- Head frames eligible by an elapsed time. -/
def eligibleHeads (s : State) (port service by_ : Nat) : List (Nat × Frame × Nat) :=
  (portHeads s port service).filter fun h => (eligibleAt s h.2.1).any fun e => e ≤ by_

/-- Legs in the order of the round: those after the leg last served, then from the lowest up to it (R386). -/
def roundOrder (last : Nat) (hs : List (Nat × Frame × Nat)) : List (Nat × Frame × Nat) :=
  (hs.filter fun h => last < h.1) ++ hs.filter fun h => h.1 ≤ last

/-- Visits a leg needs before its deficit covers its head frame. -/
def visitsNeeded (s : State) (h : Nat × Frame × Nat) : Nat :=
  let w := (legShape s h.1).weight * 256
  max 1 ((h.2.1.len - h.2.2 + w - 1) / w)

/-- Adds visits to the deficits of legs: k to those before the chosen leg in the round and to it, k - 1 to those after. -/
def addVisits (port service chosen : Nat) : List (Nat × Frame × Nat) → Nat → State → State
  | [], _, s => s
  | h :: hs, k, s =>
    let key := qKey h.1 service port
    let q := frameQ s key
    let s := putQ key q.frames (q.deficit + k * (legShape s h.1).weight * 256) s
    addVisits port service chosen hs (if h.1 = chosen then k - 1 else k) s

/-- The frame that deficit-weighted round robin sends next among eligible heads, and the state with the visits made: the leg last
served goes on while its deficit covers its head; else the round moves on, each visit adding weight times 256 bytes (R386). -/
def dwrrPick (port service by_ : Nat) (s : State) : Option (Frame × State) :=
  let hs := eligibleHeads s port service by_
  let last := (portShape s port).round.getD service 0
  match hs.find? fun h => h.1 = last ∧ h.2.1.len ≤ h.2.2 with
  | some h => some (h.2.1, s)
  | none =>
    let order := roundOrder last hs
    match (order.map (visitsNeeded s)).min? with
    | none => none
    | some k =>
      match order.find? fun h => visitsNeeded s h = k with
      | none => none
      | some h =>
        some (h.2.1, modPort port (fun x => { x with round := x.round.set service h.1 }) (addVisits port service h.1 order k s))

/-- The next frame of a port in the order AUD, CTL, VID, REP; none while all egress is stopped (R386, R426). -/
def portPick (port by_ : Nat) (s : State) : Option (Frame × State) :=
  if s.cti.egressStopped then none else (List.range 4).findSome? fun service => dwrrPick port service by_ s

/-- Takes a head frame from its queue, its length from the deficit (R386). -/
def takeHead (f : Frame) (s : State) : State :=
  let k := qKey f.leg f.service f.port
  let q := frameQ s k
  putQ k q.frames.tail (q.deficit - f.len) s

/-- Debits every bucket on a frame's path (R385). -/
def debitPath (f : Frame) (t : Nat) (s : State) : State :=
  let x := legShape s f.leg
  modPort f.port (fun p =>
    { p with bucket := bucketDebit p.bucket f.len t, services := p.services.modify f.service fun b => bucketDebit b f.len t })
    { s with tsh.legs := tset s.tsh.legs f.leg { x with bucket := bucketDebit x.bucket f.len t } }

/-! ### Launch (R388, R390) -/

/-- A frame is late when its lateness reaches the tolerance (R390, R371). -/
def isLate (s : State) (f : Frame) : Bool :=
  match f.launch with
  | some l => decide (s.tsu.late * 1000 ≤ nowNs s - l)
  | none => false

/-- Drops a late frame: its buffer reference is released and it is counted (R390). -/
def dropLate (f : Frame) (s : State) : State :=
  bufReleaseOpt f.buf (modStats f.leg f.service f.port (fun q => { q with late := inc16 q.late }) s)

/-- Fault PTU_ALLOC_UNCONFIGURED, at most once a minute for a port (R291). -/
def allocUnconfigured (port : Nat) (s : State) : State :=
  let x := s.ptu.ports.getD port PonPort.reset
  if x.lastUnconf.any fun t => s.cpr.aonNs - t < 60000000000 then s
  else fault 0x3005 [w32 port]
    { s with ptu.ports := s.ptu.ports.modify port fun y => { y with lastUnconf := some s.cpr.aonNs } }

/-- The index by which thresholds and events name a per-port PON counter (R297, R309, log 61). -/
def portCounterIndex (port i : Nat) : Nat := 256 * (port + 1) + i

/-- Adds to a per-port PON counter in every bin and since reset; a threshold crossed in the 15-minute bin raises EVT_PON detail 11 (R297,
R306, R309, R486). -/
def ponPortCount (port i k : Nat) (s : State) : State :=
  let up := fun t : List (List Nat) => t.modify port fun l => l.modify i fun n => inc32 n k
  let was := (s.ptu.cur15.ports.getD port []).getD i 0
  let s := if crosses s (portCounterIndex port i) was (was + k) then evtPon 11 [w32 (portCounterIndex port i)] s else s
  { s with
    ptu.cur15.ports := up s.ptu.cur15.ports, ptu.curDay.ports := up s.ptu.curDay.ports, ptu.portTotal := up s.ptu.portTotal }

/-- Hands a frame to its port: the PON port queue, a data frame of kind 1, the service Ethernet or a media container (R388). -/
def handToPort (f : Frame) (s : State) : State :=
  if f.port < 8 then
    let x := s.ptu.ports.getD f.port PonPort.reset
    if x.alloc = 0xFFFF ∨ x.xgem = 0xFFFF then bufReleaseOpt f.buf (ponCount 28 1 (ponPortCount f.port 5 1 (allocUnconfigured f.port s)))
    else emit (.frame f.port f) { engineTraffic .ptuFrame f.payload s with ptu.ports := s.ptu.ports.modify f.port fun y => { y with queue := y.queue ++ [f] } }
  else if f.port = 8 then
    let v6 := ((tget s.fwe.legs f.leg).map (·.ipv6)).getD false
    let (t, s) := stamp s
    bufReleaseOpt f.buf (sendData { kind := 1, timeNs := t, len := ipBytes v6 f.payload, data := [f.leg, f.ssrc.toNat, f.seq.toNat] ++ f.data } s)
  else if f.port = 14 then bufReleaseOpt f.buf (svcQueue f s)
  else bufReleaseOpt f.buf (emit (.frame f.port f) s)

/-- The send record of an egress RTP packet, kept 1 s (R235). -/
def sendRecord (f : Frame) (now : Nat) : SendRec :=
  { SendRec.reset with
    twcc := f.twcc, ssrc := f.ssrc, seq := f.seq.toNat, size := f.len, sentNs := now, aud := decide (f.service = 0) }

/-- Launches a frame: counted for its queue and leg, recorded for Plumb, handed to its port (R388, R235). -/
def launchFrame (f : Frame) (s : State) : State :=
  let s := if (f.buf.bind (tget s.bpm.bufs)).map (·.pool) = some 4 then engineTraffic .packetBuffer f.payload s else s
  let s := modStats f.leg f.service f.port (fun q => { q with launched := q.launched + 1 }) s
  let s := { s with fwe.legs := tmod s.fwe.legs f.leg fun l =>
    { l with stats.outPkts := inc64 l.stats.outPkts, stats.outBytes := inc64 l.stats.outBytes f.payload } }
  let (now, s) := stamp s
  let s := { s with lgv.legs := tmod s.lgv.legs f.leg fun g =>
    { g with sent := (g.sent.filter fun r => now ≤ r.sentNs + 1010000000) ++ [sendRecord f now] } }
  handToPort f s

/-- Serves one frame of an unpaced port; frames found late at their launch are dropped on the way. fuel bounds those drops. -/
def serveUnpaced (port : Nat) : Nat → State → State
  | 0, s => s
  | n + 1, s =>
    match portPick port s.cpr.aonNs s with
    | none => s
    | some (f, s) =>
      if isLate s f then serveUnpaced port n (dropLate f (takeHead f s))
      else launchFrame f (debitPath f s.cpr.aonNs (takeHead f s))

/-- Inserts a frame into a timed queue in stamp order, after equal stamps (R389). -/
def insertStamp (f : Frame) : List Frame → List Frame
  | [] => [f]
  | g :: gs => if f.stamp < g.stamp then f :: g :: gs else g :: insertStamp f gs

/-- Stamps one frame of a paced port that is eligible within 1 ms: its buckets are debited, and it waits in the timed queue (R389). -/
def serveStamp (port : Nat) (s : State) : State :=
  match portPick port (s.cpr.aonNs + 1000000) s with
  | none => s
  | some (f, s) =>
    let e := (eligibleAt s f).getD s.cpr.aonNs
    let f' := { f with stamp := nowNs s + (e - s.cpr.aonNs) }
    armPort port (modPort port (fun x => { x with timed := insertStamp f' x.timed }) (debitPath f e (takeHead f s)))

/-- A port can take a frame (R386, R389). A port whose pacing has ended launches its timed queue first; nothing leaves while all egress is
stopped (R426). -/
def servePort (port : Nat) (s : State) : State :=
  let x := portShape s port
  if s.cti.egressStopped then s
  else if x.paced then serveStamp port s
  else match x.timed with
    | f :: fs =>
      let s := modPort port (fun x => { x with timed := fs }) s
      let s := if fs.isEmpty ∧ x.cmp ≠ 0 then
          modPort port (fun x => { x with cmp := 0 }) (modCmp x.cmp (fun c => { c with owner := 0, armed := false }) s)
        else s
      if isLate s f then dropLate f s else launchFrame f s
    | [] => serveUnpaced port (1 + ((List.range 4).map fun v => ((portHeads s port v).map fun h =>
        (frameQ s (qKey h.1 v port)).frames.length).sum).sum) s

/-- PORT_READY_SERVE (R386). -/
def execPortReadyServe (port : Nat) (s : State) : Host.Outcome State Fault Refusal :=
  .next (if port < 15 then servePort port s else s)

/-- FRAME_BECOMES_ELIGIBLE: time passes until the first waiting head frame of an unpaced port is eligible, and it is served
(R385). -/
def execFrameBecomesEligible (port : Nat) (s : State) : Host.Outcome State Fault Refusal :=
  if port < 15 ∧ (portShape s port).paced = false then
    match (((List.range 4).flatMap fun v => portHeads s port v).filterMap fun h => eligibleAt s h.2.1).min? with
    | none => .next s
    | some e => .next (servePort port (advanceAon e s))
  else .next s

/-- PACED_LAUNCH: the comparator of a paced port fires at the stamp of the head of its timed queue, and the frame launches or is
dropped as late (R389, R390, R503). -/
def execPacedLaunch (port : Nat) (s : State) : Host.Outcome State Fault Refusal :=
  let x := portShape s port
  if port < 15 ∧ x.paced ∧ !s.cti.egressStopped then
    match x.timed with
    | [] => .next s
    | f :: fs =>
      let s := advanceTo (f.stamp * 65536) s
      let s := modCmp x.cmp (fun c => { c with armed := false, fired := true }) (modPort port (fun x => { x with timed := fs }) s)
      .next (armPort port (if isLate s f then dropLate f s else launchFrame f s))
  else .next s

/-- LAUNCH_TIME_REACHED: TSU reaches the launch time of a head frame on an unpaced port; it launches, is dropped as late, or
waits for its buckets (R390). -/
def execLaunchTimeReached (leg service port : Nat) (s : State) : Host.Outcome State Fault Refusal :=
  if 15 ≤ port ∨ 4 ≤ service ∨ (portShape s port).paced ∨ s.cti.egressStopped then .next s
  else match (frameQ s (qKey leg service port)).frames with
    | [] => .next s
    | f :: _ =>
      match f.launch with
      | none => .next s
      | some l =>
        let s := advanceTo (l * 65536) s
        if isLate s f then .next (dropLate f (takeHead f s))
        else if (eligibleAt s f).any fun e => e ≤ s.cpr.aonNs then
          let k := qKey leg service port
          let q := frameQ s k
          let visits := (f.len - q.deficit + (legShape s leg).weight * 256 - 1) / ((legShape s leg).weight * 256)
          let s := putQ k q.frames (q.deficit + visits * (legShape s leg).weight * 256) s
          .next (launchFrame f (debitPath f s.cpr.aonNs (takeHead f s)))
        else .next s

/-! ### Statistics (R391) -/

/-- The record of a window. -/
def windowRecord (q : QStat) : List Word :=
  [w32 q.minD, w32 q.maxD, w32 (q.sumD / max 1 q.n), w32 q.minH, w32 q.maxH, w32 (q.sumH / max 1 q.n),
    w32 (q.overflow + q.late * 65536), w32 q.launched]

/-- Takes one sample of a queue's depth and head-of-line delay. -/
def takeSample (depth headUs : Nat) (q : QStat) : QStat :=
  { q with
    n := q.n + 1, minD := if q.n = 0 then depth else min q.minD depth, maxD := max q.maxD depth, sumD := q.sumD + depth
    minH := if q.n = 0 then headUs else min q.minH headUs, maxH := max q.maxH headUs, sumH := q.sumH + headUs }

/-- Ends a queue's window. -/
def endWindow (q : QStat) : QStat := { QStat.reset with lastWin := windowRecord q }

/-- Depth in bytes and head-of-line delay in us of a set of queues. -/
def depthOf (s : State) (qs : List FrameQ) : Nat × Nat :=
  ((qs.map fun q => (q.frames.map (·.len)).sum).sum,
    (((qs.filterMap fun q => q.frames.head?).map fun f => s.cpr.aonNs - f.queuedNs).foldl max 0) / 1000)

/-- Samples every leg service queue and every port service queue at an audio block boundary; at a new TSU second the window closes
first (R391). -/
def sampleQueues (s : State) : State :=
  let sec := s.tsu.now / secUnits
  let s := if sec ≠ s.tsh.winSec then
      { s with
        tsh.winSec := sec, tsh.legStats := s.tsh.legStats.map fun q => (q.1, endWindow q.2)
        tsh.portStats := s.tsh.portStats.map endWindow }
    else s
  let keys := (s.fwe.legs.flatMap fun l => (List.range 4).map fun v => l.1 * 4 + v)
  { s with
    tsh.legStats := keys.foldl (fun t k =>
      let d := depthOf s ((s.tsh.queues.filter fun q => q.1 / 16 = k).map (·.2))
      tset t k (takeSample d.1 d.2 ((tget t k).getD QStat.reset))) s.tsh.legStats
    tsh.portStats := s.tsh.portStats.mapIdx fun i q =>
      let d := depthOf s ((s.tsh.queues.filter fun x => x.1 % 16 = i / 4 ∧ x.1 / 16 % 4 = i % 4).map (·.2))
      takeSample d.1 d.2 q }

/-- Records of a window before any completed one are zeros (R391). -/
def legRecord (s : State) (k : Nat) : List Word := ((tget s.tsh.legStats k).getD QStat.reset).lastWin

end Sys2Proof.Machine
end

