-- ==== Sys2Proof/Machine/Cipher.lean ====
section
/-!
DEFINITION. The cipher engine (14 R349-R367): key slots, key choice on ingress, usage limits, replay windows, and the leg states
that depend on keys (03 R61).
-/

namespace Sys2Proof.Machine

/-! ### Slots (R352, R353) -/

/-- A key slot; an unlisted one is EMPTY. -/
def slotOf (s : State) (n : Nat) : Slot := (tget s.cpe.slots n).getD Slot.reset

/-- Stores a key slot; an EMPTY one is not listed. -/
def putSlot (n : Nat) (x : Slot) (s : State) : State :=
  { s with cpe.slots := if x.state = .empty then terase s.cpe.slots n else tset s.cpe.slots n x }

/-- The slot that the pointer of a leg and direction names (R352). -/
def ptrSlot (s : State) (leg dir : Nat) : Nat := leg * 4 + dir * 2 + (tget s.cpe.ptrs (leg * 2 + dir)).getD 0

/-- The other slot of a slot's pair. -/
def otherSlot (n : Nat) : Nat := n / 2 * 2 + (1 - n % 2)

/-- Moves the pointer of a slot's pair to it. -/
def pointTo (n : Nat) (s : State) : State := { s with cpe.ptrs := tset s.cpe.ptrs (n / 2) (n % 2) }

/-- A leg's key of a direction is loaded when a slot of the pair is CURRENT (R353). -/
def keyLoaded (s : State) (leg dir : Nat) : Bool :=
  decide ((slotOf s (leg * 4 + dir * 2)).state = .current) || decide ((slotOf s (leg * 4 + dir * 2 + 1)).state = .current)

/-- Key and salt bytes of a suite (R349). -/
def suiteSizes (suite : Nat) : Nat × Nat := if suite ≤ 1 then (16, 14) else if suite = 2 then (16, 12) else (32, 12)

/-- Authentication tag bytes of a suite for SRTP or SRTCP (R349). -/
def tagBytes (suite : Nat) (rtcp : Bool) : Nat := if suite = 0 then 10 else if suite = 1 then (if rtcp then 10 else 4) else 16

/-- The fingerprint of a key (R355). -/
def fingerprint (suite : Nat) (key salt : List Byte) : Word :=
  bytesWord ((sha256 ([0x4B, 0x56, 0x46, 0x50, BitVec.ofNat 8 suite] ++ key ++ salt)).take 4)

/-- Master key bytes of words, for a suite. -/
def keyBytes (suite : Nat) (ws : List Word) : List Byte := (wordsBytes ws).take (suiteSizes suite).1

/-- Master salt bytes of words, for a suite. -/
def saltBytes (suite : Nat) (ws : List Word) : List Byte := (wordsBytes ws).take (suiteSizes suite).2

/-- A packet's tag passes under a slot's keys. -/
def tagPasses (x : Slot) (p : Protect) : Bool :=
  decide (p.suite = x.suite ∧ keyBytes x.suite p.key = keyBytes x.suite x.key ∧ saltBytes x.suite p.salt = saltBytes x.suite x.salt)

/-! ### Leg states that depend on keys (R61) -/

/-- Changes a leg. -/
def modLeg (leg : Nat) (f : Leg → Leg) (s : State) : State := { s with fwe.legs := tmod s.fwe.legs leg f }

/-- The state code of a leg; FREE is 0. -/
def legCode (s : State) (leg : Nat) : Nat := ((tget s.fwe.legs leg).map fun l => l.state.code).getD 0

/-- A leg changes state, reported by EVT_LEG detail 1 (R61, R89). -/
def setLegState (leg : Nat) (st : LegState) (s : State) : State :=
  let old := legCode s leg
  if old = st.code then s else evtLeg 1 leg [w32 old, w32 st.code] (modLeg leg (fun l => { l with state := st }) s)

/-- A CREATED leg becomes ACTIVE when its path is confirmed and its ingress key is loaded; a tree or producer leg has no ingress
key (R61). Its consent period starts there (R65). -/
def legCheck (leg : Nat) (s : State) : State :=
  match tget s.fwe.legs leg with
  | none => s
  | some l =>
    if l.state = .created ∧ l.confirmed ∧ (l.kind ≠ .network ∨ keyLoaded s leg 0) then
      setLegState leg .active (modLeg leg (fun l => { l with consentNs := s.cpr.aonNs }) s)
    else s

/-- Frames that CPE encrypts. -/
def isSrtp (f : Frame) : Bool := f.proto == .rtp || f.proto == .rtcp || f.proto == .rtx || f.proto == .fec

/-- A change of a leg's keys: the leg may become ACTIVE; without a CURRENT egress slot its egress stops and what is queued is
dropped and counted (R61, R359, R361). -/
def keyChanged (leg : Nat) (s : State) : State :=
  let s := legCheck leg s
  if (slotOf s (ptrSlot s leg 1)).state = .current then s else flushLeg leg isSrtp s

/-! ### Usage and limits (R358, R359) -/

/-- EVT_KEY_EXHAUSTED (R359). -/
def evtKey (detail n new : Nat) (s : State) : State :=
  let x := slotOf s n
  raiseEvent 0x8003 detail ([w32 (n + new * 65536), w32 x.pkts] ++ w64 x.bytes) s

/-- Counts a packet on a slot: 7/8 of a limit is reported once; at a limit the slot becomes LOCKED and, on egress with MKIs and a
LOADED next slot, the pointer moves (R358, R359). -/
def useSlot (n bytes : Nat) (s : State) : State :=
  let x0 := slotOf s n
  let x := { x0 with pkts := inc32 x0.pkts, bytes := inc64 x0.bytes bytes }
  let near := decide (x.pktLimit * 7 ≤ x.pkts * 8 ∨ x.byteLimit * 7 ≤ x.bytes * 8)
  let s := putSlot n { x with warned := x.warned || near } s
  let s := if near ∧ !x.warned then evtKey 1 n 0xFFFF s else s
  if x.pktLimit ≤ x.pkts ∨ x.byteLimit ≤ x.bytes then
    let s := putSlot n { slotOf s n with state := .locked } s
    let o := otherSlot n
    let y := slotOf s o
    let leg := n / 4
    if n / 2 % 2 = 1 ∧ x.mkiLen ≠ 0 ∧ y.mkiLen ≠ 0 ∧ y.state = .loaded then
      let s := pointTo o (putSlot o { y with state := .current } s)
      keyChanged leg (mirror 0x8F o [] (evtKey 3 n o s))
    else keyChanged leg (evtKey 2 n 0xFFFF s)
  else s

/-! ### Replay windows (R351) -/

/-- The context of an SSRC in one direction. -/
def ctxOf (s : State) (leg dir : Nat) (ssrc : Word) : Option SsrcCtx :=
  s.cpe.ctxs.find? fun c => c.leg = leg ∧ c.dir = dir ∧ c.ssrc = ssrc

/-- Stores a context. -/
def putCtx (c : SsrcCtx) (s : State) : State :=
  { s with cpe.ctxs := s.cpe.ctxs.filter (fun d => !(decide (d.leg = c.leg ∧ d.dir = c.dir ∧ d.ssrc = c.ssrc))) ++ [c] }

/-- The SRTP packet index of a sequence number, estimated from the highest index (RFC 3711 3.3.1). -/
def packetIndex (top : Nat) (seq : BitVec 16) : Nat :=
  let roc := top / 65536
  let sl := top % 65536
  let q := seq.toNat
  let v := if sl < 32768 then (if 32768 < q - sl then roc - 1 else roc) else (if q < sl - 32768 then roc + 1 else roc)
  v * 65536 + q

/-- An index passes a 128-packet window: above it, or inside it and not seen. -/
def windowPasses (top : Nat) (seen : List Nat) (i : Nat) : Bool :=
  decide (top < i) || (decide (top < i + 128) && !seen.contains i)

/-- The window after an accepted index. -/
def windowAdd (top : Nat) (seen : List Nat) (i : Nat) : Nat × List Nat :=
  let t := max top i
  (t, (i :: seen).filter fun j => t < j + 128)

/-- Checks and records a packet's index in its window: the state after, none for a replay drop. roc: initial rollover counter of
the slot, used when the SSRC has none (R351, R360). -/
def replayCheck (leg dir : Nat) (ssrc : Word) (rtcp : Bool) (seq roc : Nat) (s : State) : Option State :=
  let fresh : SsrcCtx :=
    { leg := leg, dir := dir, ssrc := ssrc, roc := roc, top := 0, seen := [], cTop := 0, cSeen := [] }
  let c := (ctxOf s leg dir ssrc).getD fresh
  if rtcp then
    if c.cSeen = [] ∨ windowPasses c.cTop c.cSeen seq then
      let (t, seen) := windowAdd c.cTop c.cSeen seq
      some (putCtx { c with cTop := t, cSeen := seen } s)
    else none
  else
    let i := if c.seen = [] then c.roc * 65536 + seq % 65536 else packetIndex c.top (BitVec.ofNat 16 seq)
    if c.seen = [] ∨ windowPasses c.top c.seen i then
      let (t, seen) := windowAdd c.top c.seen i
      some (putCtx { c with top := t, roc := t / 65536, seen := seen } s)
    else none

/-! ### Egress (R352, R359) -/

/-- CPE encrypts a packet of n bytes for a leg with its egress current slot: the slot and the bytes of tag and MKI it adds; none
when no slot is CURRENT. The packet's index is recorded for its SSRC (R351). -/
def egressProtect (leg : Nat) (ssrc : Word) (seq : BitVec 16) (rtcp : Bool) (n : Nat) (s : State) : Option (Nat × Nat) × State :=
  let k := ptrSlot s leg 1
  let x := slotOf s k
  if x.state ≠ .current then (none, s)
  else
    let fresh : SsrcCtx := { SsrcCtx.reset with leg := leg, dir := 1, ssrc := ssrc, roc := x.initRoc.toNat }
    let c := (ctxOf s leg 1 ssrc).getD fresh
    let c := if rtcp then { c with cTop := c.cTop + 1 }
      else
        let i := if c.top = 0 then c.roc * 65536 + seq.toNat else packetIndex c.top seq
        { c with top := max c.top i, roc := max c.top i / 65536 }
    (some (k, tagBytes x.suite rtcp + x.mkiLen + (if rtcp then 4 else 0)), useSlot k n (putCtx c s))

/-! ### Ingress (R356, R357) -/

/-- Counts on a slot's KEY_STATUS word 9. -/
def slotReplay (n : Nat) (s : State) : State :=
  if (slotOf s n).state = .empty then s
  else putSlot n { slotOf s n with replays := inc32 (slotOf s n).replays } s

/-- A tag failure under a slot, which its KEY_STATUS word 8 counts (R362). -/
def slotTagFail (n : Nat) (s : State) : State := putSlot n { slotOf s n with tagFails := inc32 (slotOf s n).tagFails } s

/-- A tag failure that drops the packet: only the comparison's failure is seen; LEG_STATS word 10 counts it (R357). -/
def tagFailed (n : Nat) (s : State) : State :=
  modLeg (n / 4) (fun l => { l with stats.authFail := inc32 l.stats.authFail }) (slotTagFail n s)

/-- The next slot becomes CURRENT with the pointer on it; the former current slot is retired 1 s later (R356). -/
def promote (n : Nat) (s : State) : State :=
  let old := ptrSlot s (n / 4) (n / 2 % 2)
  let s := putSlot n { slotOf s n with state := .current } s
  let s := if old ≠ n ∧ (slotOf s old).state ≠ .empty then
      putSlot old { slotOf s old with retireNs := some (s.cpr.aonNs + 1000000000) } s
    else s
  keyChanged (n / 4) (mirror 0x8F n [] (pointTo n s))

/-- The slot that authenticates an ingress packet and the state after the choice, with what is counted on the way (R356). -/
def chooseKey (leg mki : Nat) (p : Protect) (s : State) : Option Nat × State :=
  let a := leg * 4
  let len := max (slotOf s a).mkiLen (slotOf s (a + 1)).mkiLen
  if len ≠ 0 then
    match [a, a + 1].find? fun n => decide ((slotOf s n).state ≠ .empty) && decide ((slotOf s n).mki = mki) with
    | none => (none, slotReplay (ptrSlot s leg 0) s)
    | some n =>
      let x := slotOf s n
      if x.state = .locked then (none, slotReplay n s)
      else if !tagPasses x p then (none, tagFailed n s)
      else if x.state = .loaded then (some n, promote n s)
      else (some n, s)
  else
    let c := ptrSlot s leg 0
    let o := otherSlot c
    let cur := (slotOf s c).state
    if cur = .current ∧ tagPasses (slotOf s c) p then (some c, s)
    else if cur = .current ∨ cur = .locked then
      if (slotOf s o).state = .loaded then
        let s := if cur = .current then slotTagFail c s else s
        if tagPasses (slotOf s o) p then (some o, promote o s) else (none, tagFailed o s)
      else if cur = .locked then (none, slotReplay c s)
      else (none, tagFailed c s)
    else (none, s)

/-- Authenticates an ingress packet of n bytes: the outcome is false for a drop. The slot counts every packet it authenticates, a
replay drop included (R351, R356, R358). -/
def ingressAuth (leg : Nat) (ssrc : Word) (seq : Nat) (rtcp : Bool) (mki : Nat) (p : Protect) (n : Nat) (s : State) : Bool × State :=
  let (k, s) := chooseKey leg mki p s
  match k with
  | none => (false, s)
  | some k =>
    let roc := (slotOf s k).initRoc.toNat
    let s := useSlot k n s
    match replayCheck leg 0 ssrc rtcp seq roc s with
    | some s => (true, s)
    | none => (false, slotReplay k { s with cpe.replayDrops := s.cpe.replayDrops + 1 })

/-! ### Commands (R360-R363) -/

/-- Retires a slot: its registers are zeroed (R353, R361). -/
def retireSlot (n : Nat) (s : State) : State :=
  if (slotOf s n).state = .empty then s else keyChanged (n / 4) (putSlot n Slot.reset s)

/-- Field checks of KEY_LOAD, order 1 (R360). -/
def keyLoadBad (c : Cmd) : Bool :=
  let w := word c 0
  let cls := field w 28 4
  decide (2 < cls) ||
    (decide (cls = 0) &&
      decide (3 < field w 16 3 ∨ 4 < field w 19 3 ∨ 2 ^ 31 < (word c 2).toNat ∨ 2 ^ 48 < nat64 (word c 3) (word c 4)))

/-- The slot that a KEY_LOAD describes (R360). -/
def keyLoadSlot (c : Cmd) : Slot :=
  let w := word c 0
  let suite := field w 16 3
  { Slot.reset with
    state := if bit w 22 then .current else .loaded, suite := suite, mkiLen := field w 19 3
    mki := (word c 1).toNat % 2 ^ (8 * field w 19 3)
    key := (c.words.drop 6).take 8, salt := (c.words.drop 14).take 4
    pktLimit := if (word c 2).toNat = 0 then 2 ^ 31 else (word c 2).toNat
    byteLimit := if nat64 (word c 3) (word c 4) = 0 then 2 ^ 42 else nat64 (word c 3) (word c 4)
    initRoc := word c 5
    fp := fingerprint suite (keyBytes suite ((c.words.drop 6).take 8)) (saltBytes suite ((c.words.drop 14).take 4)) }

/-- Installs a slot; activation makes it CURRENT and locks the former current slot of the pair (R360). -/
def installKey (n : Nat) (x : Slot) (s : State) : State :=
  let o := otherSlot n
  let s := if x.state = .current ∧ (slotOf s o).state = .current then putSlot o { slotOf s o with state := .locked } s else s
  let s := putSlot n x s
  keyChanged (n / 4) (if x.state = .current then pointTo n s else s)

/-- The 10 words of KEY_STATUS (R362). -/
def keyStatusWords (s : State) (n : Nat) : List Word :=
  let x := slotOf s n
  if x.state = .empty then List.replicate 10 0
  else
    let cur := decide (x.state = .current ∧ ptrSlot s (n / 4) (n / 2 % 2) = n)
    [w32 (x.state.code + b1 cur * 4 + x.suite * 8 + x.mkiLen * 64), x.fp, w32 x.pkts] ++ w64 x.bytes ++
      [w32 x.pktLimit] ++ w64 x.byteLimit ++ [w32 x.tagFails, w32 x.replays]

/-- KEY_STATUS (R362, R529). -/
def execKeyStatus (c : Cmd) (s : State) : Host.Outcome State Fault Refusal :=
  .next <| serve 0x0803 (exactly 1) c s fun s =>
    let n := field (word c 0) 0 16
    checks [(!thas s.fwe.legs (n / 4), .badTarget)] (.done (keyStatusWords s n) s)

/-- The fingerprint of the twin key held, 0 for none (R363, R423). -/
def twinFingerprint (s : State) : Word :=
  match s.cpe.twinKek with
  | some k => fingerprint 0xFF (wordsBytes k) []
  | none => 0

/-- TWIN_KEY_LOAD: the modules of a pair compare fingerprints after it; until they agree no key is mirrored (R363). -/
def execTwinKeyLoad (c : Cmd) (s : State) : Host.Outcome State Fault Refusal :=
  .next <| serve 0x0804 (exactly 8) c s fun s =>
    let s := { s with cpe.twinKek := some c.words }
    let agree := ((s.cti.partnerHb.map fun h => decide (h.getD 4 0 = twinFingerprint s)).getD false)
    let s := { s with cti.keyAgree := agree }
    .done [twinFingerprint s] (if s.cti.paired ∧ s.cti.partnerHb.isSome ∧ !agree then evtTwin 8 [] s else s)

end Sys2Proof.Machine
end

