-- ==== Sys2Proof/Machine/Store.lean ====
section
/-!
DEFINITION. The Cairn store (10 R268-R278): rings, appends, the index of random access points, reclaim, and the commands
STORE_POLICY_SET, STORE_EXPORT and STORE_REPLAY with the ends of exports and replays.
-/

namespace Sys2Proof.Machine

/-! ### Rings -/

/-- Bytes of a segment (R268). -/
def segBytes : Nat := 1048576

/-- Bytes that a record of n payload bytes takes (R270). -/
def recBytes (n : Nat) : Nat := 32 + (n + 31) / 32 * 32

/-- MiB of the Cairn area given to rings. -/
def ringTotal (s : State) : Nat := (s.mss.rings.map fun r => r.2.sizeMiB).sum

/-- MiB of the Cairn area (R255). -/
def areaMiB (s : State) : Nat := s.mss.area * 1024

/-- Changes a ring. -/
def modRing (conf : Nat) (f : Ring → Ring) (s : State) : State := { s with mss.rings := tmod s.mss.rings conf f }

/-- A conference's ring at CONF_CREATE: 128 MiB and 15 s, if the area has that much unallocated (R268). -/
def defaultRing (conf : Nat) (s : State) : State :=
  if ringTotal s + 128 ≤ areaMiB s then
    { s with mss.rings := tset s.mss.rings conf { Ring.reset with sizeMiB := 128, retentionMs := 15000 } }
  else s

/-- Index entries of records that the ring no longer holds leave the index (R271). -/
def trimIndex (conf : Nat) (s : State) : State :=
  let held : Nat → Bool := fun n => ((tget s.mss.rings conf).map fun r => r.recs.any fun x => x.number = n).getD false
  { s with mss.index := s.mss.index.map fun e => (e.1, e.2.filter fun x => x.conf ≠ conf || held x.number) }

/-- A record is in the scope of an export: its window, its stream, or raw pictures (R273). -/
def exportScope (e : Export) (x : CairnRec) : Bool :=
  decide (x.kind ≠ 2 ∧ e.startNs ≤ x.timeNs ∧ x.timeNs < e.endNs) &&
    (if x.kind = 0 then decide (e.stream = 0xFFFF ∨ e.stream = x.source) else e.raw)

/-- A record of a replay's stream that it has still to read; after STREAM_REMOVE, records from the limit on are another stream's (R274, R275). -/
def replayOwes (r : Replay) (x : CairnRec) : Bool :=
  decide (x.kind = 0 ∧ x.source = r.source ∧ r.next ≤ x.number) && r.firstNs.isSome && (!r.dropped || decide (x.number < r.limit))

/-- Records of a ring are reclaimed: those that running exports and replays had still to read are skipped and counted, or lost (R273,
R274). -/
def recordsGone (conf : Nat) (gone : List CairnRec) (s : State) : State :=
  { s with
    mss.exports := s.mss.exports.map fun (e : Nat × Export) =>
      if e.2.running ∧ e.2.conf = conf then
        (e.1, { e.2 with skipped := inc32 e.2.skipped (gone.filter fun x => exportScope e.2 x ∧ e.2.next ≤ x.number).length })
      else e
    mss.replays := s.mss.replays.map fun (r : Nat × Replay) =>
      if r.2.running ∧ r.2.conf = conf then (r.1, { r.2 with lost := r.2.lost || gone.any (replayOwes r.2) }) else r }

/-- Frees the segments of a ring below one. -/
def freeBelow (conf seg : Nat) (s : State) : State :=
  match tget s.mss.rings conf with
  | none => s
  | some r =>
    trimIndex conf (modRing conf (fun r => { r with first := seg, recs := r.recs.filter fun x => seg ≤ x.segment })
      (recordsGone conf (r.recs.filter fun x => x.segment < seg) s))

/-- Frees the oldest segment of a ring. -/
def freeSegment (conf : Nat) (s : State) : State :=
  match tget s.mss.rings conf with
  | none => s
  | some r => freeBelow conf (r.first + 1) s

/-- The newest record's time of a ring's oldest segment. -/
def oldestSegNs (r : Ring) : Option Nat := ((r.recs.filter fun x => x.segment = r.first).getLast?).map (·.timeNs)

/-- Frees the oldest segment for space; one whose records lie within retention counts as an early reclaim (R272). -/
def reclaimForSpace (conf : Nat) (s : State) : State :=
  match tget s.mss.rings conf with
  | none => s
  | some r =>
    let early := (oldestSegNs r).any fun t => nowNs s ≤ t + r.retentionMs * 1000000
    let s := freeSegment conf s
    if early then
      { modRing conf (fun r => { r with early := inc32 r.early }) s with mss.early := inc32 s.mss.early }
    else s

/-- Frees the oldest segment of a ring that holds records; when it is the one being written, appends go on in the next one (R272). -/
def freeOldest (conf : Nat) (s : State) : State :=
  freeSegment conf (modRing conf (fun r => if r.first < r.seg then r else { r with seg := r.seg + 1, used := 0 }) s)

/-- Frees the segments of a ring, oldest first, whose newest record is older than the retention. n bounds their number (R272). -/
def reclaimAged (conf : Nat) : Nat → State → State
  | 0, s => s
  | n + 1, s =>
    match tget s.mss.rings conf with
    | none => s
    | some r =>
      let aged : Bool := match oldestSegNs r with
        | some t => decide (t + r.retentionMs * 1000000 < nowNs s)
        | none => decide (r.first < r.seg)
      if aged then reclaimAged conf n (freeOldest conf s) else s

/-- The reclaim pass of an epoch boundary, over every ring (R272). -/
def reclaimPass (s : State) : State :=
  s.mss.rings.foldl (fun s r => reclaimAged r.1 (r.2.seg + 1 - r.2.first) s) s

/-- Moves a ring to a new segment: the tail of the old one holds a pad record; a full ring first runs a reclaim pass and, if that
freed nothing, frees its oldest segment for space (R268, R270, R272). -/
def nextSegment (conf : Nat) (s : State) : State :=
  match tget s.mss.rings conf with
  | none => s
  | some r =>
    let pad : CairnRec :=
      { CairnRec.reset with
        kind := 2, length := segBytes - r.used - 32, timeNs := nowNs s, number := r.next, segment := r.seg, offset := r.used }
    let s := if r.used < segBytes then
        modRing conf (fun r => { r with recs := r.recs ++ [pad], next := r.next + 1, used := segBytes }) s
      else s
    let full : State → Bool := fun s => ((tget s.mss.rings conf).map fun r => decide (r.sizeMiB ≤ r.seg + 1 - r.first)).getD false
    let s := if full s then reclaimAged conf (r.seg - r.first) s else s
    let s := if full s then reclaimForSpace conf s else s
    modRing conf (fun r => { r with seg := r.seg + 1, used := 0 }) s

/-- Appends one record of a given payload length that fits the current segment, or starts the next one (R270): its number. -/
def appendRec (conf : Nat) (rec_ : CairnRec) (s : State) : Option Nat × State :=
  match tget s.mss.rings conf with
  | none => (none, s)
  | some r =>
    if r.closing then (none, s)
    else
      let s := engineTraffic .cairnAppend (recBytes rec_.length) (if segBytes < r.used + recBytes rec_.length then nextSegment conf s else s)
      match tget s.mss.rings conf with
      | none => (none, s)
      | some r =>
        (some r.next, modRing conf (fun r =>
          { r with
            recs := r.recs ++ [{ rec_ with number := r.next, segment := r.seg, offset := r.used, atNs := s.cpr.aonNs }]
            next := r.next + 1, used := r.used + recBytes rec_.length }) s)

/-- The conference whose ring a stream's packets are appended to: its leg is in one that has a ring, and its appends are enabled
(R269). -/
def ringOf (s : State) (stream : Nat) : Option Nat :=
  match (tget s.fwe.legs (stream / 4)).bind (·.conf) with
  | some c => if thas s.mss.rings c ∧ !s.mss.noAppend.contains stream then some c else none
  | none => none

/-- The indexed random access points of a stream in the ring its packets go to, newest first (R271). -/
def indexOf (s : State) (stream : Nat) : List RapEntry :=
  ((tget s.mss.index stream).getD []).filter fun e => (tget s.fwe.legs (stream / 4)).bind (·.conf) = some e.conf

/-- The k low bytes of a number, the highest first. -/
def beBytes (k n : Nat) : List Nat := (leBytes k n).reverse

/-- The header extension of an RTP packet, with the bytes of its elements: the one-byte form of RFC 8285 where every ID and length allows it,
else the two-byte form (R67). -/
def extBlock (p : RtpPkt) : List Nat :=
  if p.exts.isEmpty then []
  else
    let one := p.exts.all fun e => decide (e.1 ≤ 14 ∧ 1 ≤ e.2 ∧ e.2 ≤ 16)
    let els := p.exts.flatMap fun e =>
      (if one then [e.1 * 16 + (e.2 - 1)] else [e.1, e.2]) ++
        (List.range e.2).map fun i => Config.extByte p.ssrc p.seq.toNat e.1 i % 256
    let pad := (4 - els.length % 4) % 4
    (if one then [0xBE, 0xDE] else [0x10, 0x00]) ++ beBytes 2 ((els.length + pad) / 4) ++ els ++ List.replicate pad 0

/-- The bytes of an RTP packet as it is stored: header, header extension and payload (R269, R270). -/
def rtpBytes (p : RtpPkt) : List Nat :=
  [128 + 16 * b1 (!p.exts.isEmpty), p.pt % 128 + 128 * b1 p.marker] ++ beBytes 2 p.seq.toNat ++ beBytes 4 p.ts.toNat ++
    beBytes 4 p.ssrc.toNat ++ extBlock p ++ leBytes p.payload p.data

/-- Appends a packet of a stream; a random access point enters the index, which keeps the 16 newest (R269-R271). -/
def appendPacket (stream : Nat) (p : RtpPkt) (local_ starts : Bool) (s : State) : Option Nat × State :=
  match ringOf s stream with
  | none => (none, s)
  | some c =>
    let (now, s) := stamp s
    let flags := b1 (decide (p.rap ≠ 0)) + 2 * b1 starts + 4 * b1 p.marker + 8 * b1 p.recovered + 16 * b1 local_
    let (n, s) := appendRec c
      { CairnRec.reset with
        kind := 0, length := (rtpBytes p).length, source := stream, flags := flags, layer := p.tid % 16 + p.sid % 16 * 16, timeNs := now
        seq := p.seq.toNat, pt := p.pt, ts := p.ts, ssrc := p.ssrc, pkt := some p } s
    match n with
    | none => (none, s)
    | some k =>
      if p.rap = 0 then (some k, s)
      else
        let x := ((tget s.mss.rings c).bind fun r => r.recs.getLast?).getD CairnRec.reset
        let e : RapEntry :=
          { number := k, timeNs := now, ts := p.ts, kind := p.rap - 1, conf := c, segment := x.segment, offset := x.offset }
        (some k, { s with mss.index := tset s.mss.index stream ((e :: (tget s.mss.index stream).getD []).take 16) })

/-- Appends the bytes of a raw picture in parts, each filling the rest of its segment, all with the picture's time (R270). fuel bounds the
parts. -/
def appendRaw (conf canvas flags total now : Nat) : Nat → Nat → List Nat → State → State
  | 0, _, _, s => s
  | f + 1, i, left, s =>
    if left.isEmpty then s
    else
      let s := match tget s.mss.rings conf with
        | some r => if segBytes < r.used + 64 then nextSegment conf s else s
        | none => s
      match tget s.mss.rings conf with
      | none => s
      | some r =>
        let n := min left.length (segBytes - r.used - 32)
        let s := (appendRec conf
          { CairnRec.reset with
            kind := if i = 0 then 1 else 3, length := n, source := canvas, flags := flags, timeNs := now, seq := i
            ts := w32 total, data := left.take n } s).2
        appendRaw conf canvas flags total now f (i + 1) (left.drop n) s

/-- The parts of a raw picture that a ring holds beside part 0 x, in order (R270). -/
def rawParts (r : Ring) (x : CairnRec) : List CairnRec :=
  r.recs.filter fun y => y.kind = 3 ∧ y.source = x.source ∧ y.timeNs = x.timeNs ∧ x.number < y.number

/-- Whether a raw picture whose part 0 is record x is held whole (R270). -/
def rawWhole (r : Ring) (x : CairnRec) : Bool :=
  decide (x.length + ((rawParts r x).map (·.length)).sum = x.ts.toNat) &&
    ((rawParts r x).mapIdx fun i y => decide (y.number = x.number + i + 1)).all id

/-- The picture of a raw part is held whole. -/
def partWhole (r : Ring) (x : CairnRec) : Bool :=
  ((if x.kind = 1 then some x else r.recs.find? fun y => y.kind = 1 ∧ y.source = x.source ∧ y.timeNs = x.timeNs).map (rawWhole r)).getD false

/-- A record that the fabric did not accept within 100 us is not stored: a packet is counted in its ring, and the buffer reference it held is
released; the first part of a raw picture to be lost counts the frame as dropped in its canvas (R28, R224, R269). -/
def dropAppend (conf number : Nat) (s : State) : State :=
  match tget s.mss.rings conf with
  | none => s
  | some r =>
    match r.recs.find? fun x => x.number % 2 ^ 32 = number with
    | none => s
    | some x =>
      let s := advanceAon (x.atNs + 100000) s
      let t := modRing conf (fun r => { r with recs := r.recs.filter fun y => y.number ≠ x.number }) s
      if x.kind = 0 then bufReleaseOpt x.buf (trimIndex conf (modRing conf (fun r => { r with drops := inc32 r.drops }) t))
      else if x.kind ≠ 2 ∧ partWhole r x then
        { t with lco.canvases := tmod t.lco.canvases x.source fun c => { c with drops := inc32 c.drops } }
      else t

/-- CAIRN_APPEND_TIMEOUT: the record of a number in a conference's ring (R28, R224, R269). -/
def execCairnAppendTimeout (conf number : Nat) (s : State) : Host.Outcome State Fault Refusal := .next (dropAppend conf number s)

/-! ### Ends of exports and replays (R273-R275) -/

/-- A closing ring is freed once no export of its conference runs (R275). -/
def freeClosed (conf : Nat) (s : State) : State :=
  match tget s.mss.rings conf with
  | some r =>
    if r.closing ∧ !(s.mss.exports.any fun e => e.2.running ∧ e.2.conf = conf) then
      { s with mss.rings := terase s.mss.rings conf }
    else s
  | none => s

/-- Ends an export with a result: 0 DONE, 1 TRUNCATED, 2 CANCELLED (R277). -/
def endExport (n result : Nat) (s : State) : State :=
  match tget s.mss.exports n with
  | none => s
  | some e =>
    if e.running then
      freeClosed e.conf (endLong 0x0B02 n .ok [w32 result, w32 e.sent, w32 e.skipped]
        { s with mss.exports := tset s.mss.exports n { e with running := false, result := result } })
    else s

/-- Ends a replay with a result: 0 DONE, 1 OVERTAKEN, 2 STOPPED, 3 ABORTED, 4 NO_SOURCE (R278). -/
def endReplay (n result : Nat) (s : State) : State :=
  match tget s.mss.replays n with
  | none => s
  | some r =>
    if r.running then
      endLong 0x0B03 n .ok [w32 result, w32 r.sent]
        { s with mss.replays := tset s.mss.replays n { r with running := false, result := result } }
    else s

/-- Ends every running replay that satisfies a test. -/
def endReplays (p : Replay → Bool) (result : Nat) (s : State) : State :=
  s.mss.replays.foldl (fun s r => if r.2.running ∧ p r.2 then endReplay r.1 result s else s) s

/-- STREAM_REMOVE in the store: appends stop and the index is dropped; a replay of the stream ends DONE at its last record, a replay
into it ends ABORTED (R275). -/
def storeStreamGone (stream : Nat) (s : State) : State :=
  let s := endReplays (fun r => decide (r.target = stream)) 3 s
  { s with
    mss.index := terase s.mss.index stream, mss.noAppend := s.mss.noAppend.filter (· ≠ stream)
    mss.replays := s.mss.replays.map fun (r : Nat × Replay) =>
      if r.2.source = stream ∧ !r.2.dropped then
        (r.1, { r.2 with dropped := true, limit := ((tget s.mss.rings r.2.conf).map (·.next)).getD 0 })
      else r }

/-- A key for a ring whose conference is deleted, so that a new conference of the same index does not meet it. -/
def closedKey (s : State) (conf : Nat) : Nat :=
  conf + 8192 * (((List.range 4).find? fun k => !thas s.mss.rings (conf + 8192 * (k + 1))).getD 4 + 1)

/-- A ring lives on under another key, with its index entries and exports (R275). -/
def moveRing (conf key : Nat) (s : State) : State :=
  match tget s.mss.rings conf with
  | none => s
  | some r =>
    { s with
      mss.rings := tset (terase s.mss.rings conf) key { r with closing := true }
      mss.index := s.mss.index.map fun e => (e.1, e.2.filter fun x => x.conf ≠ conf)
      mss.exports := s.mss.exports.map fun (e : Nat × Export) => if e.2.conf = conf then (e.1, { e.2 with conf := key }) else e }

/-- CONF_DELETE in the store: appends stop, replays of its streams end ABORTED, the ring is freed when its exports have finished
(R275). -/
def storeConfGone (conf : Nat) (s : State) : State :=
  freeClosed (closedKey s conf) (moveRing conf (closedKey s conf) (endReplays (fun r => decide (r.conf = conf)) 3 s))

/-! ### Commands (R276-R278) -/

/-- Whether a conference is in use. -/
def confUsed (s : State) (c : Nat) : Bool := thas s.aue.confs c

/-- Whether a stream is in use. -/
def streamUsed (s : State) (st : Nat) : Bool := thas s.fwe.streams st

/-- Sets a conference's ring: 0 frees it, and a replay that goes on reads what a new one holds from its first record; a smaller size frees the oldest segments at once (R275, R276). -/
def setRing (conf size ret : Nat) (s : State) : State :=
  if size = 0 then
    let gone := ((tget s.mss.rings conf).map (·.recs)).getD []
    let s := recordsGone conf gone { s with mss.rings := terase s.mss.rings conf }
    trimIndex conf { s with mss.replays := s.mss.replays.map fun (r : Nat × Replay) =>
      if r.2.conf = conf then (r.1, { r.2 with next := 0, limit := 0 }) else r }
  else match tget s.mss.rings conf with
    | none => { s with mss.rings := tset s.mss.rings conf { Ring.reset with sizeMiB := size, retentionMs := ret } }
    | some r =>
      modRing conf (fun r => { r with sizeMiB := size, retentionMs := ret }) (freeBelow conf (max r.first (r.seg + 1 - size)) s)

/-- The 5 words of STORE_POLICY_SET function 2 (R276). -/
def ringWords (s : State) (conf : Nat) : List Word :=
  match tget s.mss.rings conf with
  | none => List.replicate 5 0
  | some r =>
    let age := match r.recs.head? with
      | some x => (nowNs s - x.timeNs) / 1000000
      | none => 0
    [w32 r.sizeMiB, w32 r.retentionMs, w32 (if r.recs.isEmpty ∧ r.used = 0 then 0 else r.seg + 1 - r.first), w32 age, w32 r.drops]

/-- Words of each function of STORE_POLICY_SET (R276). -/
def storePolicyLen (c : Cmd) (k : Nat) : Bool :=
  match field (word c 0) 16 4 with
  | 0 => k == 3
  | 1 => k == 2
  | 2 => k == 1
  | _ => decide (1 ≤ k)

/-- STORE_POLICY_SET (R276). -/
def execStorePolicySet (c : Cmd) (s : State) : Host.Outcome State Fault Refusal :=
  .next <| serve 0x0B01 (storePolicyLen c) c s fun s =>
    let conf := field (word c 0) 0 13
    match field (word c 0) 16 4 with
    | 0 =>
      let size := (word c 1).toNat
      let ret := (word c 2).toNat
      let old := ((tget s.mss.rings conf).map (·.sizeMiB)).getD 0
      checks
        [(decide (1835008 < size ∨ ret < 100 ∨ 3600000 < ret), .badParam), (!confUsed s conf, .badTarget),
         (decide (areaMiB s < ringTotal s - old + size), .noCapacity)]
        (.done [] (setRing conf size ret s))
    | 1 =>
      let st := field (word c 1) 0 16
      checks [(!confUsed s conf || !streamUsed s st, .badTarget)]
        (.done []
          (if bit (word c 1) 16 then { s with mss.noAppend := s.mss.noAppend.filter (· ≠ st) }
           else { s with mss.noAppend := st :: s.mss.noAppend.filter (· ≠ st), mss.index := terase s.mss.index st }))
    | 2 => checks [(!confUsed s conf, .badTarget)] (.done (ringWords s conf) s)
    | _ => .refuse .badParam

/-- Words of each function of STORE_EXPORT (R277). -/
def storeExportLen (c : Cmd) (k : Nat) : Bool :=
  match field (word c 0) 16 4 with
  | 0 => k == 7
  | 1 | 2 => k == 1
  | _ => decide (1 ≤ k)

/-- The 3 words of an export's status (R277). -/
def exportWords (e : Export) : List Word := [w32 (if e.running then 15 else e.result), w32 e.sent, w32 e.skipped]

/-- STORE_EXPORT (R277). -/
def execStoreExport (c : Cmd) (s : State) : Host.Outcome State Fault Refusal :=
  .next <| serve 0x0B02 (storeExportLen c) c s fun s =>
    let conf := field (word c 0) 0 13
    let n := field (word c 0) 20 2
    let running := ((tget s.mss.exports n).map (·.running)).getD false
    match field (word c 0) 16 4 with
    | 0 =>
      let st := field (word c 1) 0 16
      checks
        [(!confUsed s conf || (decide (st ≠ 0xFFFF) && !streamUsed s st), .badTarget), (running, .resourceBusy)]
        (.accepted n { s with
          mss.exports := tset s.mss.exports n
            { Export.reset with
              conf := conf, stream := st, raw := bit (word c 1) 16, startNs := nat64 (word c 2) (word c 3)
              endNs := nat64 (word c 4) (word c 5), tag := field (word c 6) 0 16, running := true, result := 15
              next := ((tget s.mss.rings conf).map fun r => (r.recs.head?.map (·.number)).getD r.next).getD 0 } })
    | 1 => .done [] (endExport n 2 s)
    | 2 => .done (exportWords ((tget s.mss.exports n).getD { Export.reset with running := false, result := 0 })) s
    | _ => .refuse .badParam

/-- The record numbers of a ring from n on that it holds, in ring order. -/
def recsFrom (r : Ring) (n : Nat) : List CairnRec := r.recs.filter fun x => n ≤ x.number

/-- What an export does with a record: 0 not in its scope, 1 send, 2 skip as part of a raw picture that is not whole. -/
def exportWants (r : Ring) (e : Export) (x : CairnRec) : Nat :=
  if !exportScope e x then 0 else if x.kind = 0 ∨ partWhole r x then 1 else 2

/-- The next record that an export must handle (R273). -/
def exportNext (e : Export) (r : Ring) : Option CairnRec := (recsFrom r e.next).find? fun x => exportWants r e x ≠ 0

/-- The 32 bytes of a record's header (R270). -/
def recHeader (x : CairnRec) : List Nat :=
  leBytes 4 (x.length % 2 ^ 28 + x.kind * 2 ^ 28) ++ leBytes 2 x.source ++ [x.flags, x.layer] ++ leBytes 8 x.timeNs ++ leBytes 2 x.seq ++
    [x.pt, 0] ++ leBytes 4 x.ts.toNat ++ leBytes 4 x.ssrc.toNat ++ leBytes 4 x.number

/-- What a record's payload holds: the bytes of the RTP packet, or of a raw part (R270). -/
def recPayload (x : CairnRec) : List Nat :=
  match x.pkt with
  | some p => rtpBytes p
  | none => x.data

/-- EXPORT_RECORD_SEND: an export's next record goes to the host as a data frame of kind 3, which waits for credits; a part of a raw
picture that is not held whole is skipped and counted (R273, R319). -/
def execExportRecordSend (n : Nat) (s : State) : Host.Outcome State Fault Refusal :=
  match tget s.mss.exports n, (tget s.mss.exports n).bind fun e => tget s.mss.rings e.conf with
  | some e, some r =>
    if !e.running then .next s
    else match exportNext e r with
    | none => .next { s with mss.exports := tset s.mss.exports n { e with next := max e.next r.next } }
    | some x =>
      if exportWants r e x = 2 then
        .next { s with mss.exports := tset s.mss.exports n { e with next := x.number + 1, skipped := inc32 e.skipped } }
      else
        .next (sendData
          { kind := 3, flags := 0, tag := e.tag, timeNs := x.timeNs, len := 32 + x.length, data := recHeader x ++ recPayload x }
          (engineTraffic .cairnRead (recBytes x.length)
            { s with mss.exports := tset s.mss.exports n { e with next := x.number + 1, sent := inc32 e.sent } }))
  | _, _ => .next s

/-- EXPORT_DONE: an export with no record of its window left to read ends DONE, or TRUNCATED when it skipped any (R273, R277). -/
def execExportDone (n : Nat) (s : State) : Host.Outcome State Fault Refusal :=
  match tget s.mss.exports n with
  | none => .next s
  | some e =>
    match tget s.mss.rings e.conf with
    | none => .next (endExport n (if e.skipped = 0 then 0 else 1) s)
    | some r =>
      .next (if (exportNext e r).isSome then s else endExport n (if e.skipped = 0 then 0 else 1) s)

/-- Words of each function of STORE_REPLAY (R278). -/
def storeReplayLen (c : Cmd) (k : Nat) : Bool :=
  match field (word c 0) 16 4 with
  | 0 => k == 6
  | 1 | 2 => k == 1
  | _ => decide (1 ≤ k)

/-- The newest indexed random access point of a stream at or before a time (R274). -/
def rapBefore (s : State) (stream t : Nat) : Option RapEntry :=
  (indexOf s stream).find? fun e => e.timeNs ≤ t

/-- STORE_REPLAY (R274, R278). A source whose indexed points all lie after the start position ends at once with NO_SOURCE. -/
def execStoreReplay (c : Cmd) (s : State) : Host.Outcome State Fault Refusal :=
  .next <| serve 0x0B03 (storeReplayLen c) c s fun s =>
    let n := field (word c 0) 20 6
    let old := tget s.mss.replays n
    match field (word c 0) 16 4 with
    | 0 =>
      let src := field (word c 1) 0 16
      let tgt := field (word c 1) 16 16
      let ok := ((tget s.fwe.streams tgt).map (·.origin)).getD false &&
        ((tget s.fwe.legs (tgt / 4)).map fun l => decide (l.kind = .producer)).getD false
      let t := nat64 (word c 4) (word c 5)
      checks
        [(!streamUsed s src || !streamUsed s tgt, .badTarget),
         (!ok || (indexOf s src).isEmpty, .badParam),
         ((old.map (·.running)).getD false, .resourceBusy)]
        (let conf := ((tget s.fwe.legs (src / 4)).bind (·.conf)).getD 0
         let rap := rapBefore s src (nat64 (word c 2) (word c 3))
         .accepted n { s with
           mss.replays := tset s.mss.replays n
             { Replay.reset with
               source := src, target := tgt, conf := conf, running := true, result := 15
               launchNs := if t = 0 then nextBoundaryNs 10000000 s else t
               next := (rap.map (·.number)).getD 0, firstNs := rap.map (·.timeNs) } })
    | 1 => .done [] (endReplay n 2 s)
    | 2 =>
      let r := old.getD { Replay.reset with running := false, result := 0 }
      .done [w32 (if r.running then 15 else r.result), w32 r.sent] s
    | _ => .refuse .badParam

/-- REPLAY_END: a replay ends for a reason of R278: DONE when its source stream was removed and its last record sent, OVERTAKEN when its next record has been
reclaimed, NO_SOURCE when it had no point to start at; any other reason is not this event's. -/
def execReplayEnd (n reason : Nat) (s : State) : Host.Outcome State Fault Refusal :=
  match tget s.mss.replays n with
  | none => .next s
  | some r =>
    let owed := ((tget s.mss.rings r.conf).map fun x => x.recs.any (replayOwes r)).getD false
    let ok := (decide (reason = 0) && r.dropped && !owed && !r.lost) || (decide (reason = 1) && r.lost) ||
      (decide (reason = 4) && r.firstNs.isNone)
    .next (if ok then endReplay n reason s else s)

end Sys2Proof.Machine
end

