-- ==== Sys2Proof/Machine/Ledger.lean ====
section
/-!
DEFINITION. The Ledger's chains and masks (03 R70-R74, R78) and leg identity (R57, R58, R62), shared by commands, walks and Plumb.
-/

namespace Sys2Proof.Machine

/-! ### Masks (R74) -/

/-- A mask is valid when it is 0, or allows T0 to Tk without a gap and at least one spatial layer (R74). -/
def maskValid (m : Nat) : Bool :=
  m == 0 || ([1, 3, 7, 15].contains (m % 16) && decide (16 ≤ m))

/-- A packet of spatial layer sid and temporal layer tid passes a mask; a temporal id above 3 counts as T3 and a spatial id above 3
as S3 (R74, R149). -/
def maskPasses (m sid tid : Nat) : Bool :=
  decide ((m >>> min tid 3) % 2 = 1 ∧ (m >>> (4 + min sid 3)) % 2 = 1)

/-- Layers of mask a that mask b lacks. -/
def maskMinus (a b : Nat) : Nat := a &&& (b ^^^ 0xFF)

/-! ### Streams and legs -/

/-- Changes a stream. -/
def modStream (st : Nat) (f : Stream → Stream) (s : State) : State := { s with fwe.streams := tmod s.fwe.streams st f }

/-- Changes a Ledger entry. -/
def modEntry (i : Nat) (f : Entry → Entry) (s : State) : State := { s with fwe.ledger := tmod s.fwe.ledger i f }

/-- Audio codecs (R66). -/
def isAudio (codec : Nat) : Bool := decide (codec < 8)

/-- Codec codes of R66. -/
def codecKnown (codec : Nat) : Bool := [0, 1, 2, 3, 8, 9, 10, 11].contains codec

/-- RTP clock rate of a codec (RFC 7587, RFC 3551, and 90 kHz for video). -/
def clockRate (codec : Nat) : Nat := if codec = 0 then 48000 else if codec < 8 then 8000 else 90000

/-- The 5-tuple of a network or tree leg; a producer leg has none (R58, R62). -/
def tupleOf (l : Leg) : Option (Nat × Nat × Addr × Nat) :=
  if l.kind = .producer then none else some (l.laddr, l.lport, l.raddr, l.rport)

/-- Whether another leg that is not FREE holds a 5-tuple (R88). -/
def tupleTaken (s : State) (self : Option Nat) (t : Nat × Nat × Addr × Nat) : Bool :=
  s.fwe.legs.any fun l => decide (some l.1 ≠ self) && decide (tupleOf l.2 = some t)

/-- An IP multicast address (R58). -/
def isMulticast (a : Addr) : Bool :=
  let b := (a.words.getD 0 0).toNat
  if a.v6 then decide (b % 256 = 255) else decide (b % 256 / 16 = 14)

/-- Parameters of a leg's class. -/
def classOf (s : State) (cls : Nat) : ClassP := s.lgv.classes.getD cls ClassP.reset

/-! ### Chains (R70-R73) -/

/-- Most entries of a chain: one for each pairing of leg and port (R71). -/
def chainLimit : Nat := 245760

/-- The indices of a chain from an entry on, in order; the flag is set when more than n entries are met. -/
def chainFrom (s : State) : Nat → Option Nat → List Nat × Bool
  | _, none => ([], false)
  | 0, some _ => ([], true)
  | n + 1, some i =>
    match tget s.fwe.ledger i with
    | none => ([], false)
    | some e =>
      let (is, ovr) := chainFrom s n e.next
      (i :: is, ovr)

/-- A stream's chain. -/
def chainOf (s : State) (st : Nat) : List Nat × Bool :=
  match tget s.fwe.streams st with
  | some x => if x.unusable then ([], false) else chainFrom s chainLimit x.head
  | none => ([], false)

/-- A corrupt chain: fault FWE_CHAIN_OVERRUN, and the chain is unusable until STREAM_REMOVE (R71). -/
def chainOverrun (st : Nat) (s : State) : State := fault 0x8001 [w32 st] (modStream st (fun x => { x with unusable := true }) s)

/-- Links an entry at the head of its source's chain (R73). -/
def linkEntry (i : Nat) (e : Entry) (s : State) : State :=
  let head := (tget s.fwe.streams e.source).bind (·.head)
  modStream e.source (fun x => { x with head := some i })
    { s with fwe.ledger := tset s.fwe.ledger i { e with next := head } }

/-- Unlinks an entry with one write to its predecessor's next field, and frees it (R73). -/
def unlinkEntry (i : Nat) (s : State) : State :=
  match tget s.fwe.ledger i with
  | none => s
  | some e =>
    let s := modStream e.source (fun x => { x with head := if x.head = some i then e.next else x.head }) s
    { s with fwe.ledger := (terase s.fwe.ledger i).map fun x =>
        if x.2.next = some i ∧ x.2.source = e.source then (x.1, { x.2 with next := e.next }) else x }

/-- Closes the slot of a filtered packet (R77). -/
def closeSlot (p : RtpPkt) (e : Entry) : Entry := { e with seqOff := e.seqOff - 1, chgSeq := p.seq, lastIn := p.seq }

/-- A refresh need of an entry, for the computation of the epoch that it falls into (R232, R246). -/
def noteNeed (i code : Nat) (s : State) : State :=
  if atBoundary s then { s with lgv.needLater := s.lgv.needLater ++ [(i, code)] }
  else modEntry i (fun e => { e with needs := e.needs ++ [code] }) s

/-- The result of an entry's repair is reported to the VID_KEYFRAME that waits for it; one other than DONE, SUPERSEDED, BRIDGED and
REQUESTED is a refresh need, which after ABANDONED is met by a request (R197, R203, R246). -/
def repairResult (i result : Nat) (s : State) : State :=
  let s := if (findLong 0x0503 i s).isSome then { s with vca.results := s.vca.results ++ [(i, result)] } else s
  if [0, 3, 7, 8].contains result then s else noteNeed i (if result = 6 then 20 else 4) s

/-- Ends the repair of one entry without its pictures: what was held is filtered, and the entry awaits a switch point (R197, R201). -/
def endEntryRepair (i result : Nat) (s : State) : State :=
  match (tget s.fwe.ledger i).bind fun e => e.repair.map fun j => (e, j) with
  | none => s
  | some (_, j) =>
    let synth := ((tget s.vca.jobs j).map fun (x : Job) => !x.bridged).getD false
    let now := s.cpr.aonNs
    let s := modEntry i (fun e =>
      let e := e.repairQ.foldl (fun e q => if 0 < seqDiff q.2.seq e.lastIn then closeSlot q.2 e else e) e
      let e := { e with repair := none, repairQ := [] }
      if synth then { e with active := 0, awaiting := true, awaitNs := now } else e) s
    repairResult i result { s with vca.jobs := tmod s.vca.jobs j fun x => { x with entries := x.entries.filter (· ≠ i) } }

/-- An entry goes: its repair ends ABANDONED, as does one that the host has asked for and Plumb has not begun; it is unlinked (R73, R201,
R203). -/
def removeEntry (i : Nat) (s : State) : State :=
  let serving := ((tget s.fwe.ledger i).bind (·.repair)).isSome
  let s := endEntryRepair i 6 s
  unlinkEntry i (if !serving && (findLong 0x0503 i s).isSome && !(s.vca.results.any fun r => decide (r.1 = i)) then
      { s with vca.results := s.vca.results ++ [(i, 6)] }
    else s)

/-- The entry of a chain for a destination leg and port (R71). -/
def findPair (s : State) (st dest port : Nat) : Option Nat :=
  (s.fwe.ledger.find? fun e => e.2.source = st ∧ e.2.dest = dest ∧ e.2.port = port).map (·.1)

/-- Entries whose destination is a leg. -/
def entriesTo (s : State) (leg : Nat) : Tbl Entry := s.fwe.ledger.filter fun e => e.2.dest = leg

/-- SSRCs in use on a leg: of its streams and of what is sent to it. -/
def legSsrcs (s : State) (leg : Nat) : List Word :=
  ((s.fwe.streams.filter fun x => x.1 / 4 = leg).flatMap fun x =>
    [x.2.ssrc] ++ (if x.2.rtxPt ≠ 0 then [x.2.rtxSsrc] else []) ++ (if x.2.fecPt ≠ 0 then [x.2.fecSsrc] else [])) ++
    (entriesTo s leg).map fun e => e.2.ssrcOut

/-- The first word from w on that a list does not hold. n bounds the search. -/
def firstUnused (used : List Word) : Nat → Word → Word
  | 0, w => w
  | n + 1, w => if used.contains w then firstUnused used n (w + 1) else w

/-- An SSRC that the module picks, unused on the leg: a free value (R88). -/
def pickSsrc (leg : Nat) (s : State) : Word × State :=
  let used := legSsrcs s leg
  let (v, s) := draw s
  (firstUnused (0 :: used) (used.length + 1) (v.setWidth 32), s)

/-! ### RTCP sends of a leg (R68) -/

/-- A frame of a leg on its own port, not made by a chain walk. -/
def legFrame (leg : Nat) (l : Leg) (service : Nat) (proto : FrameKind) : Frame :=
  { Frame.reset with leg := leg, port := l.port, service := service, proto := proto }

/-- Bytes of an SDES chunk that carries a CNAME: packet header, SSRC, the item and its padding to a whole word (RFC 3550, R68). -/
def sdesBytes (cname : List Byte) : Nat := 8 + (2 + cname.length) / 4 * 4 + 4

/-- Bytes of an RTCP packet that the module sends (R68). -/
def rtcpBytes : RtcpBody → Nat
  | .sr _ _ _ _ blocks cname => 28 + 24 * blocks.length + sdesBytes cname
  | .bye => 16
  | .nack _ _ => 16
  | .pli _ => 12
  | .fir _ => 20
  | .feedback _ _ arrivals => 20 + (2 * arrivals.length + 3) / 4 * 4

/-- The RTCP frame of a leg, encrypted, in CTL; none when the leg is not ACTIVE or has no CURRENT egress slot, which counts a drop (R61,
R88). -/
def rtcpFrame (leg : Nat) (ssrc : Word) (body : RtcpBody) (s : State) : Option Frame × State :=
  match tget s.fwe.legs leg with
  | none => (none, s)
  | some l =>
    let n := rtcpBytes body
    if l.state ≠ .active ∨ l.kind = .producer then (none, legDrops leg 1 s)
    else match egressProtect leg ssrc 0 true n s with
      | (none, s) => (none, legDrops leg 1 s)
      | (some (k, extra), s) =>
        let f := { legFrame leg l 1 .rtcp with ssrc := ssrc, slot := some k, payload := n + extra, rtcp := some body }
        (some { f with len := countedLen s l.port (ipBytes l.ipv6 (n + extra)) }, s)

/-! ### Header extensions (R67) -/

/-- Bytes of an RFC 8285 header extension with these elements: the one-byte form where every ID and length allows it, else the two-byte
form. -/
def extBytes (els : List (Nat × Nat)) : Nat :=
  if els.isEmpty then 0
  else
    let one := els.all fun e => decide (e.1 ≤ 14 ∧ 1 ≤ e.2 ∧ e.2 ≤ 16)
    4 + ((els.map fun e => e.2 + (if one then 1 else 2)).sum + 3) / 4 * 4

/-- The ID that a leg gives a kind of extension: byte k of LEG_CREATE word 11, 0 for none (R88). -/
def extId (ids : Word) (k : Nat) : Nat := field ids (8 * k) 8

/-- The elements of a packet that its leg's IDs name, by kind: audio level, dependency descriptor and frame marking (R67). -/
def keptExts (ids : Word) (els : List (Nat × Nat)) : List (Nat × Nat) :=
  ([0, 2, 3] : List Nat).filterMap fun k =>
    if extId ids k = 0 then none else (els.find? fun e => e.1 = extId ids k).map fun e => (k, e.2)

/-- The elements written on egress: those kept, under the destination leg's IDs, and its own transport-wide number; every other one is
stripped (R67). -/
def outExts (ids : Word) (kept : List (Nat × Nat)) : List (Nat × Nat) :=
  (kept.filterMap fun e => if extId ids e.1 = 0 then none else some (extId ids e.1, e.2)) ++
    (if extId ids 1 = 0 then [] else [(extId ids 1, 2)])

/-- Bytes of an RTP packet's copy to a leg before the cipher: its header, the extension rewritten, and its payload (R67). -/
def copyBytes (ids : Word) (p : RtpPkt) : Nat := 12 + extBytes (outExts ids p.kept) + p.payload

end Sys2Proof.Machine
end

