-- ==== Sys2Proof/Machine/Walk.lean ====
section
/-!
DEFINITION. The fork of a packet and the chain walk (01 R28; 03 R75-R79, R84, R86, R87; 09 R240).
-/

namespace Sys2Proof.Machine

/-! ### One entry of a walk (R75-R77) -/

/-- The layers for which a packet is a switch point: audio and key pictures for every layer (R76). -/
def switchMask (audio : Bool) (p : RtpPkt) : Nat :=
  if audio ∨ p.rap = 1 ∨ p.rap = 2 ∨ p.rap = 3 then 0xFF else p.switch % 256

/-- Applies the target at a packet that starts a picture: layers absent from the target go at once, added layers come only at a
switch point for every one of them (R75). -/
def applyTarget (now sw : Nat) (e : Entry) : Entry :=
  let act := e.active &&& e.target
  let added := maskMinus e.target act
  if added ≠ 0 ∧ maskMinus added sw ≠ 0 then
    { e with active := act, awaiting := true, awaitNs := if e.awaiting then e.awaitNs else now }
  else { e with active := act ||| added, awaiting := false }

/-- What a walk does with a packet at an entry. -/
inductive WalkAct
  /-- Nothing is sent. -/
  | pass
  /-- A duplicate or a late packet without a mapping, counted on the destination leg. -/
  | late
  /-- Sent with an output sequence number and timestamp. -/
  | send (seq : BitVec 16) (ts : Word)
  /-- Withheld under R198. -/
  | withheld
  /-- Held in the entry's repair queue (R197). -/
  | hold
deriving DecidableEq, Repr

/-- Ticks of a clock since an entry's last send (R77). -/
def elapsedTicks (nowNs_ clock : Nat) (e : Entry) : Nat := (nowNs_ - e.lastSendNs) * clock / 1000000000

/-- The continuity of an entry whose source has changed, at the first packet of the new source that it sends: the next output number and a
later output timestamp (R77, R78). last_in is taken as it stood at the change (log 25). -/
def continued (nowNs_ clock : Nat) (p : RtpPkt) (e : Entry) : Entry :=
  if e.contPend then
    { e with
      seqOff := (e.lastInOld + e.seqOffOld + 1) - p.seq, tsOff := e.lastTs + w32 (max 1 (elapsedTicks nowNs_ clock e)) - p.ts
      chgSeq := p.seq, contPend := false }
  else e

/-- A picture withheld under R198 takes every layer away until a switch point for all of them, so that its other packets and the pictures after
it do not pass. -/
def withhold (aon : Nat) (e : Entry) : Entry :=
  { e with active := 0, awaiting := true, awaitNs := aon, withheld := e.withheld + 1 }

/-- The visit of a walk to one entry (R75-R78, R197, R198). live: RTP timestamp of the live point of the repair job serving the
entry. -/
def visit (aon nowNs_ clock : Nat) (audio starts : Bool) (live : Option Word) (p : RtpPkt) (e0 : Entry) : Entry × WalkAct :=
  if !e0.valid ∨ e0.paused then (e0, .pass)
  else
    let e := if e0.started then e0
      else { e0 with started := true, lastIn := p.seq - 1, chgSeq := p.seq - 1, lastInOld := p.seq - 1 }
    let e := if starts then applyTarget aon (switchMask audio p) e else e
    match live with
    | some t =>
      if 0 < (p.ts - t).toInt then (e, .hold)
      else if seqDiff p.seq e.lastIn ≤ 0 then (e, .late)
      else (closeSlot p e, .pass)
    | none =>
      let ok := maskPasses e.active (if audio then 0 else p.sid) (if audio then 0 else p.tid)
      let drift := !p.takes.isEmpty && p.takes.any fun k => e.synth.contains k
      let d := seqDiff p.seq e.lastIn
      if d = 0 then (e, .late)
      else if d < 0 then
        if seqDiff p.seq e.chgSeq ≤ 0 ∨ !ok then (e, .late)
        else if drift then (withhold aon e, .withheld)
        else (e, .send (p.seq + e.seqOff) (p.ts + e.tsOff))
      else if !ok then (closeSlot p e, .pass)
      else if drift then (closeSlot p (withhold aon e), .withheld)
      else
        let e := continued nowNs_ clock p e
        ({ e with
          lastIn := p.seq, lastTs := p.ts + e.tsOff, synth := e.synth.filter fun k => !p.refreshes.contains k },
          .send (p.seq + e.seqOff) (p.ts + e.tsOff))

/-- The live point of the synthesis that serves an entry; before it is fixed, every packet counts as before it (R197). -/
def liveOf (s : State) (e : Entry) (p : RtpPkt) : Option Word :=
  (e.repair.bind fun j => tget s.vca.jobs j).bind fun j => if j.bridged then none else some (j.live.getD p.ts)

/-- A picture withheld under R198: a second one of the stream within 60 s keeps Plumb from synthesis for the next 60 s (R201). -/
def noteWithheld (st : Nat) (s : State) : State :=
  let now := nowNs s
  modStream st (fun x =>
    let l := (x.withheldNs.filter fun t => now < t + 60000000000) ++ [now]
    { x with withheldNs := l, backoffNs := if 2 ≤ l.length then now + 60000000000 else x.backoffNs }) s

/-- Holds a packet in an entry's repair queue; a packet that comes 1 s or more after the oldest held one overflows it: the repair ends
ABANDONED and the packet is filtered with those held (R197). -/
def holdPacket (i : Nat) (e : Entry) (p : RtpPkt) (s : State) : State :=
  let now := nowNs s
  let s' := modEntry i (fun e => { e with repairQ := e.repairQ ++ [(now, p)] }) s
  if (e.repairQ.head?).any fun q => decide (q.1 + 1000000000 ≤ now) then endEntryRepair i 6 s' else s'

/-- Whether an entry would send a packet now. -/
def wouldSend (s : State) (clock : Nat) (audio starts : Bool) (p : RtpPkt) (i : Nat) : Bool :=
  match tget s.fwe.ledger i with
  | some e =>
    match visit s.cpr.aonNs (nowNs s) clock audio starts (liveOf s e p) p e with
    | (_, .send _ _) => true
    | _ => false
  | none => false

/-! ### Sending copies -/

/-- FlexFEC generation of an entry: one repair packet over each run of m protected packets, while Plumb spends an FEC share on the
leg (R239, R240). -/
def fecStep (i dest len : Nat) (f : Frame) (s : State) : State :=
  let pc := ((tget s.lgv.legs dest).map (·.fecPc)).getD 0
  match tget s.fwe.ledger i with
  | none => s
  | some e =>
    if !e.fec ∨ pc = 0 then modEntry i (fun e => { e with fecRun := 0, fecLen := 0 }) s
    else
      let m := max 2 ((100 - pc) / pc)
      let n := max e.fecLen len
      if e.fecRun + 1 < m then modEntry i (fun e => { e with fecRun := e.fecRun + 1, fecLen := n }) s
      else
        let x := (tget s.fwe.streams e.source).getD Stream.reset
        let s := modEntry i (fun e => { e with fecRun := 0, fecLen := 0 }) s
        match egressProtect dest x.fecSsrc 0 false (n + 20) s with
        | (some (k, extra), s) =>
          let v6 := ((tget s.fwe.legs dest).map (·.ipv6)).getD false
          withBuf dest (n + 20 + extra) f.service s fun b s =>
            queueUdp { f with proto := .fec, ssrc := x.fecSsrc, pt := x.fecPt, buf := some b, slot := some k } v6 (n + 20 + extra) s
        | (none, s) => s

/-- The transport-wide sequence number of a packet to a leg that carries the extension (R67). -/
def nextTwcc (dest : Nat) (s : State) : Nat × State :=
  match tget s.fwe.legs dest with
  | some l =>
    if field l.extIds 8 8 = 0 then (0, s)
    else (l.twccTx, modLeg dest (fun l => { l with twccTx := (l.twccTx + 1) % 65536 }) s)
  | none => (0, s)

/-- A copy of n payload bytes enters the retransmission window, the last 128 output sequence numbers up to the highest sent, and the counts of
its sender reports (R68, R79). -/
def noteSent (seq : BitVec 16) (recNo : Option Nat) (now : Nat) (ts : Word) (n : Nat) (e : Entry) : Entry :=
  let top : BitVec 16 := match e.outTop with
    | some t => if 0 < seqDiff seq (BitVec.ofNat 16 t) then seq else BitVec.ofNat 16 t
    | none => seq
  { e with
    outTop := some top.toNat, outPkts := e.outPkts + 1, outBytes := e.outBytes + n
    window := (e.window ++ [(seq.toNat, recNo, now, ts)]).filter fun w =>
      decide (0 ≤ seqDiff top (BitVec.ofNat 16 w.1) ∧ seqDiff top (BitVec.ofNat 16 w.1) < 128) }

/-- Sends one copy: dropped and counted when the leg is not ACTIVE or has no CURRENT egress slot; else encrypted, numbered, recorded
in the retransmission window and queued (R61, R67, R79, R352, R383). A copy that meets a poisoned word in CPE or TSH is dropped, its buffer
freed and the drop counted (R21). -/
def sendCopy (i : Nat) (recNo buf : Option Nat) (p : RtpPkt) (seq : BitVec 16) (ts : Word) (poisoned : Bool) (s : State) : State :=
  match tget s.fwe.ledger i with
  | none => bufReleaseOpt buf s
  | some e =>
    let l := (tget s.fwe.legs e.dest).getD Leg.reset
    let now := nowNs s
    let n := copyBytes l.extIds p
    let s := modEntry i (fun e => { e with lastSendNs := now }) s
    if l.state ≠ .active ∨ l.kind = .producer ∨ poisoned then bufReleaseOpt buf (legDrops e.dest 1 s)
    else match egressProtect e.dest e.ssrcOut seq false n s with
      | (none, s) => bufReleaseOpt buf (legDrops e.dest 1 s)
      | (some (k, extra), s) =>
        let (tw, s) := nextTwcc e.dest s
        let f : Frame :=
          { Frame.reset with
            leg := e.dest, port := e.port, service := e.service, proto := .rtp, ssrc := e.ssrcOut, seq := seq, ts := ts
            pt := e.ptOut, twcc := tw, buf := buf, entry := some i, slot := some k, launch := p.launch
            exts := outExts l.extIds p.kept, level := if extId l.extIds 0 = 0 then none else p.level, pkt := some p }
        let s := modEntry i (noteSent seq recNo now ts p.payload) s
        fecStep i e.dest n f (queueUdp f l.ipv6 (n + extra) s)

/-- Buffers for n copies: the original takes copies up to a count of 65,535, each further run takes a clone; the copies of a clone
that cannot be allocated get none (R84). The list holds one buffer per copy. room: references the original still takes. -/
def cloneRuns (bytes : Nat) (urgent : Bool) (orig : Option Nat) : Nat → Nat → Nat → State → List (Option (Option Nat)) × State
  | 0, _, _, s => ([], s)
  | fuel + 1, room, n, s =>
    if n ≤ room then (List.replicate n (some orig), s)
    else
      let head := List.replicate room (some orig)
      let rest := n - room
      match bufAlloc bytes urgent 4 (min rest 65535) s with
      | (some k, s) =>
        let (tl, s) := cloneRuns bytes urgent (some k) fuel 65535 rest s
        (head ++ tl, s)
      | (none, s) => (head ++ List.replicate rest none, s)

/-! ### The walk -/

/-- A visit to an entry that is not cached: a fetch from working memory in C0, a cache miss counted at the entry's port (R72, R486). -/
def countReplica (i : Nat) (e : Entry) (s : State) : State :=
  if 65536 ≤ i then
    let s := recordTraffic (trafficClass .ledgerMiss) (channelOf (Config.ledgerAddress i)) 32 s
    { s with fwe.portCnt := s.fwe.portCnt.modify e.port fun l => l.modify 3 fun n => inc32 n } else s

/-- Visits one entry of a chain: the copy to send, if one goes out at once, and what the visit leaves (R67, R77). -/
def visitOne (clock : Nat) (audio starts : Bool) (p : RtpPkt) (i : Nat) (s : State) : Option (BitVec 16 × Word) × State :=
  match tget s.fwe.ledger i with
  | none => (none, s)
  | some e =>
    let s := countReplica i e s
    let v := visit s.cpr.aonNs (nowNs s) clock audio starts (liveOf s e p) p e
    let s := { s with fwe.ledger := tset s.fwe.ledger i v.1 }
    match v.2 with
    | .send seq ts => (some (seq, ts), s)
    | .late => (none, modLeg e.dest (fun l => { l with stats.late := inc32 l.stats.late }) s)
    | .hold => (none, holdPacket i v.1 p s)
    | .withheld => (none, noteWithheld e.source (noteNeed i 2 s))
    | _ => (none, s)

/-- Visits the entries of a chain in order, gathering the copies to send. -/
def visitAll (clock : Nat) (audio starts : Bool) (p : RtpPkt) : List Nat → State → List (Nat × BitVec 16 × Word) × State
  | [], s => ([], s)
  | i :: is, s =>
    let r := visitOne clock audio starts p i s
    let rest := visitAll clock audio starts p is r.2
    ((r.1.map fun c => (i, c.1, c.2)).toList ++ rest.1, rest.2)

/-- Sends the copies of a walk, one buffer reference each; copies whose clone could not be allocated are dropped and counted (R84). -/
def sendAll (recNo : Option Nat) (p : RtpPkt) (poisoned : List Nat) :
    List (Nat × BitVec 16 × Word) → List (Option (Option Nat)) → State → State
  | (i, seq, ts) :: cs, some b :: bs, s => sendAll recNo p poisoned cs bs (sendCopy i recNo b p seq ts (poisoned.contains i) s)
  | (i, _, _) :: cs, none :: bs, s =>
    sendAll recNo p poisoned cs bs (legDrops (((tget s.fwe.ledger i).map (·.dest)).getD 0) 1 s)
  | _, _, s => s

/-- A stream's codec. -/
def codecOf (s : State) (st : Nat) : Nat := ((tget s.fwe.streams st).map (·.codec)).getD 0

/-- Walks a stream's chain with a packet (R77): a chain of more entries than R71 allows stops there with FWE_CHAIN_OVERRUN. The
buffer's count is set to what the walk sends plus the references that stay (R28, R84). -/
def walkChain (w : WalkItem) (poisoned : List Nat) (s : State) : State :=
  let codec := codecOf s w.stream
  let (is, ovr) := chainOf s w.stream
  let (copies, s) := visitAll (clockRate codec) (isAudio codec) w.starts w.pkt is s
  let s := if ovr then chainOverrun w.stream s else s
  match w.buf with
  | none => sendAll w.recNo w.pkt poisoned copies (List.replicate copies.length (some none)) s
  | some k =>
    let kept := ((tget s.bpm.bufs k).map fun b => b.refs - min w.planned b.refs).getD 0
    let s := bufSetRefs k (min 65535 (kept + copies.length)) s
    let (bufs, s) := cloneRuns w.pkt.bytes (isAudio codec) (some k) (copies.length / 65535 + 2) (65535 - kept) copies.length s
    sendAll w.recNo w.pkt poisoned copies bufs s

/-! ### The fork (R28) -/

/-- Wire bytes of an RTP packet of a leg, UDP and IP headers included (R235). -/
def wireBytes (s : State) (st bytes : Nat) : Nat :=
  ipBytes (((tget s.fwe.legs (st / 4)).map (·.ipv6)).getD false) bytes

/-- Notes a packet for the layer rates of the last 1 s (R235). -/
def noteLayer (st : Nat) (p : RtpPkt) (s : State) : State :=
  let now := nowNs s
  let n := wireBytes s st p.bytes
  modStream st (fun x =>
    { x with
      layerBytes := (x.layerBytes.filter fun r => now < r.1 + 1020000000) ++ [(now, min p.sid 3 * 4 + min p.tid 3, n)] }) s

/-- Whether a packet starts a picture of its stream (R75). -/
def startsPicture (s : State) (st : Nat) (p : RtpPkt) : Bool :=
  p.sof || (((tget s.fwe.streams st).map fun x => decide (x.lastTs ≠ some p.ts)).getD true)

/-- The record that a ring holds of a packet already appended (R269). -/
def storedAs (s : State) (st : Nat) (p : RtpPkt) : Option Nat :=
  ((ringOf s st).bind fun c => tget s.mss.rings c).bind fun r =>
    (r.recs.find? fun x => x.kind = 0 ∧ x.source = st ∧ x.ssrc = p.ssrc ∧ x.seq = p.seq.toNat ∧ x.ts = p.ts).map (·.number)

/-- The record of a packet at its fork: the one that a duplicate has already, else a new one; the flag tells a new one (R269). -/
def forkRecord (st : Nat) (p : RtpPkt) (local_ starts : Bool) (s : State) : Option Nat × Bool × State :=
  match if local_ then none else storedAs s st p with
  | some n => (some n, false, s)
  | none =>
    let (n, s) := appendPacket st p local_ starts s
    (n, n.isSome, s)

/-- Forks a packet: it is appended to Cairn, measured, and waits for its chain walk; its buffer takes a reference for the append, one
for each egress copy, and one for a decode or level read (R28, R84, R235, R269). With no copy to come the walk holds no reference. -/
def forkPacket (st : Nat) (p : RtpPkt) (buf : Option Nat) (local_ reads : Bool) (s : State) : State :=
  let starts := startsPicture s st p
  let (recNo, fresh, s) := forkRecord st p local_ starts s
  let now := nowNs s
  let s := noteLayer st p (modStream st (fun x => { x with lastTs := some p.ts, lastNs := now }) s)
  let codec := codecOf s st
  let kept := b1 fresh + b1 reads
  let n := min (65535 - kept) ((chainOf s st).1.filter (wouldSend s (clockRate codec) (isAudio codec) starts p)).length
  let s := match buf with
    | some k => bufSetRefs k (kept + n)
        (if reads then { s with bpm.bufs := tmod s.bpm.bufs k fun b => { b with reader := some (if isAudio codec then 12 else 13, st) } }
         else s)
    | none => s
  let s := match (if fresh then recNo else none), buf, (tget s.fwe.legs (st / 4)).bind (·.conf) with
    | some r, some k, some c =>
      modRing c (fun (x : Ring) => { x with recs := x.recs.map fun (y : CairnRec) => if y.number = r then { y with buf := some k } else y }) s
    | _, _, _ => s
  { s with fwe.walkQ := s.fwe.walkQ ++ [(⟨st, p, if n = 0 then none else buf, n, recNo, starts⟩ : WalkItem)] }

/-- The oldest waiting walk of a leg's flow, with its place in the queue (R31, R86). -/
def oldestWalk (s : State) (leg : Nat) : Option (Nat × WalkItem) :=
  (s.fwe.walkQ.find? fun w => w.stream / 4 = leg).map fun w => (s.fwe.walkQ.findIdx fun w => w.stream / 4 = leg, w)

/-- CHAIN_WALK: the oldest item of the leg's flow, when it is a walk of this stream, is walked along its chain; poisoned names the entries
whose copies meet a poisoned word (R21, R77, R86). -/
def execChainWalk (w : WalkRun) (s : State) : Host.Outcome State Fault Refusal :=
  match oldestWalk s (w.stream / 4) with
  | none => .next s
  | some (i, x) =>
    .next (if x.stream = w.stream then walkChain x w.poisoned { s with fwe.walkQ := s.fwe.walkQ.eraseIdx i } else s)

/-- A change applied as an item of a leg's flow comes after the walks that wait in it: they are walked first, in order (R31, R86). fuel
bounds their number. -/
def serveWalks (leg : Nat) : Nat → State → State
  | 0, s => s
  | n + 1, s =>
    match oldestWalk s leg with
    | none => s
    | some (i, w) => serveWalks leg n (walkChain w [] { s with fwe.walkQ := s.fwe.walkQ.eraseIdx i })

/-- The state in which an item queued now to a leg's flow is applied (R86). -/
def inFlow (leg : Nat) (s : State) : State := serveWalks leg s.fwe.walkQ.length s

/-! ### RTCP sends of a leg (R68) -/

/-- Sends an RTCP packet to a leg through the shaper, in a buffer of its own, as an item of the leg's flow (R68, R82, R86). -/
def sendRtcp (leg : Nat) (ssrc : Word) (body : RtcpBody) (s : State) : State :=
  match rtcpFrame leg ssrc body (inFlow leg s) with
  | (some f, s) => withBuf leg (rtcpBytes body) 1 s fun b s => queueFrame { f with buf := some b } s
  | (none, s) => s

end Sys2Proof.Machine
end

