-- ==== Sys2Proof/Machine/Legs.lean ====
section
/-!
DEFINITION. The commands of legs, streams, subscriptions, conferences and shaper nodes (03 R57-R61, R70-R74, R78, R88).
-/

namespace Sys2Proof.Machine

/-! ### LEG_CREATE and LEG_MODIFY (R88) -/

/-- Bytes up to the first zero. -/
def upToZero (bs : List Byte) : List Byte := bs.takeWhile (· ≠ 0)

/-- What LEG_CREATE words describe, in the layout of its words 0-27. -/
def legOfWords (ws : List Word) (v6 : Bool) : Leg :=
  let g := fun i => ws.getD i 0
  let w1 := g 1
  let kind : LegKind := if bit w1 2 then .tree else if bit w1 3 then .producer else .network
  let bytes := fun a n => upToZero (wordsBytes ((ws.drop a).take n))
  { Leg.reset with
    kind := kind, ipv6 := v6, ice := bit w1 1, feedback := bit w1 4, cls := field w1 5 3, port := field w1 8 4
    laddr := field w1 12 6, lport := field (g 2) 0 16, rport := field (g 2) 16 16
    raddr := { v6 := v6, words := (ws.drop 3).take (if v6 then 4 else 1) }, extIds := g 11
    lufrag := bytes 12 4, rufrag := bytes 16 4, lpwd := bytes 20 8
    conf := if field (g 0) 16 16 = 0xFFFF then none else some (field (g 0) 16 16) }

/-- ICE credentials of the lengths that R88 asks for. -/
def credsOk (l : Leg) : Bool := decide (4 ≤ l.lufrag.length ∧ 4 ≤ l.rufrag.length ∧ 22 ≤ l.lpwd.length)

/-- A transcoded slot is reserved for a network leg in a conference until its audio is known to carry the level extension (R45,
R88). -/
def needsSlot (l : Leg) : Bool := decide (l.kind = .network) && l.conf.isSome && !l.levelKnown

/-- Transcoded slots beyond a mode's figure. -/
def slotsOver (s : State) (extra : Nat) (m : Mode) : Bool := decide (capSlots m < slotsUsed s + extra)

/-- The governance that a new leg starts with: both estimates at the class start rate (R237); a producer leg has none (R58). -/
def startGov (s : State) (cls : Nat) : Gov :=
  let r := (classOf s cls).start
  { Gov.reset with
    aDelay := r * 256, aLoss := r * 256, rate := r, shown := { GovShown.reset with aDelay := (classOf s cls).cap, aLoss := r }
    opus := (classOf s cls).opusMin }

/-- Enters a leg in the state CREATED with its shaper node at the class start rate (R61, R383). -/
def addLeg (i : Nat) (l : Leg) (s : State) : State :=
  let start := (classOf s l.cls).start
  let s := { s with fwe.legs := tset s.fwe.legs i { l with cnameTx := Config.legCname i } }
  let s := if l.kind = .producer then s
    else setLegRate i start { s with
      lgv.legs := tset s.lgv.legs i (startGov s l.cls), tsh.legs := tset s.tsh.legs i LegShape.reset }
  evtLeg 1 i [0, w32 LegState.created.code] s

/-- The leg that LEG_CREATE describes; a producer leg has no network fields (R58, R88). -/
def createdLeg (c : Cmd) : Leg :=
  let l := legOfWords c.words (bit (word c 1) 0)
  if l.kind = .producer then { l with port := 0, laddr := 0, lport := 0, rport := 0, raddr := {} } else l

/-- The index of a new object: the one named, or for 0xFFFF the lowest free one (R88). -/
def pickIndex {α : Type} (t : Tbl α) (idx : Nat) : Nat := if idx = 0xFFFF then tfree t 0 else idx

/-- LEG_CREATE's checks in their order (R44, R45, R49, R88). -/
def legCreateChecks (c : Cmd) (s : State) : List (Bool × Status) :=
  let idx := field (word c 0) 0 16
  let both := bit (word c 1) 2 && bit (word c 1) 3
  let l := createdLeg c
  [(both || decide (idx ≠ 0xFFFF ∧ 16384 ≤ idx) || decide (l.port = 15) || (l.ice && decide (l.kind ≠ .network)) ||
        (l.ice && !credsOk l) || (decide (l.kind = .tree) && (!isMulticast l.raddr || decide (7 < l.port))), .badParam),
    ((l.conf.map fun k => !confUsed s k).getD false, .badTarget),
    (decide (idx ≠ 0xFFFF) && thas s.fwe.legs idx, .badParam),
    (((tupleOf l).map fun t => tupleTaken s none t).getD false, .badParam)] ++
    admission s (fun m => decide (m = .service))
      (fun m => decide (capLegs m < s.fwe.legs.length + 1) || (needsSlot l && slotsOver s 1 m))

/-- LEG_CREATE's checks and effect (R61, R88). -/
def legCreate (c : Cmd) (s : State) : Res :=
  let l := createdLeg c
  let i := pickIndex s.fwe.legs (field (word c 0) 0 16)
  checks (legCreateChecks c s)
    (.done [w32 i] (legCheck i (addLeg i
      { l with
        state := .created, confirmed := !l.ice, slot := needsSlot l
        lufrag := if l.ice then l.lufrag else [], rufrag := if l.ice then l.rufrag else [], lpwd := if l.ice then l.lpwd else [] }
      s)))

/-- LEG_CREATE (R88). -/
def execLegCreate (c : Cmd) (s : State) : Host.Outcome State Fault Refusal :=
  .next <| serve 0x0301 (exactly 28) c s (legCreate c)

/-- The domain that a codec's decoder delivers in, for a mixer domain (R90). -/
def codecDomain (codec mixer : Nat) : Nat := if codec = 0 then mixer else if codec = 3 then 1 else 2

/-- What a leg that leaves does to a row: one waiting to enter goes; a selected occupant's last block fades out over 1 ms from the next
block boundary, from the gain it had reached; an always-on row ends (R100, R117). -/
def leaveRow (s : State) (domain i n : Nat) (r : Row) : Row :=
  let r := if r.nextLeg = some i then { r with nextLeg := none } else r
  if r.leg ≠ some i then r
  else if 16 ≤ n then { Row.reset with trim := r.trim, core := r.core, ver := r.ver, condVer := r.condVer }
  else
    let gain := if r.fadeTot ≤ r.fadePos then r.fadeB
      else (r.fadeA * (r.fadeTot - r.fadePos) + r.fadeB * r.fadePos) / r.fadeTot
    { r with
      leg := none, src := none, tail := ((r.src.bind fun st => tget s.fwe.streams st).map (·.jitter.block)).orElse fun _ => some []
      tailDomain := ((r.src.bind fun st => tget s.fwe.streams st).map fun y => codecDomain y.codec domain).getD domain
      leaving := some (nextBoundaryNs 1000000 s + 1000000), fadeA := gain, fadeB := 0, fadeTot := 0, fadePos := 0
      heldMs := 0, lowMs := 0 }

/-- A leg leaves its conference: its rows, levels, bindings and always-on inputs in it end, and its slot is released (R45, R88). -/
def leaveConf (i : Nat) (s : State) : State :=
  match (tget s.fwe.legs i).bind (·.conf) with
  | none => s
  | some k =>
    let s := match (tget s.fwe.legs i).bind (·.listenEntry) with
      | some e => removeEntry e s
      | none => s
    let s := modLeg i (fun l => { l with conf := none, slot := false, listenEntry := none }) s
    { s with aue.confs := tmod s.aue.confs k fun x =>
      { x with
        rows := x.rows.mapIdx fun n r => leaveRow s x.domain i n r
        alwaysOn := x.alwaysOn.map fun a => if (a.map (·.1)) = some i then none else a
        slots := x.slots - (x.alwaysOn.filter fun a => (a.map (·.1)) = some i).length
        onPending := x.onPending.filter fun a => (a.2.map (·.1)) ≠ some i
        smooth := terase x.smooth i, level := terase x.level i, levelAcc := terase x.levelAcc i
        bindings := terase x.bindings i, bindNew := x.bindNew.filter fun b => b.1 ≠ i } }

/-- A leg joins a conference; its smoothed level starts at -511 (R98). -/
def joinConf (i k : Nat) (s : State) : State :=
  let s := modLeg i (fun l => { l with conf := some k, slot := decide (l.kind = .network) && !l.levelKnown }) s
  { s with aue.confs := tmod s.aue.confs k fun x => { x with smooth := tset x.smooth i (-511) } }

/-- Applies the flagged fields of LEG_MODIFY as one item of the leg's flow (R86, R88). -/
def modifyLeg (i mask : Nat) (d : Leg) (s : State) : State :=
  let has := fun b => (mask >>> b) % 2 = 1
  let s := modLeg i (fun l =>
    { l with
      raddr := if has 0 then d.raddr else l.raddr, rport := if has 0 then d.rport else l.rport
      cls := if has 1 then d.cls else l.cls
      port := if has 2 ∧ l.kind ≠ .producer then d.port else l.port, extIds := if has 3 then d.extIds else l.extIds
      lufrag := if has 5 ∧ l.ice then d.lufrag else l.lufrag, rufrag := if has 5 ∧ l.ice then d.rufrag else l.rufrag
      lpwd := if has 5 ∧ l.ice then d.lpwd else l.lpwd }) s
  let s := if has 1 ∧ !(((tget s.lgv.legs i).map (·.published)).getD true) then setLegRate i (classOf s d.cls).start s else s
  if has 4 ∧ ((tget s.fwe.legs i).bind (·.conf)) ≠ d.conf then
    match d.conf with
    | none => leaveConf i s
    | some k => joinConf i k (leaveConf i s)
  else s

/-- LEG_MODIFY's checks in their order; a leg that newly needs a transcoded slot passes admission (R45, R49, R88). -/
def legModifyChecks (c : Cmd) (s : State) : List (Bool × Status) :=
  let i := field (word c 0) 0 14
  let mask := (word c 1).toNat
  let has := fun b => decide ((mask >>> b) % 2 = 1)
  let leg := tget s.fwe.legs i
  let l := leg.getD Leg.reset
  let d := legOfWords (c.words.drop 2) l.ipv6
  let slot := has 4 && decide (l.kind = .network) && !l.levelKnown && d.conf.isSome && decide (d.conf ≠ l.conf) && !l.slot
  [(decide (64 ≤ mask) || (has 2 && decide (d.port = 15) && decide (l.kind ≠ .producer)), .badParam),
    (leg.isNone || (has 4 && (d.conf.map fun k => !confUsed s k).getD false), .badTarget),
    ((decide (l.kind = .producer) && (has 0 || has 5)) || (decide (l.kind = .tree) && has 5) ||
      (has 0 && decide (l.kind = .tree) && !isMulticast d.raddr) ||
      (has 0 && tupleTaken s (some i) (l.laddr, l.lport, d.raddr, d.rport)) ||
      (has 2 && decide (l.kind = .tree) && decide (7 < d.port)) || (has 5 && l.ice && !credsOk d), .badParam)] ++
    (if slot then admission s (fun _ => false) (slotsOver s 1) else [])

/-- LEG_MODIFY's checks and effect (R88). -/
def legModify (c : Cmd) (s : State) : Res :=
  let i := field (word c 0) 0 14
  let v6 := ((tget s.fwe.legs i).getD Leg.reset).ipv6
  checks (legModifyChecks c s) (.done [] (modifyLeg i (word c 1).toNat (legOfWords (c.words.drop 2) v6) (inFlow i s)))

/-- LEG_MODIFY (R88). -/
def execLegModify (c : Cmd) (s : State) : Host.Outcome State Fault Refusal :=
  .next <| serve 0x0302 (exactly 30) c s (legModify c)

/-! ### Streams -/

/-- STREAM_REMOVE: the chain is unlinked, Cairn appends stop and the slot is freed (R88, R275). -/
def removeStream (st : Nat) (s : State) : State :=
  let s := (s.fwe.ledger.filter fun e => e.2.source = st).foldl (fun s e => endEntryRepair e.1 6 s) (storeStreamGone st s)
  { s with fwe.ledger := s.fwe.ledger.filter (fun e => e.2.source ≠ st), fwe.streams := terase s.fwe.streams st }

/-- Stream of STREAM_ADD words. -/
def streamOfWords (c : Cmd) : Stream :=
  { Stream.reset with
    origin := bit (word c 0) 16, pt := field (word c 0) 17 7, codec := field (word c 0) 24 8, ssrc := word c 1
    rtxPt := field (word c 2) 0 7, fecPt := field (word c 2) 8 7, rtxSsrc := word c 3, fecSsrc := word c 4 }

/-- The SSRCs of a stream: its own and those of its RTX and FlexFEC when their payload types are not 0 (R88). -/
def streamSsrcs (x : Stream) : List Word :=
  [x.ssrc] ++ (if x.rtxPt ≠ 0 then [x.rtxSsrc] else []) ++ (if x.fecPt ≠ 0 then [x.fecSsrc] else [])

/-- No word occurs twice. -/
def distinct : List Word → Bool
  | [] => true
  | w :: ws => !ws.contains w && distinct ws

/-- STREAM_ADD's checks in their order (R49, R66, R88). -/
def streamAddChecks (c : Cmd) (s : State) : List (Bool × Status) :=
  let st := field (word c 0) 0 16
  let x := streamOfWords c
  let leg := tget s.fwe.legs (st / 4)
  let kind : LegKind := (leg.map (·.kind)).getD .network
  let others := ((s.fwe.streams.filter fun y => y.1 / 4 = st / 4).flatMap fun y => streamSsrcs y.2)
  [(!codecKnown x.codec || !distinct (streamSsrcs x), .badParam), (leg.isNone, .badTarget),
    (thas s.fwe.streams st || decide (x.origin = true ∧ kind = .network) || decide (x.origin = false ∧ kind ≠ .network) ||
      (streamSsrcs x).any fun w => others.contains w, .badParam)] ++ admission s (fun _ => false) (fun _ => false)

/-- STREAM_ADD's checks and effect (R88). -/
def streamAdd (c : Cmd) (s : State) : Res :=
  checks (streamAddChecks c s)
    (let s := inFlow (field (word c 0) 0 16 / 4) s
     .done [] { s with fwe.streams := tset s.fwe.streams (field (word c 0) 0 16) (streamOfWords c) })

/-- STREAM_ADD (R88). -/
def execStreamAdd (c : Cmd) (s : State) : Host.Outcome State Fault Refusal :=
  .next <| serve 0x0304 (exactly 5) c s (streamAdd c)

/-- STREAM_REMOVE's checks and effect (R88). -/
def streamRemove (c : Cmd) (s : State) : Res :=
  let st := field (word c 0) 0 16
  checks [(!streamUsed s st, .badTarget)] (.done [] (removeStream st (inFlow (st / 4) s)))

/-- STREAM_REMOVE (R88). -/
def execStreamRemove (c : Cmd) (s : State) : Host.Outcome State Fault Refusal :=
  .next <| serve 0x0305 (exactly 1) c s (streamRemove c)

/-! ### LEG_DELETE -/

/-- BYE for each output SSRC of a leg: one that every bucket on its path permits now is launched and debited; the others are egress that the
same teardown flushes (R68, R88, R245, R385; log 27). -/
def sendByes (i : Nat) : List Word → State → State
  | [], s => s
  | w :: ws, s =>
    match rtcpFrame i w .bye s with
    | (some f, s) =>
      let now := s.cpr.aonNs
      sendByes i ws (if (eligibleAt s f).any fun e => decide (e ≤ now) then launchFrame f (debitPath f now s) else legDrops i 1 s)
    | (none, s) => sendByes i ws s

/-- Teardown of a leg (R61, R88): DELETING; egress is flushed; every entry to it is unlinked; its streams are removed; its key slots
are retired with no event; it becomes FREE. -/
def deleteLeg (i : Nat) (s : State) : State :=
  let ssrcs := ((entriesTo s i).map fun e => e.2.ssrcOut).eraseDups
  let s := if ((tget s.fwe.legs i).map fun l => decide (l.state = .active)).getD false then sendByes i ssrcs s else s
  let s := setLegState i .deleting s
  let s := (flushFrames i (fun _ => true) s).2
  let s := leaveConf i s
  let s := (entriesTo s i).foldl (fun s e => removeEntry e.1 s) s
  let s := (List.range 4).foldl (fun s k => if streamUsed s (i * 4 + k) then removeStream (i * 4 + k) s else s) s
  evtLeg 1 i [w32 LegState.deleting.code, 0]
    { s with
      cpe.slots := s.cpe.slots.filter (fun x => x.1 / 4 ≠ i), cpe.ptrs := s.cpe.ptrs.filter (fun x => x.1 / 2 ≠ i)
      cpe.ctxs := s.cpe.ctxs.filter (fun x => x.leg ≠ i), fwe.legs := terase s.fwe.legs i
      lgv.legs := terase s.lgv.legs i, tsh.legs := terase s.tsh.legs i
      tsh.legStats := s.tsh.legStats.filter fun x => x.1 / 4 ≠ i }

/-- LEG_DELETE's checks and effect (R88). -/
def legDelete (c : Cmd) (s : State) : Res :=
  let i := field (word c 0) 0 14
  checks [(!thas s.fwe.legs i, .badTarget)] (.done [] (deleteLeg i s))

/-- LEG_DELETE (R88). -/
def execLegDelete (c : Cmd) (s : State) : Host.Outcome State Fault Refusal :=
  .next <| serve 0x0303 (exactly 1) c s (legDelete c)

/-! ### SUB_ADD and SUB_REMOVE -/

/-- The settings that SUB_ADD writes into an entry: target and ceiling, service and flags bits 0-3 (R87, R242, R251). -/
def subSettings (c : Cmd) (e : Entry) : Entry :=
  let w := word c 1
  { e with
    target := field w 0 8, ceiling := field w 0 8, service := field w 12 2, valid := true, rtx := bit w 14, fec := bit w 15
    paused := bit w 17, upSince := [], lowSince := none }

/-- A new entry: active 0x00, so its layers join at the first switch point (R75). -/
def subNew (c : Cmd) (port : Nat) (tree : Bool) (ssrc : Word) (s : State) : Entry :=
  subSettings c { Entry.reset with
    source := field (word c 0) 0 16, dest := field (word c 0) 16 14, port := port, tree := tree, ssrcOut := ssrc
    ptOut := field (word c 2) 0 7, awaiting := decide (field (word c 1) 0 8 ≠ 0), awaitNs := s.cpr.aonNs, lastSendNs := nowNs s }

/-- The port of a SUB_ADD: the one named, or for 15 the leg's own (R88). -/
def subPort (c : Cmd) (s : State) : Nat :=
  if field (word c 1) 8 4 = 15 then ((tget s.fwe.legs (field (word c 0) 16 14)).getD Leg.reset).port else field (word c 1) 8 4

/-- SUB_ADD's checks in their order (R71, R74, R88). -/
def subAddChecks (c : Cmd) (s : State) : List (Bool × Status) :=
  let src := field (word c 0) 0 16
  let dest := field (word c 0) 16 14
  let leg := tget s.fwe.legs dest
  let l := leg.getD Leg.reset
  let port := subPort c s
  let replace := bit (word c 1) 16
  let here := findPair s src dest port
  let old := findPair s (field (word c 3) 0 16) dest port
  [(!maskValid (field (word c 1) 0 8), .badParam), (!streamUsed s src || leg.isNone, .badTarget),
    (decide (l.kind = .producer) || (decide (l.kind = .tree) && decide (7 < port)) ||
      (replace && (old.isNone || here.isSome)), .badParam),
    (!replace && here.isNone && decide (524288 ≤ tfree s.fwe.ledger 0), .noCapacity)]

/-- What SUB_ADD does to the chains: it moves an entry, updates one in place, or adds one; a chain that overruns takes no entry and the
reply names the free index (log 102) (R71, R74, R78, R88). -/
def subApply (c : Cmd) (s : State) : Res :=
  let src := field (word c 0) 0 16
  let dest := field (word c 0) 16 14
  let l := (tget s.fwe.legs dest).getD Leg.reset
  let port := subPort c s
  let old := findPair s (field (word c 3) 0 16) dest port
  let i := tfree s.fwe.ledger 0
  if (chainOf s src).2 then .done [w32 i] (chainOverrun src s)
  else if bit (word c 1) 16 then
    match old.bind fun k => (tget s.fwe.ledger k).map fun e => (k, e) with
    | some (k, e) =>
      .done [w32 k] (linkEntry k
        { subSettings c e with
          source := src, ptOut := field (word c 2) 0 7, active := 0, awaiting := true, awaitNs := s.cpr.aonNs, contPend := true
          seqOffOld := e.seqOff, lastInOld := e.lastIn, repair := none, repairQ := [], synth := [] } (unlinkEntry k (endEntryRepair k 6 s)))
    | none => .refuse .badParam
  else match findPair s src dest port with
    | some k => .done [w32 k] (modEntry k (subSettings c) s)
    | none =>
      let (ssrc, s) := if word c 3 = 0 then pickSsrc dest s else (word c 3, s)
      .done [w32 i] (linkEntry i (subNew c port (decide (l.kind = .tree)) ssrc s) s)

/-- SUB_ADD's checks and effect, an item of the destination leg's flow (R71, R74, R78, R86, R88). -/
def subAdd (c : Cmd) (s : State) : Res :=
  checks (subAddChecks c s) (subApply c (inFlow (field (word c 0) 16 14) s))

/-- SUB_ADD (R88). -/
def execSubAdd (c : Cmd) (s : State) : Host.Outcome State Fault Refusal :=
  .next <| serve 0x0306 (exactly 4) c s (subAdd c)

/-- SUB_REMOVE's checks and effect (R73, R88). -/
def subRemove (c : Cmd) (s : State) : Res :=
  let i := field (word c 0) 0 19
  checks [(!thas s.fwe.ledger i, .badTarget)]
    (.done [] (removeEntry i (inFlow (((tget s.fwe.ledger i).map (·.dest)).getD 0) s)))

/-- SUB_REMOVE (R88). -/
def execSubRemove (c : Cmd) (s : State) : Host.Outcome State Fault Refusal :=
  .next <| serve 0x0307 (exactly 1) c s (subRemove c)

/-! ### Conferences -/

/-- The settings that a manager's GROUP cell reports, packed as its word 2 packs them (R416). -/
def groupWord (group : Nat) (x : Conf) : Nat :=
  group + b1 x.lowLat * 2 ^ 16 + x.domain * 2 ^ 17 + x.n * 2 ^ 19 + x.buses * 2 ^ 24

/-- The bytes of the active matrix bank, gain by gain. -/
def matrixBytes (x : Conf) : List Byte :=
  let b := if x.active = 0 then x.bankA else x.bankB
  (List.range 256).flatMap fun i => (wordBytes (w32 ((tget b.matrix i).getD 0))).take 2

/-- The settings words of a conference in a lock group: w2 and w3 of a GROUP cell (R416). -/
def groupWords (group : Nat) (x : Conf) : List Word := [w32 (groupWord group x), crc32c (matrixBytes x)]

/-- Settings that the manager has reported for a lock group: a conference of the group must have the same domain, path, N and bus
count (R120, R416). -/
def groupBreaks (s : State) (group : Nat) (x : Conf) : Bool :=
  decide (s.cti.role = 2) && match tget s.cti.reported group with
  | some ws => decide ((ws.getD 0 0).toNat % 2 ^ 28 ≠ groupWord group x)
  | none => false

/-- The matrix in force of a conference differs from the one that the manager has reported for its lock group (R120, R416). -/
def matrixBreaks (s : State) (group : Nat) (x : Conf) : Bool :=
  decide (s.cti.role = 2) && match tget s.cti.reported group with
  | some ws => decide (ws.getD 1 0 ≠ (groupWords group x).getD 1 0)
  | none => false

/-- The conference that CONF_CREATE describes; N 0 takes the mode's default (R43, R45, R88). -/
def createdConf (c : Cmd) (s : State) : Conf :=
  let w := word c 0
  let n := if field w 16 5 = 0 then defaultN (effMode s s.cpx.mode) else field w 16 5
  { Conf.reset with n := n, lowLat := bit w 21, domain := field w 22 2, lock := field (word c 1) 0 16, slots := n }

/-- CONF_CREATE's checks in their order (R44, R45, R49, R88, R120). -/
def confCreateChecks (c : Cmd) (s : State) : List (Bool × Status) :=
  let w := word c 0
  let idx := field w 0 16
  let lock := field (word c 1) 0 16
  let x := createdConf c s
  [(decide (idx ≠ 0xFFFF ∧ 8191 < idx) || decide (16 < field w 16 5) || decide (field w 22 2 = 3), .badParam),
    (decide (idx ≠ 0xFFFF) && confUsed s idx, .badParam),
    (decide (lock ≠ 0) && (decide (s.cti.role = 0) || groupBreaks s lock x || matrixBreaks s lock x || s.aue.confs.any fun y => y.2.lock = lock), .badParam)] ++
    admission s (fun m => decide (m = .service))
      (fun m => decide (capConfs m < s.aue.confs.length + 1) || slotsOver s x.n m)

/-- CONF_CREATE's checks and effect (R45, R88, R268). -/
def confCreate (c : Cmd) (s : State) : Res :=
  let i := pickIndex s.aue.confs (field (word c 0) 0 16)
  checks (confCreateChecks c s)
    (.done [w32 i] (defaultRing i { s with aue.confs := tset s.aue.confs i (createdConf c s) }))

/-- CONF_CREATE (R88). -/
def execConfCreate (c : Cmd) (s : State) : Host.Outcome State Fault Refusal :=
  .next <| serve 0x0308 (exactly 2) c s (confCreate c)

/-- Every register of a core at zero, at its entry point (R128, R129). -/
def coreAtEntry (x : Core) : Core :=
  { x with
    x := List.replicate 16 0, acc := List.replicate 4 0, p := List.replicate 8 0, b := List.replicate 8 0
    l := List.replicate 8 0, m := List.replicate 8 0, z := false, n := false, sat := false, av := false
    pc := x.entry, stack := [], loops := [], waiting := false, used := 0, inBlock := false }

/-- A core whose slot has been detached: one that faulted, or whose claim was released, returns to the bridge; one that is to halt enters
LOADED (R128, R142, R145). -/
def coreDetached (x : Core) : Option Core :=
  if x.releasing ∨ x.state = .faulted then none
  else
    let y := { x with attached := none, detach := false, bypass := false, delivered := false, counted := false, wet := 0, wetTo := 0, halting := false }
    some (if x.halting then { coreAtEntry y with state := .loaded } else y)

/-- Removes a conference: its legs are detached, its store ends, its mixer, slots and attached cores are released (R88, R275). -/
def deleteConf (k : Nat) (s : State) : State :=
  let s := storeConfGone k s
  let s := (s.fwe.legs.filter fun l => l.2.conf = some k).foldl (fun s l => leaveConf l.1 s) s
  { s with
    aue.confs := terase s.aue.confs k, cti.groups := s.cti.groups.filter (fun g => g.conf ≠ k)
    aue.cores := s.aue.cores.filterMap fun (x : Nat × Core) =>
      if (x.2.attached.map (·.1)) = some k then (coreDetached x.2).map fun y => (x.1, y) else some x }

/-- CONF_DELETE's checks and effect (R88). -/
def confDelete (c : Cmd) (s : State) : Res :=
  let k := field (word c 0) 0 13
  checks [(!confUsed s k, .badTarget)] (.done [] (deleteConf k s))

/-- CONF_DELETE (R88). -/
def execConfDelete (c : Cmd) (s : State) : Host.Outcome State Fault Refusal :=
  .next <| serve 0x0309 (exactly 1) c s (confDelete c)

/-! ### LEG_STATS -/

/-- The 16 words of LEG_STATS (R88). -/
def legStatsWords (s : State) (i : Nat) : List Word :=
  match tget s.fwe.legs i with
  | none => List.replicate 15 0 ++ [0xFFFFFFFF]
  | some l =>
    let t := l.stats
    [w32 l.state.code] ++ w64 t.inPkts ++ w64 t.inBytes ++ w64 t.outPkts ++ w64 t.outBytes ++
      [w32 t.drops, w32 t.authFail, w32 t.late, w32 t.nacksIn, w32 t.rtx, w32 t.nacksDrop, w32 t.rttUs]

/-- LEG_STATS; word 0 bit 31 clears the counters after the read; word 15 stays (DESIGN CHOICE, log 133) (R88). -/
def execLegStats (c : Cmd) (s : State) : Host.Outcome State Fault Refusal :=
  .next <| serve 0x030A (exactly 1) c s fun s =>
    let i := field (word c 0) 0 14
    .done (legStatsWords s i)
      (if bit (word c 0) 31 then modLeg i (fun l => { l with stats := { LegStats.reset with rttUs := l.stats.rttUs } }) s else s)

/-! ### SHAPER_SET -/

/-- Sets a leg node: the rate acts as a cap or a pin from the next publication, the burst and the weight at once (R249, R386). -/
def shapeLeg (i : Nat) (c : Cmd) (s : State) : State :=
  let burst := (word c 2).toNat
  let x := legShape s i
  let b := bucketSet x.bucket x.bucket.rate burst s.cpr.aonNs
  let s := { s with tsh.legs := tset s.tsh.legs i { bucket := b, weight := field (word c 3) 8 8, burstSet := some burst } }
  { s with lgv.legs := tmod s.lgv.legs i fun g =>
    { g with ovNew := g.ovNew ++ [(if bit (word c 3) 16 then 9 else 8, (word c 1).toNat)] } }

/-- SHAPER_SET's checks and effect (R88, R383). -/
def shaperSet (c : Cmd) (s : State) : Res :=
  let level := field (word c 0) 0 2
  let svc := field (word c 0) 2 2
  let i := field (word c 0) 16 14
  let rate := (word c 1).toNat
  let burst := (word c 2).toNat
  checks
    [(decide (level = 3) || (decide (level ≠ 0) && decide (14 < i)) ||
        (decide (level = 0) && (decide (rate = 0) || decide (field (word c 3) 8 8 = 0))), .badParam),
     (decide (level = 0) && !thas s.fwe.legs i, .badTarget)]
    (.done []
      (if level = 0 then shapeLeg i c s
       else if level = 1 then
         modPort i (fun p => { p with services := p.services.modify svc fun b => bucketSet b rate burst s.cpr.aonNs }) s
       else
         modPort i (fun p =>
           { p with bucket := bucketSet p.bucket rate burst s.cpr.aonNs, overhead := field (word c 3) 0 8 }) s))

/-- SHAPER_SET (R88). -/
def execShaperSet (c : Cmd) (s : State) : Host.Outcome State Fault Refusal :=
  .next <| serve 0x030B (exactly 4) c s (shaperSet c)

/-! ### Key commands (R353, R356, R360, R361) -/

/-- KEY_LOAD's checks and effect: a slot's change is an item of its leg's flow (R86, R353, R360). -/
def keyLoad (c : Cmd) (s : State) : Res :=
  let w := word c 0
  let cls := field w 28 4
  let n := field w 0 16
  let x := keyLoadSlot c
  let key16 := (c.words.drop 6).take 4
  let fp16 := fingerprint 0xFF (wordsBytes key16) []
  if cls = 1 ∨ cls = 2 then
    checks [(decide (s.cpx.mode = .shadow), .modeForbids)]
      (.done [fp16] (if cls = 1 then { s with cpe.psk := some key16 } else { s with cpe.backupKey := some key16 }))
  else
    let leg := tget s.fwe.legs (n / 4)
    let kind : LegKind := (leg.map (·.kind)).getD .network
    let y := slotOf s (otherSlot n)
    checks
      [(keyLoadBad c, .badParam), (leg.isNone, .badTarget),
       (decide (kind = .producer) || decide (kind = .tree ∧ n / 2 % 2 = 0) ||
          (decide (y.state ≠ .empty) && (decide (y.mkiLen ≠ x.mkiLen) || decide (x.mkiLen ≠ 0 ∧ y.mki = x.mki))), .badParam),
       (decide (s.cpx.mode = .shadow), .modeForbids),
       (decide ((slotOf s n).state = .current), .resourceBusy),
       (decide ((slotOf s n).state = .locked), .keyExhausted)]
      (.done [x.fp] (installKey n x (inFlow (n / 4) s)))

/-- KEY_LOAD (R360). -/
def execKeyLoad (c : Cmd) (s : State) : Host.Outcome State Fault Refusal :=
  .next <| serve 0x0801 (exactly 18) c s (keyLoad c)

/-- KEY_RETIRE's checks and effect: an EMPTY slot gives OK; the slot's change is an item of its leg's flow (R353, R361, R367, R529). -/
def keyRetire (c : Cmd) (s : State) : Res :=
  let n := field (word c 0) 0 16
  if (slotOf s n).state = .empty then .done [] s else .done [] (retireSlot n (inFlow (n / 4) s))

/-- KEY_RETIRE (R361). -/
def execKeyRetire (c : Cmd) (s : State) : Host.Outcome State Fault Refusal :=
  .next <| serve 0x0802 (exactly 1) c s (keyRetire c)

/-- KEY_DELAYED_RETIRE: 1 s after the pointer left a slot, the slot is retired, as an item of its leg's flow (R353, R356). -/
def execKeyDelayedRetire (slot : Nat) (s : State) : Host.Outcome State Fault Refusal :=
  match (slotOf s slot).retireNs with
  | some t =>
    let s := advanceAon t s
    .next (if ptrSlot s (slot / 4) (slot / 2 % 2) = slot then putSlot slot { slotOf s slot with retireNs := none } s
      else mirror 0x82 slot [w32 slot] (retireSlot slot (inFlow (slot / 4) s)))
  | none => .next s

end Sys2Proof.Machine
end

