-- ==== Sys2Proof/Machine/Audio.lean ====
section
/-!
DEFINITION. The sample arithmetic of the audio engine: levels, fades, contributions, scaled and limiter output stages, crossfades
and meters (04 R90, R97, R103-R109, R114, R116, R119).
-/

namespace Sys2Proof.Machine

/-! ### Domains and blocks (R90) -/

/-- Samples per 1 ms block of a rate domain (R90). -/
def spb (domain : Nat) : Nat := [48, 16, 8].getD domain 8

/-- A block of silence. -/
def silence (n : Nat) : List Int := List.replicate n 0

/-- A block of n samples: short lists are filled with silence. -/
def padBlock (n : Nat) (xs : List Int) : List Int := (xs ++ silence n).take n

/-- Saturation to 24 bits. -/
def sat24 (x : Int) : Int := max (-8388608) (min 8388607 x)

/-- A block whose samples are free values: the specification does not give the output of echo handling (R115, log 63). -/
def drawBlock : Nat → State → List Int × State
  | 0, s => ([], s)
  | n + 1, s =>
    let (v, s) := draw s
    let (xs, s) := drawBlock n s
    ((v.setWidth 24).toInt :: xs, s)

/-! ### Levels (R97, R119) -/

/-- Sum of squares of a block. -/
def energy (xs : List Int) : Nat := (xs.map fun x => (x * x).toNat).sum

/-- The first step of 0.25 dB, counted from i, whose power p does not exceed num / den of full scale; 511 when none does. The ratio of
a step is 10^(-1/40), scaled by 2^80. -/
def levelFrom : Nat → Nat → Nat → Nat → Nat → Nat
  | 0, i, _, _, _ => i
  | n + 1, i, p, num, den =>
    if p * den ≤ num * 2 ^ 80 then i else levelFrom n (i + 1) (p * 1141299568630064958042263 / 2 ^ 80) num den

/-- Attenuation of a power num / den below full scale in 0.25 dB steps, 0-511 (R119). -/
def attenuation (num den : Nat) : Nat := if den = 0 then 511 else levelFrom 511 0 (2 ^ 80) num den

/-- Power of a level of i 0.25 dB steps below full scale, times 2^80. -/
def levelPower : Nat → Nat
  | 0 => 2 ^ 80
  | n + 1 => levelPower n * 1141299568630064958042263 / 2 ^ 80

/-- RMS attenuation of an energy over a count of samples: full scale is 2^23. -/
def rmsLevel (acc cnt : Nat) : Nat := attenuation acc (cnt * 2 ^ 46)

/-- Largest magnitude of a block. -/
def peakOf (xs : List Int) : Nat := xs.foldl (fun m x => max m x.natAbs) 0

/-- A peak hold after a block: the peak as a magnitude times 2^40, and when it was taken. A larger magnitude replaces it (R119). -/
def peakHold (peak peakNs now : Nat) (xs : List Int) : Nat × Nat :=
  let m := peakOf xs * 2 ^ 40
  if peak < m then (m, now) else (peak, peakNs)

/-- The decay of a peak at an epoch boundary: 0.2 dB after 1 s, a factor of 10^(-1/100) scaled by 2^40 (R119). -/
def peakDecay (peak peakNs now : Nat) : Nat := if peakNs + 1000000000 ≤ now then peak * 1074483687536 / 2 ^ 40 else peak

/-- Attenuation of a peak below full scale (R119). -/
def peakLevel (peak : Nat) : Nat := attenuation (peak * peak) (2 ^ 126)

/-- A block's RMS above -60 dBFS (R105). -/
def above60 (xs : List Int) : Bool := decide (xs.length * 2 ^ 46 < energy xs * 10 ^ 6)

/-- A block's RMS below -50 dBFS (R94). -/
def below50 (xs : List Int) : Bool := decide (energy xs * 10 ^ 5 < xs.length * 2 ^ 46)

/-! ### Rows (R103, R114) -/

/-- x times the fade gain at a sample of a linear fade from a to b over tot samples, in units of 2^-15, truncated (R99, R103). -/
def fadeSample (a b tot pos : Nat) (x : Int) : Int :=
  if tot ≤ pos then x * b / 2 ^ 15 else x * (a * (tot - pos) + b * pos : Nat) / (tot * 2 ^ 15 : Nat)

/-- A block of a row, faded and trimmed: floor(floor(x f) t / 2^15), with the trim changing at a sample of the block (R103, R114). -/
def rowSamples (r : Row) (xs : List Int) : List Int :=
  let (a, b, tot, pos) := r.condFade
  xs.mapIdx fun j x =>
    let t := match r.condHit with
      | some (h, t') => if h ≤ j then t' else r.trim
      | none => r.trim
    fadeSample a b tot (pos + j) x * t / 2 ^ 15

/-- A contribution: the row's samples times a routing gain (R103). -/
def contribution (xs : List Int) (g : Nat) : List Int := xs.map fun x => x * g / 2 ^ 15

/-- The sum of blocks, sample by sample. -/
def addBlocks (a b : List Int) : List Int := List.zipWith (· + ·) a b

/-- The conditioned block of a row under a version of it: an effect slot runs once a block, so its row has one version (R116, R137). -/
def rowVersion (r : Row) (ver : Nat) : List Int :=
  if ver = r.condVer ∨ r.core.isSome then r.cond
  else ((r.alts.find? fun a => a.ver = ver).map (·.cond)).getD r.cond

/-- The difference of blocks. -/
def subBlocks (a b : List Int) : List Int := List.zipWith (· - ·) a b

/-- S = the sum of the contributions of the rows under a list of routing gains (R103). -/
def sumRows (n : Nat) (rows : List (List Int)) (gains : List Nat) : List Int :=
  (List.zip rows gains).foldl (fun acc rg => if rg.2 = 0 then acc else addBlocks acc (contribution (padBlock n rg.1) rg.2)) (silence n)

/-- Where the first zero crossing of a block lies: a zero sample, or a sign change from the sample before (R114). -/
def zeroCrossing : Int → List Int → Nat → Option Nat
  | _, [], _ => none
  | p, x :: xs, i => if x = 0 ∨ (p < 0 ∧ 0 < x) ∨ (0 < p ∧ x < 0) then some i else zeroCrossing x xs (i + 1)

/-! ### Output stage (R105-R109) -/

/-- k(n) of R105. -/
def kOf (n : Nat) : Nat := [32767, 32767, 23170, 18918, 16384, 14654, 13377, 12385, 11585].getD n 11585

/-- k at a place of its 10 ms ramp. -/
def kAt (n left : Nat) (g : Stage) : Int := g.k + ((g.kTo : Int) - g.k) * ((10 * n - left : Nat) : Int) / (10 * n : Nat)

/-- Scaled samples, with saturations counted (R105). -/
def scaleGo (n : Nat) (g : Stage) : List Int → Nat → List Int × Nat
  | [], _ => ([], 0)
  | x :: xs, left =>
    let y := x * kAt n left g / 2 ^ 15
    let (ys, c) := scaleGo n g xs (left - 1)
    (sat24 y :: ys, c + b1 (decide (sat24 y ≠ y)))

/-- Scaled mode over a block (R105). -/
def scaleRun (n active : Nat) (xs : List Int) (g : Stage) : List Int × Stage × Nat :=
  let g := if kOf active = g.kTo then g
    else { g with k := (kAt n g.kLeft g).toNat, kTo := kOf active, kLeft := 10 * n }
  let (ys, c) := scaleGo n g xs g.kLeft
  (ys, { g with kLeft := g.kLeft - xs.length, k := if g.kLeft ≤ xs.length then g.kTo else g.k }, c)

/-- The limiter's threshold, -1 dBFS (R106). -/
def limT : Nat := 7476354

/-- The release coefficient of a domain in Q1.31 (R106). -/
def limA (n : Nat) : Nat := if n = 48 then 894598 else if n = 16 then 2682677 else 5362003

/-- r[j] + (1 - r[j]) d / L in Q1.31, truncated; L = 0 gives r[j] (R106, R107). -/
def limReach (L d : Nat) (x : Int) : Nat :=
  let m := x.natAbs
  if m ≤ limT then 2 ^ 31
  else if L = 0 then limT * 2 ^ 31 / m
  else (limT * (L - d) + d * m) * 2 ^ 31 / (L * m)

/-- g_att at the head of a window: the least over its first L samples, or over its head when L = 0 (R106, R107). -/
def limAttack (L : Nat) (w : List Int) : Nat :=
  ((w.take (max L 1)).mapIdx fun d x => limReach L d x).foldl min (2 ^ 31)

/-- Limiter mode over the first n samples of a stretch that runs on into the lookahead (R106). -/
def limGo (L a : Nat) : Nat → List Int → Nat → List Int × Nat
  | n + 1, x :: xs, g =>
    let rel := g + (2 ^ 31 - g) * a / 2 ^ 31
    let g := min (min (limAttack L (x :: xs)) rel) 0x7FFFFFFF
    let (ys, g') := limGo L a n xs g
    (x * g / 2 ^ 31 :: ys, g')
  | _, _, g => ([], g)

/-- One computation of an output over a block (R105-R107). low: the low-latency path, with no lookahead. -/
def stageRun (n : Nat) (low : Bool) (g : Stage) : List Int × Stage × Nat :=
  let xs := padBlock n (if low then g.sum else g.look)
  if g.limiter then
    let (ys, gain) := limGo (if low then 0 else n) (limA n) n (if low then xs else xs ++ padBlock n g.sum) g.gain
    (ys, { g with gain := gain }, 0)
  else scaleRun n (if low then g.nSum else g.nLook) xs g

/-- A linear crossfade over 4 ms, at its i-th ms (R116). -/
def crossfade (n i : Nat) (old new : List Int) : List Int :=
  (List.zip old new).mapIdx fun j p => (p.1 * (4 * n - (i * n + j) : Nat) + p.2 * (i * n + j : Nat)) / (4 * n : Nat)

/-- Moves a computation's block in progress to the output stage. -/
def stageShift (g : Stage) : Stage := { g with look := g.sum, nLook := g.nSum }

/-- The output of one output stage for a block, and the stage with its block in progress moved on (R105-R109, R116, R118). -/
def outRun (n : Nat) (low : Bool) (o : OutSt) : List Int × OutSt :=
  let (ys, cur, c) := stageRun n low o.cur
  match (if low then o.xSum else o.xLook) with
  | none => (ys, { o with cur := stageShift cur, old := stageShift o.old, xLook := o.xSum, sat := o.sat + c })
  | some i =>
    let (zs, old, c') := stageRun n low o.old
    (crossfade n i zs ys, { o with cur := stageShift cur, old := stageShift old, xLook := o.xSum, sat := o.sat + c + c' })

/-- Adds a block to an output's meter; the limiter's reduction is that of its gain at the block's end (R119). -/
def outMeter (now : Nat) (ys : List Int) (o : OutSt) : OutSt :=
  let (p, t) := peakHold o.peak o.peakNs now ys
  { o with
    acc := o.acc + energy ys, cnt := o.cnt + ys.length, peak := p, peakNs := t
    red := if o.cur.limiter then attenuation (o.cur.gain * o.cur.gain) (0x7FFFFFFF * 0x7FFFFFFF) else 0 }

/-- A new sum block for one computation: it takes the versions of the rows that it holds (R103, R104, R116). -/
def stageSum (n : Nat) (rs : List Row) (act : List Bool) (minus : Option Nat) (g : Stage) : Stage :=
  let rows := rs.mapIdx fun i r => rowSamples r (rowVersion r (g.vers.getD i 0))
  let S := sumRows n rows g.gains
  let own := match minus with
    | some i => contribution (padBlock n (rows.getD i [])) (g.gains.getD i 0)
    | none => silence n
  let routed := (List.range 32).filter fun i => g.gains.getD i 0 ≠ 0 ∧ act.getD i false ∧ minus ≠ some i
  { g with sum := subBlocks S own, nSum := routed.length }

/-- A row that a computation routes has changed under it (R116). -/
def rowsMoved (gains vers held : List Nat) : Bool :=
  (List.range 32).any fun i => decide (gains.getD i 0 ≠ 0 ∧ vers.getD i 0 ≠ held.getD i 0)

/-- Starts the next block of an output: a crossfade in progress moves on; a change of gains, of mode, of the lock group's part or of a
routed row starts one when none is running, and waits while one runs (R109, R116, R420). -/
def outNext (gains vers : List Nat) (limiter locked : Bool) (o : OutSt) : OutSt :=
  let x := match o.xSum with
    | some i => if i < 3 then some (i + 1) else none
    | none => none
  let to_ := { o.cur with gains := gains, vers := vers, limiter := limiter, locked := locked, stale := false }
  if x = none ∧ (o.cur.gains ≠ gains ∨ o.cur.limiter ≠ limiter ∨ o.cur.locked ≠ locked ∨ o.cur.stale ∨ rowsMoved gains vers o.cur.vers) then
    { o with old := o.cur, cur := to_, xSum := some 0 }
  else if x = none then { o with cur := to_, xSum := none }
  else { o with xSum := x }

/-- The new sum block of an output (R103, R104). -/
def outSum (n : Nat) (rs : List Row) (act : List Bool) (minus : Option Nat) (o : OutSt) : OutSt :=
  { o with
    cur := stageSum n rs act minus o.cur
    old := if o.xSum.isSome then stageSum n rs act minus o.old else o.old }

/-- An output still takes a version of a row. -/
def outTakes (o : OutSt) (row ver : Nat) : Bool :=
  decide (o.cur.vers.getD row 0 = ver) || (o.xSum.isSome && decide (o.old.vers.getD row 0 = ver))

/-! ### Conferences -/

/-- Changes a conference. -/
def modConf (k : Nat) (f : Conf → Conf) (s : State) : State := { s with aue.confs := tmod s.aue.confs k f }

/-- The active bank of a conference (R115). -/
def bankOf (x : Conf) : Bank := if x.active = 0 then x.bankA else x.bankB

/-- A bank's routing gains into a bus, row by row (R102). -/
def bankColumn (b : Bank) (bus : Nat) : List Nat := (List.range 32).map fun r => (tget b.matrix (r * 8 + bus)).getD 0

/-- Rows in use: N and the enabled always-on inputs (R105). -/
def inUse (x : Conf) : Nat := x.n + (x.alwaysOn.filter fun a => a.isSome).length

/-- The selected leg of a row: one waiting to enter, or the occupant that is not leaving. -/
def rowSelected (r : Row) : Option Nat :=
  match r.nextLeg with
  | some l => some l
  | none => if r.leaving.isNone then r.leg else none

/-- A leg's audio stream: its REMOTE audio stream in the lowest slot. -/
def legAudio (s : State) (leg : Nat) : Option Nat :=
  ((List.range 4).map fun k => leg * 4 + k).find? fun st =>
    ((tget s.fwe.streams st).map fun x => !x.origin && isAudio x.codec).getD false

/-- The codec of a leg's audio; Opus for a leg that sends none. -/
def legCodec (s : State) (leg : Nat) : Nat := ((legAudio s leg).map (codecOf s)).getD 0

end Sys2Proof.Machine
end

