-- ==== Sys2Proof/Machine/Codec.lean ====
section
/-!
DEFINITION. What turns packets into samples and samples into frames, and the filters of the conditioning: codecs, bridges and
equalisers (04 R91, R92, R95, R108, R115).
-/

namespace Sys2Proof.Machine

/-- A result as a 24-bit sample; a free value where it does not fit, for the specification gives none (log 112). -/
def fit24 (x : Int) : Int := if -8388608 ≤ x ∧ x ≤ 8388607 then x else (Config.outsideSample x).toInt

/-! ### Bridges (R91) -/

/-- Twice the group delay of a bridge, in samples of its higher rate: 0.50 ms at 48 kHz, 0.75 ms at 16 kHz (R91). -/
def bridgeSpan (b : Nat) : Nat := if b = 0 then 48 else 24

/-- Ratio of a bridge's rates (R91). -/
def bridgeRatio (b : Nat) : Nat := if b = 0 then 3 else 2

/-- A tap of a bridge: its response is symmetric about the group delay, which is what linear phase asks (R91). -/
def bridgeAt (b j : Nat) : Int := Config.bridgeTap b (min j (bridgeSpan b - j))

/-- A bridge toward its lower rate: every ratio-th output of the filter, truncated, and the input samples kept for the next block (R91,
R108). -/
def bridgeDown (b : Nat) (hist xs : List Int) : List Int × List Int :=
  let span := bridgeSpan b
  let z := padBlock span hist ++ xs
  ((List.range (xs.length / bridgeRatio b)).map fun m =>
      fit24 (((List.range (span + 1)).map fun j => bridgeAt b j * z.getD (span + bridgeRatio b * m - j) 0).sum / 2 ^ 30),
    z.drop (z.length - span))

/-- A bridge toward its higher rate: the filter over the input with zeros between its samples, at the ratio's gain (R91, R108). -/
def bridgeUp (b : Nat) (hist xs : List Int) : List Int × List Int :=
  let span := bridgeSpan b
  let r := bridgeRatio b
  let z := padBlock (span / r) hist ++ xs
  ((List.range (xs.length * r)).map fun n =>
      fit24 (((List.range (span + 1)).map fun j =>
        if (span + n - j) % r = 0 then bridgeAt b j * z.getD ((span + n - j) / r) 0 else 0).sum * r / 2 ^ 30),
    z.drop (z.length - span / r))

/-- A block taken from one domain to another: an N-F crossing passes both bridges (R91). -/
def cross (a b : Nat) (g : Bridge) (xs : List Int) : List Int × Bridge :=
  if a = b ∨ 2 < a ∨ 2 < b then (xs, g)
  else if a < b then
    let (ys, fw) := if a = 0 then bridgeDown 0 g.fw xs else (xs, g.fw)
    let (zs, wn) := if b = 2 then bridgeDown 1 g.wn ys else (ys, g.wn)
    (zs, { fw := fw, wn := wn })
  else
    let (ys, wn) := if a = 2 then bridgeUp 1 g.wn xs else (xs, g.wn)
    let (zs, fw) := if b = 0 then bridgeUp 0 g.fw ys else (ys, g.fw)
    (zs, { fw := fw, wn := wn })

/-! ### The equaliser (R115) -/

/-- One sample through a biquad with coefficients b0, b1, b2, a1, a2 in Q2.30: the sum is held exactly and truncated when it is stored
(R108, R115). m: the last two inputs and outputs. -/
def biquadStep (c : List Word) (m : Biquad) (x : Int) : Int × Biquad :=
  let k := fun i => (c.getD i 0).toInt
  let y := fit24 ((k 0 * x + k 1 * m.x1 + k 2 * m.x2 - k 3 * m.y1 - k 4 * m.y2) / 2 ^ 30)
  (y, { x1 := x, x2 := m.x1, y1 := y, y2 := m.y1 })

/-- A block through one biquad; none: the section has not been written, and passes its input. -/
def biquadRun (c : Option (List Word)) : Biquad → List Int → List Int × Biquad
  | m, [] => ([], m)
  | m, x :: xs =>
    let (y, m) := match c with
      | some c => biquadStep c m x
      | none => (x, { x1 := x, x2 := m.x1, y1 := x, y2 := m.y1 })
    let (ys, m) := biquadRun c m xs
    (y :: ys, m)

/-- A block through a row's equaliser: its biquads from q on (R115). -/
def equalise (eq : Tbl (List Word)) (row : Nat) : Nat → List Biquad → List Int → List Int × List Biquad
  | _, [], xs => (xs, [])
  | q, m :: ms, xs =>
    let (ys, m) := biquadRun (tget eq (row * 4 + q)) m xs
    let (zs, ms) := equalise eq row (q + 1) ms ys
    (zs, m :: ms)

/-! ### G.711 (R92) -/

/-- A µ-law byte as a 16-bit sample. -/
def ulawSample (v : Nat) : Int :=
  let u := 255 - v % 256
  let t : Int := ((u % 16 * 8 + 132) * 2 ^ (u / 16 % 8) : Nat)
  if 128 ≤ u then 132 - t else t - 132

/-- An A-law byte as a 16-bit sample. -/
def alawSample (v : Nat) : Int :=
  let a := (v % 256) ^^^ 0x55
  let seg := a / 16 % 8
  let t : Int := if seg = 0 then (a % 16 * 16 + 8 : Nat) else ((a % 16 * 16 + 264) * 2 ^ (seg - 1) : Nat)
  if 128 ≤ a then t else -t

/-- The segment of a magnitude: the first whose top, 2^(i + k) - 1, holds it. -/
def lawSegment (k m : Nat) : Nat := ((List.range 8).find? fun i => m < 2 ^ (i + k)).getD 8

/-- A 16-bit sample as a µ-law byte. -/
def ulawByte (x : Int) : Nat :=
  let p := x / 4
  let m := min 8159 p.natAbs + 33
  let seg := lawSegment 6 m
  let u := if 8 ≤ seg then 127 else seg * 16 + m / 2 ^ (seg + 1) % 16
  u ^^^ (if p < 0 then 0x7F else 0xFF)

/-- A 16-bit sample as an A-law byte. -/
def alawByte (x : Int) : Nat :=
  let p := x / 8
  let m : Nat := if p < 0 then (-p - 1).toNat else p.toNat
  let seg := lawSegment 5 m
  let a := if 8 ≤ seg then 127 else seg * 16 + (if seg < 2 then m / 2 else m / 2 ^ seg) % 16
  a ^^^ (if p < 0 then 0x55 else 0xD5)

/-- A byte of a payload held as a number, the first byte lowest. -/
def payloadByte (data i : Nat) : Nat := data / 256 ^ i % 256

/-! ### Decoders (R92, R95) -/

/-- Sample i of a released packet in a domain: G.711 by its fixed map, the others as their decoder gives it; 16-bit samples stand in the
top bits (R92). -/
def decodedAt (codec domain : Nat) (p : PlayItem) (i : Nat) : Int :=
  if codec = 1 then ulawSample (payloadByte p.data i) * 256
  else if codec = 2 then alawSample (payloadByte p.data i) * 256
  else
    let v := Config.decodedSample codec domain p.state p.gap p.data i
    if codec = 3 then (v.setWidth 16).toInt * 256 else v.toInt

/-- The sample at a time, in 1/48 ms from now, of the released audio; none where it has run out. step: 1/48 ms per sample. -/
def playedAt (codec domain step : Nat) : List PlayItem → Nat → Option Int
  | [], _ => none
  | p :: ps, at_ => if at_ < p.left then some (decodedAt codec domain p ((p.at_ + at_) / step)) else playedAt codec domain step ps (at_ - p.left)

/-- Takes an amount of audio (1/48 ms) from the released audio. -/
def playDrop : Nat → List PlayItem → List PlayItem
  | _, [] => []
  | n, p :: t => if p.left ≤ n then playDrop (n - p.left) t else { p with left := p.left - n, at_ := p.at_ + n } :: t

/-- Released audio in 1/48 ms. -/
def playLen (ps : List PlayItem) : Nat := (ps.map (·.left)).sum

/-- The gain of the r-th repeat of R95, 6 dB lower each: Q1.15, truncated. -/
def repeatGain : Nat → Int → Int
  | 0, x => x
  | r + 1, x => repeatGain r (x * 16422 / 2 ^ 15)

/-- What fills the block at now of a stream that has no packet for it; the flag: it counts as concealed. A gap whose next packet is not buffered yet
counts as loss (DESIGN CHOICE, log 134). In-band FEC data describes the
packet before the one that carries it: it fills the span just before that packet's release; another gap is filled by packet-loss
concealment, up to 60 ms (R95). -/
def fillBlock (n codec domain now : Nat) (j : Jitter) : List Int × Bool :=
  let next := j.pkts.head?
  let fec := match next with
    | some (t, p) => p.inbandFec && decide (t ≤ now + p.dur * 1000000 / 48)
    | none => false
  if codec = 0 then
    if fec then
      match next with
      | some (t, p) =>
        ((List.range n).map fun i => (Config.fecSample domain j.decState p.data (n * ((t - now) / 1000000) - i)).toInt, true)
      | none => (silence n, true)
    else if (next.map fun p => p.2.marker).getD false then (silence n, false)
    else if j.gapMs < 60 then ((List.range n).map fun i => (Config.plcSample domain j.decState j.gapMs i).toInt, true)
    else (silence n, true)
  else if j.gapMs < 30 then
    (((padBlock (10 * n) j.hist).drop (j.gapMs % 10 * n)).take n |>.map (repeatGain (j.gapMs / 10 + 1)), true)
  else (silence n, true)

/-! ### Encoders (R92, R110) -/

/-- The settings of a group's encoder with a complexity. -/
def encSettings (g : Group) (complexity : Nat) : Config.EncSettings := (g.codec, g.domain, g.bitrate, complexity, g.fec)

/-- Payload bytes and content of a frame. G.711 takes the top 16 bits of its input, truncated; G.711 and G.722 run at 64 kb/s (R92,
R108). -/
def frameOf (g : Group) (complexity ms : Nat) (xs : List Int) : Nat × Nat :=
  let law := fun (f : Int → Nat) => xs.foldr (fun x n => f (x / 256) + 256 * n) 0
  if g.codec = 1 then (8 * ms, law ulawByte)
  else if g.codec = 2 then (8 * ms, law alawByte)
  else
    let c := encSettings g complexity
    (if g.codec = 0 then Config.opusBytes c g.encState xs % 1275 + 1 else 8 * ms, Config.encodedData c g.encState xs)

end Sys2Proof.Machine
end

