-- ==== Sys2Proof/Machine/Playout.lean ====
section
/-!
DEFINITION. The jitter buffers and the decoding of audio streams (04 R92-R97).
-/

namespace Sys2Proof.Machine

/-- Nanoseconds rounded up to a block boundary. -/
def ceilMs (ns : Int) : Nat := (((ns + 999999) / 1000000) * 1000000).toNat

/-- Playout delay of a stream's leg, ns (R93). -/
def playoutNs (s : State) (st : Nat) : Nat :=
  (classOf s (((tget s.fwe.legs (st / 4)).map (·.cls)).getD 0)).playout * 1000000

/-- RTP ticks from the anchor of a buffer to a timestamp: the nearest to the newest one, so that they do not wrap (R93). -/
def tsTicks (j : Jitter) (ts : Word) : Int := j.tsOff + (ts - (j.anchorTs + BitVec.ofInt 32 j.tsOff)).toInt

/-- The release time of a timestamp in an anchored buffer (R93). -/
def releaseNs (j : Jitter) (clock : Nat) (ts : Word) : Nat :=
  ceilMs ((j.anchorNs : Int) + tsTicks j ts * 1000000000 / (clock : Int))

/-- The newest timestamp of a buffer after a packet (R93). -/
def noteTs (ts : Word) (j : Jitter) : Jitter := { j with tsOff := max j.tsOff (tsTicks j ts) }

/-- Inserts a packet in release order. -/
def insertPkt (t : Nat) (p : RtpPkt) : List (Nat × RtpPkt) → List (Nat × RtpPkt)
  | [] => [(t, p)]
  | x :: xs => if t < x.1 then (t, p) :: x :: xs else x :: insertPkt t p xs

/-- The smaller of a margin noted and another (R94). -/
def leastMargin (w : Option Int) (m : Int) : Option Int := some (match w with | some v => min v m | none => m)

/-- A packet enters an anchored buffer, or is late; the margin between its release and its arrival counts for the window (R93, R94). -/
def jitterInsert (now : Nat) (clock : Nat) (p : RtpPkt) (j : Jitter) : Jitter :=
  let t := releaseNs j clock p.ts
  let j : Jitter := { noteTs p.ts j with winMargin := leastMargin j.winMargin ((t : Int) - now) }
  if t < now then { j with late := j.late + 1, winLate := j.winLate + 1, winWorst := max j.winWorst (now - t) }
  else
    let full := decide (64 ≤ j.pkts.length)
    { j with pkts := insertPkt t p (if full then j.pkts.drop 1 else j.pkts), overflow := j.overflow + b1 full }

/-- The arrival of a packet of a REMOTE audio stream; a stream resumed by a takeover is anchored at 5 ms (R93, R426). -/
def jitterArrive (st : Nat) (p : RtpPkt) (s : State) : State :=
  let (now, s) := stamp (engineTraffic .audioBuffer p.payload s)
  let play := playoutNs s st
  modStream st (fun x =>
    let clock := clockRate x.codec
    let j := if x.jitter.anchored then x.jitter
      else { x.jitter with
        anchored := true, anchorNs := ceilMs ((now : Int) + (if x.jitter.quick then 5000000 else play)), anchorTs := p.ts, tsOff := 0
        delay := play }
    { x with jitter := jitterInsert now clock p j }) s

/-- The anchor's move in ms at the end of a 1 s window: later by the largest lateness when two or more packets were late, and by what a new
playout delay adds, at most 20 ms; else 1 ms earlier when the smallest margin exceeded the playout delay by more than 10 ms, or when the delay has
become smaller (R94, R248). -/
def windowMove (play : Nat) (j : Jitter) : Int :=
  let late : Int := if 2 ≤ j.winLate then min 20 ((j.winWorst + 999999) / 1000000) else 0
  let more : Int := min 20 ((play - j.delay) / 1000000)
  if 0 < late ∨ 0 < more then max late more
  else if play < j.delay then -1
  else match j.winMargin with
    | some w => if (play : Int) + 10000000 < w then -1 else 0
    | none => 0

/-- The playout delay that an anchor follows after a window: the anchor comes nearer a new one by as much as it moves (R248). -/
def delayAfter (play : Nat) (m : Int) (j : Jitter) : Nat :=
  if j.delay < play then min play (j.delay + m.toNat * 1000000) else max play (j.delay - m.natAbs * 1000000)

/-- The end of a 1 s window (R94). -/
def jitterWindow (play now : Nat) (j : Jitter) : Jitter :=
  let m := windowMove play j
  { j with
    move := j.move + m, moveSince := if j.move = 0 then now else j.moveSince, winLate := 0, winWorst := 0, winMargin := none
    delay := if j.anchored then delayAfter play m j else j.delay }

/-- ANCHOR_WINDOW_END: the end of a 1 s window aligned to TSU seconds (R94). -/
def execAnchorWindowEnd (stream : Nat) (s : State) : Host.Outcome State Fault Refusal :=
  let s := advanceTo (atBoundaryNs 1000000000 s * 65536) s
  let play := playoutNs s stream
  let now := nowNs s
  .next (modStream stream (fun x => if x.origin ∨ !isAudio x.codec then x else { x with jitter := jitterWindow play now x.jitter }) s)

/-- Applies a waiting anchor move: the releases move with it; a later anchor is absorbed by concealment, an earlier one drops audio
(R94). fade: without a quiet block, so the audio as it ran stays for the outputs to cross over from (R116). -/
def applyMove (fade : Bool) (j : Jitter) : Jitter :=
  { j with
    anchorNs := ((j.anchorNs : Int) + j.move * 1000000).toNat
    pkts := j.pkts.map fun p => (((p.1 : Int) + j.move * 1000000).toNat, p.2)
    play := if j.move < 0 then playDrop (j.move.natAbs * 48) j.play else j.play, gapDue := j.gapDue + j.move.toNat, move := 0
    ver := if fade then j.ver + 1 else j.ver, oldPlay := if fade then some j.play else j.oldPlay
    oldBlock := if fade then j.block else j.oldBlock }

/-- Applies a waiting move at a quiet block, at once in a stream that is not decoded, or after 5 s (R94). -/
def settleMove (now : Nat) (j : Jitter) : Jitter :=
  if j.move = 0 then j
  else if !j.dec ∨ below50 j.block then applyMove false j
  else if j.moveSince + 5000000000 ≤ now ∧ j.oldPlay.isNone then applyMove true j
  else j

/-- Counts a word of a Mallet core's counters (R486 family 0xC000). -/
def countCore (core word_ : Nat) (s : State) : State :=
  let c := ((tget s.aue.coreCnt core).getD [0, 0, 0, 0]).modify word_ fun n => inc32 n
  { s with aue.coreCnt := tset s.aue.coreCnt core c }

/-- The bridge core that decodes a stream, of the 256 less those claimed by customers: the specification does not say which (log 129)
(R44, R127). -/
def decodeCore (st : Nat) (s : State) : Nat :=
  let c := Config.decodeCore st % 256
  if thas s.aue.cores c then c % 224 else c

/-- A row whose selected leg has not entered notes that a packet of the leg has been released (1) or decoded (2) since (R99). -/
def seenNext (st seen : Nat) (s : State) : State :=
  match (tget s.fwe.legs (st / 4)).bind (·.conf) with
  | some k => modConf k (fun x => { x with
      rows := x.rows.map fun r =>
        if r.nextLeg.isSome ∧ r.nextSrc = st ∧ r.nextSeen + 1 = seen then { r with nextSeen := seen } else r }) s
  | none => s

/-- The block of the audio without an anchor move that outputs still cross over from: where it has run out it is concealed (R94,
R116). -/
def oldBlockOf (n codec domain now : Nat) (j : Jitter) : Jitter :=
  match j.oldPlay with
  | none => j
  | some ps =>
    let fill := (fillBlock n codec domain now j).1
    { j with
      oldBlock := (List.range n).map fun i => (playedAt codec domain (48 / n) ps (i * (48 / n))).getD (fill.getD i 0)
      oldPlay := some (playDrop 48 ps) }

/-- The decoded samples of a block, after the ramp back that follows poison (R21, R92, R95). -/
def goodBlock (n codec domain : Nat) (j : Jitter) : List Int :=
  let b := (List.range n).map fun i => (playedAt codec domain (48 / n) j.play (i * (48 / n))).getD 0
  if j.rampMs = 0 then b else b.mapIdx fun i v => fadeSample 0 0x8000 (4 * n) ((4 - j.rampMs) * n + i) v

/-- A decoded block becomes the stream's block, and counts for its level (R97). -/
def putBlock (st : Nat) (j : Jitter) (s : State) : State :=
  modStream st (fun x => { x with jitter := { j with acc := j.acc + energy j.block, cnt := j.cnt + j.block.length } }) s

/-- One block of a decoded stream (R92, R95, R96): decoded from released audio, silent when poisoned, filled when there is none, when a
later anchor is absorbed, or when its decode missed the block. late: the core whose decode was late; bad: the audio meets a poisoned word
(R21). -/
def decodeBlock (st domain : Nat) (late : Option Nat) (bad : Bool) (s : State) : State :=
  match tget s.fwe.streams st with
  | none => s
  | some x =>
    let n := spb domain
    let now := nowNs s
    let j := oldBlockOf n x.codec domain now x.jitter
    let have_ := decide (48 ≤ playLen j.play ∧ j.gapDue = 0)
    let poisoned := have_ && (bad || (j.play.head?.map (·.poisoned)).getD false)
    if !j.dec then putBlock st { j with block := silence n, blockBad := false } s
    else if have_ ∧ !poisoned ∧ late = none then
      let b := goodBlock n x.codec domain j
      seenNext st 2 <| putBlock st { j with
        play := playDrop 48 j.play, block := b, blockBad := false, gapMs := 0, rampMs := j.rampMs - 1
        hist := (j.hist ++ b).drop (j.hist.length + n - 10 * n) } s
    else if poisoned ∧ late = none then
      countCore (decodeCore st s) 1 <| putBlock st { j with
        play := playDrop 48 j.play, block := silence n, blockBad := true, concealed := j.concealed + 1, rampMs := 4 } s
    else
      let (b, counted) := fillBlock n x.codec domain now j
      let s := putBlock st { j with
        play := if have_ then playDrop 48 j.play else j.play, block := b, blockBad := counted, gapMs := j.gapMs + 1
        gapDue := j.gapDue - 1, concealed := j.concealed + b1 counted } s
      let s := if counted then countCore (late.getD (decodeCore st s)) 1 s else s
      match late with
      | some c => countCore c 0 s
      | none => s

/-- A released packet enters its stream's decoder: the decoder's state moves on with it, whether or not its decode is late (R92, R96). -/
def playPkt (codec : Nat) (p : RtpPkt) (j : Jitter) : Jitter :=
  let item : PlayItem := { left := p.dur, at_ := 0, poisoned := p.poisoned, state := j.decState, gap := j.gapMs, data := p.data }
  { j with
    dec := true, play := j.play ++ [item], oldPlay := j.oldPlay.map fun ps => ps ++ [item]
    decState := Config.decoderNext codec j.decState j.gapMs p.data }

/-- A released packet reaches its leg's level and, in a decoded stream, its decoder (R93, R97). 999 stands for a packet without
the level extension; the first one with it makes the leg known to carry it and frees its transcoded slot (R45, R88). -/
def releaseOne (st : Nat) (decoded : Bool) (p : RtpPkt) (s : State) : State :=
  let leg := st / 4
  let s := match (tget s.fwe.legs leg).bind (·.conf) with
    | some k => modConf k (fun x => { x with
        levelAcc := tset x.levelAcc leg ((tget x.levelAcc leg).getD [] ++ [p.level.getD 999]) }) s
    | none => s
  let s := if p.level.isSome then modLeg leg (fun l => { l with levelKnown := true, slot := false }) s else s
  if decoded then
    seenNext st 1 (modStream st (fun x => { x with jitter := playPkt x.codec p x.jitter }) s)
  else s

/-- Releases the packets of a stream that are due at a block boundary (R93). A stream that is not decoded keeps no audio. -/
def releaseStream (st : Nat) (decoded : Bool) (s : State) : State :=
  match tget s.fwe.streams st with
  | none => s
  | some x =>
    let now := nowNs s
    let j := settleMove now x.jitter
    let j := if decoded then j
      else { j with
        dec := false, play := [], block := [], blockBad := false, gapMs := 0, rampMs := 0, hist := [], gapDue := 0, oldPlay := none, oldBlock := []
        decState := 0 }
    let due := j.pkts.takeWhile fun p => p.1 ≤ now
    let s := modStream st (fun x => { x with jitter := { j with pkts := j.pkts.drop due.length } }) s
    due.foldl (fun s p => releaseOne st decoded p.2 s) s

/-- The streams that are decoded: those of rows and of legs waiting to enter, and the audio of member legs not known to carry the
level extension (R45, R97, R99). -/
def decodedStreams (s : State) : List Nat :=
  (s.aue.confs.flatMap fun c => c.2.rows.flatMap fun r => r.src.toList ++ (if r.nextLeg.isSome then [r.nextSrc] else [])) ++
    (s.fwe.legs.filter fun l => l.2.conf.isSome ∧ l.2.levelKnown = false).flatMap fun l => (legAudio s l.1).toList

/-- The jitter buffers and decoders at a block boundary (R33, R93-R96). -/
def playoutBlock (run : BlockRun) (s : State) : State :=
  let dec := decodedStreams s
  (s.fwe.streams.filter fun x => !x.2.origin && isAudio x.2.codec).foldl (fun s x =>
    let st := x.1
    let on := dec.contains st
    let s := releaseStream st on s
    if on then
      let mixer := (((tget s.fwe.legs (st / 4)).bind (·.conf)).bind fun k => (tget s.aue.confs k).map (·.domain)).getD 0
      decodeBlock st (codecDomain x.2.codec mixer) ((run.late.find? fun l => l.2 = st).map (·.1)) (run.poisoned.contains st) s
    else s) s

end Sys2Proof.Machine
end

