-- ==== Sys2Proof/Machine/Speakers.lean ====
section
/-!
DEFINITION. Levels and speaker selection (04 R97-R101, R125), the feeds of legs (R110-R113), and what of the mixer happens at an epoch
boundary.
-/

namespace Sys2Proof.Machine

/-! ### Groups and feeds (R110-R113) -/

/-- Frame duration of an encode group, ns (R126). -/
def groupNs (g : Group) : Nat := [10, 20, 40, 60].getD g.frame 20 * 1000000

/-- The key of a selection slot's mix-minus encoder in `Conf.groups`. -/
def mmKey (slot : Nat) : Nat := 32 + slot

/-- The stream indices that stand for a conference's mix-minus feeds: the model's own, above every stream of R57. -/
def mmStream (conf i : Nat) : Nat := 65536 + conf * 16 + i

/-- The lowest stream index of a conference that no mix-minus feed of it holds. -/
def freeMmStream (conf : Nat) (x : Conf) : Nat :=
  (((List.range 16).map (mmStream conf)).find? fun st => !x.groups.any fun (g : Nat × Group) => g.2.stream = st).getD (mmStream conf 0)

/-- Encode groups of a conference, mix-minus encoders apart. -/
def realGroups (x : Conf) : Tbl Group := x.groups.filter fun (g : Nat × Group) => g.1 < 32

/-- The group of a listen bus for a codec and a decided Opus bitrate in kb/s: the highest bitrate not above it, or the lowest
(R112). Groups that end or have not started take no leg. -/
def chooseGroup (x : Conf) (bus codec opus : Nat) : Option (Nat × Group) :=
  let gs := (realGroups x).filter fun (g : Nat × Group) => g.2.bus = bus ∧ g.2.codec = codec ∧ g.2.startNs.isSome ∧ g.2.ending = false
  let fit := gs.filter fun g => g.2.bitrate ≤ opus * 1000
  match fit with
  | g :: t => some (t.foldl (fun (m g : Nat × Group) => if m.2.bitrate < g.2.bitrate then g else m) g)
  | [] => match gs with
    | g :: t => some (t.foldl (fun (m g : Nat × Group) => if g.2.bitrate < m.2.bitrate then g else m) g)
    | [] => none

/-- The group that a leg's feed should come from (R112). -/
def wantedGroup (s : State) (x : Conf) (leg : Nat) : Option (Nat × Group) :=
  (tget x.bindings leg).bind fun b =>
    chooseGroup x b.1 (legCodec s leg) (((tget s.lgv.legs leg).map (·.opus)).getD 0)

/-- Origin and frame duration of the grid that a leg's feed follows now: those of its source, or, before it has one, of the group it
would take; a leg with no listen bus has the block grid (R99, R111). -/
def feedGrid (s : State) (x : Conf) (leg : Nat) : Nat × Nat :=
  let src := (((tget s.fwe.legs leg).bind (·.listenEntry)).bind fun i => tget s.fwe.ledger i).map (·.source)
  let g : Option Group := match x.groups.find? fun (g : Nat × Group) => some g.2.stream = src with
    | some g => some g.2
    | none => (wantedGroup s x leg).map (·.2)
  match g with
  | some g => ((tget x.grids g.bus).getD 0, groupNs g)
  | none => (0, 1000000)

/-- A time lies on a grid. -/
def onGrid (g : Nat × Nat) (t : Nat) : Bool := decide (g.1 ≤ t ∧ (t - g.1) % g.2 = 0)

/-- The first time of a grid at or after t. -/
def gridAfter (g : Nat × Nat) (t : Nat) : Nat := if t ≤ g.1 then g.1 else g.1 + (t - g.1 + g.2 - 1) / g.2 * g.2

/-- Moves a maintained audio entry to another source with continuity of its output (R78, R113). -/
def moveFeed (i src : Nat) (s : State) : State :=
  match tget s.fwe.ledger i with
  | none => s
  | some e =>
    if e.source = src then s
    else linkEntry i
      { e with
        source := src, active := 0, awaiting := true, awaitNs := s.cpr.aonNs, contPend := true, seqOffOld := e.seqOff
        lastInOld := e.lastIn, synth := [] }
      (unlinkEntry i s)

/-! ### Levels (R97) -/

/-- The level of a member leg over the epoch just ended, in 0.25 dB steps below full scale (R97). -/
def legLevel (s : State) (x : Conf) (leg : Nat) (l : Leg) : Nat :=
  match (tget x.levelAcc leg).getD [] with
  | [] => 511
  | acc =>
    if l.levelKnown then
      let ext := acc.filter fun v => v ≠ 999
      attenuation ((ext.map fun v => levelPower (4 * v)).sum) (ext.length * 2 ^ 80)
    else
      match (legAudio s leg).bind fun st => tget s.fwe.streams st with
      | some x => rmsLevel x.jitter.acc x.jitter.cnt
      | none => 511

/-- Member legs of a conference, by index. -/
def members (s : State) (k : Nat) : Tbl Leg := s.fwe.legs.filter fun l => l.2.conf = some k

/-- Levels and smoothing of a conference (R97, R98). -/
def smoothLevels (s : State) (k : Nat) (x : Conf) : Conf :=
  let ls := (members s k).map fun l => (l.1, -(legLevel s x l.1 l.2 : Int))
  { x with
    level := ls, levelAcc := []
    smooth := ls.map fun l =>
      let p := (tget x.smooth l.1).getD (-511)
      (l.1, p + (l.2 - p) / 4) }

/-! ### Selection (R98-R101) -/

/-- Selection floor, hysteresis and hold (R98). -/
def selFloor : Int := -220

/-- A leg's smoothed level. -/
def smoothOf (x : Conf) (leg : Nat) : Int := (tget x.smooth leg).getD (-511)

/-- Deselects the leg of a row: one that has not entered just goes; an occupant fades out over 5 ms, ending at the first frame boundary
of its feed at least 5 ms on (R100). -/
def deselectRow (s : State) (x : Conf) (now : Nat) (r : Row) : Row :=
  if r.nextLeg.isSome then { r with nextLeg := none, heldMs := 0, lowMs := 0 }
  else match r.leg with
    | some l => { r with leaving := some (gridAfter (feedGrid s x l) (now + 5000000)), heldMs := 0, lowMs := 0 }
    | none => r

/-- Selects a leg into a row (R99). -/
def selectRow (leg src : Nat) (r : Row) : Row := { r with nextLeg := some leg, nextSrc := src, nextSeen := 0, heldMs := 0, lowMs := 0 }

/-- The index of a selection slot free for a new leg. -/
def freeSlot (x : Conf) : Option Nat := (List.range x.n).find? fun i => ((x.rows.getD i Row.reset) |> rowSelected) = none

/-- Whether a leg is selected. -/
def isSelected (x : Conf) (leg : Nat) : Bool := (x.rows.take 16).any fun r => rowSelected r = some leg

/-- The weakest selected leg held at least 300 ms, ties to the higher leg index: its row, leg and level (R98). -/
def weakest (x : Conf) (hold : Nat) : Option (Nat × Nat × Int) :=
  (List.range 16).foldl (fun best i =>
    let r := x.rows.getD i Row.reset
    match rowSelected r with
    | some l =>
      if r.heldMs < hold then best
      else match best with
        | none => some (i, l, smoothOf x l)
        | some (_, bl, bs) => if smoothOf x l < bs ∨ (smoothOf x l = bs ∧ bl < l) then some (i, l, smoothOf x l) else best
    | none => best) none

/-- Candidates in descending smoothed level, ties to the lower leg index: member legs with no always-on input (R98, R102). -/
def candidates (s : State) (k : Nat) (x : Conf) : List Nat :=
  let on := x.alwaysOn.filterMap fun a => a.map (·.1)
  (((members s k).map (·.1)).filter fun l => !on.contains l ∧ (legAudio s l).isSome).mergeSort
    fun a b => smoothOf x b < smoothOf x a ∨ (smoothOf x a = smoothOf x b ∧ a ≤ b)

/-- One candidate of the loop of R98. -/
def consider (s : State) (now : Nat) (x : Conf) (c : Nat) : Conf :=
  if isSelected x c ∨ smoothOf x c < selFloor then x
  else
    let src := (legAudio s c).getD 0
    match freeSlot x with
    | some i => { x with rows := x.rows.modify i (selectRow c src) }
    | none =>
      match weakest x 300 with
      | some (i, _, ws) =>
        if ws + 12 < smoothOf x c then { x with rows := x.rows.modify i fun r => selectRow c src (deselectRow s x now r) } else x
      | none => x

/-- Ages the selected rows by one epoch. -/
def ageRows (x : Conf) : Conf :=
  { x with rows := x.rows.mapIdx fun i r =>
      if 16 ≤ i then r
      else match rowSelected r with
        | some l => { r with heldMs := r.heldMs + 10, lowMs := if smoothOf x l < selFloor then r.lowMs + 10 else 0 }
        | none => r }

/-- Deselects the legs that have stayed below the floor for 2 s (R98). -/
def dropLow (s : State) (now : Nat) (x : Conf) : Conf :=
  { x with rows := x.rows.mapIdx fun i r => if i < 16 ∧ 2000 ≤ r.lowMs then deselectRow s x now r else r }

/-- Speaker selection of a conference of this module alone (R98). -/
def selectLocal (s : State) (k now : Nat) (x : Conf) : Conf :=
  let x := ageRows x
  dropLow s now ((candidates s k x).foldl (consider s now) x)

/-- Whether a conference mixes with its lock group now: this module belongs to it and is not suspended (R418, R420). -/
def lockActive (s : State) (x : Conf) : Bool :=
  decide (x.lock ≠ 0 ∧ s.cti.role ≠ 0) && !s.cti.suspended && s.cti.groups.any fun g => g.group = x.lock

/-- Exchanges what two selection slots hold, their trims and effect slots apart: a feed keeps its stream (R101). -/
def swapRows (x : Conf) (i j : Nat) : Conf :=
  let a := x.rows.getD i Row.reset
  let b := x.rows.getD j Row.reset
  let ga := tget x.groups (mmKey i)
  let gb := tget x.groups (mmKey j)
  let put := fun (t : Tbl Group) k (g : Option Group) => match g with | some g => tset t k g | none => terase t k
  { x with
    rows := (x.rows.set i { b with trim := a.trim, trimNew := a.trimNew, core := a.core }).set j
      { a with trim := b.trim, trimNew := b.trimNew, core := b.core }
    groups := put (put x.groups (mmKey i) gb) (mmKey j) ga
    mmOuts := (x.mmOuts.set i (x.mmOuts.getD j OutSt.reset)).set j (x.mmOuts.getD i OutSt.reset) }

/-- Deselects the weakest legs until at most n are selected (R101). fuel bounds their number. -/
def trimSelected (s : State) (now n : Nat) : Nat → Conf → Conf
  | 0, x => x
  | fuel + 1, x =>
    if ((x.rows.take 16).filter fun r => (rowSelected r).isSome).length ≤ n then x
    else match weakest x 0 with
      | some (i, _, _) => trimSelected s now n fuel { x with rows := x.rows.modify i (deselectRow s x now) }
      | none => x

/-- Moves legs that stay selected out of the slots beyond N into slots below it. -/
def packSlots (n : Nat) (x : Conf) : Conf :=
  (List.range 16).foldl (fun x i =>
    if i < n ∨ ((x.rows.getD i Row.reset) |> rowSelected) = none then x
    else match (List.range n).find? fun j => ((x.rows.getD j Row.reset) |> rowSelected) = none with
      | some j => swapRows x i j
      | none => x) x

/-- A slot of a lock group's selection: position, leg and smoothed level. -/
abbrev GroupSlot := Nat × Nat × Int

/-- The slots that a selection cell names (R121). -/
def cellSlots (ws : List Word) : List (Option GroupSlot) :=
  (List.range 16).map fun i =>
    let a := ws.getD (2 * i) 0
    if bit a 19 then some (field a 14 5, field a 0 14, -(field (ws.getD (2 * i + 1) 0) 0 9 : Int)) else none

/-- The weakest of a group's slots, ties to the higher leg index. -/
def weakestSlot (ms : List (Option GroupSlot)) : Option (Nat × Nat × Int) :=
  (List.range ms.length).foldl (fun best i =>
    match ms.getD i none with
    | some (_, l, v) =>
      match best with
      | none => some (i, l, v)
      | some (_, bl, bv) => if v < bv ∨ (v = bv ∧ bl < l) then some (i, l, v) else best
    | none => best) none

/-- Clears the weakest of a group's slots until at most n are held (R101). fuel bounds their number. -/
def cutSlots (n : Nat) : Nat → List (Option GroupSlot) → List (Option GroupSlot)
  | 0, ms => ms
  | fuel + 1, ms =>
    if (ms.filter (·.isSome)).length ≤ n then ms
    else match weakestSlot ms with
      | some (i, _, _) => cutSlots n fuel (ms.set i none)
      | none => ms

/-- Moves the legs that a group keeps out of its slots beyond n into free slots below it. -/
def packGroup (n : Nat) (ms : List (Option GroupSlot)) : List (Option GroupSlot) :=
  (List.range ms.length).foldl (fun ms i =>
    if i < n ∨ (ms.getD i none).isNone then ms
    else match (List.range n).find? fun j => (ms.getD j none).isNone with
      | some j => (ms.set j (ms.getD i none)).set i none
      | none => ms) ms

/-- A lock group's selection under N: every member cuts it alike, by the levels that the cell carries (R101, R125). -/
def groupSlots (n : Nat) (ms : List (Option GroupSlot)) : List (Option GroupSlot) := packGroup n (cutSlots n 16 ms)

/-- The local leg that a lock group's selection names for each slot; one that is no member of the conference any more is not selected (R100,
R125). -/
def wantedLegs (s : State) (k : Nat) (ms : List (Option GroupSlot)) : List (Option Nat) :=
  ms.map fun m => m.bind fun (p, l, _) =>
    if p = s.cti.position ∧ (tget s.fwe.legs l).bind (·.conf) = some k then some l else none

/-- Moves selected legs to the slots that the selection names for them: no fade is due for a leg that stays selected. -/
def alignRows (want : List (Option Nat)) (x : Conf) : Conf :=
  (List.range 16).foldl (fun x i =>
    match want.getD i none with
    | none => x
    | some l =>
      if rowSelected (x.rows.getD i Row.reset) = some l then x
      else match (List.range 16).find? fun j => rowSelected (x.rows.getD j Row.reset) = some l with
        | some j => swapRows x i j
        | none => x) x

/-- Applies a lock group's selection: each slot's local leg becomes the one that the manager named at this module's position (R125). -/
def selectGroup (s : State) (k now : Nat) (ms : List (Option GroupSlot)) (x : Conf) : Conf :=
  let wants := wantedLegs s k ms
  let x := alignRows wants x
  { x with rows := x.rows.mapIdx fun i r =>
      if 16 ≤ i then r
      else
        let want := wants.getD i none
        if rowSelected r = want then { r with heldMs := r.heldMs + 10 }
        else
          let r := if (rowSelected r).isSome then deselectRow s x now r else r
          match want with
          | some l => selectRow l ((legAudio s l).getD (l * 4)) r
          | none => r }

/-- The transcoded slots that a conference holds: N or a larger N to come, rows beyond N still fading, and its always-on inputs
with those about to be enabled (R45, R101). -/
def recountSlots (x : Conf) : Conf :=
  let n := max x.n (x.nNew.getD 0)
  let fading := ((x.rows.take 16).drop n).filter fun r => r.leg.isSome
  let on := (List.range 16).filter fun i =>
    (x.alwaysOn.getD i none).isSome || x.onPending.any fun p => decide (p.1 = i) && p.2.isSome
  { x with slots := n + fading.length + on.length }

/-- A new N and bus count apply (R101, R126). What a smaller N deselects in a lock group follows from the group's selection. -/
def applyMixer (s : State) (now : Nat) (x : Conf) : Conf :=
  let x := { x with buses := x.busesNew.getD x.buses, busesNew := none }
  match x.nNew with
  | none => x
  | some n =>
    let x := { x with n := n, nNew := none }
    recountSlots (if lockActive s x then x else packSlots n (trimSelected s now n 16 x))

/-- Selection of a lock group at a member: by the cell that waits, cut to N; with none it keeps what it had, slots beyond N apart, and counts the
miss (R101, R125). -/
def selectLocked (s : State) (k now : Nat) (x : Conf) : Conf :=
  match x.selCell with
  | some ws => { selectGroup s k now (groupSlots x.n (cellSlots ws)) x with selCell := none }
  | none =>
    let x := ageRows x
    { x with
      selMisses := inc32 x.selMisses
      rows := x.rows.mapIdx fun i r => if x.n ≤ i ∧ i < 16 ∧ (rowSelected r).isSome then deselectRow s x now r else r }

/-- Meters at an epoch boundary: the RMS of the epoch, and the decay of the peaks (R119). -/
def epochMeters (now : Nat) (x : Conf) : Conf :=
  let out := fun (o : OutSt) =>
    { o with rms := rmsLevel o.acc o.cnt, acc := 0, cnt := 0, peak := peakDecay o.peak o.peakNs now }
  { x with
    rows := x.rows.map fun r =>
      { r with rms := rmsLevel r.acc r.cnt, acc := 0, cnt := 0, peak := peakDecay r.peak r.peakNs now }
    outs := x.outs.map out, mmOuts := x.mmOuts.map out }

/-- A conference at an epoch boundary: levels, the new N, selection, meters (R97, R98, R101, R119, R125). -/
def confEpoch (s : State) (k : Nat) (x : Conf) : Conf :=
  let now := nowNs s
  let x := applyMixer s now (smoothLevels s k x)
  epochMeters now (if lockActive s x then selectLocked s k now x else selectLocal s k now x)

/-- The mixers at an epoch boundary (R97-R101). -/
def speakersEpoch (s : State) : State :=
  let s := { s with aue.confs := s.aue.confs.map fun (c : Nat × Conf) => (c.1, confEpoch s c.1 c.2) }
  { s with fwe.streams := s.fwe.streams.map fun (x : Nat × Stream) => (x.1, { x.2 with jitter.acc := 0, jitter.cnt := 0 }) }

end Sys2Proof.Machine
end

