-- ==== Sys2Proof/Machine/Mixer.lean ====
section
/-!
DEFINITION. The commands of the mixer: AUD_MIXER_SET, AUD_ROUTE_SET, AUD_GAIN_SET, AUD_BANK_SWAP and AUD_METER_READ (04 R114-R117, R119,
R126).
-/

namespace Sys2Proof.Machine

/-- The conference of an AUD_ command (R126). -/
def audConf (c : Cmd) : Nat := field (word c 0) 0 13

/-- A row within a conference's configuration: a selection slot below N, or an always-on row (R102, R126). -/
def rowOk (x : Conf) (row : Nat) : Bool := decide (16 ≤ row ∨ row < max x.n (x.nNew.getD 0))

/-- A bus within a conference's configuration, now and at its next epoch boundary. -/
def busOk (x : Conf) (bus : Nat) : Bool := decide (bus < min x.buses (x.busesNew.getD x.buses))

/-- The next block boundary, ns. -/
def nextBlockNs (s : State) : Nat := nextBoundaryNs 1000000 s

/-- Word counts of AUD_MIXER_SET by function; an unknown function is refused by its value (R126, R528). -/
def mixerLens (c : Cmd) (k : Nat) : Bool :=
  match [2, 3, 4, 3, 3, 7, 3][field (word c 0) 16 4]? with
  | some n => k == n
  | none => true

/-- A conference with a new N and bus count waiting for the next epoch boundary (R101). -/
def resized (c : Cmd) (x : Conf) : Conf :=
  recountSlots { x with nNew := some (field (word c 1) 0 5), busesNew := some (field (word c 1) 5 4) }

/-- The checks of function 0 (R101, R120). -/
def sizeChecks (c : Cmd) (s : State) : List (Bool × Status) :=
  let k := audConf c
  let n := field (word c 1) 0 5
  let buses := field (word c 1) 5 4
  let x := (tget s.aue.confs k).getD Conf.reset
  let y := resized c x
  ([(decide (n < 1 ∨ 16 < n ∨ buses < 1 ∨ 8 < buses), .badParam), (!confUsed s k, .badTarget),
    ((realGroups x).any (fun g => decide (buses ≤ g.2.bus)) ||
      (decide (x.lock ≠ 0) && groupBreaks s x.lock { x with n := n, buses := buses }), .badParam)] ++
   (if x.slots < y.slots then admission s (fun _ => false) (slotsOver s (y.slots - x.slots)) else []))

/-- Function 0: N and bus count, from the next epoch boundary (R101, R120). -/
def mixerSize (c : Cmd) (s : State) : Res :=
  checks (sizeChecks c s) (.done [] (modConf (audConf c) (resized c) s))

/-- A conference with an always-on input's start or end waiting for the next block boundary (R102). -/
def alwaysOnSet (c : Cmd) (x : Conf) : Conf :=
  let i := field (word c 1) 0 4
  recountSlots { x with onPending := x.onPending.filter (fun p => p.1 ≠ i) ++
    [(i, if bit (word c 1) 4 then some (field (word c 1) 5 14, field (word c 1) 19 2) else none)] }

/-- The checks of function 1 (R102, R126). -/
def alwaysOnChecks (c : Cmd) (s : State) : List (Bool × Status) :=
  let k := audConf c
  let on := bit (word c 1) 4
  let leg := field (word c 1) 5 14
  let st := leg * 4 + field (word c 1) 19 2
  let x := (tget s.aue.confs k).getD Conf.reset
  let y := alwaysOnSet c x
  ([(!confUsed s k || (on && (!thas s.fwe.legs leg || !streamUsed s st)), .badTarget),
    (on && (decide (((tget s.fwe.legs leg).bind (·.conf)) ≠ some k) ||
      ((tget s.fwe.streams st).map fun y => y.origin || !isAudio y.codec).getD true), .badParam)] ++
   (if x.slots < y.slots then admission s (fun _ => false) (slotsOver s (y.slots - x.slots)) else []))

/-- Function 1: an always-on input, from the next block boundary (R102, R126). -/
def mixerAlwaysOn (c : Cmd) (s : State) : Res :=
  checks (alwaysOnChecks c s) (.done [] (modConf (audConf c) (alwaysOnSet c) s))

/-- Encode groups of the module (R110). -/
def groupCount (s : State) : Nat := (s.aue.confs.map fun x => (realGroups x.2).length).sum

/-- Ranges of an encode group's settings (R92, R126). -/
def groupBad (w2 w3 : Word) : Bool :=
  let codec := field w2 0 8
  !codecKnown codec || !isAudio codec || decide (2 < field w2 8 2) ||
    decide (10 < field w2 12 4 ∧ field w2 12 4 ≠ 15) ||
    (if codec = 0 then decide (w3.toNat < 6000 ∨ 510000 < w3.toNat)
     else decide (1 < field w2 10 2 ∨ field w2 8 2 ≠ codecDomain codec 0))

/-- The group that words 1 to 3 describe (R126). G.711 and G.722 run at 64 kb/s (R92). -/
def groupOfWords (w1 w2 w3 : Word) : Group :=
  { Group.reset with
    bus := field w1 6 3, stream := field w1 16 16, codec := field w2 0 8, domain := field w2 8 2, frame := field w2 10 2
    complexity := field w2 12 4, fec := bit w2 16, bitrate := if field w2 0 8 = 0 then w3.toNat else 64000 }

/-- The checks of function 2 (R110, R126). -/
def groupChecks (c : Cmd) (s : State) : List (Bool × Status) :=
  let k := audConf c
  let i := field (word c 1) 0 5
  let on := bit (word c 1) 5
  let x := (tget s.aue.confs k).getD Conf.reset
  let g := groupOfWords (word c 1) (word c 2) (word c 3)
  let old := tget x.groups i
  let leg := tget s.fwe.legs (g.stream / 4)
  let str := (tget s.fwe.streams g.stream).getD Stream.reset
  let own := decide ((old.map (·.stream)) = some g.stream)
  ([(on && groupBad (word c 2) (word c 3), .badParam),
    (!confUsed s k || (on && !streamUsed s g.stream), .badTarget),
    (if on then !busOk x g.bus || !str.origin || decide ((leg.map (·.kind)) ≠ some .producer) || decide (str.codec ≠ g.codec) ||
        (decide (str.binding ≠ 0) && !own)
     else old.isNone, .badParam)] ++
   (if on && old.isNone then
      [(decide (8192 < groupCount s + 1), .noCapacity)] else []))

/-- An encode group ends, starts, or takes new settings, at its next frame boundary (R110, R111, R126). -/
def setEncGroup (c : Cmd) (s : State) : State :=
  let i := field (word c 1) 0 5
  let g := groupOfWords (word c 1) (word c 2) (word c 3)
  if bit (word c 1) 5 then
    modConf (audConf c) (fun x =>
      { x with groups := match tget x.groups i with
          | some o => tset x.groups i { o with pending := some [word c 1, word c 2, word c 3], ending := false }
          | none => tset x.groups i g }) (modStream g.stream (fun y => { y with binding := 1 }) s)
  else modConf (audConf c) (fun x => { x with groups := tmod x.groups i fun g => { g with ending := true, pending := none } }) s

/-- Function 2: an encode group, from its next frame boundary (R110, R111, R126). -/
def mixerGroup (c : Cmd) (s : State) : Res := checks (groupChecks c s) (.done [] (setEncGroup c s))

/-- The checks of function 3 (R112, R126). -/
def bindChecks (c : Cmd) (s : State) : List (Bool × Status) :=
  let k := audConf c
  let leg := field (word c 1) 0 14
  let bus := field (word c 1) 14 3
  let x := (tget s.aue.confs k).getD Conf.reset
  let l := (tget s.fwe.legs leg).getD Leg.reset
  [(!confUsed s k || !thas s.fwe.legs leg, .badTarget),
   (decide (l.conf ≠ some k) || decide (l.kind = .producer) || !busOk x bus ||
     !(realGroups x).any fun g => g.2.bus = bus ∧ g.2.codec = legCodec s leg ∧ g.2.ending = false, .badParam),
   (l.listenEntry.isNone && decide (524288 ≤ tfree s.fwe.ledger 0), .noCapacity)]

/-- Function 3: a leg's listen bus and output SSRC, from the next frame boundary of the bus (R112, R126). -/
def mixerBind (c : Cmd) (s : State) : Res :=
  checks (bindChecks c s) (.done [] (modConf (audConf c) (fun x => { x with
    bindNew := x.bindNew.filter (fun b => b.1 ≠ field (word c 1) 0 14) ++ [(field (word c 1) 0 14, field (word c 1) 14 3, word c 2)] }) s))

/-- The checks of a write to a bank: a pending swap, then the active bank (R115). -/
def bankChecks (x : Conf) (bank : Nat) : List (Bool × Status) :=
  [(x.swapAt.isSome, .resourceBusy), (decide (bank = x.active), .locked)]

/-- Changes a bank of a conference. -/
def modBank (k bank : Nat) (f : Bank → Bank) (s : State) : State :=
  modConf k (fun x => if bank = 0 then { x with bankA := f x.bankA } else { x with bankB := f x.bankB }) s

/-- Writes a routing gain; gain 0 removes the route (R126). -/
def putGain (row bus gain : Nat) (b : Bank) : Bank :=
  { b with matrix := if gain = 0 then terase b.matrix (row * 8 + bus) else tset b.matrix (row * 8 + bus) gain }

/-- The checks of functions 4 to 6 (R115, R126). -/
def bankSetChecks (c : Cmd) (s : State) : List (Bool × Status) :=
  let k := audConf c
  let fn := field (word c 0) 16 4
  let row := field (word c 1) 1 5
  let x := (tget s.aue.confs k).getD Conf.reset
  ([(!confUsed s k, .badTarget),
    ((decide (fn ≠ 6) && !rowOk x row) || (decide (fn = 4) && !busOk x (field (word c 1) 6 3)), .badParam)] ++
    bankChecks x (field (word c 1) 0 1))

/-- Functions 4 to 6: a gain, an equaliser section or the echo setting, written to the inactive bank (R115, R126). -/
def mixerBank (c : Cmd) (s : State) : Res :=
  let fn := field (word c 0) 16 4
  let row := field (word c 1) 1 5
  checks (bankSetChecks c s)
    (.done [] <| modBank (audConf c) (field (word c 1) 0 1) (fun b =>
      if fn = 4 then putGain row (field (word c 1) 6 3) (field (word c 2) 0 16) b
      else if fn = 5 then { b with eq := tset b.eq (row * 4 + field (word c 1) 6 2) ((c.words.drop 2).take 5) }
      else { b with echo := word c 2 }) s)

/-- AUD_MIXER_SET's body (R126). -/
def mixerSet (c : Cmd) (s : State) : Res :=
  match field (word c 0) 16 4 with
  | 0 => mixerSize c s
  | 1 => mixerAlwaysOn c s
  | 2 => mixerGroup c s
  | 3 => mixerBind c s
  | 4 => mixerBank c s
  | 5 => mixerBank c s
  | 6 => mixerBank c s
  | _ => .refuse .badParam

/-- AUD_MIXER_SET (R126). -/
def execAudMixerSet (c : Cmd) (s : State) : Host.Outcome State Fault Refusal :=
  .next <| serve 0x0401 (mixerLens c) c s (mixerSet c)

/-- AUD_ROUTE_SET's body: one routing gain into both banks; the crossfade starts at the next block boundary (R116, R117, R126). -/
def routeSet (c : Cmd) (s : State) : Res :=
  let k := audConf c
  let row := field (word c 1) 0 5
  let bus := field (word c 1) 5 3
  let x := (tget s.aue.confs k).getD Conf.reset
  let put := putGain row bus (field (word c 1) 16 16)
  checks [(!confUsed s k, .badTarget), (!rowOk x row || !busOk x bus, .badParam)]
    (.done [w32 (nextBlockNs s)] (modBank k 1 put (modBank k 0 put s)))

/-- AUD_ROUTE_SET (R116). -/
def execAudRouteSet (c : Cmd) (s : State) : Host.Outcome State Fault Refusal :=
  .next <| serve 0x0402 (exactly 2) c s (routeSet c)

/-- AUD_GAIN_SET's body: the trim waits for its zero crossing; a pending one is replaced (R114). -/
def gainSet (c : Cmd) (s : State) : Res :=
  let k := audConf c
  let row := field (word c 1) 0 5
  let x := (tget s.aue.confs k).getD Conf.reset
  let t := nextBlockNs s
  checks [(!confUsed s k, .badTarget), (!rowOk x row, .badParam)]
    (.done [] (modConf k (fun x =>
      { x with rows := x.rows.modify row fun r => { r with trimNew := some (field (word c 1) 16 16), trimNs := t } }) s))

/-- AUD_GAIN_SET (R114). -/
def execAudGainSet (c : Cmd) (s : State) : Host.Outcome State Fault Refusal :=
  .next <| serve 0x0403 (exactly 2) c s (gainSet c)

/-- AUD_BANK_SWAP's body (R115). -/
def bankSwap (c : Cmd) (s : State) : Res :=
  let k := audConf c
  let x := (tget s.aue.confs k).getD Conf.reset
  let t := nextBlockNs s
  checks [(!confUsed s k, .badTarget), (x.swapAt.isSome, .resourceBusy)]
    (.done (w64 t) (modConf k (fun x => { x with swapAt := some t }) s))

/-- AUD_BANK_SWAP (R115). -/
def execAudBankSwap (c : Cmd) (s : State) : Host.Outcome State Fault Refusal :=
  .next <| serve 0x0404 (exactly 1) c s (bankSwap c)

/-- The word of a meter: RMS and peak in 0.25 dB steps (R119, R126). -/
def meterWord (x : Conf) (m : Nat) : Word :=
  let pack := fun (rms peak : Nat) => w32 (rms + peak * 512)
  if m < 32 then let r := x.rows.getD m Row.reset; pack r.rms (peakLevel r.peak)
  else if m < 40 then let o := x.outs.getD (m - 32) OutSt.reset; pack o.rms (peakLevel o.peak)
  else if m < 56 then let o := x.mmOuts.getD (m - 40) OutSt.reset; pack o.rms (peakLevel o.peak)
  else let o := x.outs.getD (m - 56) OutSt.reset; pack o.red o.red

/-- Restarts the peak holds of the meters from a to below b (R126). -/
def restartPeaks (a b now : Nat) (x : Conf) : Conf :=
  let hit := fun m => decide (a ≤ m ∧ m < b)
  { x with
    rows := x.rows.mapIdx fun i r => if hit i then { r with peak := 0, peakNs := now } else r
    outs := x.outs.mapIdx fun i o => if hit (32 + i) then { o with peak := 0, peakNs := now } else o
    mmOuts := x.mmOuts.mapIdx fun i o => if hit (40 + i) then { o with peak := 0, peakNs := now } else o }

/-- AUD_METER_READ (R119, R126). -/
def execAudMeterRead (c : Cmd) (s : State) : Host.Outcome State Fault Refusal :=
  .next <| serve 0x0405 (exactly 2) c s fun s =>
    let k := audConf c
    let first := field (word c 1) 0 6
    let n := field (word c 1) 6 7
    let x := (tget s.aue.confs k).getD Conf.reset
    checks [(decide (n < 1 ∨ 64 < first + n), .badParam), (!confUsed s k, .badTarget)]
      (.done ((List.range n).map fun i => meterWord x (first + i))
        (if bit (word c 1) 31 then modConf k (restartPeaks first (first + n) (nowNs s)) s else s))

end Sys2Proof.Machine
end

