-- ==== Sys2Proof/Machine/Slots.lean ====
section
/-!
DEFINITION. The effect slots that customer Mallet cores serve (05 R137-R142).
-/

namespace Sys2Proof.Machine

/-- Changes a customer core. -/
def modCore (c : Nat) (f : Core → Core) (s : State) : State := { s with aue.cores := tmod s.aue.cores c f }

/-- X mailbox addresses (R138). -/
def xMailIn : Nat := 0xFE00

/-- The Y mailbox (R138), as an offset within Y memory. -/
def yMailOut : Nat := 0xFE00

/-- Writes words from an address upwards. -/
def writeWords (m : List Host.Cell) (a : Nat) : List Word → List Host.Cell
  | [] => m
  | w :: ws => writeWords (writeWord m a w) (a + 4) ws

/-- The control word of a delivery (R138). -/
def slotControl (domain n : Nat) (xs : List Int) (concealed changed missed : Bool) : Word :=
  w32 (domain + n * 4 + b1 (xs.all (· = 0)) * 256 + b1 concealed * 512 + b1 changed * 1024 + b1 missed * 2048)

/-- The crossbar writes a block and the control words and releases the core from done (R138, R139). -/
def slotDeliver (domain n : Nat) (xs : List Int) (occ : Option Nat) (concealed : Bool) (now : Nat) (x : Core) : Core :=
  let m := writeWords x.xmem xMailIn (xs.map i32)
  let m := writeWords m 0xFFF0 ([w32 now, slotControl domain n xs concealed (decide (x.occupant ≠ occ)) x.missFlag] ++ x.params)
  { x with
    xmem := m, waiting := false, delivered := true, inBlock := true, missFlag := false, occupant := occ, used := 0 }

/-- A missed block: counted, the slot goes into bypass, and AUE_SLOT_MISSED is raised, which folds within 1 s (R140,
R484). -/
def slotMiss (c : Nat) (s : State) : State :=
  fault 0xC201 [w32 c] (countCore c 2 (modCore c (fun x =>
    { x with missed := inc32 x.missed, bypass := true, onTime := 0, missFlag := true, counted := true }) s))

/-- A core that serves a slot in the block that started at a time. -/
def slotServes (x : Core) (start : Nat) : Bool := x.attached.isSome && decide (x.state = .running ∧ x.attachNs ≤ start)

/-- Whether a block that started at a time has been missed and not yet counted: done has not executed 900 us on (R140). -/
def slotLate (x : Core) (start : Nat) : Bool :=
  slotServes x start && !x.counted && (!x.waiting || decide (start + 900000 < x.doneNs))

/-- SLOT_BLOCK_MISSED: 900 us after the boundary done has not executed (R140). -/
def execSlotBlockMissed (core : Nat) (s : State) : Host.Outcome State Fault Refusal :=
  match tget s.aue.cores core with
  | none => .next s
  | some x =>
    .next (if slotServes x s.aue.blockNs && !x.counted && !x.waiting then slotMiss core (advanceTo ((s.aue.blockNs + 900000) * 65536) s) else s)

/-- The samples that a program left in the Y mailbox, saturated to 24 bits, with the saturations (R137, R138). -/
def slotOutput (n : Nat) (x : Core) : List Int × Nat :=
  let ys := (List.range n).map fun i => (readWord x.ymem (yMailOut + 4 * i)).toInt
  (ys.map sat24, (ys.filter fun y => sat24 y ≠ y).length)

/-- A block between the dry input and a slot's output, as the place of the crossfade goes from a to b of 4 (R116, R141). -/
def slotMix (n a b : Nat) (dry wet : List Int) : List Int :=
  (List.zip dry wet).mapIdx fun j p =>
    let w := ((a * n : Nat) : Int) + ((b : Int) - a) * (j : Int)
    (p.1 * ((4 * n : Nat) - w) + p.2 * w) / (4 * n : Nat)

/-- Where the crossfade of a slot goes in a block: one that runs goes on to its end; then one starts toward the dry input in bypass and on
detachment, and toward the output once an output has been read (R116, R140, R141). -/
def slotTarget (now : Nat) (good : Bool) (x : Core) : Nat :=
  if x.wet ≠ x.wetTo then x.wetTo
  else if x.bypass ∨ x.detach ∨ now < x.attachNs ∨ (!good ∧ x.wet = 0) then 0
  else 4

/-- A point of the signal path through its slot, for one block: the output of the block before enters the path if done had executed 900 us
into it, and has no value the specification gives otherwise; the new input is delivered when the program waits for it (R137-R141). -/
def slotRun (c domain : Nat) (dry : List Int) (occ : Option Nat) (concealed : Bool) (s : State) : List Int × State :=
  match tget s.aue.cores c with
  | none => (dry, s)
  | some x0 =>
    let n := spb domain
    let now := nowNs s
    let s := if slotLate x0 s.aue.lastNs then slotMiss c s else s
    let x := (tget s.aue.cores c).getD x0
    let good := slotServes x s.aue.lastNs && x.delivered && x.waiting && !x.counted
    let x := if good then { x with onTime := x.onTime + 1, bypass := x.bypass && decide (x.onTime + 1 < 2) } else x
    let to_ := slotTarget now good x
    let next := if x.wet < to_ then x.wet + 1 else if to_ < x.wet then x.wet - 1 else x.wet
    let used := decide (0 < x.wet ∨ 0 < next)
    let (wet, sats, s) := if !used then (dry, 0, s)
      else if good then
        let o := slotOutput n x
        (o.1, o.2, s)
      else
        let (b, s) := drawBlock n s
        (b, 0, s)
    let s := if sats = 0 then s else
      { s with aue.coreCnt := tmod (countCore c 3 s).aue.coreCnt c fun l => l.modify 3 fun v => inc32 v (sats - 1) }
    let y := { x with wet := next, wetTo := to_, delivered := false, counted := false }
    let y := if y.waiting ∧ y.state = .running ∧ y.attachNs ≤ now then slotDeliver domain n dry occ concealed now y else y
    (if used then slotMix n x.wet next dry wet else dry, modCore c (fun _ => y) s)

/-- Ends a detachment whose crossfade has finished: the point is free (R128, R142, R145). -/
def slotSettle (c : Nat) (s : State) : State :=
  match tget s.aue.cores c with
  | none => s
  | some x =>
    if x.detach ∧ x.wet = 0 ∧ x.wetTo = 0 then
      let s := match x.attached with
        | some (k, bus, i) => modConf k (fun y =>
            if bus then { y with outs := y.outs.modify i fun o => { o with core := none } }
            else { y with rows := y.rows.modify i fun r => { r with core := none } }) s
        | none => s
      match coreDetached x with
      | none => { s with aue.cores := terase s.aue.cores c }
      | some y => modCore c (fun _ => y) s
    else s

end Sys2Proof.Machine
end

