-- ==== Sys2Proof/Machine/AudioCells.lean ====
section
/-!
DEFINITION. Mixing across a cluster: the cells of lock groups, the exchange of sums, levels and selections (04 R121-R125).
-/

namespace Sys2Proof.Machine

/-- The words of an audio cell (R121). -/
def audioCellWords (c : AudioCell) : List Word :=
  [w32 c.time, w32 (c.time / 2 ^ 32 % 65536 + c.group * 65536),
    w32 (c.kind + c.domain * 16 + (c.bus + c.slot * 8) * 256 + c.source * 65536 + c.flags * 2 ^ 24), w32 c.members] ++
    (c.words ++ List.replicate 48 0).take 48

/-- Sends an audio cell on a Course port. -/
def sendAudio (port : Nat) (c : AudioCell) (s : State) : State :=
  if (domainOf s (20 + port)).latched then s else emit (.cell (9 + port) (16 + c.kind) (audioCellWords c)) s

/-- Course ports that lead to children and are aligned. -/
def childPorts (s : State) : List Nat :=
  (List.range 4).filter fun p =>
    let x := s.cti.ports.getD p CtiPort.reset
    x.enabled ∧ (x.child ∨ s.cti.role = 1) ∧ x.path.sync = .sync

/-- Sends an audio cell to every child. -/
def sendDown (c : AudioCell) (s : State) : State := (childPorts s).foldl (fun s p => sendAudio p c s) s

/-- Sends an audio cell toward the parent. -/
def sendUp (c : AudioCell) (s : State) : State := if s.cti.role = 2 then sendAudio s.cti.parent c s else s

/-- The conference of a lock group that mixes with it now. -/
def lockConf (s : State) (group : Nat) : Option (Nat × Conf) :=
  s.aue.confs.find? fun (x : Nat × Conf) => decide (x.2.lock = group) && lockActive s x.2

/-- The cell frame of a lock group at this module. -/
def lockCell (s : State) (x : Conf) (kind time : Nat) : AudioCell :=
  { time := time % 2 ^ 48, group := x.lock, kind := kind, domain := x.domain, source := s.cti.position }

/-- The samples of a cell, of a domain. -/
def cellSamples (c : AudioCell) (n : Nat) : List Int := (c.words.take n).map (·.toInt)

/-- Adds the own position to a partial's members. -/
def ownBit (s : State) : Nat := 2 ^ s.cti.position

/-- A row routed to a bus was concealed or poisoned in the block on its way to the sum (R121). -/
def rowsBad (x : Conf) (bus : Nat) : Bool :=
  let g := (x.outs.getD bus OutSt.reset).cur.gains
  (List.range 32).any fun i => decide (g.getD i 0 ≠ 0) && (x.rows.getD i Row.reset).sumBad

/-- The children that send partials of a lock group: those from which one has come within 1 s (DESIGN CHOICE, log 130) (R123). -/
def groupPeers (s : State) (x : Conf) : List Nat :=
  (x.peers.filter fun p => nowNs s < p.2 + 1000000000).map (·.1)

/-- The partial sum of a bus with the children's partials received: its members, whether one of its blocks was concealed or poisoned, and
its samples (R121, R122). -/
def partialSum (s : State) (x : Conf) (bus : Nat) : Nat × Bool × List Int :=
  (x.partials.filter fun p => p.bus = bus).foldl
    (fun a p => (a.1 ||| p.members, a.2.1 || decide (p.flags / 2 % 2 = 1), addBlocks a.2.2 (padBlock (spb x.domain) p.samples)))
    (ownBit s, rowsBad x bus, padBlock (spb x.domain) (x.outs.getD bus OutSt.reset).cur.sum)

/-- A child's partial of a bus is missing, or is itself without one (R123). -/
def partialMissing (s : State) (x : Conf) (bus : Nat) : Bool :=
  ((groupPeers s x).any fun p => !x.partials.any fun q => q.source = p ∧ q.bus = bus) ||
    x.partials.any fun q => q.bus = bus ∧ q.flags / 4 % 2 = 1

/-- The cell of a bus's sum at this module: kind 0 toward the parent, 1 downward (R121). -/
def sumCell (s : State) (x : Conf) (kind bus : Nat) : AudioCell :=
  let (m, bad, xs) := partialSum s x bus
  { lockCell s x kind s.aue.blockNs with
    bus := bus, members := m, words := xs.map i32, flags := b1 (xs.all (· = 0)) + 2 * b1 bad + 4 * b1 (partialMissing s x bus) }

/-- Sends a bus's partial sum toward the parent, once a block (R122 steps 1 and 2). -/
def sendPartial (k bus : Nat) (s : State) : State :=
  match tget s.aue.confs k with
  | none => s
  | some x =>
    if x.partSent.contains bus then s
    else sendUp (sumCell s x 0 bus) (modConf k (fun x => { x with partSent := x.partSent ++ [bus] }) s)

/-- What a module sends at a block start: one contribution cell per bus and local selected speaker, toward the parent or, at the manager,
downward; and, with no children, its partials (R122 steps 1 and 3). -/
def lockBlockStart (k : Nat) (s : State) : State :=
  match tget s.aue.confs k with
  | none => s
  | some x =>
    if !lockActive s x then s
    else
      let slots := (List.range 16).filter fun i => ((x.rows.getD i Row.reset).leg).isSome
      let s := slots.foldl (fun s i => (List.range x.buses).foldl (fun s b =>
        let xs := (tget x.contribSent (i * 8 + b)).getD []
        let c := { lockCell s x 2 s.aue.blockNs with
          bus := b, slot := i, words := xs.map i32, flags := b1 (xs.all (· = 0)) + 2 * b1 (x.rows.getD i Row.reset).sumBad }
        if s.cti.role = 1 then sendDown c s else sendUp c s) s) s
      if s.cti.role = 2 ∧ childPorts s = [] then (List.range x.buses).foldl (fun s b => sendPartial k b s) s else s

/-- The contribution to a bus of a selection slot of the lock group, as this module holds it: its own as it formed it (R124). -/
def groupContribution (x : Conf) (slot bus : Nat) : List Int :=
  match tget x.contribSent (slot * 8 + bus) with
  | some xs => xs
  | none => (tget x.contribIn (slot * 8 + bus)).getD []

/-- The active rows of a bus whose sum is the lock group's: every member counts the selection slots of the group by their contribution
cells, so that the counts agree (R105, R124, log 115). -/
def groupActiveRows (x : Conf) (bus : Nat) (minus : Option Nat) : Nat :=
  ((List.range 16).filter fun i => some i ≠ minus ∧ above60 (groupContribution x i bus)).length

/-- The computations that took a full sum in the block just ended count the group's active rows (R124). -/
def groupActive (x : Conf) : Conf :=
  let held := fun b => x.fullSum.any fun f => f.1 = b
  let put := fun (b : Nat) (minus : Option Nat) (o : OutSt) =>
    let g := fun (g : Stage) => if g.locked ∧ held b then { g with nSum := groupActiveRows x b minus } else g
    { o with cur := g o.cur, old := g o.old }
  { x with
    outs := x.outs.mapIdx fun b o => put b none o
    mmOuts := x.mmOuts.mapIdx fun i o =>
      match ((x.rows.getD i Row.reset).leg).bind fun l => tget x.bindings l with
      | some (b, _) => put b (some i) o
      | none => o }

/-- A bus's full sum takes effect: the common output is the full sum; a mix-minus takes its own speaker out of it only when this
module's partial is in it (R103, R123). -/
def applyFull (bus : Nat) (inMembers : Bool) (full : List Int) (x : Conf) : Conf :=
  let n := spb x.domain
  let full := padBlock n full
  let set := fun (own : List Int) (minus : Bool) (g : Stage) =>
    if !g.locked then g
    else { g with sum := if minus ∧ inMembers then addBlocks (padBlock n g.sum) (subBlocks full own) else full }
  let own := fun (g : Stage) => padBlock n g.sum
  let o := x.outs.getD bus OutSt.reset
  { x with
    outs := x.outs.modify bus fun o => { o with cur := set [] false o.cur, old := set [] false o.old }
    mmOuts := x.mmOuts.mapIdx fun i m =>
      match ((x.rows.getD i Row.reset).leg).bind fun l => tget x.bindings l with
      | some (b, _) =>
        if b = bus then { m with cur := set (own o.cur) true m.cur, old := set (own o.old) true m.old } else m
      | none => m
    fullSum := x.fullSum.filter (fun f => f.1 ≠ bus) ++ [(bus, inMembers)] }

/-- Counts an incomplete block; ten in a row raise AUE_CLUSTER_SUM_MISSED (R123). -/
def countMissedSum (k : Nat) (missed : Bool) (s : State) : State :=
  match tget s.aue.confs k with
  | none => s
  | some x =>
    let n := if missed then x.missedSum + 1 else 0
    let s := modConf k (fun x => { x with missedSum := n % 10, missedTotal := x.missedTotal + b1 missed }) s
    if n = 10 then fault 0xC101 [w32 x.lock] s else s

/-- Step 3 at the manager: the sum of the partials that have arrived, sent downward (R122, R123). -/
def managerSum (k bus : Nat) (s : State) : State :=
  match tget s.aue.confs k with
  | none => s
  | some x =>
    let c := sumCell s x 1 bus
    sendDown c (modConf k (fun y => applyFull bus true (partialSum s x bus).2.2 y) s)

/-- CLUSTER_SUM_DEADLINE: step 2, 300 us: an intermediate module sends what partials it still owes, with the children's that have
arrived; step 3, 450 us: the manager sums the partials; step 5, 800 us: a module that holds no full sum keeps its own partial (R122,
R123). -/
def execClusterSumDeadline (group step : Nat) (s : State) : Host.Outcome State Fault Refusal :=
  match lockConf s group with
  | none => .next s
  | some (k, x) =>
    let at_ := fun ns => advanceTo ((s.aue.blockNs + ns) * 65536) s
    let close := modConf k (fun x => { x with sumClosed := true })
    let buses := List.range x.buses
    .next <|
      if step = 3 ∧ s.cti.role = 1 then
        let s := at_ 450000
        let late := buses.any fun b => partialMissing s x b
        close (countMissedSum k late (buses.foldl (fun s b => managerSum k b s) s))
      else if step = 2 ∧ s.cti.role = 2 ∧ childPorts s ≠ [] then buses.foldl (fun s b => sendPartial k b s) (at_ 300000)
      else if step = 5 ∧ s.cti.role = 2 then
        close (countMissedSum k (!buses.all fun b => x.fullSum.contains (b, true)) (at_ 800000))
      else s

/-! ### Levels and selection (R125) -/

/-- A level entry: word a, word b (R121). -/
def levelEntry (s : State) (x : Conf) (sel : Bool) (leg : Nat) : List Word :=
  [w32 (leg + s.cti.position * 2 ^ 14 + b1 sel * 2 ^ 19), w32 (min 511 (smoothOf x leg).natAbs)]

/-- The entries of a member's level cell: its selected legs in slot order, then its other candidates in order of level (R125). -/
def levelWords (s : State) (k : Nat) (x : Conf) : List Word :=
  let sel := (x.rows.take 16).filterMap rowSelected
  let rest := (candidates s k x).filter fun l => !sel.contains l
  ((sel.map fun l => levelEntry s x true l).flatten ++ (rest.map fun l => levelEntry s x false l).flatten ++ List.replicate 32 0).take 32

/-- The start of the epoch before the latest epoch boundary, ns. -/
def lastEpochStart (s : State) : Nat := nowNs s / 10000000 * 10000000 - 10000000

/-- Time passes to so many ns after the latest epoch boundary (R125). -/
def afterEpoch (ns : Nat) (s : State) : State := advanceTo ((nowNs s / 10000000 * 10000000 + ns) * 65536) s

/-- LEVEL_CELL_SEND: a member reports its levels 1 ms after an epoch boundary; the manager keeps its own (R125). -/
def execLevelCellSend (group : Nat) (s : State) : Host.Outcome State Fault Refusal :=
  match lockConf s group with
  | none => .next s
  | some (k, x) =>
    let s := afterEpoch 1000000 s
    let ws := levelWords s k x
    if s.cti.role = 1 then
      .next (modConf k (fun x => { x with levelCells := x.levelCells.filter (fun l => l.1 ≠ s.cti.position) ++ [(s.cti.position, ws)] }) s)
    else .next (sendUp { lockCell s x 3 (lastEpochStart s) with words := ws } s)

/-- The entries of the level cells received: (position, leg, smoothed level). -/
def levelEntries (x : Conf) : List (Nat × Nat × Int) :=
  x.levelCells.flatMap fun c => (List.range 16).filterMap fun i =>
    let a := c.2.getD (2 * i) 0
    let b := c.2.getD (2 * i + 1) 0
    if field a 0 20 = 0 ∧ field b 0 9 = 0 then none else some (c.1, field a 0 14, -(field b 0 9 : Int))

/-- The level of a selected leg of the group. -/
def groupLevel (es : List (Nat × Nat × Int)) (p l : Nat) : Int := ((es.find? fun e => e.1 = p ∧ e.2.1 = l).map (·.2.2)).getD (-511)

/-- The slots that the manager keeps from its last selection: those of legs that their members still report, cut to N (R100, R101, R125). A member
whose level cell has not come keeps its legs. -/
def keptSlots (x : Conf) (es : List (Nat × Nat × Int)) : List (Option (Nat × Nat × Nat × Nat)) :=
  let held := x.mgr.map fun m => m.filter fun q =>
    !(x.levelCells.any fun c => c.1 = q.1) || es.any fun e => e.1 = q.1 ∧ e.2.1 = q.2.1
  let slots := groupSlots x.n (held.map fun m => m.map fun q => (q.1, q.2.1, groupLevel es q.1 q.2.1))
  slots.map fun m => m.bind fun y => (held.find? fun q => (q.map fun q => (q.1, q.2.1)) = some (y.1, y.2.1)).getD none

/-- The manager's selection over every entry: R98 with legs named by position (R125). -/
def managerSelect (x : Conf) : List (Option (Nat × Nat × Nat × Nat)) :=
  let es := levelEntries x
  let aged := ((keptSlots x es).take x.n).map fun m => m.map fun (p, l, held, low) =>
    (p, l, held + 10, if groupLevel es p l < selFloor then low + 10 else 0)
  let order := es.mergeSort fun a b => b.2.2 < a.2.2 ∨ (a.2.2 = b.2.2 ∧ (a.2.1 < b.2.1 ∨ (a.2.1 = b.2.1 ∧ a.1 ≤ b.1)))
  let sel := order.foldl (fun (ms : List (Option (Nat × Nat × Nat × Nat))) e =>
    let here := ms.any fun m => (m.map fun q => decide (q.1 = e.1 ∧ q.2.1 = e.2.1)).getD false
    if here ∨ e.2.2 < selFloor then ms
    else match ms.findIdx? fun m => m.isNone with
      | some i => ms.set i (some (e.1, e.2.1, 0, 0))
      | none =>
        match weakestSlot (ms.map fun m => m.bind fun (p, l, held, _) => if held < 300 then none else some (p, l, groupLevel es p l)) with
        | some (i, _, v) => if v + 12 < e.2.2 then ms.set i (some (e.1, e.2.1, 0, 0)) else ms
        | none => ms) (aged ++ List.replicate (x.n - aged.length) none)
  (sel.map fun m => match m with
    | some (p, l, held, low) => if 2000 ≤ low then none else some (p, l, held, low)
    | none => none) ++ List.replicate (16 - x.n) none

/-- The words of a selection cell: each entry's place is its slot (R121). -/
def selectionWords (x : Conf) (ms : List (Option (Nat × Nat × Nat × Nat))) : List Word :=
  let es := levelEntries x
  (ms.map fun m => match m with
    | some (p, l, _, _) => [w32 (l + p * 2 ^ 14 + 2 ^ 19), w32 (min 511 (groupLevel es p l).natAbs)]
    | none => [0, 0]).flatten

/-- SELECTION_CELL_SEND: the manager selects and sends the selection 3 ms after the boundary (R125). -/
def execSelectionCellSend (group : Nat) (s : State) : Host.Outcome State Fault Refusal :=
  match lockConf s group with
  | none => .next s
  | some (k, x) =>
    if s.cti.role ≠ 1 then .next s
    else
      let s := afterEpoch 3000000 s
      let ms := managerSelect x
      let ws := selectionWords x ms
      .next (sendDown { lockCell s x 4 (lastEpochStart s) with words := ws }
        (modConf k (fun x => { x with mgr := ms, selCell := some ws, levelCells := [] }) s))

/-! ### Cells received -/

/-- A contribution that came back: compared with the one sent; on a mismatch the local one stays in use, and the fault folds within
1 s per lock group (R124, R484). -/
def checkContribution (k : Nat) (x : Conf) (c : AudioCell) (s : State) : State :=
  if (tget x.contribSent (c.slot * 8 + c.bus)).getD [] = cellSamples c (spb x.domain) then s
  else
    fault 0xC102 [w32 x.lock] (modConf k (fun x => { x with mismatch := inc32 x.mismatch }) s)

/-- A cell of a lock group (R121-R125): partials and contributions go up, full sums, contributions and selections go down. -/
def audioCell (port k : Nat) (x : Conf) (c : AudioCell) (s : State) : State :=
  let up := decide (s.cti.role = 2) && decide (port = s.cti.parent)
  let n := spb x.domain
  let thisBlock := decide (c.time = s.aue.blockNs % 2 ^ 48)
  let open_ := thisBlock && !x.sumClosed && decide (nowNs s ≤ s.aue.blockNs + 800000)
  let keep := fun (s : State) =>
    if thisBlock then modConf k (fun x => { x with contribIn := tset x.contribIn (c.slot * 8 + c.bus) (cellSamples c n) }) s else s
  if up then
    match c.kind with
    | 1 =>
      let s := sendDown c s
      if open_ then modConf k (fun x => applyFull c.bus ((c.members >>> s.cti.position) % 2 = 1) (cellSamples c n) x) s else s
    | 2 => let s := sendDown c s
           if c.source = s.cti.position then (if thisBlock then checkContribution k x c s else s) else keep s
    | 4 => modConf k (fun x => { x with selCell := some c.words }) (sendDown c s)
    | _ => s
  else
    match c.kind with
    | 0 =>
      let s := modConf k (fun x => { x with peers := tset x.peers c.source (nowNs s) }) s
      if !thisBlock ∨ x.sumClosed ∨ x.partSent.contains c.bus then s
      else
        let s := modConf k (fun x =>
          { x with partials := x.partials.filter (fun p => !(p.source = c.source ∧ p.bus = c.bus)) ++
              [{ source := c.source, bus := c.bus, members := c.members, flags := c.flags, samples := cellSamples c n }] }) s
        match tget s.aue.confs k with
        | some y =>
          if s.cti.role = 2 ∧ ((groupPeers s y).all fun p => y.partials.any fun q => q.source = p ∧ q.bus = c.bus) then
            sendPartial k c.bus s
          else s
        | none => s
    | 2 => if s.cti.role = 1 then sendDown c (keep s) else sendUp c s
    | 3 =>
      if s.cti.role = 1 then
        modConf k (fun x => { x with levelCells := x.levelCells.filter (fun l => l.1 ≠ c.source) ++ [(c.source, c.words)] }) s
      else sendUp c s
    | _ => s

/-- AUDIO_CELL: a cell received on a Course port (R121). A cell of a group with no active conference here is passed on by an
intermediate module (R122). -/
def execAudioCell (port : Nat) (c : AudioCell) (s : State) : Host.Outcome State Fault Refusal :=
  .next <| if relays s then relayCell (16 + c.kind) (audioCellWords c) s else match lockConf s c.group with
    | some (k, x) => audioCell port k x c s
    | none =>
      if s.cti.role = 2 then (if port = s.cti.parent then sendDown c s else sendUp c s)
      else s

end Sys2Proof.Machine
end

