-- ==== Sys2Proof/Machine/AudioBlock.lean ====
section
/-!
DEFINITION. The audio block boundary and the encode groups (01 R32, R33; 04 R99-R118).
-/

namespace Sys2Proof.Machine

/-! ### Encoding (R110, R111) -/

/-- A packet of a LOCAL stream, as an item of the producer leg's flow: it takes a buffer, is appended and waits for its chain walk; with no buffer
it is dropped (R28, R59, R83, R86). -/
def forkLocal (st : Nat) (p : RtpPkt) (s0 : State) : State :=
  let s := inFlow (st / 4) s0
  match bufAlloc p.bytes (isAudio (codecOf s st)) 4 0 s with
  | (some k, s) => forkPacket st p (some k) true false s
  | (none, s) => legDrops (st / 4) 1 s

/-- The complexity of a group that starts a frame now: its own, or the mode's default (R43, R54, R110). -/
def groupComplexity (s : State) (g : Group) : Nat :=
  if g.complexity = 15 then defaultOpus (effMode s s.cpx.mode) else g.complexity

/-- In-band FEC of a group's next frame: as AUD_MIXER_SET set it, or as Plumb has decided it for a leg that hears the group (R126, R234, R239;
log 137). -/
def groupFec (s : State) (g : Group) : Bool :=
  decide (g.codec = 0) && (g.fec || s.fwe.ledger.any fun (e : Nat × Entry) =>
    decide (e.2.source = g.stream) && ((tget s.lgv.legs e.2.dest).map (·.inband)).getD false)

/-- An encoder after a frame of n samples, coded with in-band FEC or without (R92, R110). -/
def frameTaken (n : Nat) (fec : Bool) (g : Group) : Group :=
  let c := (g.comps.head?).getD g.compNow
  { g with
    fifo := g.fifo.drop n, frames := g.frames + 1, compNow := c, comps := g.comps.drop 1
    encState := Config.encoderNext (encSettings { g with fec := fec } c) g.encState (g.fifo.take n) }

/-- An encoder takes one frame of its input and sends it as the next packet of its stream (R92, R110, R113, R117). -/
def encodeFrame (k i : Nat) (s : State) : State :=
  match (tget s.aue.confs k).bind fun x => tget x.groups i with
  | none => s
  | some g =>
    let ms := groupNs g / 1000000
    let n := ms * spb g.domain
    if g.fifo.length < n then s
    else
      let fec := groupFec s g
      let (bytes, data) := frameOf { g with fec := fec } ((g.comps.head?).getD g.compNow) ms (g.fifo.take n)
      let s := modConf k (fun x => { x with groups := tmod x.groups i (frameTaken n fec) }) s
      let (ts0, s) := draw s
      match tget s.fwe.streams g.stream with
      | none => s
      | some x =>
        let ts := match x.lastTs with
          | some t => t + w32 (ms * clockRate x.codec / 1000)
          | none => ts0.setWidth 32
        let p : RtpPkt :=
          { ssrc := x.ssrc, seq := BitVec.ofNat 16 x.txSeq.toNat, ts := ts, pt := x.pt, marker := decide (g.frames = 0)
            bytes := 12 + bytes, payload := bytes, data := data, sof := true, eof := true, dur := 48 * ms
            inbandFec := fec }
        forkLocal g.stream p (modStream g.stream (fun x => { x with txSeq := w32 ((x.txSeq.toNat + 1) % 65536) }) s)

/-- ENCODE_GROUP_FRAME: an encode group (0-31) or a selection slot's mix-minus encoder (32-47) encodes a frame whose span has ended
(R111). -/
def execEncodeGroupFrame (conf group : Nat) (s : State) : Host.Outcome State Fault Refusal := .next (encodeFrame conf group s)

/-! ### Outputs of a block (R105-R107, R118, R119) -/

/-- Gives a block to an encoder's input, through the bridges when its domain differs (R91, R110). -/
def feedGroup (k i domain : Nat) (ys : List Int) (s : State) : State :=
  match (tget s.aue.confs k).bind fun x => tget x.groups i with
  | none => s
  | some g =>
    if g.startNs.isNone then s
    else
      let (zs, b) := cross domain g.domain g.bridge ys
      modConf k (fun x => { x with groups := tmod x.groups i fun g => { g with fifo := g.fifo ++ zs, bridge := b } }) s

/-- One bus's common output for a block: the output stage, its effect slot, its meter and its encode groups (R104-R106, R137). -/
def busOutput (k b : Nat) (s : State) : State :=
  match tget s.aue.confs k with
  | none => s
  | some x =>
    let n := spb x.domain
    let (ys, o) := outRun n x.lowLat (x.outs.getD b OutSt.reset)
    let s := modConf k (fun x => { x with outs := x.outs.set b o }) s
    let (ys, s) := match o.core with
      | some c => let (zs, s) := slotRun c x.domain ys none false s
                  (zs, slotSettle c s)
      | none => (ys, s)
    let now := nowNs s
    let s := modConf k (fun x => { x with outs := x.outs.modify b (outMeter now ys) }) s
    ((realGroups x).filter fun (g : Nat × Group) => g.2.bus = b).foldl (fun s g => feedGroup k g.1 x.domain ys s) s

/-- The buses whose output stage runs: those of the mixer, and a removed one while a core holds its effect slot (R126, R141, R142). -/
def outputBuses (x : Conf) : List Nat :=
  (List.range 8).filter fun b => decide (b < x.buses) || (x.outs.getD b OutSt.reset).core.isSome

/-- One selection slot's mix-minus for a block (R104, R105). -/
def slotOutputBlock (k i : Nat) (s : State) : State :=
  match tget s.aue.confs k with
  | none => s
  | some x =>
    let n := spb x.domain
    let (ys, o) := outRun n x.lowLat (x.mmOuts.getD i OutSt.reset)
    let now := nowNs s
    feedGroup k (mmKey i) x.domain ys (modConf k (fun x => { x with mmOuts := x.mmOuts.set i (outMeter now ys o) }) s)

/-! ### Changes at a block boundary -/

/-- The always-on inputs that change (R102, R126). A selected leg that becomes an always-on input is deselected. -/
def applyAlwaysOn (s : State) (now : Nat) (x : Conf) : Conf :=
  let x := x.onPending.foldl (fun x p =>
    let row : Row → Row := fun r => match p.2 with
      | some (leg, slot) =>
        { Row.reset with
          trim := r.trim, trimNew := r.trimNew, trimNs := r.trimNs, core := r.core, ver := r.ver, condVer := r.condVer
          leg := some leg, src := some (leg * 4 + slot)
          srcVer := ((tget s.fwe.streams (leg * 4 + slot)).map (·.jitter.ver)).getD 0 }
      | none =>
        { Row.reset with trim := r.trim, trimNew := r.trimNew, trimNs := r.trimNs, core := r.core, ver := r.ver, condVer := r.condVer }
    let leg := p.2.map (·.1)
    { x with
      alwaysOn := x.alwaysOn.set p.1 p.2
      rows := (x.rows.modify (16 + p.1) row).mapIdx fun i r =>
        if i < 16 ∧ leg.isSome ∧ rowSelected r = leg then deselectRow s x now r else r }) { x with onPending := [] }
  recountSlots x

/-- Rows whose equaliser differs between the banks. -/
def eqChanged (x : Conf) : List Nat :=
  (List.range 32).filter fun r => (List.range 4).any fun q =>
    decide (tget x.bankA.eq (r * 4 + q) ≠ tget x.bankB.eq (r * 4 + q))

/-- A row whose computation changes: what it was stays for the outputs that cross over from it (R116). oldSrc: what changes is its
audio. -/
def rowChanges (eq : Tbl (List Word)) (oldSrc : Bool) (r : Row) : Row :=
  { r with
    ver := r.ver + 1
    alts := r.alts ++ [{ ver := r.ver, eq := eq, oldSrc := oldSrc, biquads := r.biquads, bridge := r.bridge, cond := r.cond }] }

/-- A bank swap at its boundary: rows whose equaliser changes do so from the block conditioned next, and the outputs that take them cross
over when that block reaches them (R115, R116). The low-latency path has no equaliser (R118). -/
def applySwap (now : Nat) (x : Conf) : Conf :=
  match x.swapAt with
  | none => x
  | some t =>
    if now < t then x
    else
      let changed := if x.lowLat then [] else eqChanged x
      { x with
        active := 1 - x.active, swapAt := none
        rows := x.rows.mapIdx fun i r => if changed.contains i then rowChanges (bankOf x).eq false r else r }

/-- An encode group starts at a block boundary that is a frame boundary of its bus; a bus without a grid takes this block as its grid's
origin (R111). -/
def groupStart (k i : Nat) (s : State) : State :=
  match (tget s.aue.confs k).bind fun x => (tget x.groups i).map fun g => (x, g) with
  | none => s
  | some (x, g) =>
    let now := nowNs s
    let o := (tget x.grids g.bus).getD now
    if g.startNs.isSome ∨ !onGrid (o, groupNs g) now then s
    else modConf k (fun x => { x with
      grids := tset x.grids g.bus o, groups := tmod x.groups i fun g => { g with startNs := some now } }) s

/-- A bus whose last encode group has gone has no grid (R111). -/
def dropGrid (bus : Nat) (x : Conf) : Conf :=
  if (realGroups x).any fun (h : Nat × Group) => h.2.bus = bus then x else { x with grids := terase x.grids bus }

/-- What waits for a frame boundary of an encode group takes effect after the frame of the span just ended: a disabled group ends, new
settings apply; a group that moves to another bus starts on that bus's grid (R111, R126). -/
def groupSettle (k i : Nat) (s : State) : State :=
  match (tget s.aue.confs k).bind fun x => tget x.groups i with
  | none => s
  | some g =>
    if g.ending then
      let s := modStream g.stream (fun y => { y with binding := 0 }) (encodeFrame k i s)
      modConf k (fun x => dropGrid g.bus { x with groups := terase x.groups i }) s
    else match g.pending with
      | some [w1, w2, w3] =>
        let s := encodeFrame k i s
        let g := (((tget s.aue.confs k).bind fun x => tget x.groups i)).getD g
        let h := groupOfWords w1 w2 w3
        let same := decide (h.codec = g.codec ∧ h.domain = g.domain)
        let s := if h.stream = g.stream then s else modStream g.stream (fun y => { y with binding := 0 }) s
        let h := { h with
          frames := g.frames, startNs := if h.bus = g.bus then g.startNs else none, compNow := g.compNow
          bridge := if same then g.bridge else h.bridge, encState := if same then g.encState else h.encState }
        modConf k (fun x => dropGrid g.bus { x with groups := tset x.groups i h }) s
      | _ => s

/-- An encoder that starts a frame now takes the complexity of that frame (R54, R117). -/
def frameStart (k i : Nat) (s : State) : State :=
  match (tget s.aue.confs k).bind fun x => (tget x.groups i).map fun g => (x, g) with
  | none => s
  | some (x, g) =>
    if g.startNs.isSome ∧ onGrid ((tget x.grids g.bus).getD 0, groupNs g) (nowNs s) then
      modConf k (fun x => { x with groups := tmod x.groups i fun g => { g with comps := g.comps ++ [groupComplexity s g] } }) s
    else s

/-- An encode group at a block boundary (R111, R126). -/
def groupBoundary (k i : Nat) (s : State) : State :=
  match (tget s.aue.confs k).bind fun x => (tget x.groups i).map fun g => (x, g) with
  | none => s
  | some (x, g) =>
    let due := g.startNs.isNone || onGrid ((tget x.grids g.bus).getD 0, groupNs g) (nowNs s)
    groupStart k i (if due then groupSettle k i s else s)

/-- The Ledger entry that a leg binding makes, and its leg's listen bus, whose mix-minus the leg's encoder takes from now on (R104, R112). -/
def applyBinding (k leg bus src : Nat) (ssrc : Word) (s : State) : State :=
  let l := (tget s.fwe.legs leg).getD Leg.reset
  let s := modConf k (fun x => { x with
    bindings := tset x.bindings leg (bus, ssrc), bindNew := x.bindNew.filter fun b => b.1 ≠ leg
    groups := match (List.range 16).find? fun i => (x.rows.getD i Row.reset).leg = some leg with
      | some i => tmod x.groups (mmKey i) fun g => { g with bus := bus }
      | none => x.groups }) s
  match l.listenEntry with
  | some i => if ssrc = 0 then s else modEntry i (fun e => { e with ssrcOut := ssrc }) s
  | none =>
    let i := tfree s.fwe.ledger 0
    let (w, s) := if ssrc = 0 then pickSsrc leg s else (ssrc, s)
    let e : Entry :=
      { Entry.reset with
        source := src, dest := leg, target := 0x11, ceiling := 0x11, port := l.port, service := 0
        tree := decide (l.kind = .tree), awaiting := true, awaitNs := s.cpr.aonNs, ssrcOut := w
        ptOut := ((tget s.fwe.streams src).map (·.pt)).getD 0, lastSendNs := nowNs s, maintained := true }
    modLeg leg (fun l => { l with listenEntry := some i }) (linkEntry i e s)

/-- The waiting leg bindings whose bus has a frame boundary now (R112, R126). -/
def bindBoundary (k : Nat) (s : State) : State :=
  match tget s.aue.confs k with
  | none => s
  | some x => x.bindNew.foldl (fun s b =>
      let (leg, bus, ssrc) := b
      match chooseGroup x bus (legCodec s leg) (((tget s.lgv.legs leg).map (·.opus)).getD 0) with
      | some (_, g) =>
        if onGrid ((tget x.grids bus).getD 0, groupNs g) (nowNs s) then applyBinding k leg bus g.stream ssrc s else s
      | none => s) s

/-! ### Rows at a block boundary (R99, R100, R113) -/

/-- A block boundary at which a leg's feed may move back from its mix-minus encoder: one of the grids of the encoder and of the group
that it moves to (R113). -/
def backBoundary (s : State) (x : Conf) (i : Nat) : Bool :=
  match (x.rows.getD i Row.reset).leg with
  | some l =>
    let on := fun (g : Group) => onGrid ((tget x.grids g.bus).getD 0, groupNs g) (nowNs s)
    ((tget x.groups (mmKey i)).map on).getD true && ((wantedGroup s x l).map fun g => on g.2).getD true
  | none => true

/-- A slot with no occupant. -/
def emptyRow (r : Row) : Row :=
  { r with
    leg := none, src := none, tail := none, leaving := none, fadeA := 0, fadeB := 0, fadeTot := 0, bridge := Bridge.reset
    biquads := List.replicate 4 Biquad.reset, alts := [], srcVer := 0 }

/-- An occupant whose fade has ended leaves its slot: its feed returns to its group and its mix-minus encoder ends; where the boundary
of the fade is no frame boundary of that group, at the first that both grids have, silent till then (R100, R113). -/
def rowLeave (k i : Nat) (s : State) : State :=
  match tget s.aue.confs k with
  | none => s
  | some x =>
    let r := x.rows.getD i Row.reset
    if (r.leaving.map fun t => decide (t ≤ nowNs s)).getD false ∧ backBoundary s x i then
      let s := encodeFrame k (mmKey i) s
      let s := match r.leg.bind fun l => ((tget s.fwe.legs l).bind (·.listenEntry)).bind fun e => (wantedGroup s x l).map fun g => (e, g) with
        | some (e, gi, g) => moveFeed e g.stream (encodeFrame k gi s)
        | none => s
      let s := match tget x.groups (mmKey i) with
        | some g => { s with fwe.streams := terase s.fwe.streams g.stream }
        | none => s
      modConf k (fun x => { x with groups := terase x.groups (mmKey i), rows := x.rows.modify i emptyRow }) s
    else s

/-- The feed of a leg in a selection slot moves from its group to a mix-minus encoder that starts from a copy of the group's; a leg with no listen
bus, or whose feed is on a mix-minus already, has none to move (R104, R113). -/
def startMixMinus (k i l : Nat) (s : State) : State :=
  match tget s.aue.confs k with
  | none => s
  | some x =>
    match ((tget s.fwe.legs l).bind (·.listenEntry)).bind fun e => (tget s.fwe.ledger e).bind fun en =>
        ((realGroups x).find? fun (g : Nat × Group) => g.2.stream = en.source).map fun g => (e, g) with
    | some (e, gi, g) =>
      let s := encodeFrame k gi s
      let g := ((tget s.aue.confs k).bind fun x => tget x.groups gi).getD g
      let st := freeMmStream k ((tget s.aue.confs k).getD x)
      let y := (tget s.fwe.streams g.stream).getD Stream.reset
      let z := { Stream.reset with
        origin := true, pt := y.pt, codec := y.codec, ssrc := y.ssrc, txSeq := y.txSeq, lastTs := y.lastTs, binding := 1 }
      let s := { s with fwe.streams := tset s.fwe.streams st z }
      moveFeed e st (modConf k (fun x => { x with groups := tset x.groups (mmKey i) { g with stream := st, pending := none, ending := false } }) s)
    | none => s

/-- A selected leg enters its slot at a frame boundary of its feed, once a released packet of it has been decoded and the slot is
empty: it fades in over 5 ms, and its feed moves to a mix-minus encoder (R99, R113). -/
def rowEnter (k i : Nat) (s : State) : State :=
  match tget s.aue.confs k with
  | none => s
  | some x =>
    let r := x.rows.getD i Row.reset
    match r.nextLeg with
    | none => s
    | some l =>
      let j := ((tget s.fwe.streams r.nextSrc).map (·.jitter)).getD Jitter.reset
      if r.leg.isSome ∨ r.leaving.isSome ∨ r.nextSeen < 2 ∨ !onGrid (feedGrid s x l) (nowNs s) then s
      else
        startMixMinus k i l (modConf k (fun x => { x with
          rows := x.rows.modify i fun r => { r with
            leg := some l, src := some r.nextSrc, nextLeg := none, fadeA := 0, fadeB := 0x8000, fadeTot := 5 * spb x.domain, fadePos := 0
            last := 0, srcVer := j.ver } }) s)

/-- The selection slot that a leg occupies and is not leaving. -/
def slotOfLeg (x : Conf) (leg : Nat) : Option Nat :=
  (List.range 16).find? fun i => let r := x.rows.getD i Row.reset; decide (r.leg = some leg) && r.leaving.isNone

/-- A bound leg's feed at a block boundary: that of a leg in a selection slot goes to a mix-minus encoder at a frame boundary of its own; any other
moves between groups at a boundary of both grids (R104, R112, R113). A feed on a mix-minus encoder stays. -/
def moveOne (k : Nat) (s : State) (leg : Nat) : State :=
  match tget s.aue.confs k, (tget s.fwe.legs leg).bind (·.listenEntry) with
  | some x, some i =>
    let src := ((tget s.fwe.ledger i).map (·.source)).getD 0
    if 65536 ≤ src ∨ !onGrid (feedGrid s x leg) (nowNs s) then s
    else match slotOfLeg x leg, wantedGroup s x leg with
      | some row, _ => startMixMinus k row leg s
      | none, some (gi, g) =>
        if src ≠ g.stream ∧ onGrid ((tget x.grids g.bus).getD 0, groupNs g) (nowNs s) then
          let s := match x.groups.find? fun (h : Nat × Group) => h.2.stream = src with
            | some h => encodeFrame k h.1 s
            | none => s
          moveFeed i g.stream (encodeFrame k gi s)
        else s
      | none, none => s
  | _, _ => s

/-- The moves of the feeds of bound legs at a block boundary (R104, R112, R113). -/
def moveBoundary (k : Nat) (s : State) : State :=
  match tget s.aue.confs k with
  | none => s
  | some x => (x.bindings.map (·.1)).foldl (moveOne k) s

/-- Starts a fade-out that is due: 5 ms before its end, or 1 ms for a leg that has left (R100). -/
def rowFade (n now : Nat) (r : Row) : Row :=
  match r.leaving with
  | some t =>
    if r.tail.isSome then
      if t = now + 1000000 then { r with fadeB := 0, fadeTot := n, fadePos := 0 } else r
    else if t = now + 5000000 then
      let gain := if r.fadeTot ≤ r.fadePos then r.fadeB
        else (r.fadeA * (r.fadeTot - r.fadePos) + r.fadeB * r.fadePos) / r.fadeTot
      { r with fadeA := gain, fadeB := 0, fadeTot := 5 * n, fadePos := 0 }
    else r
  | none => r

/-- The rate domain of a row's samples: its stream's, or that of the last block of a leg that has left (R90, R100). -/
def rowDomain (s : State) (x : Conf) (r : Row) : Nat :=
  if r.tail.isSome then r.tailDomain
  else ((r.src.bind fun st => tget s.fwe.streams st).map fun y => codecDomain y.codec x.domain).getD x.domain

/-- A block through a row's conditioning: the equaliser, echo handling, whose result the specification does not give, and the input
bridge; the low-latency path has the bridge only (R91, R115, R118). echo: what echo handling made of the block. -/
def conditioned (x : Conf) (i from_ : Nat) (eq : Tbl (List Word)) (ms : List Biquad) (b : Bridge) (echo : Option (List Int)) (raw : List Int) :
    List Int × List Biquad × Bridge :=
  let (ys, ms) := if x.lowLat then (raw, ms) else equalise eq i 0 ms raw
  let (zs, b) := cross from_ x.domain b (echo.getD ys)
  (zs, ms, b)

/-- Conditions a row's decoded block, in its present version and in those that outputs still cross over from (R91, R115, R116,
R118). -/
def rowCondition (k i : Nat) (s : State) : State :=
  match tget s.aue.confs k with
  | none => s
  | some x =>
    let now := nowNs s
    let r := rowFade (spb x.domain) now (x.rows.getD i Row.reset)
    let st := r.src.bind fun st => tget s.fwe.streams st
    let bank := bankOf x
    let r := match st with
      | some y => if y.jitter.ver = r.srcVer then r else { rowChanges bank.eq true r with srcVer := y.jitter.ver }
      | none => r
    let from_ := rowDomain s x r
    let n := spb from_
    let raw := padBlock n (match r.tail, st with
      | some t, _ => t
      | none, some y => y.jitter.block
      | none, none => [])
    let old := ((st.map (·.jitter.oldBlock)).map fun b => if b = [] then raw else padBlock n b).getD raw
    let q := if !x.lowLat ∧ bit bank.echo i ∧ (r.leg.isSome ∨ r.tail.isSome) then
        let (b, s) := drawBlock n s
        (some b, s)
      else (none, s)
    let c := conditioned x i from_ bank.eq r.biquads r.bridge q.1 raw
    let alts := r.alts.map fun a =>
      let d := conditioned x i from_ a.eq a.biquads a.bridge q.1 (if a.oldSrc then old else raw)
      { a with cond := d.1, biquads := d.2.1, bridge := d.2.2 }
    let h := peakHold r.peak r.peakNs now c.1
    modConf k (fun x => { x with
      rows := x.rows.set i { r with
        cond := c.1, biquads := c.2.1, bridge := c.2.2, condVer := r.ver, alts := alts
        condFade := (r.fadeA, r.fadeB, r.fadeTot, r.fadePos), fadePos := min r.fadeTot (r.fadePos + spb x.domain), condHit := none
        concealed := (st.map (·.jitter.blockBad)).getD false, acc := r.acc + energy c.1, cnt := r.cnt + c.1.length, peak := h.1, peakNs := h.2 } }) q.2

/-- Whether a row of the low-latency path goes to the sum in the block it is decoded in: a row of the mixer's own domain (R118). -/
def directRow (s : State) (x : Conf) (r : Row) : Bool :=
  x.lowLat && decide (rowDomain s x r = x.domain)

/-- A row's effect slot, at the point after decode and before trim (R137). The delivery at the boundary where the occupant changes carries the
changed-occupant bit, one block before the new occupant's first samples (DESIGN CHOICE, log 131) (R138). -/
def rowSlot (k i : Nat) (s : State) : State :=
  match (tget s.aue.confs k).map fun x => (x, x.rows.getD i Row.reset) with
  | some (x, r) =>
    match r.core with
    | some c =>
      let (ys, s) := slotRun c x.domain (padBlock (spb x.domain) r.cond) r.leg r.concealed s
      slotSettle c (modConf k (fun x => { x with rows := x.rows.modify i fun r => { r with cond := ys } }) s)
    | none => s
  | none => s

/-- The versions of a row that no output takes any more are dropped (R116). -/
def pruneRow (outs : List OutSt) (i : Nat) (r : Row) : Row :=
  { r with alts := r.alts.filter fun a => outs.any fun o => outTakes o i a.ver }

/-- The waiting trim of a row applies in the block on its way to the sum: at a zero crossing from the next block boundary on, or, 4 ms
after that boundary without one, where the next block starts (R114). -/
def trimHit (from_ : Nat) (r : Row) : Row :=
  match r.trimNew with
  | none => r
  | some t =>
    if from_ < r.trimNs then r
    else if r.trimNs + 4000000 ≤ from_ then { r with trimNew := none, condHit := some (0, t) }
    else match zeroCrossing r.last r.cond 0 with
      | some h => { r with trimNew := none, condHit := some (h, t) }
      | none => r

/-- The listen bus of a selection slot's mix-minus: that of its occupant, or of the leg that is to enter (R104). -/
def slotBus (x : Conf) (i : Nat) : Nat :=
  let r := x.rows.getD i Row.reset
  (((r.leg.orElse fun _ => r.nextLeg).bind fun l => tget x.bindings l).map (·.1)).getD 0

/-- The sums of a block: contributions, the buses' sums and the mix-minus of each selection slot's listen bus (R103-R105, R116). -/
def confSums (k : Nat) (s : State) : State :=
  match tget s.aue.confs k with
  | none => s
  | some x =>
    let n := spb x.domain
    let act := x.rows.map fun r => above60 r.cond
    let bank := bankOf x
    let vers := x.rows.map (·.condVer)
    let start := fun (b : Nat) (o : OutSt) => outNext (bankColumn bank b) vers (decide (8 < inUse x)) (lockActive s x) o
    let outs := (x.outs.mapIdx start).map (outSum n x.rows act none)
    let mms := x.mmOuts.mapIdx fun i o => outSum n x.rows act (some i) (start (slotBus x i) o)
    let sent : Tbl (List Int) := (List.range 16).flatMap fun i =>
      let r := x.rows.getD i Row.reset
      if r.leg.isSome then
        (List.range x.buses).map fun b => (i * 8 + b, contribution (padBlock n (rowSamples r r.cond)) ((bankColumn bank b).getD i 0))
      else []
    let rows := (x.rows.mapIdx (pruneRow (outs ++ mms))).map fun r => match r.condHit with
      | some (_, t) => { r with trim := t, condHit := none, last := (r.cond.getLast?).getD r.last, sumBad := r.concealed }
      | none => { r with last := (r.cond.getLast?).getD r.last, sumBad := r.concealed }
    let s := modConf k (fun x =>
      { x with
        outs := outs, mmOuts := mms, contribSent := sent, partials := [], fullSum := [], partSent := [], contribIn := [], sumClosed := false
        rows := rows }) s
    { s with fwe.streams := (List.zip x.rows rows).foldl (fun t (p : Row × Row) =>
        match p.1.src with
        | some st =>
          if p.1.alts.any (·.oldSrc) && !p.2.alts.any (·.oldSrc) then tmod t st fun y => { y with jitter.oldPlay := none, jitter.oldBlock := [] }
          else t
        | none => t) s.fwe.streams }

/-- A conference at a block boundary (R99-R118): what changes at the boundary; the outputs of the blocks before, which are the input of
the encoders' block that begins now; the rows; the sums and the conditioning of the new block. -/
def confBlock (k : Nat) (s : State) : State :=
  match tget s.aue.confs k with
  | none => s
  | some x =>
    let now := nowNs s
    let s := modConf k groupActive s
    let s := modConf k (fun x => applySwap now (applyAlwaysOn s now x)) s
    let s := (x.groups.filter fun (g : Nat × Group) => g.1 < 32).foldl (fun s g => groupBoundary k g.1 s) s
    let s := moveBoundary k (bindBoundary k s)
    let s := (List.range 16).foldl (fun s i => rowEnter k i (rowLeave k i s)) s
    let s := (((tget s.aue.confs k).getD x).groups).foldl (fun s (g : Nat × Group) => frameStart k g.1 s) s
    let s := (outputBuses ((tget s.aue.confs k).getD x)).foldl (fun s b => busOutput k b s) s
    let s := (List.range 16).foldl (fun s i => slotOutputBlock k i s) s
    let x := (tget s.aue.confs k).getD x
    let direct := (List.range 32).filter fun i => directRow s x (x.rows.getD i Row.reset)
    let later := (List.range 32).filter fun i => !direct.contains i
    let s := direct.foldl (fun s i => modConf k (fun x => { x with rows := x.rows.modify i (trimHit now) }) (rowCondition k i s)) s
    let s := (List.range 32).foldl (fun s i => rowSlot k i s) s
    let s := later.foldl (fun s i => modConf k (fun x => { x with rows := x.rows.modify i (trimHit s.aue.lastNs) }) s) s
    let s := lockBlockStart k (confSums k s)
    let s := later.foldl (fun s i => rowCondition k i s) s
    modConf k recountSlots s

/-- The next block boundary to run, ns: block boundaries are the whole milliseconds of TSU time (R33). -/
def blockDue (s : State) : Nat :=
  if s.aue.blockNs % 1000000 = 0 then boundaryAfter 1000000 s.aue.blockNs s else atBoundaryNs 1000000 s

/-- AUDIO_BLOCK_BOUNDARY: a 1 ms block starts (R33); run: what its decodes met (R21, R96). With Mallet off or fenced no block runs. -/
def execAudioBlockBoundary (run : BlockRun) (s : State) : Host.Outcome State Fault Refusal :=
  let due := blockDue s
  let s := sampleQueues (advanceTo (due * 65536) s)
  let s := { s with aue.lastNs := s.aue.blockNs, aue.blockNs := due }
  if subDown s 12 then .next s
  else .next (playoutBlock run ((s.aue.confs.map (·.1)).foldl (fun s k => confBlock k s) s))

/-- TRIM_ZERO_CROSSING: a waiting trim of a row applies at the first zero crossing of the block on its way to the sum; without the event the block
boundary looks for it (R114). Of a row that is summed in the block it is decoded in, the boundary has looked for it already (R118). -/
def execTrimZeroCrossing (conf row : Nat) (s : State) : Host.Outcome State Fault Refusal :=
  .next <| match tget s.aue.confs conf with
    | none => s
    | some x =>
      if directRow s x (x.rows.getD row Row.reset) then s
      else modConf conf (fun x => { x with rows := x.rows.modify row (trimHit s.aue.blockNs) }) s

end Sys2Proof.Machine
end

