-- ==== Sys2Proof/Machine/Cluster.lean ====
section
/-!
DEFINITION. The cluster: roles and the tree, Course and Quoin frames and containers, cluster control cells, lock groups and time
agreement (17 R408-R420, R432, 22 R516).
-/

namespace Sys2Proof.Machine

/-! ### Control cells (R415, R416) -/

/-- Sends a control cell on a port: the kind and position word, the port's next message sequence, then words (R415, R416). -/
def sendControl (p kind : Nat) (ws : List Word) (s : State) : State :=
  if !portSends s p then s
  else
    let n := ((ctiPort s p).txSeq + 1) % 2 ^ 32
    emit (.cell (if p < 4 then 9 + p else 13) (48 + kind) ([w32 (kind + s.cti.position * 256), w32 n] ++ ws))
      (modCtiPort p (fun x => { x with txSeq := n }) s)

/-! ### Frames and containers (R411-R415) -/

/-- Majority of three copies of two bits (R411). -/
def majority3 (b : Nat) : Nat :=
  let bitOf := fun (i : Nat) => b1 (decide (2 ≤ b / 2 ^ i % 2 + b / 2 ^ (i + 2) % 2 + b / 2 ^ (i + 4) % 2))
  bitOf 0 + 2 * bitOf 1

/-- Loss of frame: the port hunts again, and CTI_LOF is raised with the port (R413). -/
def lossOfFrame (p : Nat) (s : State) : State :=
  fault 0x4002 [w32 p] (modCtiPort p (fun x =>
    { x with path := { x.path with sync := .hunt, misses := 0, lods := true }, lofs := inc32 x.lofs, ptrDiff := 0, lostNs := some s.cpr.aonNs }) s)


/-- The pointer rule: it moves with the justification; a value that differs is counted and ignored, and one that differs in three
consecutive frames is adopted and ends the container in progress (R414). -/
def pointerRule (f : CourseFrame) (x : CtiPort) : CtiPort :=
  let v := f.ptr % 2 ^ 14
  let x :=
    if f.ptr / 2 ^ 15 % 2 = 1 then x
    else if v = x.ptr then { x with ptrDiff := 0 }
    else if x.ptrDiff = 2 then
      { x with ptr := v, ptrDiff := 0, ptrDiffs := inc32 x.ptrDiffs, adopts := inc32 x.adopts, contDrop := true }
    else { x with ptrDiff := x.ptrDiff + 1, ptrDiffs := inc32 x.ptrDiffs }
  match majority3 f.just with
  | 1 => { x with ptr := (x.ptr + 4) % 15968, justs := inc32 x.justs }
  | 2 => { x with ptr := (x.ptr + 15964) % 15968, justs := inc32 x.justs }
  | 3 => { x with invJust := inc32 x.invJust }
  | _ => x

/-- The header of a frame whose CRC holds: a counter that does not follow is adopted and counted, and the pointer rule applies; without the
CRC the counter goes on by one (R284, R411, R413, R414). -/
def frameHeader (f : CourseFrame) (x : CtiPort) : CtiPort :=
  let next := (x.path.counter + 1) % 256
  if f.crcOk then
    pointerRule f { x with
      path := { x.path with counter := f.counter % 256 }, rdi := f.rdi
      ctrAdopted := if f.counter % 256 = next then x.ctrAdopted else inc32 x.ctrAdopted }
  else { x with path := { x.path with counter := next } }

/-- A miss at an expected position: the fourth in a row loses the frame (R285, R413). -/
def frameMiss (p : Nat) (f : CourseFrame) (s : State) : State :=
  if 3 ≤ (ctiPort s p).path.misses then lossOfFrame p s
  else modCtiPort p (fun x => frameHeader f { x with path := { x.path with sync := .syncMiss, misses := x.path.misses + 1 } }) s

/-- A good frame in SYNC (R284, R285, R411, R413). -/
def frameGood (p : Nat) (f : CourseFrame) (s : State) : State :=
  modCtiPort p (fun x => frameHeader f { x with path := { x.path with sync := .sync, misses := 0 }, lostNs := none }) s

/-- COURSE_FRAME: what stands at an expected position of a port, or a candidate of its hunt (R284, R285, R413). A port without a
working transceiver finds no frame (R516). -/
def courseFrame (p : Nat) (f : CourseFrame) (s : State) : State :=
  let x := ctiPort s p
  let exact := x.plugged && decide (f.alignErrors = 0)
  let follows := decide (f.counter % 256 = (x.path.counter + 1) % 256)
  let go := fun (st : SyncState) (s : State) =>
    modCtiPort p (fun x => { x with path := { x.path with sync := st, counter := f.counter % 256 } }) s
  if !portOn s p then s
  else match x.path.sync with
  | .hunt => if exact then go .confirm1 s else s
  | .confirm1 => if exact && f.crcOk && follows then go .confirm2 s else go .hunt s
  | .confirm2 =>
    if exact && f.crcOk && follows then
      frameGood p f (modCtiPort p (fun x => { x with path := { x.path with lods := false }, syncWait := false }) s)
    else go .hunt s
  | .sync | .syncMiss => if x.plugged ∧ f.alignErrors ≤ 2 ∧ f.crcOk then frameGood p f s else frameMiss p f s

/-- COURSE_FRAME (R413). -/
def execCourseFrame (port : Nat) (f : CourseFrame) (s : State) : Host.Outcome State Fault Refusal := .next (courseFrame port f s)

/-- A port's frames are delivered. -/
def portInSync (s : State) (p : Nat) : Bool :=
  portOn s p && decide ((ctiPort s p).path.sync = .sync ∨ (ctiPort s p).path.sync = .syncMiss)

/-- CONTAINER_RECEIVED: a header whose CRC fails discards the container whole; a cell header whose CRC fails loses the rest; the
arrival is captured (R414-R416, R464). -/
def execContainerReceived (port : Nat) (c : Container) (s : State) : Host.Outcome State Fault Refusal :=
  if !portInSync s port then .next s
  else if !c.crcOk || (ctiPort s port).contDrop then
    .next (modCtiPort port (fun x =>
      { x with contDrop := false, contDisc := inc32 x.contDisc, cellsLost := inc32 x.cellsLost c.cells }) s)
  else
    let lost := match c.badAt with
      | some i => c.cells - i
      | none => 0
    let (d, s) := drawBelow 3 s
    .next (modCtiPort port (fun x =>
      { x with
        cellsLost := inc32 x.cellsLost lost
        rxTimes := ((c.number % 2 ^ 32, nowNs s + 4 + d) :: x.rxTimes).take 16 }) s)

/-- Position of a HELLO. -/
def helloPos (ws : List Word) : Nat := field (ws.getD 3 0) 2 5

/-- Role of a HELLO. -/
def helloRole (ws : List Word) : Nat := field (ws.getD 3 0) 0 2

/-! ### Suspension and rejoining (R419, R420) -/

/-- Suspends a member from every lock group: CTI_LOCK_SUSPENDED with the cause: 1 offset, 2 delay, 3 UNSET, 4 path lost, 5 settings
differ, 6 tree invalid (R420). -/
def suspend (cause : Nat) (s : State) : State :=
  if s.cti.groups.isEmpty ∨ s.cti.suspended then s
  else fault 0x4003 [w32 cause] { s with cti.suspended := true, cti.cause := cause, cti.suspensions := inc32 s.cti.suspensions }

/-- A lock group's own settings equal those that the manager reports (R418). -/
def settingsMatch (s : State) (g : LockGroup) : Bool :=
  match g.settings, tget s.aue.confs g.conf with
  | some ws, some x =>
    decide ((ws.getD 0 0).toNat % 2 ^ 28 = groupWord g.group x ∧ ws.getD 1 0 = (groupWords g.group x).getD 1 0)
  | _, _ => true

/-- All held lock groups match, or this module is the manager. -/
def allMatch (s : State) : Bool := decide (s.cti.role = 1) || s.cti.groups.all (settingsMatch s)

/-- Each link of the path to the manager has a one-way delay of at most 50 us (R419). -/
def delayOk (s : State) : Bool :=
  decide (s.cti.role = 1) || decide ((ctiPort s s.cti.parent).delay ≤ 50000 ∧ s.cti.upDelay ≤ 50000)

/-- A suspended member may rejoin: 10 consecutive offsets within 5 us with its path intact, and no other cause (R420). -/
def mayRejoin (s : State) : Bool :=
  (decide (s.cti.role = 1) || (decide (10 ≤ s.cti.goodOffsets) && !s.cti.pathLost)) && delayOk s &&
    decide (s.tsu.state ≠ .unset) && !s.cti.treeBad && allMatch s

/-- The manager's settings of a lock group have changed since they were last reported (R416). -/
def groupChanged (s : State) (g : LockGroup) : Bool :=
  match tget s.aue.confs g.conf with
  | some x => decide (g.settings ≠ some (groupWords g.group x))
  | none => false

/-- Sends one group's settings to every child (R416). -/
def sendGroup (g : LockGroup) (s : State) : State :=
  match tget s.aue.confs g.conf with
  | none => s
  | some x =>
    let ws := groupWords g.group x
    let s := (List.range 4).foldl (fun s p => if portInSync s p then sendControl p 2 ws s else s) s
    { s with cti.groups := s.cti.groups.map fun h => if h.group = g.group then { h with settings := some ws } else h }

/-- The cluster at an epoch boundary: the manager reports changed settings, a member whose TSU is UNSET or whose settings differ is
suspended, and one that may rejoins (R416, R418, R420). -/
def clusterEpoch (s : State) : State :=
  let s := if s.cti.role = 1 then (s.cti.groups.filter (groupChanged s)).foldl (fun s g => sendGroup g s) s else s
  let s := if s.tsu.state = .unset then suspend 3 s else s
  let s := if allMatch s then s else suspend 5 s
  if s.cti.suspended && mayRejoin s then { s with cti.suspended := false, cti.cause := 0 } else s

/-! ### Cells (R416) -/

/-- Course ports with a HELLO, and it. -/
def hellos (s : State) : List (Nat × List Word) :=
  (List.range 4).filterMap fun p => if portOn s p then (ctiPort s p).hello.map fun h => (p, h) else none

/-- The tree breaks a rule of R408 as this module sees it: two modules of one position, or a worker below a worker that has children;
answers the positions concerned. -/
def treeFault (s : State) : Option (Nat × Nat) :=
  let hs := hellos s
  match hs.find? fun h => helloPos h.2 = s.cti.position ∨ hs.any fun g => g.1 ≠ h.1 ∧ helloPos g.2 = helloPos h.2 with
  | some h => some (s.cti.position, helloPos h.2)
  | none =>
    match s.cti.role, hs.find? fun h => h.1 = s.cti.parent with
    | 2, some h =>
      if helloRole h.2 = 2 then
        (hs.find? fun g => g.1 ≠ s.cti.parent ∧ (ctiPort s g.1).child).map fun g => (s.cti.position, helloPos g.2)
      else none
    | _, _ => none

/-- Judges the tree: a break suspends and raises CTI_TREE_INVALID with the positions (R408). -/
def judgeTree (s : State) : State :=
  match treeFault s with
  | some (a, b) =>
    let s := if s.cti.treeBad then s else fault 0x4001 [w32 a, w32 b] { s with cti.treeBad := true }
    suspend 6 s
  | none => { s with cti.treeBad := false }

/-- HELLO: the peer's role, position and state are kept, and the tree is judged (R408, R416). -/
def execHello (port : Nat) (words : List Word) (s : State) : Host.Outcome State Fault Refusal :=
  if !portInSync s port then .next s
  else
    let s := modCtiPort port (fun x => { x with hello := some words, rxSeq := (words.getD 1 0).toNat }) s
    .next (if port < 4 then judgeTree s else s)

/-- The parent is a worker, so that its own link to the manager is part of the path (R408, R419). -/
def parentWorks (s : State) : Bool :=
  ((ctiPort s s.cti.parent).hello.map fun h => decide (helloRole h = 2)).getD false

/-- The offset and the delay of the parent's own link: no cell carries them, so below a worker they are free values (R419,
log 82). -/
def upstream (s : State) : Int × Nat × State :=
  if parentWorks s then
    let (o, s) := draw s
    let (d, s) := drawBelow (2 ^ 32) s
    ((o.setWidth 32).toInt, d, s)
  else (0, 0, s)

/-- A new offset of the parent's link: the sum along the path and the delays are judged (R419, R420). -/
def judgeOffset (link : Int) (s : State) : State :=
  let (up, d, s) := upstream s
  let off := link + up
  let n := off.natAbs
  let s := { s with
    cti.mgrOffset := off, cti.upDelay := d
    cti.badOffsets := if 10000 < n then s.cti.badOffsets + 1 else 0
    cti.goodOffsets := if n ≤ 5000 then s.cti.goodOffsets + 1 else 0, cti.pathLost := false }
  let s := if 3 ≤ s.cti.badOffsets then suspend 1 s else s
  if delayOk s then s else suspend 2 s

/-- Departure time of a container of this module: as captured, or a free value in the container's period when it was not (R412,
R416). -/
def departure (x : CtiPort) (n : Nat) (s : State) : Nat × State :=
  match x.txTimes.find? fun (t : Nat × Nat) => t.1 = n with
  | some t => (t.2, s)
  | none =>
    let k := nowNs s / 1280
    let (d, s) := drawBelow 1280 s
    ((k - (k + 2 ^ 32 - n) % 2 ^ 32) * 1280 + d, s)

/-- TIME_CELL: the peer's offset and the one-way delay of the link from four captures (R419). -/
def timeCell (port : Nat) (words : List Word) (s : State) : State :=
  let x := ctiPort s port
  match x.rxTimes.find? fun (t : Nat × Nat) => t.1 = (words.getD 2 0).toNat with
  | none => s
  | some arr =>
    let (t1, s) := departure x (words.getD 5 0).toNat s
    let t2 : Int := nat64 (words.getD 6 0) (words.getD 7 0)
    let t3 : Int := nat64 (words.getD 3 0) (words.getD 4 0)
    let t4 : Int := arr.2
    let off := ((t2 - t1) - (t4 - t3)) / 2
    let s := modCtiPort port (fun x =>
      { x with offset := off, delay := (((t2 - t1) + (t4 - t3)) / 2).toNat, rxSeq := (words.getD 1 0).toNat }) s
    if s.cti.role = 2 ∧ port = s.cti.parent then judgeOffset off s else s

/-- TIME_CELL (R416, R419). -/
def execTimeCell (port : Nat) (words : List Word) (s : State) : Host.Outcome State Fault Refusal :=
  .next (if portInSync s port then timeCell port words s else s)

/-- GROUP_CELL: the manager's settings are kept, passed to the children, and a member that differs is suspended (R416, R418). -/
def groupCell (port : Nat) (words : List Word) (s : State) : State :=
  let s := if s.cti.role = 2 ∧ port = s.cti.parent then
      { s with cti.reported := tset s.cti.reported (field (words.getD 2 0) 0 16) (words.drop 2) }
    else s
  if relays s then relayCell 50 words s
  else if s.cti.role = 2 ∧ port = s.cti.parent then
    let ws := words.drop 2
    let group := field (ws.getD 0 0) 0 16
    let s := modCtiPort port (fun x => { x with rxSeq := (words.getD 1 0).toNat }) s
    let s := { s with
      cti.groups := s.cti.groups.map fun g => if g.group = group then { g with settings := some ws } else g }
    let s := (List.range 4).foldl (fun s p =>
      if p ≠ port ∧ (ctiPort s p).child ∧ portInSync s p then sendControl p 2 ws s else s) s
    if allMatch s then s else suspend 5 s
  else s

/-- GROUP_CELL (R418). -/
def execGroupCell (port : Nat) (words : List Word) (s : State) : Host.Outcome State Fault Refusal :=
  .next (if portInSync s port then groupCell port words s else s)

/-- The words of this module's HELLO from word 2 (R416). -/
def helloWords (s : State) : List Word :=
  [s.flash.serial, w32 (s.cti.role + s.cti.position * 4 + b1 (decide (s.tsu.state = .unset)) * 128 + b1 s.cti.paired * 256),
    s.flash.cfgSeq]

/-- Waits until a period after a TSU time in ns has passed. -/
def periodic (last period : Nat) (s : State) : State := if last = 0 then s else advanceTo ((last + period) * 65536) s

/-- HELLO_SEND: every 100 ms on each enabled port (R416). -/
def execHelloSend (port : Nat) (s : State) : Host.Outcome State Fault Refusal :=
  if !portOn s port then .next s
  else
    let s := periodic (ctiPort s port).helloNs 100000000 s
    .next (sendControl port 0 (helloWords s) (modCtiPort port (fun x => { x with helloNs := nowNs s }) s))

/-- TIME_CELL_SEND: every 1 s on each port in SYNC, with the departure of a container captured (R416, R464). -/
def execTimeCellSend (port : Nat) (s : State) : Host.Outcome State Fault Refusal :=
  if !portInSync s port then .next s
  else
    let s := periodic (ctiPort s port).timeNs 1000000000 s
    let n := nowNs s / 1280
    let (d, s) := drawBelow 1280 s
    let s := modCtiPort port (fun x =>
      { x with timeNs := nowNs s, txTimes := ((n % 2 ^ 32, n * 1280 + d) :: x.txTimes).take 16 }) s
    let rx := ((ctiPort s port).rxTimes.head?).getD (0, 0)
    .next (sendControl port 1 ([w32 n] ++ w64 (n * 1280 + d) ++ [w32 rx.1] ++ w64 rx.2) s)

/-- GROUP_CELL_SEND: the manager reports every lock group's settings every 1 s (R416). -/
def execGroupCellSend (s : State) : Host.Outcome State Fault Refusal :=
  if s.cti.role ≠ 1 ∨ relays s then .next s
  else
    let s := periodic s.cti.groupNs 1000000000 s
    .next (s.cti.groups.foldl (fun s g => sendGroup g s) { s with cti.groupNs := nowNs s })

/-- MANAGER_PATH_LOST: the path to the manager has been lost for 10 ms, counted from the loss of frame of this module's own link to its parent;
with that link in SYNC only the parent's own link can be lost (R420). -/
def execManagerPathLost (s : State) : Host.Outcome State Fault Refusal :=
  let p := s.cti.parent
  if s.cti.role ≠ 2 ∨ (portInSync s p ∧ !parentWorks s) then .next s
  else
    let s := match (ctiPort s p).lostNs with
      | some t => if portInSync s p then s else advanceAon (t + 10000000) s
      | none => s
    .next (suspend 4 { s with cti.pathLost := true, cti.goodOffsets := 0 })

/-- COURSE_SYNC_TIMEOUT: 100 ms after its enable a port has not reached SYNC (R432). -/
def execCourseSyncTimeout (port : Nat) (s : State) : Host.Outcome State Fault Refusal :=
  .next (if portOn s port ∧ (ctiPort s port).syncWait then
      fault 0x4002 [w32 port] (modCtiPort port (fun x => { x with syncWait := false })
        (advanceAon ((ctiPort s port).syncNs + 100000000) s))
    else s)

/-- TRANSCEIVER_HOT_PLUG: a transceiver that declares more than 3.5 W stays in low-power mode and its port in HUNT; a removal is seen
as loss of frame (R516). -/
def execTransceiverHotPlug (port : Nat) (inserted : Bool) (mw : Nat) (s : State) : Host.Outcome State Fault Refusal :=
  let ok := inserted && decide (mw ≤ 3500)
  let had := decide ((ctiPort s port).path.sync = .sync ∨ (ctiPort s port).path.sync = .syncMiss)
  let s := modCtiPort port (fun x => { x with plugged := ok }) s
  .next (if ok || decide (6 ≤ port) then s
    else if had then lossOfFrame port s
    else modCtiPort port (fun x => { x with path := { x.path with sync := .hunt, misses := 0 } }) s)

/-! ### Commands (R432) -/

/-- Word 0 of CLUSTER_ROLE_SET status, and CTI_ROLE (R432, R501). -/
def roleWord (s : State) : Word :=
  w32 (s.cti.role + s.cti.position * 4 + b1 s.cti.suspended * 128 + s.cti.cause * 256)

/-- The offset from the manager (R419). -/
def managerOffset (s : State) : Int := if s.cti.role = 2 then s.cti.mgrOffset else 0

/-- A role word changes the role or the position. -/
def roleChanges (w : Word) (s : State) : Bool :=
  decide (field w 0 2 ≠ s.cti.role) || decide (field w 0 2 ≠ 0 ∧ field w 2 5 ≠ s.cti.position)

/-- A role word out of range: the manager is position 0 and workers are 1 to 16 (R408, R432). -/
def roleBad (w : Word) : Bool :=
  decide (field w 0 2 = 3) || (decide (field w 0 2 = 1) && decide (field w 2 5 ≠ 0)) ||
    (decide (field w 0 2 = 2) && (decide (field w 2 5 = 0) || decide (16 < field w 2 5)))

/-- Takes a role: the Course ports run only with one (R408, R432). -/
def takeRole (w : Word) (s : State) : State :=
  let role := field w 0 2
  let change := roleChanges w s
  let s := { s with
    cti.role := role, cti.position := if role = 0 then 0 else field w 2 5, cti.parent := field w 7 2
    cti.reported := if role = 2 then s.cti.reported else [] }
  if change then
    { s with
      cti.ports := s.cti.ports.mapIdx fun i x =>
        if i < 4 then
          { x with path := { SyncPath.reset with enabled := x.enabled && decide (role ≠ 0) }, hello := none
                   syncWait := x.enabled && decide (role ≠ 0), syncNs := s.cpr.aonNs }
        else x
      cti.badOffsets := 0, cti.goodOffsets := 0, cti.pathLost := false, cti.treeBad := false, cti.mgrOffset := 0, cti.upDelay := 0 }
  else s

/-- CLUSTER_ROLE_SET set (R408, R432). -/
def roleSet (w : Word) (s : State) : Res :=
  checks [(roleBad w, .badParam), (roleChanges w s && !s.cti.groups.isEmpty, .resourceBusy)] (.done [] (takeRole w s))

/-- CLUSTER_ROLE_SET add: a conference joins a lock group (R34, R408, R418, R432). -/
def groupAdd (w : Word) (s : State) : Res :=
  let g := field w 0 16
  let k := field w 16 13
  let lock := ((tget s.aue.confs k).map (·.lock)).getD 0
  checks
    [(decide (g = 0), .badParam), (!confUsed s k, .badTarget), (decide (lock ≠ 0 ∧ lock ≠ g), .badParam),
     (decide (s.cti.role = 0) || decide (s.tsu.state = .unset), .unavailable),
     (s.cti.groups.any fun x => x.group = g, .resourceBusy)]
    (.done []
      { s with
        cti.groups := s.cti.groups ++ [⟨g, k, none⟩]
        aue.confs := tmod s.aue.confs k fun x => { x with lock := g } })

/-- CLUSTER_ROLE_SET remove (R432). The last group's end ends a suspension. -/
def groupRemove (w : Word) (s : State) : Res :=
  let g := field w 0 16
  let k := field w 16 13
  checks
    [(decide (g = 0), .badParam), (!(s.cti.groups.any fun x => x.group = g ∧ x.conf = k), .badTarget)]
    (.done []
      (let s := { s with
        cti.groups := s.cti.groups.filter fun x => x.group ≠ g
        aue.confs := tmod s.aue.confs k fun x => { x with lock := 0 } }
       if s.cti.groups.isEmpty then { s with cti.suspended := false, cti.cause := 0 } else s))

/-- CLUSTER_ROLE_SET's checks and effect (R432). -/
def clusterRoleSet (c : Cmd) (s : State) : Res :=
  match field (word c 0) 16 4 with
  | 0 => roleSet (word c 1) s
  | 1 => groupAdd (word c 1) s
  | 2 => groupRemove (word c 1) s
  | 3 => .done [roleWord s, i32 (managerOffset s), w32 s.cti.groups.length, w32 s.cti.suspensions] s
  | _ => .refuse .badParam

/-- CLUSTER_ROLE_SET (R432). -/
def execClusterRoleSet (c : Cmd) (s : State) : Host.Outcome State Fault Refusal :=
  .next <| serve 0x0A01 (fnLens [2, 2, 2, 1] c) c s (clusterRoleSet c)

/-- Words 0-7 of COURSE_PORT_SET status (R432). -/
def coursePortWords (x : CtiPort) : List Word :=
  [w32 x.path.sync.code, w32 x.delay, i32 x.offset, w32 x.lofs, w32 x.justs, w32 x.adopts, w32 x.contDisc, w32 x.cellsLost]

/-- Sets a Course port: enable, side and peer position (R413, R432). -/
def coursePort (p : Nat) (w : Word) (s : State) : State :=
  modCtiPort p (fun x =>
    let x := { x with child := bit w 1, peer := field w 2 5 }
    if bit w 0 = x.enabled then x
    else
      let run := bit w 0 && decide (s.cti.role ≠ 0)
      { x with
        enabled := bit w 0, path := { SyncPath.reset with enabled := run }, syncWait := run, syncNs := s.cpr.aonNs
        hello := none, rdi := false }) s

/-- COURSE_PORT_SET's checks and effect (R413, R432). -/
def coursePortSet (c : Cmd) (s : State) : Res :=
  let p := field (word c 0) 0 2
  let w := word c 1
  match field (word c 0) 16 4 with
  | 0 => checks [(decide (16 < field w 2 5), .badParam)] (.done [] (coursePort p w s))
  | 1 => .done (coursePortWords (ctiPort s p)) s
  | _ => .refuse .badParam

/-- COURSE_PORT_SET (R432). -/
def execCoursePortSet (c : Cmd) (s : State) : Host.Outcome State Fault Refusal :=
  .next <| serve 0x0A02 (fnLens [2, 1] c) c s (coursePortSet c)

end Sys2Proof.Machine
end

