-- ==== Sys2Proof/Machine/Gouge.lean ====
section
/-!
DEFINITION. The Gouge cores: the jobs ready and in service, and the scheduler that gives them cores (06 R146, R157-R159, R174; 07 R177,
R200, R201).
-/

namespace Sys2Proof.Machine

/-- A Gouge core. -/
def gougeOf (s : State) (c : Nat) : Gouge := s.vca.cores.getD c Gouge.reset

/-- Changes a Gouge core. -/
def modGouge (c : Nat) (f : Gouge → Gouge) (s : State) : State := { s with vca.cores := s.vca.cores.modify c f }

/-- Synthesis share of Gouge core time in force, in percent (R43, R159, R204). -/
def shareNow (s : State) : Nat := if s.vca.share = 255 then defaultShare (effMode s s.cpx.mode) else s.vca.share

/-- A core takes jobs: it is in service, its half is powered and its clock is not gated (R174, R467, R470). -/
def coreServes (s : State) (c : Nat) : Bool :=
  decide ((gougeOf s c).svc = 0 ∧ s.cpr.sleep = 0) && !domainDown s (16 + c / 16)

/-- The core that runs a job. -/
def coreOf (s : State) (kind : JobKind) (key : Nat) : Option Nat :=
  (List.range 32).find? fun c => decide ((gougeOf s c).job = some (kind, key))

/-- The core that runs a job and has a clock to end it (R470). -/
def runsOn (s : State) (kind : JobKind) (key : Nat) : Option Nat := if s.cpr.sleep = 0 then coreOf s kind key else none

/-- A job, ready or in service. -/
def vjobOf (s : State) (kind : JobKind) (key : Nat) : Option VJob := s.vca.sched.find? fun j => j.kind = kind ∧ j.key = key

/-- Changes a job. -/
def modVjob (kind : JobKind) (key : Nat) (f : VJob → VJob) (s : State) : State :=
  { s with vca.sched := s.vca.sched.map fun j => if j.kind = kind ∧ j.key = key then f j else j }

/-! ### Core time (R157, R159) -/

/-- Core time split by direction, or none for jobs without a deadline. -/
def addUsed (j : VJob) (t : Nat) (u : Nat × Nat × Nat) : Nat × Nat × Nat :=
  if j.deadline.isNone then (u.1, u.2.1, u.2.2 + t)
  else if j.kind = .decode then (u.1 + t, u.2.1, u.2.2) else (u.1, u.2.1 + t, u.2.2)

/-- Core time that each direction, and the jobs without a deadline, have taken in the epoch (R157, R159). -/
def usedNow (s : State) : Nat × Nat × Nat :=
  s.vca.cores.foldl (fun u g => match g.job.bind fun k => vjobOf s k.1 k.2 with
    | some j => addUsed j (s.cpr.aonNs - max g.startNs s.vca.epochNs) u
    | none => u) s.vca.used

/-- A new epoch: the floors and the share are accounted afresh (R157). -/
def openCoreEpoch (s : State) : State := { s with vca.used := (0, 0, 0), vca.epochNs := s.cpr.aonNs }

/-- The job on a core leaves it, ready to resume elsewhere: its core time is accounted (R157, R486). -/
def vacate (c : Nat) (s : State) : State :=
  let g := gougeOf s c
  match g.job with
  | none => s
  | some (kind, key) =>
    let now := s.cpr.aonNs
    let used := match vjobOf s kind key with
      | some j => addUsed j (now - max g.startNs s.vca.epochNs) s.vca.used
      | none => s.vca.used
    let s := modVjob kind key (fun j => { j with heldNs := j.heldNs + (now - g.startNs) }) { s with vca.used := used }
    modGouge c (fun g => { g with
      job := none, runs := g.runs.filter (fun r => now < r.2 + 1000000000) ++ [(g.startNs, now)] }) s

/-- A job takes a core. -/
def occupy (c : Nat) (j : VJob) (s : State) : State :=
  modGouge c (fun g => { g with job := some (j.kind, j.key), startNs := s.cpr.aonNs }) s

/-! ### The choice of jobs (R157, R159) -/

/-- A job goes before another: the earlier deadline, and one that has a deadline before one that has none (R157, R159). -/
def vjobBefore (a b : VJob) : Bool :=
  match a.deadline, b.deadline with
  | some x, some y => decide (x ≤ y)
  | some _, none => true
  | none, some _ => false
  | none, none => true

/-- Jobs in the order of their deadlines, jobs of one deadline in order of arrival. -/
def edf (js : List VJob) : List VJob := js.mergeSort vjobBefore

/-- Cores to which a direction's floor entitles it now: none while its core time of the epoch keeps up with the floor (R43, R157). -/
def floorCores (n floor used elapsed : Nat) : Nat := if used * 100 < floor * n * elapsed then (floor * n + 99) / 100 else 0

/-- The job belongs to a repair job that has started (R201). -/
def ofRepair (s : State) (j : VJob) : Bool :=
  decide (j.kind = .synth) || (decide (j.kind = .decode) && ((tget s.vca.decs j.key).map (·.hidden)).getD false) ||
    (decide (j.kind = .encode) && ((tget s.vca.encs j.key).map (·.hidden)).getD false)

/-- The jobs without a deadline that may run: within the share's core time of the epoch; with a share of 0, those of repair jobs that
run already (R159, R201). -/
def backgroundJobs (s : State) (n : Nat) (js : List VJob) : List VJob :=
  if shareNow s = 0 then js.filter (ofRepair s)
  else if (usedNow s).2.2 * 100 < shareNow s * n * 10000000 then js else []

/-- The jobs that n cores run now: earliest deadline first within the directions' floors, then jobs without a deadline (R157, R159). -/
def pickJobs (s : State) (n : Nat) (js : List VJob) : List VJob :=
  let dl := edf (js.filter fun j => j.deadline.isSome)
  let f := gougeFloors (effMode s s.cpx.mode)
  let t := s.cpr.aonNs - s.vca.epochNs
  let u := usedNow s
  let dec := (dl.filter fun j => j.kind = .decode).take (floorCores n f.1 u.1 t)
  let enc := (dl.filter fun j => j.kind ≠ .decode).take (floorCores n f.2 u.2.1 t)
  let first := dec ++ enc
  let chosen := (first ++ dl.filter fun j => !first.contains j).take n
  chosen ++ (backgroundJobs s n (js.filter fun j => j.deadline.isNone)).take (n - chosen.length)

/-- The scheduler: the jobs chosen keep or take cores, the lowest-numbered free core first; the others are pre-empted (R157). A band end
is met at once (log 120). -/
def scheduleCores (s : State) : State :=
  let cores := (List.range 32).filter (coreServes s)
  let held := (List.range 32).filterMap fun c => if coreServes s c then none else (gougeOf s c).job
  let js := s.vca.sched.filter fun j => !held.contains (j.kind, j.key)
  let picked := pickJobs s cores.length js
  let s := (cores.filter fun c => match (gougeOf s c).job with
    | some k => !(picked.any fun j => decide ((j.kind, j.key) = k))
    | none => false).foldl (fun s c => vacate c s) s
  picked.foldl (fun s j =>
    if (coreOf s j.kind j.key).isSome then s
    else match cores.find? fun c => (gougeOf s c).job.isNone with
      | some c => occupy c j s
      | none => s) s

/-- A job enters the ready list (R157). -/
def addVjob (kind : JobKind) (key : Nat) (deadline : Option Nat) (s : State) : State :=
  scheduleCores { s with vca.sched := s.vca.sched ++ [{ VJob.reset with kind := kind, key := key, deadline := deadline }] }

/-- A job goes, whether it runs or waits, and the cores are given out again. -/
def dropVjob (kind : JobKind) (key : Nat) (s : State) : State :=
  let s := match coreOf s kind key with
    | some c => vacate c s
    | none => s
  scheduleCores { s with vca.sched := s.vca.sched.filter fun j => !decide (j.kind = kind ∧ j.key = key) }

/-- A job ends on its core, which counts it and a deadline that it has missed (R158, R486). -/
def finishVjob (kind : JobKind) (key core : Nat) (missed : Bool) (s : State) : State :=
  dropVjob kind key (modGouge core (fun g => { g with jobs := inc32 g.jobs, misses := if missed then inc32 g.misses else g.misses }) s)

/-- A job's deadline has passed. -/
def jobMissed (s : State) (kind : JobKind) (key : Nat) : Bool :=
  ((vjobOf s kind key).bind (·.deadline)).any fun t => decide (t < nowNs s)

end Sys2Proof.Machine
end

