-- ==== Sys2Proof/Machine/VideoDecode.lean ====
section
/-!
DEFINITION. Video decode: picture assembly, release, decoding and the commands of the decoder contexts (06 R146-R174).
-/

namespace Sys2Proof.Machine

/-! ### Contexts and records -/

/-- Changes a decoder context. -/
def modDec (k : Nat) (f : Dec → Dec) (s : State) : State := { s with vca.decs := tmod s.vca.decs k f }

/-- The decoder context of a stream (R148). -/
def decCtx (s : State) (stream : Nat) : Option Nat :=
  (s.vca.decs.find? fun (d : Nat × Dec) => d.2.stream = stream ∧ d.2.hidden = false).map (·.1)

/-- Posts a record to Plumb (R167). -/
def postRecord (r : DecRecord) (s : State) : State := { s with vca.records := s.vca.records ++ [{ r with atNs := nowNs s }] }

/-- A context enters WAITING_RAP and reports a refresh need, once (R156). -/
def enterWaitingRap (k : Nat) (s : State) : State :=
  match tget s.vca.decs k with
  | none => s
  | some d =>
    postRecord { DecRecord.reset with ctx := k, stream := d.stream, ts := d.lastRel.getD 0, need := true, hidden := d.hidden }
      (modDec k (fun d => { d with state := .waitingRap, needSent := true }) s)

/-- A picture that is discarded: counted and recorded, with the syntax errors of its packets of a type that is not accepted (R151, R155,
R163, R167). -/
def discardPic (k : Nat) (p : Pic) (s : State) : State :=
  match tget s.vca.decs k with
  | none => s
  | some d =>
    let errs := p.badSeqs.length
    postRecord { DecRecord.reset with ctx := k, stream := d.stream, ts := p.ts, discarded := true, errs := errs, hidden := d.hidden }
      (modDec k (fun d => { d with discards := inc32 d.discards, synErr := inc32 d.synErr errs }) s)

/-- The pictures that were released while a context caught up, and that it has not decoded from Cairn, are discarded (R156, R167). -/
def dropMissed (k : Nat) (s : State) : State :=
  match tget s.vca.decs k with
  | none => s
  | some d => d.missed.foldl (fun s p => discardPic k p s) (modDec k (fun d => { d with missed := [] }) s)

/-- A context's job is ready or in service. -/
def decBusy (s : State) (k : Nat) : Bool := (vjobOf s .decode k).isSome

/-! ### The end of a context (R156, R170) -/

/-- The newest picture offered to a layer that is within its limit: those before it are released as they are replaced, those above the limit
at once (R218). -/
def newestOffer (l : Layer) : Option LayerPic := ((l.offers.filter fun p => p.2 ≤ setLimit (latestSet l)).getLast?).map (·.1)

/-- A picture that a layer shows or may latch. -/
def layerHolds (l : Layer) (serial number : Nat) : Bool :=
  (l.shown.pic.toList ++ l.wait.toList ++ (newestOffer l).toList).any fun p => decide (p.kind = 0 ∧ p.serial = serial ∧ p.number = number)

/-- A picture comes of the source that settings name. -/
def fromSource (p : LayerPic) (ws : LayerSet) : Bool := decide (ws ≠ [] ∧ setKind ws = p.kind ∧ setSrc ws = p.src) && !setLost ws

/-- A source offers a picture, with its concealed fraction, to every layer that shows it or will from its next deadline (R218). -/
def offerPic (p : LayerPic) (frac : Nat) (s : State) : State :=
  { s with lco.canvases := s.lco.canvases.map fun (c : Nat × Canvas) =>
    (c.1, { c.2 with layers := c.2.layers.map fun (l : Nat × Layer) =>
      (l.1, if (l.2.set :: l.2.next.toList).any (fromSource p) then { l.2 with offers := l.2.offers ++ [(p, frac)] } else l.2) }) }

/-- The picture that a decoder context's output offers to layers (R209, R218). -/
def outPic (k : Nat) (o : OutPic) : LayerPic :=
  { LayerPic.reset with
    kind := 0, src := k, number := o.number, w := o.w, h := o.h, ten := o.ten, fenceNs := o.fenceNs, serial := o.serial, img := o.img }

/-- A consumer holds an output picture: a layer, or an encoder whose source picture it is (R170). -/
def outHeld (s : State) (serial number : Nat) : Bool :=
  (s.lco.canvases.any fun c => c.2.layers.any fun l => layerHolds l.2 serial number) ||
    s.vca.encs.any fun e => e.2.fromDec && ((e.2.waitPic.toList ++ (e.2.job.map (·.pic)).toList).any fun p =>
      decide (p.serial = serial ∧ p.number = number))

/-- The source of an encoder context goes: the context returns to READY (R176). -/
def encSourceGone (fromDec : Bool) (src : Nat) (s : State) : State :=
  { s with vca.encs := s.vca.encs.map fun (x : Nat × Enc) =>
    if x.2.fromDec = fromDec ∧ x.2.src = src then
      (x.1, { x.2 with state := .ready, waitPic := none, keyNext := true, newSeq := true, divCount := 0, lastSrc := none })
    else x }

/-- Settings of a layer whose source has ended: a ninth word marks it (R209, R223, R225). -/
def lostSet (kind src : Nat) (ws : LayerSet) : LayerSet :=
  if field (ws.getD 0 0) 0 2 = kind ∧ field (ws.getD 1 0) 0 16 = src ∧ ws ≠ [] then ws.take 8 ++ [1] else ws

/-- A source of layers ends, by unbinding or deletion: its layers take their placeholders at the next deadline (R209, R223, R225). -/
def layersLose (kind src : Nat) (s : State) : State :=
  { s with lco.canvases := s.lco.canvases.map fun (c : Nat × Canvas) =>
    (c.1, { c.2 with layers := c.2.layers.map fun (l : Nat × Layer) =>
      (l.1, { l.2 with
        offers := l.2.offers.filter fun p => !decide (p.1.kind = kind ∧ p.1.src = src)
        set := lostSet kind src l.2.set, next := l.2.next.map (lostSet kind src), staged := l.2.staged.map (lostSet kind src) }) }) }

/-- Picture buffers of a context: the decoded picture buffer that its level requires, 2 for each consumer and 1 (R170). -/
def decBufs (codec w h consumers : Nat) : Nat := Config.dpbPictures codec w h + 2 * consumers + 1

/-- Working memory of an encoder context: the decoded picture buffer that its level requires and the picture in reconstruction (R170, R255,
log 139). -/
def encBytes (e : Enc) : Nat := decBufs e.codec e.w e.h 0 * pictureBytes e.w e.h e.ten

/-- A context's output pictures that Ashlar holds stay allocated when it goes: their bindings, numbers and bytes (R156). -/
def heldOuts (s : State) (d : Dec) : List (Nat × Nat × Nat) :=
  (d.outs.filter fun o => outHeld s o.serial o.number).map fun o => (o.serial, o.number, pictureBytes d.maxW d.maxH d.ten)

/-- The 12 words of a context's status; a FREE one shows the counters that it was unbound with (R173). -/
def decStatus (s : State) (k : Nat) : List Word :=
  match tget s.vca.decs k with
  | none => (tget s.vca.decOld k).getD (List.replicate 12 0)
  | some d =>
    let st := match d.state with
      | .catchingUp => 1
      | .waitingRap => 2
      | .decoding => 3
      | .refused => 4
    [w32 (st + d.core * 8), w32 (d.width + d.height * 65536), w32 d.decoded, w32 d.concealed, w32 d.lastFrac, w32 d.synErr,
      w32 d.substs, w32 d.late, w32 d.discards, w32 d.misses, w32 d.ready.length, w32 d.degr]

/-- Frees a context and its working memory, but for the output pictures that Ashlar holds (R156, R170). -/
def freeDec (k : Nat) (s : State) : State :=
  match tget s.vca.decs k with
  | none => s
  | some d =>
    let held := if d.hidden then [] else heldOuts s d
    let s := dropVjob .decode k s
    layersLose 0 k <| encSourceGone true k { s with
      vca.decs := terase s.vca.decs k, vca.orphans := s.vca.orphans ++ held
      vca.decOld := if d.hidden then s.vca.decOld else tset s.vca.decOld k ([w32 (d.core * 8), 0] ++ ((decStatus s k).drop 2).set 8 0)
      mss.workFree := s.mss.workFree + d.workBytes - (held.map fun o => o.2.2).sum }

/-! ### Sequence headers (R149, R150, R163) -/

/-- A profile that the decoders support for a codec, with its tier and tools. -/
def profileOk (codec : Nat) (h : SeqHdr) : Bool :=
  match codec with
  | 8 => decide (h.profile = .main ∧ h.layers.1 ≤ 4 ∧ h.layers.2 ≤ 4) && !h.largeTile
  | 9 => decide (h.profile = .main10 ∨ h.profile = .still) && !h.highTier
  | 10 => decide (h.profile = .main ∨ h.profile = .main10 ∨ h.profile = .still) && !h.highTier
  | _ => decide (h.profile = .constrainedBaseline ∨ h.profile = .main ∨ h.profile = .high)

/-- A chroma format and bit depth that the decoders support for a codec. -/
def sampleOk (codec : Nat) (h : SeqHdr) : Bool :=
  decide (h.chroma = 1 ∨ (h.chroma = 0 ∧ (codec = 8 ∨ codec = 9))) && decide (h.depth = 8 ∨ (h.depth = 10 ∧ codec ≠ 11))

/-- A size within R150. -/
def sizeOk (w h : Nat) : Bool := decide (16 ≤ w ∧ 16 ≤ h ∧ w ≤ 4096 ∧ h ≤ 4096 ∧ w * h ≤ 9437184)

/-- What a header declares lies within R149 and R150; the declared level does not matter. -/
def hdrSupported (codec : Nat) (h : SeqHdr) : Bool := profileOk codec h && sampleOk codec h && sizeOk h.w h.h

/-- A header conforms to R149, R150 and the declared maximum size (R163). -/
def hdrFits (d : Dec) (h : SeqHdr) : Bool := hdrSupported d.codec h && decide (h.w ≤ d.maxW ∧ h.h ≤ d.maxH)

/-! ### Assembly and release (R151-R156) -/

/-- A packet type that is accepted for a codec (R151). -/
def formOk (codec : Nat) (p : RtpPkt) : Bool :=
  match codec with
  | 8 => true
  | 11 => decide (p.form = .single ∨ p.form = .stapA ∨ p.form = .fuA)
  | _ => decide (p.form = .single ∨ p.form = .ap ∨ p.form = .fu) && !p.don

/-- A random access point at which decoding may start (R166, R271). -/
def picRap (p : Pic) : Bool := p.pkts.any fun q => decide (q.rap ≠ 0)

/-- A non-reference picture (R155). -/
def picNonRef (p : Pic) : Bool := p.pkts.all (·.nonRef)

/-- The sequence header of a picture, when it carries one. -/
def picHdr (p : Pic) : Option SeqHdr := p.pkts.findSome? (·.hdr)

/-- A picture is complete: every sequence number from the one after the previous picture's last packet through its marker packet is
present or filtered (R153). -/
def picDone (last : Option (BitVec 16)) (p : Pic) : Bool :=
  match p.mark with
  | none => false
  | some m =>
    let first := match last with
      | some l => l + 1
      | none => p.first
    let n := (m - first).toNat + 1
    decide (n ≤ 4096) && (List.range n).all fun i => p.seqs.contains (first + BitVec.ofNat 16 i)

/-- The last sequence number of a released picture. -/
def picLast (p : Pic) : Option (BitVec 16) :=
  match p.mark with
  | some m => some m
  | none => p.seqs.foldl (fun a b => match a with | some x => if seqDiff x b < 0 then some b else a | none => some b) none

/-- When a decode job must end: one frame interval of the declared rate after its release; one of a hidden context has no deadline (R157,
R159, R200). -/
def decodeDue (d : Dec) (p : Pic) : Option Nat := if d.hidden then none else some (p.relNs + 1000000000 / max d.rate 1)

/-- Starts a context's next job when it has a picture and none is in service (R155, R157). -/
def startDecode (k : Nat) (s : State) : State :=
  match tget s.vca.decs k with
  | none => s
  | some d =>
    match d.ready with
    | p :: _ => if decBusy s k then s else addVjob .decode k (decodeDue d p) s
    | [] => s

/-- Puts a picture into the backlog of a DECODING context: once it exceeds 3, each picture released that is no reference is discarded
until it falls to 1; at 8 the whole backlog goes, with its job, and the context waits for a random access point, or is FREE when only that
job kept it bound (R155, R156). -/
def backlogPut (k : Nat) (p : Pic) (s : State) : State :=
  match tget s.vca.decs k with
  | none => s
  | some d =>
    if d.draining ∧ picNonRef p then discardPic k p s
    else if 8 ≤ d.ready.length + 1 then
      let s := (d.ready ++ [p]).foldl (fun s q => discardPic k q s) s
      let s := fault 0xD103 [w32 k] (dropVjob .decode k (modDec k (fun d => { d with ready := [], draining := false }) s))
      if d.unbinding then freeDec k s else enterWaitingRap k s
    else
      startDecode k (modDec k (fun d => { d with
        ready := d.ready ++ [p], draining := d.draining || decide (3 < d.ready.length + 1) }) s)

/-- A released picture in the state of its context (R154-R156, R163, R166). A context that is catching up decodes it from Cairn, where it is
stored, and judges it there (R159). -/
def takePic (k : Nat) (d : Dec) (p : Pic) (s : State) : State :=
  let start := fun s => backlogPut k p (modDec k (fun d => { d with state := .decoding, rasl := true, needSent := false }) s)
  if d.state = .catchingUp then modDec k (fun d => { d with missed := d.missed ++ [p] }) s
  else if p.tooBig then discardPic k p s
  else match d.state with
    | .catchingUp => s
    | .refused =>
      if ((picHdr p).map (hdrFits d)).getD false then
        let s := enterWaitingRap k s
        if picRap p then start s else discardPic k p s
      else discardPic k p s
    | .waitingRap => if picRap p then start s else discardPic k p s
    | .decoding =>
      if d.rasl ∧ p.pkts.any (·.rasl) then discardPic k p s
      else backlogPut k p (modDec k (fun d => { d with rasl := d.rasl && !picRap p }) s)

/-- Releases the oldest picture in assembly (R153-R156). -/
def releaseHead (k : Nat) (s : State) : State :=
  match tget s.vca.decs k with
  | none => s
  | some d =>
    match d.asm with
    | [] => s
    | p0 :: rest =>
      let p := { p0 with whole := picDone d.lastSeq p0, relNs := nowNs s }
      let s := modDec k (fun d => { d with asm := rest, lastRel := some p.ts, lastSeq := (picLast p).orElse fun _ => d.lastSeq }) s
      if p.pkts = [] ∧ p.badSeqs = [] then s else takePic k d p s

/-- A context's assembly delay, ns: the leg class's playout delay when it is 0 (R173). -/
def asmDelayNs (s : State) (d : Dec) : Nat :=
  1000000 * (if d.delayMs = 0 then (classOf s (((tget s.fwe.legs (d.stream / 4)).map (·.cls)).getD 0)).playout else d.delayMs)

/-- Releases pictures from the oldest on: the complete ones and, behind one released, those whose deadline has passed (R153). fuel bounds
their number. -/
def releaseDone (k : Nat) (behind : Bool) : Nat → State → State
  | 0, s => s
  | n + 1, s =>
    match tget s.vca.decs k with
    | none => s
    | some d =>
      match d.asm with
      | [] => s
      | p :: _ =>
        if picDone d.lastSeq p ∨ (behind ∧ p.firstNs + asmDelayNs s d ≤ nowNs s) then releaseDone k true n (releaseHead k s) else s

/-- The mask in force from a picture on: removed layers go at once, added ones at a switch point for all of them (R173). -/
def pickMask (d : Dec) (p : RtpPkt) : Nat :=
  let now := d.mask &&& d.maskNew
  let add := maskMinus d.maskNew now
  if maskMinus add (switchMask false p) = 0 then d.maskNew else now

/-- A picture takes a packet: one that the mask excludes is only present; one of a type that is not accepted is discarded and noted; the
packets kept are in sequence order, at most 2,048 (R151, R152, R154). -/
def picAdd (codec : Nat) (p : RtpPkt) (q : Pic) : Pic :=
  let q := { q with mark := if p.marker then some p.seq else q.mark, first := if seqDiff p.seq q.first < 0 then p.seq else q.first }
  if !maskPasses q.mask p.sid p.tid then { q with seqs := q.seqs ++ [p.seq] }
  else if !formOk codec p then { q with seqs := q.seqs ++ [p.seq], badSeqs := q.badSeqs ++ [p.seq] }
  else
    let bits := q.bits + 8 * p.payload
    let q := { q with bits := bits, tooBig := q.tooBig || decide (8 * 4194304 < bits) }
    if 2048 ≤ q.pkts.length then q
    else
      let before := fun x : RtpPkt => decide (seqDiff x.seq p.seq < 0)
      { q with seqs := q.seqs ++ [p.seq], pkts := q.pkts.takeWhile before ++ p :: q.pkts.dropWhile before }

/-- A packet into its picture of the assembly list, which is in sequence order (R152, R153). -/
def placePkt (codec mask now : Nat) (p : RtpPkt) : List Pic → List Pic
  | [] => [picAdd codec p { Pic.reset with ts := p.ts, firstNs := now, first := p.seq, mask := mask }]
  | q :: qs =>
    if q.ts = p.ts then picAdd codec p q :: qs
    else if seqDiff p.seq q.first < 0 then
      picAdd codec p { Pic.reset with ts := p.ts, firstNs := now, first := p.seq, mask := mask } :: q :: qs
    else q :: placePkt codec mask now p qs

/-- A packet comes after its picture's release, or before the last released picture (R153). -/
def packetLate (d : Dec) (p : RtpPkt) : Bool :=
  decide (d.lastRel = some p.ts) || (d.lastSeq.map fun l => decide (seqDiff p.seq l ≤ 0)).getD false

/-- A packet of a decoded stream enters its context's assembly (R152-R154): late, a duplicate, filtered by the mask, or placed. A late
packet of the last released picture tells where that picture ends. -/
def decAssemble (k : Nat) (p : RtpPkt) (s : State) : State :=
  match tget s.vca.decs k with
  | none => s
  | some d =>
    if packetLate d p then
      let s := modDec k (fun d => { d with
        late := inc32 d.late
        lastSeq := if (d.lastSeq.map fun l => decide (0 < seqDiff p.seq l)).getD false then some p.seq else d.lastSeq }) s
      releaseDone k false d.asm.length s
    else if d.asm.any fun q => q.seqs.contains p.seq then s
    else
      let fresh := !(d.asm.any fun q => decide (q.ts = p.ts))
      let mask := if fresh then pickMask d p else d.mask
      let asm := placePkt d.codec mask (nowNs s) p d.asm
      let passes := asm.any fun q => decide (q.ts = p.ts) && maskPasses q.mask p.sid p.tid
      let s := if passes then s else { s with fwe.filtered := s.fwe.filtered + 1 }
      releaseDone k false asm.length (modDec k (fun d => { d with mask := mask, asm := asm }) s)

/-- ASSEMBLY_DEADLINE: the oldest picture in assembly reaches its deadline and is released with what is present; pictures behind it that are
complete or due follow (R153). -/
def execAssemblyDeadline (ctx : Nat) (s : State) : Host.Outcome State Fault Refusal :=
  match tget s.vca.decs ctx with
  | none => .next s
  | some d =>
    match d.asm with
    | [] => .next s
    | p :: _ =>
      let s := advanceTo ((p.firstNs + asmDelayNs s d) * 65536) s
      .next (releaseDone ctx true d.asm.length (releaseHead ctx s))

/-! ### Samples of decoded frames (R149, R161) -/

/-- 16×16 blocks across a picture; edge blocks count whole (R162). -/
def blocksWide (w : Nat) : Nat := (w + 15) / 16

/-- The number of 16×16 blocks of a picture (R162). -/
def blocksOf (w h : Nat) : Nat := blocksWide w * blocksWide h

/-- The concealed fraction in 1/1024, at least 1 when any block is concealed (R162). -/
def fracOf (blocks total : Nat) : Nat := if blocks = 0 then 0 else max 1 (min 1024 (blocks * 1024 / max total 1))

/-- Median of three. -/
def median3 (a b c : Int) : Int := max (min a b) (min (max a b) c)

/-- The vector of a neighbouring block that decoded without error, in 1/16 of a sample; zero where it is missing (R161). -/
def neighbourVec (token : BitVec 64) (i : Config.FrameInfo) (col row : Int) : Int × Int :=
  let b := row.toNat * blocksWide i.w + col.toNat
  if col < 0 ∨ row < 0 ∨ (blocksWide i.w : Int) ≤ col ∨ i.lost.contains b then (0, 0) else Config.blockVector token b

/-- The displacement of a concealed block in whole luma samples: the component-wise median of the vectors of the left, above and
above-right blocks, truncated; zero in an intra picture (R161). -/
def concealVec (token : BitVec 64) (i : Config.FrameInfo) (b : Nat) : Int × Int :=
  let c : Int := (b % blocksWide i.w : Nat)
  let r : Int := (b / blocksWide i.w : Nat)
  let l := neighbourVec token i (c - 1) r
  let a := neighbourVec token i c (r - 1)
  let ar := neighbourVec token i (c + 1) (r - 1)
  if i.intra then (0, 0)
  else (Int.tdiv (median3 l.1 a.1 ar.1) 16, Int.tdiv (median3 l.2 a.2 ar.2) 16)

/-- The block of a sample of a plane: chroma samples lie 2 apart in both directions. -/
def blockAt (i : Config.FrameInfo) (plane x y : Nat) : Nat :=
  let q := if plane = 0 then 16 else 8
  y / q * blocksWide i.w + x / q

/-- Mid-grey at a bit depth (R149, R161). -/
def midGrey (depth : Nat) : Nat := 2 ^ (depth - 1)

/-- Linear interpolation of a concealed column between the nearest correctly decoded rows above and below; one side alone is replicated,
neither gives mid-grey (R161). -/
def fillColumn (i : Config.FrameInfo) (f : Nat → Nat) (good : Nat → Bool) (rows y : Nat) : Nat :=
  let up := ((List.range y).reverse).find? good
  let down := ((List.range (rows - y)).map (y + ·)).find? good
  match up, down with
  | some a, some b => (f a * (b - y) + f b * (y - a)) / max (b - a) 1
  | some a, none => f a
  | none, some b => f b
  | none, none => midGrey i.depth

/-- A sample of the coded frame where nothing earlier serves concealment: coded, or filled spatially (R161). -/
def codedAt (token : BitVec 64) (i : Config.FrameInfo) (plane x y : Nat) : Nat :=
  let at_ := fun r => Config.codedSample token plane x r % 2 ^ i.depth
  let good := fun r => !i.lost.contains (blockAt i plane x r)
  if good y then at_ y else fillColumn i at_ good (if plane = 0 then i.h else i.h / 2) y

/-- A place moved by a displacement and kept inside a length. -/
def shifted (x : Nat) (d : Int) (len : Nat) : Nat := (max 0 (min ((x : Int) + d) ((len : Int) - 1))).toNat

/-- A sample of a frame's content: coded samples, concealed blocks from the earlier frame or by interpolation, and mid-grey chroma of a
monochrome frame (R149, R161). -/
def imgSample : Config.Img → Nat → Nat → Nat → Nat
  | .grey depth, _, _, _ => midGrey depth
  | .coded token i, plane, x, y => if i.mono ∧ plane ≠ 0 then midGrey i.depth else codedAt token i plane x y
  | .mended token i earlier, plane, x, y =>
    if i.mono ∧ plane ≠ 0 then midGrey i.depth
    else if i.lost.contains (blockAt i plane x y) then
      let v := concealVec token i (blockAt i plane x y)
      let q : Nat := if plane = 0 then 1 else 2
      imgSample earlier plane (shifted x (Int.tdiv v.1 (q : Nat)) (i.w / q)) (shifted y (Int.tdiv v.2 (q : Nat)) (i.h / q))
    else Config.codedSample token plane x y % 2 ^ i.depth

/-- A frame's layout. -/
def imgInfo : Config.Img → Option Config.FrameInfo
  | .grey _ => none
  | .coded _ i => some i
  | .mended _ i _ => some i

/-- A sample of the output of a frame, cropped (R149). -/
def outSample (m : Config.Img) (plane x y : Nat) : Nat :=
  let c := ((imgInfo m).map fun i => (i.cx, i.cy)).getD (0, 0)
  let q := if plane = 0 then 1 else 2
  imgSample m plane (x + c.1 / q) (y + c.2 / q)

/-! ### Units and references (R160-R166) -/

/-- A unit lacks packets: one missing at release or of a type that is not accepted (R160). -/
def unitMissing (p : Pic) (u : UnitResult) : Bool := u.seqs.any fun q => !p.seqs.contains q

/-- A unit carries a packet that was discarded for its type (R151). -/
def unitRefused (p : Pic) (u : UnitResult) : Bool := u.seqs.any fun q => p.badSeqs.contains q

/-- A unit has a syntax error other than a refused packet: its own, a poisoned word, or a missing packet (R160). -/
def unitError (p : Pic) (u : UnitResult) : Bool :=
  u.bad || u.refPoison || unitMissing p u || p.pkts.any fun q => q.poisoned && u.seqs.contains q.seq

/-- A unit holds a block. -/
def unitHolds (u : UnitResult) (b : Nat) : Bool := u.runs.any fun r => decide (r.1 ≤ b ∧ b < r.1 + r.2)

/-- Blocks of a frame that no listed unit of it holds. -/
def restBlocks (us : List UnitResult) (sid total : Nat) : List Nat :=
  (List.range total).filter fun b => !(us.any fun u => decide (u.sid = sid) && unitHolds u b)

/-- What no listed unit of a frame accounts for is in error: packets of none of them that are poisoned, or, in an incomplete picture none of
whose units lacks packets, blocks that no unit holds (R160). A picture whose units hold every block is intact, whatever was lost before
it. -/
def restError (p : Pic) (us : List UnitResult) (sid total : Nat) : Bool :=
  let claimed := us.flatMap (·.seqs)
  (p.pkts.any fun q => q.poisoned && decide (min q.sid 3 = sid) && !claimed.contains q.seq) ||
    (!p.whole && !(us.any (unitMissing p)) && decide (restBlocks us sid total ≠ []))

/-- Concealed blocks of one frame of a picture: those of its units in error or with a refused packet, and the rest when that is in error or
a refused packet belongs to no unit (R161). -/
def lostBlocks (p : Pic) (us : List UnitResult) (sid total : Nat) : List Nat :=
  let bad := us.filter fun u => decide (u.sid = sid) && (unitError p u || unitRefused p u)
  let rest := restError p us sid total || p.badSeqs.any fun q => !(us.any fun u => u.seqs.contains q)
  let uncovered := if rest then restBlocks us sid total else []
  (List.range total).filter fun b => bad.any (fun u => unitHolds u b) || uncovered.contains b

/-- The available picture nearest in output order, the earlier one on a tie (R164). -/
def nearestRef (dpb : Tbl RefPic) (order : Int) : Option RefPic :=
  dpb.foldl (fun b r => match b with
    | none => some r.2
    | some x =>
      let dx := (x.order - order).natAbs
      let dr := (r.2.order - order).natAbs
      if dr < dx ∨ (dr = dx ∧ r.2.order < x.order) then some r.2 else b) none

/-- A reference of a frame: its content, whether it is a substitute, and whether it is degraded. A slot that holds a picture of another
output order than the headers give has not received its reference (R164, R165). -/
def resolveRef (codec depth w h : Nat) (dpb : Tbl RefPic) (r : Nat × Int) : Config.Img × Bool × Bool :=
  match (tget dpb r.1).filter fun x => x.order = r.2 with
  | some x => (x.img, false, x.degraded)
  | none => match nearestRef dpb r.2 with
    | some x => if (x.w = w ∧ x.h = h) ∨ codec = 8 ∨ codec = 9 then (x.img, true, x.degraded) else (.grey depth, true, true)
    | none => (.grey depth, true, true)

/-- Contexts' pictures held of an output size, most recent in output order: those of the decoded picture buffer and the output (R161). -/
def temporalSource (d : Dec) (w h : Nat) : Option Config.Img :=
  let held := ((d.dpb.filter fun r => r.2.w = w ∧ r.2.h = h).map fun r => (r.2.ts, r.2.img)) ++
    ((d.outs.filter fun o => o.w = w ∧ o.h = h).map fun o => (o.ts, o.img))
  (held.foldl (fun b x => match b with
    | none => some x
    | some y => if 0 < (x.1 - y.1).toInt then some x else b) (none : Option (Word × Config.Img))).map (·.2)

/-- The highest spatial layer that a mask allows. -/
def topLayer (mask : Nat) : Nat := if mask / 128 % 2 = 1 then 3 else if mask / 64 % 2 = 1 then 2 else if mask / 32 % 2 = 1 then 1 else 0

/-- What the frames of a picture have come to so far. -/
structure FrameAcc where
  dec : Dec
  lost : Nat := 0
  total : Nat := 0
  substs : Nat := 0
  degraded : Bool := false
  /-- Frames whose rest is a unit in error (R160). -/
  rests : Nat := 0
  /-- The frame decoded last, the one of the highest spatial layer. -/
  top : Option RefPic := none

/-- Output width and height of a frame: its own, or as the sequence header has it, or the declared maximum before any header. -/
def frameSize (d : Dec) (qs : List RtpPkt) : Nat × Nat :=
  match qs.find? fun q => q.frame ≠ (0, 0) with
  | some q => q.frame
  | none => match d.seq with
    | some h => (h.w, h.h)
    | none => (d.maxW, d.maxH)

/-- Layout of a frame: the coded frame is the output and what the header crops from it. -/
def frameInfo (d : Dec) (w h : Nat) (intra : Bool) : Config.FrameInfo :=
  let x := d.seq.getD {}
  let own := decide (x.w = w ∧ x.h = h)
  { w := if own then x.cropX + w + x.cropR else w, h := if own then x.cropY + h + x.cropB else h, cx := if own then x.cropX else 0
    cy := if own then x.cropY else 0, depth := x.depth, mono := decide (x.chroma = 0), intra := intra, lost := [] }

/-- The lowest picture buffer that neither the decoded picture buffer nor an output holds (R170). -/
def freeBuf (d : Dec) : Nat :=
  let used := (d.dpb.map fun r => r.2.buf) ++ d.outs.map (·.buf)
  ((List.range (used.length + 1)).find? fun b => !used.contains b).getD used.length

/-- Decodes one frame of a picture, of one spatial layer: references are resolved or substituted, units in error are concealed, and the
pictures that it refreshes take it (R160-R166). -/
def decodeFrame (p : Pic) (us : List UnitResult) (a : FrameAcc) (sid : Nat) : FrameAcc :=
  let qs := p.pkts.filter fun q => min q.sid 3 = sid
  if qs = [] then a
  else
    let d0 := a.dec
    let gone := qs.flatMap (·.drops)
    let d := { d0 with dpb := if qs.any (fun q => q.rap = 1) then [] else d0.dpb.filter fun r => !gone.contains r.1 }
    let (w, h) := frameSize d qs
    let refs := (qs.flatMap (·.refs)).eraseDups
    let i := frameInfo d w h (decide (refs = []))
    let rs := refs.map (resolveRef d.codec i.depth w h d.dpb)
    let lost := lostBlocks p us sid (blocksOf i.w i.h)
    let token := Config.frameToken d.codec (qs.map (·.data)) (rs.map (·.1))
    let info := { i with lost := lost }
    let img : Config.Img := match if lost = [] then none else temporalSource d w h with
      | some e => .mended token info e
      | none => .coded token info
    let subst := (rs.filter (·.2.1)).length
    let degraded := decide (lost ≠ []) || decide (subst ≠ 0) || rs.any (·.2.2)
    let r : RefPic := { ts := p.ts, sid := sid, order := (qs.head?.map (·.order)).getD 0, w := w, h := h, degraded := degraded, img := img, buf := freeBuf d }
    { dec := { d with dpb := (qs.flatMap (·.refreshes)).foldl (fun t k => tset t k r) d.dpb }
      lost := a.lost + lost.length, total := a.total + blocksOf i.w i.h, substs := a.substs + subst
      degraded := a.degraded || degraded, rests := a.rests + b1 (restError p us sid (blocksOf i.w i.h)), top := some r }

/-- A picture all of whose packets were refused is one frame concealed whole, of the size in force (R151, R161). -/
def blankFrame (p : Pic) (a : FrameAcc) : FrameAcc :=
  let d := a.dec
  let (w, h) := frameSize d []
  let i := frameInfo d w h true
  let all := List.range (blocksOf i.w i.h)
  let info := { i with lost := all }
  let token := Config.frameToken d.codec [] []
  let img : Config.Img := match temporalSource d w h with
    | some e => .mended token info e
    | none => .coded token info
  { a with
    lost := all.length, total := all.length, degraded := true
    top := some { RefPic.reset with ts := p.ts, w := w, h := h, degraded := true, img := img, buf := freeBuf d } }

/-- The frames of a picture, of each spatial layer in turn (R160-R166). -/
def picFrames (p : Pic) (us : List UnitResult) (d : Dec) : FrameAcc :=
  if p.pkts = [] then blankFrame p { dec := d } else [0, 1, 2, 3].foldl (decodeFrame p us) { dec := d }

/-- Syntax errors of a picture: its units in error, the rest of its frames, and one for each packet of a type that is not accepted (R151,
R160). -/
def picErrors (p : Pic) (us : List UnitResult) (a : FrameAcc) : Nat :=
  (us.filter (unitError p)).length + a.rests + p.badSeqs.length

/-- A picture has a frame of the highest spatial layer of its mask; refused packets alone are taken for the base layer (R171). -/
def hasTop (p : Pic) : Bool := (p.pkts.any fun q => decide (min q.sid 3 = topLayer p.mask)) || decide (p.pkts = [] ∧ topLayer p.mask = 0)

/-! ### Output pictures (R170, R171) -/

/-- Output pictures kept when n more may be: the oldest that no consumer holds go first (R170). -/
def trimOuts (held : OutPic → Bool) : Nat → List OutPic → List OutPic
  | _, [] => []
  | n, o :: os => if n ≤ os.length ∧ !held o then trimOuts held n os else o :: trimOuts held (n - 1) os

/-- Output pictures of a context at most: 2 for each consumer and 1 (R170). -/
def outBufs (d : Dec) : Nat := 2 * d.consumers + 1

/-- The 16-byte record of a fence (R171). -/
def fenceRecord (o : OutPic) : List Byte :=
  [w32 o.number, o.ts, w32 (o.w + o.h * 65536),
    w32 (o.frac + b1 o.degraded * 2048 + b1 o.subst * 4096 + b1 o.refresh * 8192 + b1 o.ten * 16384 + o.buf * 65536)].flatMap wordBytes

/-- Publishes a fence with its record (R170, R171). -/
def fencePic (k : Nat) (o : OutPic) (s : State) : State :=
  match tget s.vca.decs k with
  | none => s
  | some d =>
    let o := { o with number := d.outNo, serial := d.serial }
    let s := offerPic (outPic k o) o.frac s
    emit (.fence k (fenceRecord o)) (modDec k (fun d => { d with
      outs := trimOuts (fun x => outHeld s x.serial x.number) (outBufs d - 1) d.outs ++ [o], outNo := (d.outNo + 1) % 2 ^ 32 }) s)

/-- What the decode of a picture moves in class C1: its coded bytes, its references and its reconstruction, and the output picture that is
fenced (R256, log 14). -/
def decodeTraffic (p : Pic) (top : RefPic) (ten out : Bool) (s : State) : State :=
  let n := pictureBytes top.w top.h ten
  engineTraffic .decoderOut (if out then n else 0) <|
    engineTraffic .codecRef (n * (1 + (p.pkts.flatMap (·.refs)).eraseDups.length)) <|
      engineTraffic .codedPicture ((p.pkts.map (·.payload)).sum) s

/-- Applies a decoded picture to its context: frames, counters, degradation, refresh, the record to Plumb and, for the highest spatial
layer of the picture's mask, the fence (R160-R167, R171). live: false in a catch-up, whose pictures are not fenced. -/
def applyDecoded (k : Nat) (p : Pic) (us : List UnitResult) (live : Bool) (s : State) : State :=
  match tget s.vca.decs k with
  | none => s
  | some d0 =>
    let d := { d0 with seq := (picHdr p).or d0.seq }
    let a := picFrames p us d
    let errs := picErrors p us a
    let frac := fracOf a.lost a.total
    let key := p.pkts.any fun q => decide (q.rap = 1 ∨ q.rap = 2 ∨ q.rap = 3)
    let gdr := if p.pkts.any fun q => q.rap = 4 then decide (frac = 0) else d.gdrClean && decide (frac = 0)
    let refresh := decide (frac = 0) && (key || (gdr && p.pkts.any (·.recovery)))
    let degraded := a.degraded && !refresh
    let clear := fun (r : RefPic) => if refresh ∧ r.ts = p.ts then { r with degraded := false } else r
    let top := a.top.getD RefPic.reset
    let s := { s with vca.decs := tset s.vca.decs k { a.dec with
      dpb := a.dec.dpb.map fun r => (r.1, clear r.2), width := top.w, height := top.h
      gdrClean := gdr && !(p.pkts.any (·.recovery)), decoded := inc32 d.decoded, lastFrac := frac
      concealed := if frac = 0 then d.concealed else inc32 d.concealed, synErr := inc32 d.synErr errs
      substs := inc32 d.substs a.substs, degr := if degraded then inc32 d.degr else d.degr } }
    let s := decodeTraffic p top (decide ((d.seq.getD {}).depth = 10)) (live && hasTop p) s
    let s := postRecord
      { DecRecord.reset with
        ctx := k, stream := d.stream, ts := p.ts, frac := frac, need := false, degraded := degraded, subst := decide (a.substs ≠ 0)
        refresh := refresh, discarded := false, errs := errs, hidden := d.hidden } s
    if live && hasTop p then
      let (cap, s) := capture s
      fencePic k { OutPic.reset with
        ts := p.ts, w := top.w, h := top.h, frac := frac, degraded := degraded, subst := decide (a.substs ≠ 0), refresh := refresh
        ten := decide ((d.seq.getD {}).depth = 10), buf := top.buf, fenceNs := cap, img := top.img } s
    else s

/-- Working memory of pictures that no consumer holds any more returns (R156). -/
def sweepOrphans (s : State) : State :=
  let held := fun (o : Nat × Nat × Nat) => outHeld s o.1 o.2.1
  { s with
    vca.orphans := s.vca.orphans.filter held
    mss.workFree := s.mss.workFree + ((s.vca.orphans.filter fun o => !held o).map fun o => o.2.2).sum }

/-- The packet records of a stream that Cairn holds from a record number on. -/
def cairnFrom (s : State) (stream number : Nat) : List CairnRec :=
  match (tget s.fwe.legs (stream / 4)).bind (·.conf) with
  | none => []
  | some c =>
    match tget s.mss.rings c with
    | none => []
    | some r => r.recs.filter fun x => x.kind = 0 ∧ x.source = stream ∧ number ≤ x.number

/-- The next temporal unit of a catch-up and the record number after it; complete when nothing is missing since the unit before (R156,
R159). -/
def catchUnit (d : Dec) (before recs : List CairnRec) : Option (Pic × Nat) :=
  match recs with
  | [] => none
  | r :: _ =>
    let unit := recs.filter fun x => x.ts = r.ts
    let next := (unit.getLast?.map (·.number)).getD r.number + 1
    let p := (unit.filterMap (·.pkt)).foldl (fun q x => picAdd d.codec x q)
      { Pic.reset with ts := r.ts, mask := d.mask, first := BitVec.ofNat 16 r.seq }
    some ({ p with whole := picDone (before.getLast?.map fun x => BitVec.ofNat 16 x.seq) p }, next)

/-- The next job of a context that is catching up, one that has no deadline (R156, R159). -/
def startCatch (k : Nat) (s : State) : State :=
  match tget s.vca.decs k with
  | none => s
  | some d =>
    if d.state ≠ .catchingUp ∨ decBusy s k then s
    else if cairnFrom s d.stream d.catchNext = [] then enterWaitingRap k (dropMissed k s)
    else addVjob .decode k none s

/-- A frame of a size of its own lies within the declared maximum and, when it is the output, within R150. -/
def frameFits (d : Dec) (top : Nat) (q : RtpPkt) : Bool :=
  decide (q.frame = (0, 0)) ||
    (decide (q.frame.1 ≤ d.maxW ∧ q.frame.2 ≤ d.maxH) && (decide (min q.sid 3 ≠ top) || sizeOk q.frame.1 q.frame.2))

/-- What a decode job does with its picture: it is refused with its sequence, discarded for an unsupported tool or a size of its own that
is not within R150 (log 135), or decoded (R150, R160-R169). The pictures behind one that is refused are judged as releases to a context
that is REFUSED (R156). live: not in a catch-up. -/
def judgePicture (k : Nat) (d : Dec) (p : Pic) (r : DecodeResult) (live : Bool) (s : State) : State :=
  match (picHdr p).filter fun h => !hdrFits d h with
  | some h =>
    let s := discardPic k p s
    let behind := ((tget s.vca.decs k).map fun d => d.ready ++ d.missed).getD []
    let s := modDec k (fun d => { d with state := .refused, ready := [], missed := [], draining := false }) s
    let s := fault (if hdrSupported d.codec h then 0xD102 else 0xD101) [w32 k, w32 d.stream] s
    behind.foldl (fun s q => match tget s.vca.decs k with
      | some d => takePic k d q s
      | none => s) s
  | none =>
    if r.unsupported || !(p.pkts.all (frameFits d (topLayer p.mask))) then discardPic k p s else applyDecoded k p r.units live s

/-- A catch-up has reached the oldest picture in assembly, or the end of what is stored (R156). -/
def catchReached (d : Dec) (rest : List CairnRec) : Bool :=
  match rest, d.asm with
  | [], _ => true
  | x :: _, a :: _ => decide (0 ≤ seqDiff (BitVec.ofNat 16 x.seq) a.first)
  | _, [] => false

/-- One decode of a catch-up: the next temporal unit from Cairn, judged as any other. On reaching the oldest picture in assembly, or the end
of what is stored, the last picture is fenced and the context is DECODING; with nothing stored any more it has failed (R156, R159). -/
def catchStep (k : Nat) (d : Dec) (r : DecodeResult) (s : State) : State :=
  let stored := cairnFrom s d.stream 0
  match catchUnit d (stored.takeWhile fun x => x.number < d.catchNext) (stored.filter fun x => d.catchNext ≤ x.number) with
  | none => enterWaitingRap k (dropMissed k s)
  | some (p, next) =>
    let s := engineTraffic .cairnRead ((p.pkts.map fun q => recBytes q.bytes).sum) s
    let reached := catchReached d (cairnFrom s d.stream next)
    let rasl := if d.decoded = 0 then true else d.rasl && !picRap p
    let s := modDec k (fun d => { d with
      catchNext := next, rasl := rasl, state := if reached then .decoding else .catchingUp
      lastRel := if reached then some p.ts else d.lastRel, lastSeq := if reached then picLast p else d.lastSeq
      missed := d.missed.filter fun q => decide (q.ts ≠ p.ts) }) s
    let s := if p.tooBig ∨ (d.decoded ≠ 0 ∧ d.rasl ∧ p.pkts.any (·.rasl)) then discardPic k p s
      else judgePicture k d p r reached s
    let s := if reached then releaseDone k true (d.asm.length + 1) (dropMissed k s) else s
    startCatch k s

/-- A context in service finishes its job with the oldest picture of its backlog (R155, R160-R169). -/
def decodeDone (k : Nat) (d : Dec) (p : Pic) (r : DecodeResult) (s : State) : State :=
  let s := modDec k (fun d => { d with ready := d.ready.drop 1, draining := d.draining && decide (2 < d.ready.length) }) s
  startDecode k (judgePicture k d p r true s)

/-- A decode job ends on a core, whose last picture is applied also when the context is unbinding, which is then FREE (R147, R155, R156,
R158). -/
def endDecode (ctx core : Nat) (r : DecodeResult) (s : State) : State :=
  match tget s.vca.decs ctx with
  | none => s
  | some d =>
    let missed := jobMissed s .decode ctx
    let s := finishVjob .decode ctx core missed s
    let s := modDec ctx (fun d => { d with core := core, misses := if missed then inc32 d.misses else d.misses }) s
    let s := if d.state = .catchingUp then catchStep ctx d r s
      else match d.ready with
        | p :: _ => decodeDone ctx d p r s
        | [] => s
    if d.unbinding then freeDec ctx s else s

/-- A decode job finishes on the core that runs it (R147, R157). -/
def decodeJob (ctx : Nat) (r : DecodeResult) (s : State) : State :=
  match runsOn s .decode ctx with
  | some c => endDecode ctx c r s
  | none => s

/-- The picture that a context's job decodes. -/
def jobPicture (s : State) (d : Dec) : List RtpPkt :=
  if d.state = .catchingUp then ((catchUnit d [] (cairnFrom s d.stream d.catchNext)).map fun x => x.1.pkts).getD []
  else (d.ready.head?.map (·.pkts)).getD []

/-- Every frame of a picture is one unit in error (R168). -/
def wholeLost (qs : List RtpPkt) : List UnitResult :=
  ((qs.map fun q => min q.sid 3).eraseDups).map fun sid => { sid := sid, runs := [(0, blocksOf 4096 4096)], bad := true }

/-- DECODE_WATCHDOG: a decode job has held its core for more than 50 ms of core time: the core is fenced and reset, which no other row sees
between, its picture is concealed whole and kept, degraded; a third trip within 1 h leaves the core out of service, and a quiesce that
waited for the core has then ended. No core time passes while the core's clock is gated (R25, R168, R174, R470). -/
def execDecodeWatchdog (core : Nat) (s : State) : Host.Outcome State Fault Refusal :=
  match if s.cpr.sleep = 0 then (gougeOf s core).job else none with
  | some (.decode, k) =>
    let held := ((vjobOf s .decode k).map (·.heldNs)).getD 0
    let s := advanceAon ((gougeOf s core).startNs + 50000000 - held) s
    let now := s.cpr.aonNs
    let trips := ((gougeOf s core).trips.filter fun t => now < t + 3600000000000) ++ [now]
    let out := decide (3 ≤ trips.length)
    let quiescing := decide ((gougeOf s core).svc = 1)
    let s := modGouge core (fun g => { g with trips := trips, wd := inc32 g.wd, svc := if out then 3 else g.svc }) s
    let s := match tget s.vca.decs k with
      | some d => endDecode k core { units := wholeLost (jobPicture s d) } s
      | none => s
    let s := if out ∧ quiescing then endEveryLong 0x0505 core [] s else s
    .next (fault 0xD104 [w32 core, w32 k] s)
  | _ => .next s

/-- CATCH_UP_TIMEOUT: live was not reached within 500 ms; a context that is unbinding is FREE (R156). -/
def execCatchUpTimeout (ctx : Nat) (s : State) : Host.Outcome State Fault Refusal :=
  match tget s.vca.decs ctx with
  | some d =>
    if d.state = .catchingUp ∧ d.hidden = false then
      let s := advanceAon (d.catchNs + 500000000) s
      let s := dropMissed ctx (dropVjob .decode ctx s)
      .next (if d.unbinding then freeDec ctx s else enterWaitingRap ctx s)
    else .next s
  | none => .next s

/-! ### Commands (R173, R174) -/

/-- The context index of a bind or a set: the one named, or the lowest free one (R173, R202). -/
def ctxIndex {α : Type} (t : Tbl α) (c : Cmd) : Nat := if field (word c 0) 0 16 = 0xFFFF then tfree t 0 else field (word c 0) 0 16

/-- The context that a bind describes: it catches up from Cairn when asked and an access point is stored (R156, R173). -/
def boundDec (c : Cmd) (s : State) : Dec :=
  let st := field (word c 1) 0 16
  let mask := field (word c 1) 16 8
  let w := field (word c 2) 0 16
  let h := field (word c 2) 16 16
  let cons := field (word c 3) 24 4
  let codec := codecOf s st
  let rap := (indexOf s st).head?.map (·.number)
  { Dec.reset with
    state := if bit (word c 1) 24 && rap.isSome then .catchingUp else .waitingRap, stream := st, mask := mask, maskNew := mask
    ten := bit (word c 1) 25, maxW := w, maxH := h, rate := field (word c 3) 0 7, delayMs := field (word c 3) 16 8, consumers := cons
    catchNext := rap.getD 0, catchNs := s.cpr.aonNs, codec := codec, serial := s.vca.bindNo, bufs := decBufs codec w h cons
    workBytes := decBufs codec w h cons * pictureBytes w h (bit (word c 1) 25) }

/-- The checks of a bind (R173). -/
def decBindChecks (c : Cmd) (s : State) : List (Bool × Status) :=
  let idx := field (word c 0) 0 16
  let st := field (word c 1) 0 16
  let mask := field (word c 1) 16 8
  let w := field (word c 2) 0 16
  let h := field (word c 2) 16 16
  let rate := field (word c 3) 0 7
  let delay := field (word c 3) 16 8
  let cons := field (word c 3) 24 4
  let k := ctxIndex s.vca.decs c
  let x := (tget s.fwe.streams st).getD Stream.reset
  let d := boundDec c s
  ([(decide (idx ≠ 0xFFFF ∧ 4095 < idx) || !maskValid mask || !sizeOk w h || decide (rate < 1 ∨ 120 < rate) ||
      decide (200 < delay) || decide (cons < 1 ∨ 8 < cons), .badParam),
    (!streamUsed s st, .badTarget),
    (x.origin || decide (x.codec < 8) || (decCtx s st).isSome || (decide (idx ≠ 0xFFFF) && thas s.vca.decs idx), .badParam)] ++
   admission s (fun _ => false) (fun m =>
     decide (capDecs m < decsUsed s + 1) || decide (4095 < k) || !decFits s m (decCharges s + decCharge d) (encCharges s) ||
       decide (s.mss.workFree < d.workBytes)))

/-- A context is bound: its working memory is taken; it starts its catch-up, or waits for an access point (R156, R159, R170). -/
def bindDec (k : Nat) (d : Dec) (s : State) : State :=
  let s := { s with
    vca.decs := tset s.vca.decs k d, vca.decOld := terase s.vca.decOld k, vca.bindNo := s.vca.bindNo + 1, mss.workFree := s.mss.workFree - d.workBytes }
  if d.state = .catchingUp then startCatch k s else enterWaitingRap k s

/-- Function 0: bind (R156, R173). -/
def decBind (c : Cmd) (s : State) : Res :=
  checks (decBindChecks c s) (.done [w32 (ctxIndex s.vca.decs c)] (bindDec (ctxIndex s.vca.decs c) (boundDec c s) s))

/-- Function 1: unbind; a job in service finishes first (R156). -/
def decUnbind (k : Nat) (s : State) : State :=
  match tget s.vca.decs k with
  | none => s
  | some _ => if (coreOf s .decode k).isSome then modDec k (fun d => { d with unbinding := true }) s else freeDec k s

/-- VID_DECODER_BIND's body (R173). -/
def decoderBind (c : Cmd) (s : State) : Res :=
  let k := field (word c 0) 0 16
  match field (word c 0) 16 4 with
  | 0 => decBind c s
  | 1 => checks [(decide (4095 < k), .badParam)] (.done [] (decUnbind k s))
  | 2 => checks [(decide (4095 < k) || !maskValid (field (word c 1) 0 8), .badParam), (!thas s.vca.decs k, .badTarget)]
      (.done [] (modDec k (fun d => { d with maskNew := field (word c 1) 0 8 }) s))
  | 3 => checks [(decide (4095 < k), .badParam)] (.done (decStatus s k) s)
  | _ => .refuse .badParam

/-- VID_DECODER_BIND (R173). -/
def execVidDecoderBind (c : Cmd) (s : State) : Host.Outcome State Fault Refusal :=
  .next <| serve 0x0501 (fnLens [4, 1, 2, 1] c) c s (decoderBind c)

/-- Committed charges exceed the Gouge budget with one core fewer in service (R174). -/
def quiesceOver (s : State) (core : Nat) : Bool :=
  let s' := modGouge core (fun g => { g with svc := 1 }) s
  !gougeFits (effMode s s.cpx.mode) (gougeBudget s' (ceiling (effMode s s.cpx.mode))) (decCharges s) (encCharges s)

/-- A core returns to the scheduler; a quiesce that has not ended ends there (R174). -/
def returnCore (core : Nat) (s : State) : State :=
  let s := if (gougeOf s core).svc = 1 then endEveryLong 0x0505 core [] s else s
  scheduleCores (modGouge core (fun g => { g with svc := 0 }) s)

/-- VID_CORE_QUIESCE's body (R174). -/
def coreQuiesce (c : Cmd) (s : State) : Res :=
  let core := field (word c 0) 0 5
  let fn := field (word c 0) 16 4
  let out := (s.vca.cores.filter fun g => g.svc ≠ 0).length
  checks [(decide (2 < fn), .badParam), (decide (s.cpx.mode = .shadow), .modeForbids)]
    (match fn with
     | 0 =>
       checks [(decide ((gougeOf s core).svc = 0) && quiesceOver s core, .noCapacity),
               (decide ((gougeOf s core).svc = 0 ∧ 4 ≤ out), .resourceBusy)]
         (.accepted core (modGouge core (fun g => { g with svc := 1 }) s))
     | 1 => .done [] (returnCore core s)
     | _ => .done [w32 (gougeOf s core).svc] s)

/-- VID_CORE_QUIESCE (R174). -/
def execVidCoreQuiesce (c : Cmd) (s : State) : Host.Outcome State Fault Refusal :=
  .next <| serve 0x0505 (exactly 1) c s (coreQuiesce c)

/-- CORE_QUIESCED: the job leaves the core at a band end and resumes elsewhere (R174). -/
def execCoreQuiesced (core : Nat) (s : State) : Host.Outcome State Fault Refusal :=
  if (gougeOf s core).svc ≠ 1 then .next s
  else
    let s := scheduleCores (modGouge core (fun g => { g with svc := 2 }) (vacate core s))
    .next (endEveryLong 0x0505 core [] s)

end Sys2Proof.Machine
end

