-- ==== Sys2Proof/Machine/Motion.lean ====
section
/-!
DEFINITION. Motion search of the encoders: predictor candidates, refinement, windows and layout hints (07 R182-R185). Vectors are in 1/8
of a luma sample.
-/

namespace Sys2Proof.Machine

/-- A motion vector in 1/8 of a luma sample. -/
abbrev Vec := Int × Int

/-- What an effort level enables for a codec (R182). -/
def effortTools (codec effort : Nat) : EffortTools :=
  match effort with
  | 0 => { refs := 1, smallest := 16, rdBest := 0, eighth := false, filters := 0, coarse := false }
  | 1 => { refs := 2, smallest := 8, rdBest := 2, eighth := decide (codec = 8), filters := 1, coarse := false }
  | 2 => { refs := 3, smallest := if codec = 11 then 8 else 4, rdBest := 4, eighth := decide (codec = 8), filters := 2, coarse := false }
  | _ => { refs := 4, smallest := 4, rdBest := 255, eighth := decide (codec = 8), filters := 2, coarse := true }

/-- A search for one block against one reference: samples of the layer's source, and of the padded reference (R183, R184). -/
structure Search where
  codec : Nat
  tools : EffortTools
  /-- Quantiser of the block's row. -/
  quant : Int
  /-- Size of the picture. -/
  w : Nat
  h : Nat
  /-- The block. -/
  bx : Nat
  bY : Nat
  bw : Nat
  bh : Nat
  src : Nat → Nat → Nat
  /-- Whole samples of the reference, its edges repeated outside it. -/
  ref : Int → Int → Nat

/-- The reference's sample at a place in 1/8 of a sample. -/
def Search.at (x : Search) (px py : Int) : Nat :=
  if px % 8 = 0 ∧ py % 8 = 0 then x.ref (px / 8) (py / 8) else Config.subPel x.codec x.ref px py

/-- Sum of absolute differences of the block displaced by a vector, over every step-th sample in both directions (R183, R184). -/
def Search.sad (x : Search) (step : Nat) (v : Vec) : Nat :=
  ((List.range ((x.bh + step - 1) / step)).map fun j => ((List.range ((x.bw + step - 1) / step)).map fun i =>
    let px := x.bx + i * step
    let py := x.bY + j * step
    (((x.src px py : Nat) : Int) - x.at (8 * px + v.1) (8 * py + v.2)).natAbs).sum).sum

/-- SAD plus λ times the cost of the vector (R183). -/
def Search.cost (x : Search) (v : Vec) : Nat :=
  x.sad 1 v + Config.lambda x.codec x.quant * Config.vectorCost x.codec v

/-- The block displaced by a vector stays inside the reference's padded area (R184). -/
def Search.inside (x : Search) (v : Vec) : Bool :=
  let pad : Int := Config.refPadding x.codec
  let l := 8 * (x.bx : Int) + v.1
  let t := 8 * (x.bY : Int) + v.2
  decide (-8 * pad ≤ l ∧ l + 8 * x.bw ≤ 8 * (x.w + pad) ∧ -8 * pad ≤ t ∧ t + 8 * x.bh ≤ 8 * (x.h + pad))

/-- A vector kept within whole samples horizontally and vertically. -/
def clampVec (hx hy : Int) (v : Vec) : Vec := (clampInt (-8 * hx) (8 * hx) v.1, clampInt (-8 * hy) (8 * hy) v.2)

/-- The window of every candidate and refined vector other than a hint's (R184). -/
def window (v : Vec) : Vec := clampVec 128 64 v

/-- The reach of a hint (R184). -/
def hintReach (v : Vec) : Vec := clampVec 512 256 v

/-- The first of the best: the lowest cost, a tie going to the earlier one (R183). -/
def bestOf (f : Vec → Nat) : List Vec → Option Vec
  | [] => none
  | v :: vs => match bestOf f vs with
    | none => some v
    | some b => some (if f b < f v then b else v)

/-- A layout hint of a tile as a vector: whole samples, and whether it is exact (R185, R226). -/
structure Hint where
  vec : Vec
  exact : Bool
deriving DecidableEq, Repr

/-- A hint word as Ashlar writes it; none where the word is not valid (R226). -/
def hintOf (w : Word) : Option Hint :=
  let signed := fun (n bits : Nat) => if 2 ^ (bits - 1) ≤ n then (n : Int) - 2 ^ bits else (n : Int)
  if bit w 22 then some { vec := hintReach (8 * signed (field w 0 11) 11, 8 * signed (field w 11 10) 10), exact := bit w 21 } else none

/-- Component-wise lower median; zero of none (R183). -/
def medianOf (xs : List Int) : Int := (xs.mergeSort fun a b => decide (a ≤ b)).getD ((xs.length - 1) / 2) 0

/-- The global vector: the component-wise median of the previous picture's chosen vectors (R183). -/
def globalVec (vs : List Vec) : Vec := (medianOf (vs.map (·.1)), medianOf (vs.map (·.2)))

/-- The predictor candidates in their order, each once: left, above and above-right neighbours, co-located, zero, global, and up to two
layout hints (R183). -/
def vecCandidates (left above aboveRight coloc : Option Vec) (global : Vec) (hints : List Hint) : List Vec :=
  ((left.toList ++ above.toList ++ aboveRight.toList ++ coloc.toList ++ [(0, 0), global]).map window ++
    (hints.take 2).map (·.vec)).eraseDups

/-- The coarse search: every whole sample of the window on a grid of 4, by the SAD of every fourth sample (R182). -/
def Search.coarseBest (x : Search) : Option Vec :=
  let grid := (List.range 33).flatMap fun (j : Nat) => (List.range 65).map fun (i : Nat) => (32 * (i : Int) - 1024, 32 * (j : Int) - 512)
  bestOf (x.sad 4) (grid.filter x.inside)

/-- The vectors around one, d apart, row by row. -/
def around (n : Nat) (d : Int) (v : Vec) : List Vec :=
  (List.range (2 * n + 1)).flatMap fun (j : Nat) => (List.range (2 * n + 1)).map fun (i : Nat) =>
    (v.1 + d * ((i : Int) - n), v.2 + d * ((j : Int) - n))

/-- One step of the refinement: the neighbours of the best vector, which wins a tie; around a hint they may leave the window, but none leaves
the padded area (R184). -/
def Search.step (x : Search) (hint : Bool) (n : Nat) (d : Int) (v : Vec) : Vec :=
  let keep := fun u : Vec => if hint then u else window u
  (bestOf x.cost (v :: ((around n d v).map keep).filter x.inside)).getD v

/-- A vector in whole samples, truncated. -/
def wholeVec (v : Vec) : Vec := (8 * Int.tdiv v.1 8, 8 * Int.tdiv v.2 8)

/-- The refinement around the best candidate: 289 whole positions, then half, quarter and, where enabled, eighth neighbours (R184). -/
def Search.refine (x : Search) (hint : Bool) (v : Vec) : Vec :=
  let keep := fun u : Vec => if hint then u else window u
  let whole := (bestOf x.cost (v :: ((around 8 8 (wholeVec v)).map keep).filter x.inside)).getD v
  let quarter := x.step hint 1 2 (x.step hint 1 4 whole)
  if x.tools.eighth then x.step hint 1 1 quarter else quarter

/-- The vector of an inter block and whether it is coded as skip: an exact hint whose SAD is 0 is taken as it is; else the best candidate is
refined (R183-R185). -/
def Search.choose (x : Search) (cands : List Vec) (hints : List Hint) : Vec × Bool :=
  let hs := hints.take 2
  match hs.find? fun h => h.exact && x.inside h.vec && decide (x.sad 1 h.vec = 0) with
  | some h => (h.vec, true)
  | none =>
    let cs := (cands ++ (if x.tools.coarse then x.coarseBest.toList else [])).filter x.inside
    match bestOf x.cost cs with
    | some v => (x.refine (hs.any fun h => h.vec = v) v, false)
    | none => ((0, 0), false)

/-! ### The blocks of a picture -/

/-- A block that holds a position. -/
def MvBlock.holds (b : MvBlock) (x y : Int) : Bool :=
  decide ((b.x : Int) ≤ x ∧ x < b.x + b.w ∧ (b.y : Int) ≤ y ∧ y < b.y + b.h)

/-- The vector chosen for the block at a position. -/
def vecAt (bs : List MvBlock) (x y : Int) : Option Vec := (bs.find? fun b => b.holds x y).bind (·.vec)

/-- The hints of the tile of a block, in the order written (R185, R226). -/
def blockHints (words : List Word) (w : Nat) (b : BlockCode) : List Hint :=
  let tile := b.y / 16 * ((w + 15) / 16) + b.x / 16
  ((words.drop (2 * tile)).take 2).filterMap hintOf

/-- The picture nearest in output order among the references of other pictures; the layer below of the same unit is no temporal one (R183). -/
def nearestEnc (order : Int) (refs : List EncRef) : Option EncRef :=
  (refs.filter fun r => r.order ≠ order).foldl (fun b r => match b with
    | none => some r
    | some x => if (r.order - order).natAbs < (x.order - order).natAbs then some r else b) none

/-- A reference's luma with its edges repeated outside it. -/
def padded (token : BitVec 64) (w h : Nat) (x y : Int) : Nat :=
  Config.reconSample token (max 0 (min x ((w : Int) - 1))).toNat (max 0 (min y ((h : Int) - 1))).toNat

/-- What a picture's blocks are searched with. -/
structure LayerSearch where
  codec : Nat
  tools : EffortTools
  w : Nat
  h : Nat
  order : Int
  refs : List EncRef
  /-- The previous picture's chosen vectors. -/
  vecs : List Vec
  hints : List Word
  rowHeight : Nat
  quants : List Int
  src : Nat → Nat → Nat

/-- A block of a picture gets its vector, after those coded before it: intra, also where its reference fetch met a poisoned word or names no
reference; an inter partition is no smaller than the effort allows (R21, R182-R185). -/
def LayerSearch.block (x : LayerSearch) (done : List MvBlock) (b : BlockCode) : List MvBlock :=
  let out := fun (v : Option Vec) (skip : Bool) => done ++ [{ x := b.x, y := b.y, w := b.w, h := b.h, vec := v, skip := skip }]
  match b.ref.bind fun i => x.refs[i]? with
  | none => out none false
  | some r =>
    if b.poisoned ∨ b.w < x.tools.smallest ∨ b.h < x.tools.smallest then out none false
    else
      let s : Search :=
        { codec := x.codec, tools := x.tools, quant := x.quants.getD (b.y / max x.rowHeight 1) 0, w := x.w, h := x.h, bx := b.x, bY := b.y
          bw := b.w, bh := b.h, src := x.src, ref := padded r.token x.w x.h }
      let hs := blockHints x.hints x.w b
      let coloc := (nearestEnc x.order x.refs).bind fun n => vecAt n.blocks b.x b.y
      let cs := vecCandidates (vecAt done (b.x - 1) b.y) (vecAt done b.x (b.y - 1)) (vecAt done (b.x + b.w) (b.y - 1)) coloc
        (globalVec x.vecs) hs
      let (v, skip) := s.choose cs hs
      out (some v) skip

/-- The blocks of a picture with their vectors, in coding order (R183). -/
def LayerSearch.run (x : LayerSearch) (bs : List BlockCode) : List MvBlock := bs.foldl x.block []

end Sys2Proof.Machine
end

