-- ==== Sys2Proof/Machine/VideoEncode.lean ====
section
/-!
DEFINITION. Video encode: source pictures, the buffer model, rate control and the commands of the encoder contexts (07 R175-R193,
R202).
-/

namespace Sys2Proof.Machine

/-- Changes an encoder context. -/
def modEnc (k : Nat) (f : Enc → Enc) (s : State) : State := { s with vca.encs := tmod s.vca.encs k f }

/-! ### Structures (R181) -/

/-- Temporal pattern of a structure. -/
def temporalPattern (st : Nat) : List Nat := if st = 0 then [0] else if st = 1 then [0, 1] else [0, 2, 1, 2]

/-- Temporal layers of a structure. -/
def temporalLayers (st : Nat) : Nat := if st = 0 then 1 else if st = 1 then 2 else 3

/-- Spatial layers of a structure. -/
def spatialLayers (st : Nat) : Nat := if st = 3 ∨ st = 5 then 2 else if st = 4 then 3 else 1

/-- Default spatial shares in percent, S0 first. -/
def defaultShares (st : Nat) : List Nat := if st = 3 ∨ st = 5 then [25, 75] else if st = 4 then [15, 25, 60] else [100]

/-- Whether a structure is allowed for a codec. -/
def structureOk (codec st : Nat) : Bool := decide (st ≤ 2 ∨ (codec = 8 ∧ st ≤ 5))

/-- Temporal weight of a picture in tenths (R189). -/
def temporalWeight (st tid : Nat) : Nat :=
  if st = 0 then 10 else if st = 1 then (if tid = 0 then 14 else 6) else [20, 10, 5].getD tid 5

/-- The operating points of a structure: spatial and temporal layer (R187). -/
def opPoints (st : Nat) : List (Nat × Nat) :=
  (List.range (spatialLayers st)).flatMap fun i => (List.range (temporalLayers st)).map fun t => (i, t)

/-- Whether an operating point contains the pictures of a layer: in S2T3 the spatial layers are independent. -/
def opHolds (st : Nat) (o : Nat × Nat) (sid tid : Nat) : Bool :=
  decide (tid ≤ o.2) && (if st = 5 then decide (sid = o.1) else decide (sid ≤ o.1))

/-! ### The buffer model and one picture (R186-R191) -/

/-- CPB size in bits (R186). -/
def cpbBits (j : EncJob) : Nat := j.rmax * j.dMs

/-- Bits that one frame interval adds to a fullness (R187, R188). -/
def intervalBits (rmax rate div : Nat) : Nat := rmax * 1000 * div / max rate 1

/-- The hard limit of a picture: the smallest fullness over its operating points (R187). -/
def hardLimit (st : Nat) (full : List Int) (sid tid : Nat) : Int :=
  let fs := ((opPoints st).zip full).filterMap fun (x : (Nat × Nat) × Int) => if opHolds st x.1 sid tid then some x.2 else none
  match fs with
  | f :: t => t.foldl min f
  | [] => 0

/-- A picture's bits leave the fullness of its operating points (R187). -/
def drainFull (st : Nat) (full : List Int) (sid tid bits : Nat) : List Int :=
  ((opPoints st).zip full).map fun (x : (Nat × Nat) × Int) => if opHolds st x.1 sid tid then x.2 - bits else x.2

/-- The budget of a picture (R189): target, share, weight and rate; low fullness; discarded budgets of the layer; the hard limit. -/
def pictureBudget (j : EncJob) (sid carry : Nat) (H : Int) : Nat :=
  let t := j.target * 1000 * (j.shares.getD sid 100) * temporalWeight j.struct_ j.tid * j.div / (1000 * max j.rate 1)
  let h := H.toNat
  let t := if 2 * h < cpbBits j then t * 2 * h / max (cpbBits j) 1 else t
  min (t + carry) h

/-- Rows of a picture (R190). -/
def rowHeight (codec : Nat) : Nat := if codec = 11 then 16 else 64

/-- The bound S[r] on the bits of rows r to the end at minimum cost (R190). units: slices, tiles or tile groups of the picture. -/
def minBits (codec w h units : Nat) (intra : Bool) (r : Nat) : Nat :=
  let b := rowHeight codec
  let rows := (h + b - 1) / b
  let cost := if codec = 11 then (if intra then 64 else 16) else if intra then 1024 else 32
  if rows ≤ r then 0 else (rows - r) * ((w + b - 1) / b) * cost + 256 * units

/-- The coded rows of a picture. -/
structure RowsCoded where
  bits : Nat := 0
  /-- The row from which the rest is coded at minimum cost. -/
  filledAt : Option Nat := none
  costs : List Nat := []
  quants : List Int := []
  entropy : BitVec 64 := 0

/-- The quantiser offset of a row: (used - plan[r]) × 4 ÷ (T ÷ rows), clamped to plus or minus 2; plan[r] sums the row costs of the last
picture of the layer before r (R190). -/
def rowOffset (T rows : Nat) (plan : List Nat) (r used : Nat) : Int :=
  let want := (plan.take r).sum
  clampInt (-2) 2 (Int.tdiv (((used : Int) - want) * 4) (max (T / max rows 1) 1 : Nat))

/-- The row loop: each row is coded at its quantiser; the first that leaves the rest no room is undone, entropy state included, and the rest
is coded at minimum cost (R190). all: the bits of each row at the offsets -2 to 2. -/
def rowLoop (H : Int) (S : Nat → Nat) (lc : LayerCode) (T rows : Nat) (plan : List Nat) : List (List Nat) → Nat → RowsCoded → RowsCoded
  | [], _, a => a
  | b :: bs, r, a =>
    let off := rowOffset T rows plan r a.bits
    let q := (lc.qp : Int) + off
    let bits := b.getD (off + 2).toNat 0
    if H < (a.bits + bits + S (r + 1) : Nat) then
      { a with bits := a.bits + min lc.fill (S r), filledAt := some r, entropy := Config.entropyNext a.entropy q (min lc.fill (S r)) }
    else
      rowLoop H S lc T rows plan bs (r + 1)
        { a with bits := a.bits + bits, costs := a.costs ++ [bits], quants := a.quants ++ [q], entropy := Config.entropyNext a.entropy q bits }

/-- A key picture of a layer in a key temporal unit: S0, or every layer where they are independent (R193). -/
def layerKey (j : EncJob) (sid : Nat) : Bool := j.key && (sid == 0 || j.struct_ == 5)

/-! ### Source samples (R175, R181) -/

/-- A luma sample of a source picture at the encoder's bit depth; its edges are repeated outside it. -/
def sourceLuma (p : SrcPic) (ten : Bool) (x y : Nat) : Nat :=
  let x := min x (p.w - 1)
  let y := min y (p.h - 1)
  let v := if p.planes.1 = [] then outSample p.img 0 x y else p.planes.1.getD (y * p.w + x) 0
  if ten ∧ !p.ten then v * 4 else if !ten ∧ p.ten then v / 4 else v

/-- The 2:1 box downscaler: the floor mean of each 2 × 2 group, edges repeated (R181). -/
def boxDown (w h : Nat) (f : Nat → Nat → Nat) (x y : Nat) : Nat :=
  let at_ := fun a b => f (min a (w - 1)) (min b (h - 1))
  (at_ (2 * x) (2 * y) + at_ (2 * x + 1) (2 * y) + at_ (2 * x) (2 * y + 1) + at_ (2 * x + 1) (2 * y + 1)) / 4

/-- Luma of a spatial layer n steps below the top, of a picture whose size at the step above is given first (R181). -/
def downLuma (sizes : List (Nat × Nat)) : Nat → (Nat → Nat → Nat) → Nat → Nat → Nat
  | 0, f => f
  | n + 1, f => match sizes with
    | z :: zs => downLuma zs n (boxDown z.1 z.2 f)
    | [] => f

/-! ### References (R181, R191) -/

/-- The temporal layer that a picture refers to first: T0 and T1 to T0, T2 to the last picture of T0 or T1. -/
def wantedTid (l : EncLayer) (tid : Nat) : Nat := if tid = 2 then l.prevTid else 0

/-- The references of a picture of a layer, as many as the effort allows: the one that its place in the pattern gives, or the most recent
emitted picture of the layer where that one was discarded; the layer below in the same unit where layers depend; further ones of lower
temporal layers, none from before the newest T0 but that T0, which is a switch point (R181, R182, R191; log 136). -/
def encRefs (j : EncJob) (sid : Nat) (l : EncLayer) (below : Option EncRef) : List EncRef :=
  let inter := if j.struct_ = 5 then [] else (below.map fun r => { r with token := Config.upscaled r.token, blocks := [] }).toList
  if layerKey j sid then []
  else if j.key then inter
  else
    let t := wantedTid l j.tid
    let first := if l.gone.contains t then l.last else (tget l.slots t).or l.last
    let t0 := ((tget l.slots 0).map (·.order)).getD 0
    let rest := (l.slots.filter fun r => r.1 < max j.tid 1 ∧ (r.1 = 0 ∨ t0 < r.2.order)).map (·.2)
    ((first.toList ++ inter ++ rest).eraseDups).take j.tools.refs

/-- A picture of a temporal layer is a reference: below the highest one, or the base of inter-layer prediction (R155, R181). -/
def isReference (j : EncJob) (sid : Nat) : Bool :=
  decide (j.tid = 0 ∨ j.tid + 1 < temporalLayers j.struct_) || (decide (j.struct_ = 3 ∨ j.struct_ = 4) && decide (sid + 1 < spatialLayers j.struct_))

/-- The reference slot or picture of an emitted picture: a slot of AV1, an output order elsewhere (R191). -/
def refKey (codec sid : Nat) (tid : Nat) (order : Int) : Nat :=
  if codec = 8 then (if tid = 2 then 6 + sid else 2 * sid + tid) else (order % 65536).toNat

/-- A layer's state after a picture that was emitted: its slot, the frame number, the vectors. No picture after a key unit, whose upper layers
are switch pictures, refers to one before it (R183, R191, R193). -/
def layerEmitted (j : EncJob) (sid : Nat) (r : EncRef) (entropy : BitVec 64) (l : EncLayer) : EncLayer :=
  let l := if j.key then { l with slots := [], gone := [] } else l
  { l with
    slots := if isReference j sid then tset l.slots j.tid r else l.slots, last := some r, gone := l.gone.filter (· ≠ j.tid)
    prevTid := if j.tid < 2 then j.tid else l.prevTid
    frameNo := (r.frameNo + b1 (j.codec ≠ 11 || isReference j sid)) % 65536, vecs := r.blocks.filterMap (·.vec), entropy := entropy }

/-- A layer's state after a picture that was discarded: no slot, no frame number changes; the pictures of a layer whose switch picture of a key
unit is discarded are no references any more (R191, R193). -/
def layerDiscarded (j : EncJob) (sid : Nat) (l : EncLayer) : EncLayer :=
  let l := if j.key ∧ !layerKey j sid then { l with slots := [], last := none } else l
  { l with gone := (l.gone ++ [j.tid]).eraseDups, prevTid := if j.tid < 2 then j.tid else l.prevTid }

/-- A layer of a temporal unit as emitted: its bits and what its packets say of it. -/
structure CodedLayer where
  sid : Nat
  bits : Nat
  refs : List (Nat × Int)
  refreshes : List Nat
  drops : List Nat
  frameNo : Nat
  size : Nat × Nat
deriving DecidableEq, Repr

/-- What coding the layers of a unit has come to: the context, whether a layer below was discarded, the picture of the layer below, and the
layers emitted. -/
structure UnitAcc where
  enc : Enc
  below : Bool := false
  base : Option EncRef := none
  out : List CodedLayer := []

/-- Blocks from the row on at which minimum cost starts are skip in an inter picture and intra without residual in an intra one (R190). -/
def fillBlocks (intra : Bool) (top : Option Nat) (bs : List MvBlock) : List MvBlock :=
  match top with
  | none => bs
  | some y => bs.map fun b => if y ≤ b.y then { b with vec := if intra then none else some (0, 0), skip := !intra } else b

/-- The reconstruction of a picture of a layer. -/
def encPicture (j : EncJob) (sid : Nat) (l : EncLayer) (refs : List EncRef) (lc : LayerCode) (a : RowsCoded) : EncRef :=
  let sizes := layerSizes j.struct_ j.w j.h
  let z := sizes.reverse.getD sid (j.w, j.h)
  let up := spatialLayers j.struct_ - 1 - sid
  let src := downLuma sizes up (sourceLuma j.pic j.ten)
  let rowH := rowHeight j.codec
  let x : LayerSearch :=
    { codec := j.codec, tools := j.tools, w := z.1, h := z.2, order := j.order, refs := refs, vecs := l.vecs
      hints := if up = 0 then j.pic.hints else [], rowHeight := rowH, quants := a.quants, src := src }
  let luma := (List.range z.2).flatMap fun y => (List.range z.1).map fun c => src c y
  { order := j.order, tid := j.tid, frameNo := if layerKey j sid then 0 else l.frameNo
    token := Config.reconToken j.codec (j.tools.rdBest, j.tools.filters) luma a.quants (refs.map (·.token))
    blocks := fillBlocks (layerKey j sid) (a.filledAt.map (· * rowH)) (x.run lc.blocks) }

/-- Codes one spatial layer: it is discarded when it cannot fit at minimum cost, or with the layer below it where layers depend; else
emitted (R187-R191). -/
def codeLayer (now : Nat) (j : EncJob) (a : UnitAcc) (x : Nat × LayerCode) : UnitAcc :=
  let e := a.enc
  let (sid, lc) := x
  let z := ((layerSizes j.struct_ j.w j.h).reverse).getD sid (j.w, j.h)
  let H := hardLimit j.struct_ e.full sid j.tid
  let T := pictureBudget j sid (e.carry.getD sid 0) H
  let S := minBits j.codec z.1 z.2 lc.units (layerKey j sid)
  let l := e.refs.getD sid EncLayer.reset
  let e := { e with lowH := (e.lowH.filter fun (p : Nat × Nat) => now ≤ p.1 + 1000000000) ++ [(now, H.toNat)], budgets := e.budgets.set sid T }
  if (a.below ∧ j.struct_ ≠ 5) ∨ H < (S 0 : Nat) then
    { a with
      enc := { e with carry := e.carry.set sid T, discards := inc32 e.discards, refs := e.refs.set sid (layerDiscarded j sid l) }, below := true
      base := none }
  else
    let rows := (z.2 + rowHeight j.codec - 1) / rowHeight j.codec
    let c := rowLoop H S lc T rows (e.rowPlan.getD sid []) lc.rows 0 { entropy := l.entropy }
    let refs := encRefs j sid l a.base
    let r := encPicture j sid l refs lc c
    let key := fun (k : Nat) (p : EncRef) => (refKey j.codec k p.tid p.order, p.order)
    let own := refs.filter fun p => l.slots.any (fun y => decide (y.2 = p)) || l.last == some p
    let dropped := if j.codec = 8 ∨ !isReference j sid then [] else ((tget l.slots j.tid).map fun p => (key sid p).1).toList
    { enc := { e with
        full := drainFull j.struct_ e.full sid j.tid c.bits, carry := e.carry.set sid 0, emitted := inc32 e.emitted
        keys := if layerKey j sid then inc32 e.keys else e.keys, skipFill := if c.filledAt.isSome then inc32 e.skipFill else e.skipFill
        quants := e.quants.set sid c.quants, rowPlan := e.rowPlan.set sid c.costs
        refs := e.refs.set sid (layerEmitted j sid r c.entropy l) }
      below := false, base := some r
      out := a.out ++ [{
        sid := sid, bits := c.bits, frameNo := r.frameNo, size := z, drops := dropped
        refs := own.map (key sid) ++ (if own.length < refs.length then (a.base.map (key (sid - 1))).toList else [])
        refreshes := if layerKey j sid ∧ j.codec = 8 ∧ sid = 0 then List.range 8
          else if isReference j sid then [(key sid r).1] else [] }] }

/-! ### Levels and headers (R180, R186) -/

/-- A level times ten, and what it holds: luma samples of a picture, luma samples a second, and kb/s (R180). The limits are those of the
codecs' own specifications (log 121). -/
abbrev LevelLimit := Nat × Nat × Nat × Nat

/-- Levels of AVC; its macroblock limits in luma samples, bit rates of the Baseline and Main profiles. -/
def avcLevels : List LevelLimit :=
  [(10, 25344, 380160, 64), (11, 101376, 768000, 192), (12, 101376, 1536000, 384), (13, 101376, 3041280, 768), (20, 101376, 3041280, 2000),
    (21, 202752, 5068800, 4000), (22, 414720, 5184000, 4000), (30, 414720, 10368000, 10000)] ++
  [(31, 921600, 27648000, 14000), (32, 1310720, 55296000, 20000), (40, 2097152, 62914560, 20000), (41, 2097152, 62914560, 50000),
    (42, 2228224, 133693440, 50000), (50, 5652480, 150994944, 135000), (51, 9437184, 251658240, 240000)]

/-- Levels of HEVC and VVC, Main tier. -/
def hevcLevels : List LevelLimit :=
  [(10, 36864, 552960, 128), (20, 122880, 3686400, 1500), (21, 245760, 7372800, 3000), (30, 552960, 16588800, 6000),
    (31, 983040, 33177600, 10000), (40, 2228224, 66846720, 12000), (41, 2228224, 133693440, 20000), (50, 8912896, 267386880, 25000),
    (51, 8912896, 534773760, 40000)]

/-- Levels of AV1, Main tier. -/
def av1Levels : List LevelLimit :=
  [(20, 147456, 4423680, 1500), (21, 278784, 8363520, 3000), (30, 665856, 19975680, 6000), (31, 1065024, 31950720, 10000),
    (40, 2359296, 70778880, 12000), (41, 2359296, 141557760, 20000), (50, 8912896, 267386880, 30000), (51, 8912896, 534773760, 40000)]

/-- The width and height that a level of AV1 allows (log 121). -/
def av1Sides : List (Nat × Nat × Nat) :=
  [(20, 2048, 1152), (21, 2816, 1584), (30, 4352, 2448), (31, 5504, 3096), (40, 6144, 3456), (41, 6144, 3456), (50, 8192, 4352),
    (51, 8192, 4352)]

/-- A picture's sides lie within a level: AV1 gives each level a width and a height; elsewhere neither side passes the square root of 8 times
the level's picture size (R180, log 121). -/
def sidesFit (codec : Nat) (l : LevelLimit) (w h : Nat) : Bool :=
  if codec = 8 then (av1Sides.find? fun x => x.1 = l.1).any fun x => decide (w ≤ x.2.1 ∧ h ≤ x.2.2)
  else decide (w * w ≤ 8 * l.2.1 ∧ h * h ≤ 8 * l.2.1)

/-- Luma samples that a coded frame adds to a side so that it holds whole blocks: of 16 in AVC, of 8 in HEVC and VVC (R161). -/
def codedPad (codec n : Nat) : Nat :=
  let unit := if codec = 11 then 16 else if codec = 8 then 1 else 8
  (n + unit - 1) / unit * unit - n

/-- The level signalled: 6 above 8,912,896 luma samples but in AVC, else the lowest that holds the coded frame's size and sides, the rate
and R_max, 5.1 at most (R180). -/
def encLevel (j : EncJob) : Nat :=
  let w := j.w + codedPad j.codec j.w
  let h := j.h + codedPad j.codec j.h
  let ps := w * h
  if 8912896 < j.w * j.h ∧ j.codec ≠ 11 then 60
  else
    let ls := if j.codec = 8 then av1Levels else if j.codec = 11 then avcLevels else hevcLevels
    let more := fun (r : Nat) => if j.codec = 11 ∧ j.high then r * 5 / 4 else r
    ((ls.find? fun l =>
      ps ≤ l.2.1 ∧ sidesFit j.codec l w h ∧ ps * j.rate ≤ l.2.2.1 * max j.div 1 ∧ j.rmax ≤ more l.2.2.2).map (·.1)).getD 51

/-- The profile produced (R180). -/
def encProfile (j : EncJob) : VidProfile :=
  match j.codec with
  | 8 => .main
  | 9 => .main10
  | 10 => if j.ten then .main10 else .main
  | _ => if j.high then .high else .constrainedBaseline

/-- The sequence header of a context's coded sequence, with its buffer model: rate R_max, size B_sz, initial removal delay D (R180, R186). -/
def encHeader (j : EncJob) : SeqHdr :=
  { profile := encProfile j, level := encLevel j, depth := if j.ten then 10 else 8, w := j.w, h := j.h, cropR := codedPad j.codec j.w, cropB := codedPad j.codec j.h
    layers := (spatialLayers j.struct_, temporalLayers j.struct_), hrdRate := j.rmax, hrdBits := cpbBits j, hrdDelay := j.dMs }

/-! ### Packets (R179) -/

/-- Layers for which a unit is a switch point, as an operating-point mask: a T0 picture for T1 and T2; in HEVC and VVC also T1 (TSA) for
T1 and T2, and T2 (STSA) for T2; a key unit's upper layers for every layer (R76, R181, R193). -/
def switchOf (j : EncJob) : Nat :=
  if j.key then 0xFF else if j.tid = 0 then 0x06 else if j.codec = 9 ∨ j.codec = 10 then (if j.tid = 1 then 0x06 else 0x04) else 0

/-- The header extension elements of a packet: AV1's dependency descriptor, AVC's frame marking (R67, R179). -/
def encExts (codec : Nat) (template : Bool) : List (Nat × Nat) :=
  if codec = 8 then [(2, Config.descriptorBytes template)] else if codec = 11 then [(3, Config.markingBytes)] else []

/-- What every packet of a layer says. -/
def encPacket (j : EncJob) (x : CodedLayer) (n : Nat) (form : PktForm) (template : Bool) (data : Nat) : RtpPkt :=
  { ts := j.pic.ts, bytes := 12 + n, payload := n, data := data, tid := j.tid, sid := x.sid, switch := switchOf j, form := form
    nonRef := decide (x.refreshes = []), rap := if layerKey j x.sid then (if j.codec = 8 then 3 else 1) else 0, order := j.order
    refs := x.refs, refreshes := x.refreshes, drops := x.drops, frameNo := x.frameNo, frame := x.size, template := template
    kept := encExts j.codec template }

/-- Bytes that a payload format adds to each packet: AV1's aggregation header; the headers of a fragment (log 121). -/
def formBytes (codec : Nat) (fragment : Bool) : Nat := if codec = 8 then 1 else if !fragment then 0 else if codec = 11 then 2 else 3

/-- The packet type of a picture's packets (R179). -/
def pictureForm (codec : Nat) (fragment : Bool) : PktForm :=
  if codec = 8 then .obu else if !fragment then .single else if codec = 11 then .fuA else .fu

/-- Payload sizes of n bytes cut at a maximum. -/
def payloadSizes (n most : Nat) : List Nat :=
  let p := max most 1
  (List.replicate (n / p) p) ++ (if n % p = 0 then [] else [n % p])

/-- Sends a packet of a LOCAL stream with its next sequence number. -/
def sendLocal (st : Nat) (p : RtpPkt) (s : State) : State :=
  match tget s.fwe.streams st with
  | none => s
  | some x =>
    forkLocal st { p with ssrc := x.ssrc, pt := x.pt, seq := BitVec.ofNat 16 x.txSeq.toNat }
      (modStream st (fun x => { x with txSeq := w32 ((x.txSeq.toNat + 1) % 65536) }) s)

/-- The packets of one layer: none exceeds the maximum payload; the template structure is on the first of a key picture (R179). -/
def layerPackets (j : EncJob) (x : CodedLayer) : List RtpPkt :=
  let n := (x.bits + 7) / 8
  let frag := decide (j.payload < n + formBytes j.codec false)
  let extra := formBytes j.codec frag
  let ps := payloadSizes n (j.payload - extra)
  ps.mapIdx fun i m =>
    { encPacket j x (m + extra) (pictureForm j.codec frag) (decide (j.codec = 8 ∧ i = 0) && layerKey j x.sid) 0 with
      eof := decide (i + 1 = ps.length)
      hdr := if j.codec = 8 ∧ i = 0 ∧ x.sid = 0 ∧ j.key then some (encHeader j) else none
      params := if j.codec = 8 ∧ i = 0 ∧ x.sid = 0 ∧ j.key then [(0, 0, 0)] else [] }

/-- The parameter sets ahead of a key picture: one AP in HEVC and VVC, one STAP-A in AVC; AV1's sequence header is in its first packet
(R179). -/
def paramPackets (j : EncJob) (out : List CodedLayer) : List RtpPkt :=
  match out with
  | x :: _ =>
    if j.key ∧ j.codec ≠ 8 then
      [{ encPacket j x (Config.paramBytes j.codec % max j.payload 1 + 1) (if j.codec = 11 then .stapA else .ap) false 0 with
          hdr := some (encHeader j), params := [(0, 0, 0), (1, 0, 0)] }]
    else []
  | [] => []

/-- Packetises a temporal unit: the marker bit is on its last packet; what the packets carry is free (R179). -/
def sendUnit (j : EncJob) (out : List CodedLayer) (s : State) : State :=
  let ps := paramPackets j out ++ out.flatMap (layerPackets j)
  (ps.mapIdx fun i p => { p with sof := decide (i = 0), marker := decide (i + 1 = ps.length) }).foldl (fun s p =>
    let (d, s) := draw s
    sendLocal j.out { p with data := d.toNat } s) s

/-! ### Source pictures and jobs (R176-R178, R192, R193) -/

/-- Whether a context's source is there. -/
def encHasSource (s : State) (e : Enc) : Bool := if e.fromDec then thas s.vca.decs e.src else thas s.lco.canvases e.src

/-- The newest picture of a canvas, in composition or finished: its frame number, frame time and planes (R30, R179). -/
def canvasPicture (c : Canvas) : Option (Nat × Nat × List Nat × List Nat × List Nat) :=
  match c.composing.getLast? with
  | some f => some (c.frames + c.composing.length, f.2)
  | none => if c.frames = 0 then none else some (c.frames, c.frameAt, c.frame)

/-- A picture that a context has not taken. -/
def notTaken (e : Enc) (serial number : Nat) : Bool :=
  match e.lastSrc with
  | none => true
  | some (b, n) => decide (b ≠ serial) || decide (0 < (w32 number - w32 n).toInt)

/-- The source picture that arrives at a context: of a canvas its newest frame, stamped with its frame time; of a decoder context the oldest
fenced picture not taken, with its own timestamp (R175, R179). -/
def nextSource (s : State) (e : Enc) : Option SrcPic :=
  let now := nowNs s
  if e.fromDec then
    match tget s.vca.decs e.src with
    | none => none
    | some d => (d.outs.find? fun o => notTaken e o.serial o.number).map fun o =>
        { SrcPic.reset with
          ts := o.ts, relNs := now, number := o.number, serial := o.serial, w := o.w, h := o.h, ten := o.ten, img := o.img }
  else
    match tget s.lco.canvases e.src with
    | none => none
    | some c => ((canvasPicture c).filter fun f => notTaken e 0 f.1).map fun f =>
        { SrcPic.reset with
          ts := w32 (f.2.1 * 90000 / 1000000000), relNs := now, number := f.1, w := c.w, h := c.h, ten := c.ten, planes := f.2.2
          hints := if e.hints ∧ c.hints then c.hintsOut else [] }

/-- The target in force: one above R_max is taken as R_max (R186). -/
def targetOf (e : Enc) : Nat := min e.target e.rmax

/-- Spatial shares in force, S0 first. -/
def sharesOf (e : Enc) : List Nat := if e.shares = [] then defaultShares e.struct_ else e.shares

/-- When an encode job must end: one frame interval of the output rate after its release; one of a hidden context has no deadline (R177,
R200). -/
def encodeDue (hidden : Bool) (j : EncJob) : Option Nat :=
  if hidden then none else some (j.pic.relNs + 1000000000 * j.div / max j.rate 1)

/-- Starts the encoding of a source picture: settings, target, effort and key requests in force now; the frame intervals since the last
picture are added to every fullness, or the model starts full with a new sequence (R187-R193). -/
def startEncode (k : Nat) (pic : SrcPic) (s : State) : State :=
  match tget s.vca.encs k with
  | none => s
  | some e =>
    let now := nowNs s
    let rate := sourceRate s e.fromDec e.src
    let asked := e.keyAsk && ((e.lastKeyReq.map fun t => decide (t + 1000000000 ≤ now)).getD true)
    let key := e.keyNext || e.newSeq || asked
    let phase := if key then 0 else e.phase % (temporalPattern e.struct_).length
    let effort := effortIn (effMode s s.cpx.mode) e.effortSet
    let order : Int := if e.newSeq then 0 else e.order + e.owed + 1
    let j : EncJob :=
      { pic := pic, key := key, first := e.newSeq, tid := (temporalPattern e.struct_).getD phase 0, order := order
        target := targetOf e, out := e.out, w := e.w, h := e.h, codec := e.codec, struct_ := e.struct_, rmax := e.rmax
        dMs := e.dMs, payload := e.payload, shares := sharesOf e, rate := rate, div := e.div, tools := effortTools e.codec effort
        ten := e.ten, high := e.high }
    let add : Int := ((e.owed + 1) * intervalBits e.rmax rate e.div : Nat)
    let top : Int := (cpbBits j : Nat)
    let n := spatialLayers e.struct_
    let e := { e with
      job := some j, effort := effort, phase := phase + 1, skipRow := 0, owed := 0, keyNext := false, order := order
      keyAsk := e.keyAsk && !asked && !key, lastKeyReq := if asked then some now else e.lastKeyReq
      full := if e.newSeq then (opPoints e.struct_).map fun _ => top else e.full.map fun f => min top (f + add) }
    let e := if e.newSeq then { e with
        newSeq := false, carry := List.replicate n 0, budgets := List.replicate n 0, rowPlan := List.replicate n []
        quants := List.replicate n [], refs := List.replicate n EncLayer.reset }
      else e
    addVjob .encode k (encodeDue e.hidden j) { s with vca.encs := tset s.vca.encs k e }

/-- A source picture waits behind the job in service; it replaces one that waits, which is dropped as a source skip; ten in a row raise
VCA_ENCODE_OVERRUN (R178). -/
def waitEncode (k : Nat) (e : Enc) (pic : SrcPic) (s : State) : State :=
  if e.waitPic.isNone then modEnc k (fun e => { e with waitPic := some pic }) s
  else
    let n := e.skipRow + 1
    let s := modEnc k (fun e => { e with
      waitPic := some pic, skips := inc32 e.skips, owed := e.owed + 1, skipRow := if 10 ≤ n then 0 else n }) s
    if 10 ≤ n then fault 0xD202 [w32 k] s else s

/-- A source picture reaches a context: the frame divisor keeps the first and every div-th after it (R176, R178). -/
def sourcePicture (k : Nat) (s : State) : State :=
  match tget s.vca.encs k with
  | none => s
  | some e =>
    match nextSource s e with
    | none => s
    | some pic =>
      if e.releasing then s
      else
        let keep := decide (e.divCount = 0)
        let e := { e with
          state := .encoding, lastSrc := some (pic.serial, pic.number), divCount := if keep then e.div - 1 else e.divCount - 1 }
        let s := { s with vca.encs := tset s.vca.encs k e }
        if !keep then s
        else if e.job.isNone then startEncode k pic s
        else waitEncode k e pic s

/-- ENCODER_SOURCE_PICTURE: a picture of the context's source (R178); one of another source does not reach the context. -/
def execEncoderSourcePicture (ctx src : Nat) (s : State) : Host.Outcome State Fault Refusal :=
  .next (if (tget s.vca.encs ctx).map (·.src) = some src then sourcePicture ctx s else s)

/-- The 8 words of a context's status; a FREE one shows the counters that it was released with (R202). -/
def encStatus (s : State) (k : Nat) : List Word :=
  match tget s.vca.encs k with
  | none => (tget s.vca.encOld k).getD (List.replicate 8 0)
  | some e =>
    let st := match e.state with
      | .ready => 1
      | .encoding => 2
    let hs := (e.lowH.filter fun p => nowNs s ≤ p.1 + 1000000000).map (·.2)
    [w32 (st + e.effort * 4), w32 e.emitted, w32 e.keys, w32 e.skipFill, w32 e.discards, w32 e.skips, w32 (targetOf e),
      w32 ((hs.min?).getD 0)]

/-- A context becomes FREE: its output is unbound and its consumer of a decoder context returns; its counters stay (R170, R176, R202). -/
def freeEnc (k : Nat) (s : State) : State :=
  match tget s.vca.encs k with
  | none => s
  | some e =>
    let old := [0] ++ ((encStatus s k).drop 1).take 5 ++ [0, 0]
    let s := modStream e.out (fun x => { x with binding := 0 })
      { s with vca.encs := terase s.vca.encs k, vca.encOld := tset s.vca.encOld k old }
    let s := { s with mss.workFree := s.mss.workFree + encBytes e }
    sweepOrphans (if e.fromDec then modDec e.src (fun d => { d with taken := d.taken - 1 }) s else s)

/-- The key pictures of a unit: a discarded one is coded again at the next source picture; three in a row raise VCA_KEY_STARVED
(R191, R193). -/
def keyOutcome (k : Nat) (j : EncJob) (out : List CodedLayer) (s : State) : State :=
  if !j.key then s
  else if (List.range (spatialLayers j.struct_)).any fun sid => layerKey j sid && !(out.any fun x => decide (x.sid = sid)) then
    let n := (((tget s.vca.encs k).map (·.keyFails)).getD 0) + 1
    let s := modEnc k (fun e => { e with keyNext := true, newSeq := e.newSeq || j.first, keyFails := if 3 ≤ n then 0 else n }) s
    if 3 ≤ n then fault 0xD201 [w32 k] s else s
  else modEnc k (fun e => { e with keyFails := 0 }) s

/-- What the coding of a layer moves in class C1: its references, its reconstruction and its coded bits (R256, log 14). -/
def encodeTraffic (ten : Bool) (s : State) (x : CodedLayer) : State :=
  engineTraffic .codecRef (pictureBytes x.size.1 x.size.2 ten * (1 + x.refs.length)) (engineTraffic .codedPicture (x.bits / 8) s)

/-- An encode job ends on its core: the layers are coded under the buffer model (R177, R179, R187-R191). The layers emitted are
returned. -/
def encodeDone (k core : Nat) (j : EncJob) (r : EncodeResult) (s : State) : List CodedLayer × State :=
  match tget s.vca.encs k with
  | none => ([], s)
  | some e =>
    let s := finishVjob .encode k core (jobMissed s .encode k) s
    let lcs := (List.range (spatialLayers j.struct_)).map fun i => (i, r.layers.getD i {})
    let a := lcs.foldl (codeLayer (nowNs s) j) { enc := { e with job := none } }
    (a.out, keyOutcome k j a.out (a.out.foldl (encodeTraffic j.ten) { s with vca.encs := tset s.vca.encs k a.enc }))

/-- What follows a job: the release that waited for it, or the source picture that waits (R176, R178). -/
def encodeNext (k : Nat) (s : State) : State :=
  match tget s.vca.encs k with
  | none => s
  | some e =>
    if e.releasing then freeEnc k s
    else match e.waitPic with
      | some p => startEncode k p (modEnc k (fun e => { e with waitPic := none }) s)
      | none => sweepOrphans s

/-! ### VID_ENCODER_SET (R202) -/

/-- What the words of a set describe. -/
def encOfWords (c : Cmd) : Enc :=
  let w := word c
  let rmax := (w 5).toNat
  let t := 4 * field (w 6) 16 16
  let st := field (w 4) 4 3
  let s0 := field (w 7) 16 8
  let s1 := field (w 7) 24 8
  { Enc.reset with
    out := field (w 1) 0 16, fromDec := bit (w 1) 16, src := field (w 2) 0 16, w := field (w 3) 0 16, h := field (w 3) 16 16
    codec := field (w 4) 0 4, struct_ := st, effortSet := field (w 4) 7 3, ten := bit (w 4) 10, high := bit (w 4) 11
    hints := bit (w 4) 12, div := field (w 4) 13 3 + 1, rmax := rmax, dMs := field (w 6) 0 16
    target := if t = 0 then rmax / 2 else min t rmax, payload := field (w 7) 0 16
    shares := if s0 = 0 ∧ s1 = 0 then [] else [s0, s1, 100 - s0 - s1].take (spatialLayers st) }

/-- Size limits of R180 and R181. -/
def encSizeOk (e : Enc) : Bool :=
  let fits := decide (16 ≤ e.w ∧ 16 ≤ e.h ∧ ((e.w ≤ 4096 ∧ e.h ≤ 2304) ∨ (e.w ≤ 2304 ∧ e.h ≤ 4096)) ∧ e.w % 2 = 0 ∧ e.h % 2 = 0)
  fits && (layerSizes e.struct_ e.w e.h).all fun z => decide (16 ≤ z.1 ∧ 16 ≤ z.2)

/-- A set that starts a new coded sequence (R192). -/
def newSequence (a b : Enc) : Bool :=
  decide (a.codec ≠ b.codec ∨ a.w ≠ b.w ∨ a.h ≠ b.h ∨ a.struct_ ≠ b.struct_ ∨ a.ten ≠ b.ten ∨ a.rmax ≠ b.rmax ∨ a.dMs ≠ b.dMs)

/-- The charge of a set under a mode (R46, R192, R202). -/
def encChargeIn (s : State) (m : Mode) (e : Enc) : Nat :=
  encCharge s { e with effort := effortIn m e.effortSet }

/-- What a context that is reconfigured keeps of its running sequence: a set takes effect at the next picture; a release that waits for the
job in service is withdrawn (R192; log 136). -/
def encKeep (o n : Enc) : Enc :=
  let fresh := newSequence o n
  { n with
    state := o.state, job := o.job, waitPic := o.waitPic, divCount := min o.divCount (n.div - 1), phase := o.phase, full := o.full
    carry := o.carry, rowPlan := o.rowPlan, budgets := o.budgets, quants := o.quants, refs := o.refs, order := o.order
    keyNext := o.keyNext || fresh, newSeq := o.newSeq || fresh, keyAsk := o.keyAsk, lastKeyReq := o.lastKeyReq, owed := o.owed
    skipRow := o.skipRow, keyFails := o.keyFails, pinned := o.pinned, ovNew := o.ovNew, legs := o.legs, target := o.pinned.getD n.target, lowH := o.lowH
    effort := o.effort, lastSrc := if o.fromDec = n.fromDec ∧ o.src = n.src then o.lastSrc else n.lastSrc }

/-- The last picture that a source has: a context takes those after it. -/
def lastOfSource (s : State) (e : Enc) : Option (Nat × Nat) :=
  if e.fromDec then (tget s.vca.decs e.src).bind fun d => d.outs.getLast?.map fun o => (o.serial, o.number)
  else ((tget s.lco.canvases e.src).bind canvasPicture).map fun f => (0, f.1)

/-- Takes a set into force: a free context is READY; another keeps its state and is reconfigured; counters clear (R176, R192,
R202). -/
def encApply (k : Nat) (n : Enc) (s : State) : State :=
  let old := tget s.vca.encs k
  let s := match old with
    | some o =>
      let s := modStream o.out (fun x => { x with binding := 0 }) s
      if o.fromDec then modDec o.src (fun d => { d with taken := d.taken - 1 }) s else s
    | none => s
  let s := if n.fromDec then modDec n.src (fun d => { d with taken := d.taken + 1 }) s else s
  let n := { n with effort := effortIn (effMode s s.cpx.mode) n.effortSet, lastSrc := lastOfSource s n }
  let s := { s with mss.workFree := s.mss.workFree + (old.map encBytes).getD 0 - encBytes n }
  modStream n.out (fun x => { x with binding := 2 })
    { s with vca.encs := tset s.vca.encs k ((old.map fun o => encKeep o n).getD n), vca.encOld := terase s.vca.encOld k }

/-- The checks of a set (R180, R181, R202, R224). -/
def encSetChecks (c : Cmd) (s : State) : List (Bool × Status) :=
  let idx := field (word c 0) 0 16
  let k := ctxIndex s.vca.encs c
  let e := encOfWords c
  let old := tget s.vca.encs k
  let own := (old.map fun o => o.fromDec && decide (o.src = e.src)).getD false
  let free := if e.fromDec then
      ((tget s.vca.decs e.src).map fun d => !d.hidden && (own || decide (d.taken < d.consumers))).getD false
    else
      ((tget s.lco.canvases e.src).map fun c => decide ((canvasNext c).w = e.w ∧ (canvasNext c).h = e.h ∧ (canvasNext c).ten = e.ten) &&
        decide ((s.vca.encs.filter fun (x : Nat × Enc) => x.1 ≠ k ∧ !x.2.fromDec ∧ x.2.src = e.src).length < 4)).getD false
  let local_ := ((tget s.fwe.streams e.out).map (·.origin)).getD false
  let others := encCharges { s with vca.encs := terase s.vca.encs k }
  ([(decide (idx ≠ 0xFFFF ∧ 1023 < idx) || decide (e.codec < 8 ∨ 11 < e.codec) || !structureOk e.codec e.struct_ ||
      decide (3 < e.effortSet ∧ e.effortSet ≠ 7) || (e.ten && decide (e.codec = 11)) || decide (e.rmax < 100 ∨ 200000 < e.rmax) ||
      decide (e.dMs < 50 ∨ 2000 < e.dMs) || decide (e.payload < 576 ∨ 1400 < e.payload) ||
      decide (100 < field (word c 7) 16 8 + field (word c 7) 24 8) || !encSizeOk e || !local_ || !free ||
      ((old.map (·.hidden)).getD false), .badParam)] ++
   admitGrowth ((old.map fun o => decide (encCharge s o < encChargeIn s (effMode s s.cpx.mode) e ∨ encBytes o < encBytes e)).getD true) s
     (fun m => (decide (e.effortSet = 3) || e.ten) && decide (effMode s m ≠ .studio))
     (fun m => decide (capEncs m < encsUsed s + (if old.isSome then 0 else 1)) || decide (1023 < k) ||
       !encFits s m (decCharges s) (others + encChargeIn s m e) ||
       decide (s.mss.workFree + (old.map encBytes).getD 0 < encBytes e)))

/-- Function 0: set (R202). -/
def encSet (c : Cmd) (s : State) : Res :=
  checks (encSetChecks c s) (.done [w32 (ctxIndex s.vca.encs c)] (encApply (ctxIndex s.vca.encs c) (encOfWords c) s))

/-- VID_ENCODER_SET's body (R202). -/
def encoderSet (c : Cmd) (s : State) : Res :=
  let k := field (word c 0) 0 16
  match field (word c 0) 16 4 with
  | 0 => encSet c s
  | 1 => checks [(decide (1023 < k), .badParam), (!thas s.vca.encs k, .badTarget)]
      (.done [] (if ((tget s.vca.encs k).bind (·.job)).isSome then
          modEnc k (fun e => { e with releasing := true, waitPic := none }) s
        else freeEnc k s))
  | 2 => checks [(decide (1023 < k), .badParam)] (.done (encStatus s k) s)
  | _ => .refuse .badParam

/-- VID_ENCODER_SET (R202). -/
def execVidEncoderSet (c : Cmd) (s : State) : Host.Outcome State Fault Refusal :=
  .next <| serve 0x0502 (fnLens [8, 1, 1] c) c s (encoderSet c)

end Sys2Proof.Machine
end

