-- ==== Sys2Proof/Machine/Repair.lean ====
section
/-!
DEFINITION. Keyframe requests, keyframe synthesis and bridged renditions (07 R193-R204; 09 R246, R247), and the ends of decode and
encode jobs, which they follow.
-/

namespace Sys2Proof.Machine

/-! ### Requests (R193, R246, R247) -/

/-- Random access points of a stream stored from t on, within d ns. -/
def rapStored (s : State) (st t d : Nat) : Bool :=
  (indexOf s st).any fun e => decide (t ≤ e.timeNs ∧ e.timeNs ≤ t + d)

/-- A keyframe request to a stream's sender: none within 2 s of the last; FIR when the last one produced no stored random access point
within 2 s, else PLI (R246, R247). The result is 2 for PLI, 3 for FIR, 0 when it joins the pending request. -/
def requestKey (st : Nat) (s : State) : Nat × State :=
  match tget s.fwe.streams st with
  | none => (0, s)
  | some x =>
    let now := nowNs s
    if (x.lastReq.map fun t => decide (now < t + 2000000000)).getD false then (0, s)
    else
      let fir := (x.lastReq.map fun t => !rapStored s st t 2000000000).getD false
      let s := modStream st (fun x => { x with lastReq := some now }) s
      (if fir then 3 else 2, sendRtcp (st / 4) x.ssrc (if fir then .fir x.ssrc else .pli x.ssrc) s)

/-- When a request to a stream's sender that is still pending was made: within its interval of 2 s, with no random access point stored since
(R246, R247). -/
def requestPending (s : State) (st : Nat) : Option Nat :=
  ((tget s.fwe.streams st).bind (·.lastReq)).bind fun t =>
    if t + 2000000000 ≤ nowNs s ∨ (indexOf s st).any fun e => decide (t ≤ e.timeNs) then none else some t

/-- Plumb asks the encoder of a LOCAL stream for a key picture (R193). -/
def encoderKey (st : Nat) (s : State) : State :=
  { s with vca.encs := s.vca.encs.map fun (e : Nat × Enc) => if e.2.out = st then (e.1, { e.2 with keyAsk := true }) else e }

/-! ### Jobs (R194-R201) -/

/-- Changes a repair job. -/
def modJob (j : Nat) (f : Job → Job) (s : State) : State := { s with vca.jobs := tmod s.vca.jobs j f }

/-- The job of a stream and mask (R194). -/
def jobOf (s : State) (st mask : Nat) : Option (Nat × Job) :=
  s.vca.jobs.find? fun (x : Nat × Job) => x.2.stream = st ∧ x.2.mask = mask

/-- Frees the hidden contexts of a job and the job; a rendition's internal stream goes with it (R199). -/
def dropJob (j : Nat) (s : State) : State :=
  match tget s.vca.jobs j with
  | none => s
  | some x =>
    let s := freeDec x.hidDec (dropVjob .synth j s)
    let s := { s with vca.jobs := terase s.vca.jobs j }
    match x.hidEnc with
    | some k =>
      let out := ((tget s.vca.encs k).map (·.out)).getD 0
      let s := dropVjob .encode k s
      dropWalks (fun w => w.stream = out) { s with
        mss.workFree := s.mss.workFree + ((tget s.vca.encs k).map encBytes).getD 0, vca.encs := terase s.vca.encs k, fwe.streams := terase s.fwe.streams out }
    | none => s

/-- Ends a job with a result for every entry it serves (R201, R203). -/
def endJob (j result : Nat) (s : State) : State :=
  match tget s.vca.jobs j with
  | none => s
  | some x => dropJob j (x.entries.foldl (fun s i => endEntryRepair i result s) s)

/-- R46 charges of the hidden contexts (R199). -/
def hiddenCharges (s : State) : Nat :=
  ((s.vca.decs.filter fun (d : Nat × Dec) => d.2.hidden).map fun (d : Nat × Dec) => decCharge { d.2 with hidden := false }).sum +
    ((s.vca.encs.filter fun (e : Nat × Enc) => e.2.hidden).map fun (e : Nat × Enc) => encCharge s { e.2 with hidden := false }).sum

/-- Core-cycles per second of the synthesis share. -/
def shareBudget (s : State) : Nat := gougeBudget s (ceiling (effMode s s.cpx.mode)) * shareNow s / 100

/-- The packets of a run that pass a mask. -/
def passing (recs : List CairnRec) (mask : Nat) : List RtpPkt :=
  (recs.filterMap (·.pkt)).filter fun p => maskPasses mask p.sid p.tid

/-- The size that the last sequence header of a run declares. -/
def headerSize (recs : List CairnRec) : Nat × Nat :=
  (((recs.filterMap fun r => r.pkt.bind (·.hdr)).getLast?).map fun h => (h.w, h.h)).getD (0, 0)

/-- Picture size of the highest layer of a mask that a run holds: its frames' own, else as the sequence header has it (R199). -/
def storedSize (recs : List CairnRec) (mask : Nat) : Nat × Nat :=
  let ps := passing recs mask
  let top := (ps.map fun p => min p.sid 3).foldl max 0
  ((ps.reverse.find? fun p => min p.sid 3 = top ∧ p.frame ≠ (0, 0)).map (·.frame)).getD (headerSize recs)

/-- Frames per second that a stream has sent, from what Cairn stored in the last 1 s. -/
def storedRate (s : State) (recs : List CairnRec) : Nat :=
  ((recs.filter fun r => nowNs s < r.timeNs + 1000000000).map (·.ts)).eraseDups.length

/-- Starts a repair job for entries of one stream and mask: a hidden decoder context catches up from the last random access point; with
none stored the repair ends NO_SOURCE, with no context or no working memory left NO_TIME (R194, R196, R199, R201, R255). -/
def startRepair (st mask : Nat) (bridged : Bool) (entries : List Nat) (s : State) : State :=
  match (indexOf s st).head? with
  | none => entries.foldl (fun s i => repairResult i 2 s) s
  | some rap =>
    let k := tfree s.vca.decs 0
    if capDecs (effMode s s.cpx.mode) < decsUsed s + 1 ∨ 4095 < k then entries.foldl (fun s i => repairResult i 5 s) s
    else
      let recs := cairnFrom s st rap.number
      let z := headerSize recs
      let j := s.vca.jobNo
      let d : Dec := { Dec.reset with
        state := .catchingUp, stream := st, mask := mask, maskNew := mask, maxW := z.1, maxH := z.2, rate := storedRate s recs
        consumers := 1, catchNext := rap.number, catchNs := s.cpr.aonNs, hidden := true, codec := codecOf s st, serial := s.vca.bindNo
        bufs := decBufs (codecOf s st) z.1 z.2 1, ten := ((tget s.fwe.streams st).map (·.ten)).getD false }
      let d := { d with workBytes := d.bufs * pictureBytes d.maxW d.maxH d.ten }
      if s.mss.workFree < d.workBytes then entries.foldl (fun s i => repairResult i 5 s) s else
      let job : Job := { Job.reset with
        stream := st, mask := mask, entries := entries, startNs := nowNs s, rap := rap.number, bridged := bridged, hidDec := k }
      let s := startCatch k { s with
        vca.decs := tset s.vca.decs k d, vca.jobs := tset s.vca.jobs j job, vca.jobNo := j + 1, vca.bindNo := s.vca.bindNo + 1
        mss.workFree := s.mss.workFree - d.workBytes }
      entries.foldl (fun s i =>
        let leg := ((tget s.fwe.ledger i).map (·.dest)).getD 0
        { modEntry i (fun e => { e with repair := some j }) s with
          lgv.legs := tmod s.lgv.legs leg fun g => { g with repairs := inc32 g.repairs } }) s

/-- The sender's own random access point is stored before the encode step of a job: SUPERSEDED (R201). -/
def supersede (st : Nat) (s : State) : State :=
  (s.vca.jobs.filter fun (x : Nat × Job) => x.2.stream = st ∧ x.2.phase = .catchUp).foldl (fun s x => endJob x.1 3 s) s

/-! ### Synthesis (R196-R198) -/

/-- The picture that a packet belongs to, as a reference state holds it. -/
def heldOf (size : Nat × Nat) (p : RtpPkt) : HeldPic :=
  let z := if p.frame = (0, 0) then size else p.frame
  { HeldPic.reset with ts := p.ts, sid := p.sid, order := p.order, frameNo := p.frameNo, w := z.1, h := z.2 }

/-- The reference state at the end of a run of packets under a mask: slots or pictures with what they hold (R196). -/
def refState (recs : List CairnRec) (mask : Nat) : Tbl HeldPic :=
  let z := headerSize recs
  (passing recs mask).foldl (fun m p =>
    let m := if p.rap = 1 then [] else m.filter fun x => !p.drops.contains x.1
    p.refreshes.foldl (fun m k => tset m k (heldOf z p)) m) []

/-- The picture shown at a timestamp: its highest spatial layer within the mask. -/
def shownPic (recs : List CairnRec) (mask : Nat) (ts : Word) : Option HeldPic :=
  ((passing recs mask).filter fun p => p.ts = ts).foldl (fun b p =>
    if (b.map fun x => decide (x.sid ≤ p.sid)).getD true then some (heldOf (headerSize recs) p) else b) none

/-- The pictures of a synthesis in coding order, each with the slots or pictures that hold it: the shown picture first for AV1, then the
distinct contents in increasing order (R196). -/
def synthPictures (codec : Nat) (recs : List CairnRec) (mask : Nat) (live : Word) : List HeldPic :=
  let state := refState recs mask
  let shown := shownPic recs mask live
  let all := ((state.map (·.2)) ++ shown.toList).eraseDups
  let full := all.map fun x => { x with
    slots := (state.filter fun y => y.2 = x).map (·.1), shown := decide (shown = some x) }
  let sorted := full.mergeSort fun a b => decide (a.order < b.order ∨ (a.order = b.order ∧ a.sid ≤ b.sid))
  if codec = 8 then sorted.filter (·.shown) ++ sorted.filter fun x => !x.shown else sorted

/-- The sender's parameter sets active at the end of a run: the last of each kind and id (R196). -/
def activeParams (recs : List CairnRec) : List ParamSet :=
  (recs.filterMap (·.pkt)).foldl (fun ps p => p.params.foldl (fun ps q =>
    (ps.filter fun x => !decide (x.1 = q.1 ∧ x.2.1 = q.2.1)) ++ [q]) ps) []

/-- The lowest PPS id that a stream does not use (R196). -/
def unusedPps (params : List ParamSet) : Nat :=
  ((List.range 64).find? fun i => !(params.any fun p => decide (p.1 = 1 ∧ p.2.1 = i))).getD 63

/-- What every packet of the n-th synthesised picture says (R196, R197): an AV1 key frame refreshes all slots and carries the live frame's
number, the frames after it are intra-only and refresh the slots of their content; VVC has an IDR and trailing pictures of intra slices whose
lists keep the pictures before them. -/
def synthPacket (codec : Nat) (live : Word) (held : List HeldPic) (n : Nat) (x : HeldPic) : RtpPkt :=
  { ts := live, sid := x.sid, order := x.order, frameNo := x.frameNo, frame := (x.w, x.h), form := if codec = 8 then .obu else .fu
    shown := x.shown, rap := if n ≠ 0 then 0 else if codec = 8 then 3 else 1
    refs := if codec = 8 then [] else (held.take n).flatMap fun y => y.slots.map fun k => (k, y.order)
    refreshes := if codec = 8 ∧ n = 0 then List.range 8 else x.slots }

/-- The packets of a synthesised unit: its pictures at their sizes in bits, cut at a payload; AV1's first carries the sender's sequence
header and the template structure; VVC's first the module's own PPS, and a last packet the sender's parameter sets (R196, R197). -/
def synthPackets (codec payload : Nat) (live : Word) (held : List HeldPic) (params : List ParamSet) (bits : List Nat) : List RtpPkt :=
  let pics := (held.zip bits).mapIdx fun n (x : HeldPic × Nat) =>
    (payloadSizes ((x.2 + 7) / 8) payload).mapIdx fun i m =>
      let first := decide (n = 0 ∧ i = 0)
      { synthPacket codec live held n x.1 with
        bytes := 12 + m, payload := m, template := first && decide (codec = 8)
        params := if !first then [] else if codec = 8 then params.filter (fun p => p.1 = 0) else [(1, unusedPps params, 0)]
        kept := encExts codec (first && decide (codec = 8)) }
  let last := if codec = 8 then [] else
    let m := Config.paramBytes codec % max payload 1 + 1
    [{ ts := live, bytes := 12 + m, payload := m, form := .ap, params := params, shown := false : RtpPkt }]
  let ps := pics.flatten ++ last
  ps.mapIdx fun i p => { p with sof := decide (i = 0), marker := decide (i + 1 = ps.length) }

/-- A hidden encoder context of the same codec starts on the hidden decoder's output, for a bridged rendition (R199). -/
def startBridge (j : Nat) (x : Job) (s : State) : State :=
  let k := tfree s.vca.encs 0
  let tids := (cairnFrom s x.stream x.rap).filterMap fun r => r.pkt.map fun p => min p.tid 2
  let rates := x.entries.filterMap fun i => (tget s.fwe.ledger i).bind fun e => (tget s.lgv.legs e.dest).map (·.rate)
  let (dm, s) := drawBelow 1951 s
  let (pl, s) := drawBelow 825 s
  let z := storedSize (cairnFrom s x.stream x.rap) x.mask
  let out := 262144 + j
  let rmax := (rates.min?).getD 0
  let e : Enc := { Enc.reset with
    out := out, fromDec := true, src := x.hidDec, w := z.1, h := z.2, codec := codecOf s x.stream, struct_ := tids.foldl max 0
    effortSet := 0, effort := 0, rmax := rmax, dMs := 50 + dm, target := rmax, payload := 576 + pl, hidden := true }
  let s' := { s with
    vca.encs := tset s.vca.encs k e, mss.workFree := s.mss.workFree - encBytes e
    fwe.streams := tset s.fwe.streams out { Stream.reset with origin := true, codec := e.codec, binding := 2 } }
  if capEncs (effMode s s.cpx.mode) < encsUsed s + 1 ∨ 1023 < k ∨ shareBudget s < hiddenCharges s' ∨ s.mss.workFree < encBytes e then endJob j 5 s
  else modJob j (fun x => { x with phase := .bridged, hidEnc := some k, startNs := nowNs s }) s'

/-- SYNTH_CATCH_UP_DONE: the catch-up decode of the job, in its hidden context, has reached the newest temporal unit stored, the live point. A degraded picture ends the job
DEGRADED; a random access point that has aged out, or a stream that the decoder refuses, ends it NO_SOURCE; else encoding starts (R196, R199,
R201). While the catch-up goes on nothing happens. -/
def execSynthCatchUpDone (job dec : Nat) (s : State) : Host.Outcome State Fault Refusal :=
  match tget s.vca.jobs job with
  | none => .next s
  | some x =>
    let d := (tget s.vca.decs dec).getD Dec.reset
    if x.phase ≠ .catchUp ∨ x.hidDec ≠ dec ∨ d.state = .catchingUp then .next s
    else
      let all := cairnFrom s x.stream x.rap
      let live := d.lastRel.getD 0
      let recs := all.take (all.length - (all.reverse.findIdx fun r => r.ts = live))
      let codec := codecOf s x.stream
      if (recs.head?.map (·.number)) ≠ some x.rap ∨ d.state ≠ .decoding then .next (endJob job 2 s)
      else if 0 < d.degr then .next (endJob job 1 s)
      else if x.bridged then .next (startBridge job x s)
      else
        .next (addVjob .synth job none (modJob job (fun x => { x with
          phase := .encode, live := some live, held := synthPictures codec recs x.mask live, params := activeParams recs
          slots := if codec = 8 then List.range 8 else (refState recs x.mask).map (·.1) }) s))

/-- SYNTH_NO_TIME: a job that has not reached its encode step within 500 ms ends NO_TIME (R200). -/
def execSynthNoTime (job : Nat) (s : State) : Host.Outcome State Fault Refusal :=
  match tget s.vca.jobs job with
  | some x =>
    if x.phase = .catchUp then
      let s := advanceTo ((x.startNs + 500000000) * 65536) s
      .next (endJob job 5 s)
    else .next s
  | none => .next s

/-- The number of the Cairn record of a packet. -/
def recNoOf (s : State) (st : Nat) (p : RtpPkt) : Option Nat :=
  ((cairnFrom s st 0).find? fun r => r.ts = p.ts ∧ r.seq = p.seq.toNat).map (·.number)

/-- Forwards packets of a stream to one entry in order, as walks of its chain would (R197, R199). prev: timestamp of the packet before. -/
def deliver (st i : Nat) : Option Word → List RtpPkt → State → State
  | _, [], s => s
  | prev, p :: ps, s =>
    let codec := codecOf s st
    let (copies, s) := visitAll (clockRate codec) (isAudio codec) (p.sof || decide (prev ≠ some p.ts)) p [i] s
    deliver st i (some p.ts) ps (sendAll (recNoOf s st p) p [] copies (List.replicate copies.length (some none)) s)

/-- POOL_7 buffers for n bytes: the keys taken, or none when a pool cannot serve (R83, R197). -/
def synthBuffers : Nat → State → Option (List Nat) × State
  | 0, s => (some [], s)
  | n + 1, s =>
    match bufAlloc 131073 false 7 1 s with
    | (none, s) => (none, s)
    | (some b, s) =>
      match synthBuffers n s with
      | (some bs, s) => (some (b :: bs), s)
      | (none, s) => (none, bufRelease b s)

/-- The continuity of an entry whose source has changed and that sends a synthesised unit first: the unit takes the next output numbers and a
later output timestamp, and the first packet held follows it (R77, R78, R197). -/
def liveContinued (nowNs_ clock : Nat) (live : Word) (held : List (Nat × RtpPkt)) (e : Entry) : Entry :=
  let last := match held with
    | q :: _ => q.2.seq - 1
    | [] => e.lastIn
  { e with
    lastIn := last, seqOff := (e.lastInOld + e.seqOffOld) - last, contPend := false
    tsOff := e.lastTs + w32 (max 1 (elapsedTicks nowNs_ clock e)) - live }

/-- Sends the synthesised unit to one entry: the next output sequence numbers, the live point's timestamp; the packets stay for 1 s; every
layer of the mask joins; then the held packets follow (R197, R198). -/
def sendSynth (i : Nat) (x : Job) (live : Word) (pkts : List RtpPkt) (s : State) : State :=
  match tget s.fwe.ledger i with
  | none => s
  | some e0 =>
    let (bufs, s) := synthBuffers (((pkts.map (·.payload)).sum + 524287) / 524288) s
    match bufs with
    | none => endEntryRepair i 6 s
    | some bs =>
      let e := if e0.started then e0
        else { e0 with started := true, lastIn := BitVec.ofNat 16 (((cairnFrom s x.stream x.rap).getLast?.map (·.seq)).getD 0) }
      let e := if e.contPend then liveContinued (nowNs s) (clockRate (codecOf s x.stream)) live e0.repairQ e else e
      let base := e.lastIn + e.seqOff
      let ts := live + e.tsOff
      let stop := s.cpr.aonNs + 1000000000
      let numbered := pkts.mapIdx fun n p => (base + BitVec.ofNat 16 (n + 1), p)
      let added := maskMinus e.target x.mask
      let e := { e with
        seqOff := e.seqOff + BitVec.ofNat 16 pkts.length, chgSeq := e.lastIn, lastTs := ts, active := e.target &&& x.mask
        awaiting := decide (added ≠ 0), synth := x.slots, repair := none, repairQ := []
        synPk := (e.synPk.filter fun (y : Nat × RtpPkt × Nat) => s.cpr.aonNs < y.2.2) ++ numbered.map fun y => (y.1.toNat, y.2, stop) }
      let s := { s with fwe.ledger := tset s.fwe.ledger i e, fwe.synBufs := s.fwe.synBufs ++ bs.map fun b => (b, stop) }
      let s := numbered.foldl (fun s y => sendCopy i none none y.2 y.1 ts false s) s
      deliver x.stream i (some live) (e0.repairQ.map (·.2)) (repairResult i 0 s)

/-- The synthesised pictures are coded on a core; for each entry they are sent, unless their size passes the burst limit of its leg's
decided rate by more than 25 % (R197, R200). -/
def synthDone (job core : Nat) (x : Job) (live : Word) (r : EncodeResult) (s : State) : State :=
  let s := finishVjob .synth job core false s
  let bits := x.held.mapIdx fun i _ => (((r.layers.getD i {}).rows).map fun row => row.getD 2 0).sum
  let total := bits.sum
  let pix := (x.held.map fun h => h.w * h.h).sum
  let s := modStream x.stream (fun y => { y with bpp := if pix = 0 then y.bpp else some (total * 256 / pix) }) s
  let (pl, s) := drawBelow 825 s
  let pkts := synthPackets (codecOf s x.stream) (576 + pl) live x.held x.params bits
  let s := x.entries.foldl (fun s i =>
    let rate := ((tget s.fwe.ledger i).bind fun e => (tget s.lgv.legs e.dest).map (·.rate)).getD 0
    if s.vca.burstMs * rate * 5 < total * 4 then endEntryRepair i 4 s else sendSynth i x live pkts s) s
  dropJob job s

/-- SYNTH_ENCODE_DONE (R197). -/
def execSynthEncodeDone (job : Nat) (r : EncodeResult) (s : State) : Host.Outcome State Fault Refusal :=
  match tget s.vca.jobs job, runsOn s .synth job with
  | some x, some c =>
    match x.phase, x.live with
    | .encode, some live => .next (synthDone job c x live r s)
    | _, _ => .next s
  | _, _ => .next s

/-! ### Bridged renditions (R199) -/

/-- The entries of a rendition move onto it at its first key picture, with continuity (R77, R78, R199). -/
def bridgeStart (k : Nat) (s : State) : State :=
  match s.vca.jobs.find? fun (x : Nat × Job) => x.2.hidEnc = some k with
  | none => s
  | some (j, x) =>
    x.entries.foldl (fun s i =>
      if ((tget s.fwe.ledger i).map fun e => decide (e.source = x.stream)).getD false then
        repairResult i 7 (moveFeed i (262144 + j) s)
      else s) s

/-- An entry that joins a synthesis in its encode step stands at the live point, and what came after it is held as if the entry had been
served from the start; its output goes on from the numbers sent (R194, R197, R201). -/
def joinAtLive (i : Nat) (x : Job) (live : Word) (s : State) : State :=
  let all := cairnFrom s x.stream x.rap
  let n := all.length - (all.reverse.findIdx fun r => r.ts = live)
  match (all.take n).getLast? with
  | none => s
  | some r =>
    modEntry i (fun e =>
      let seq := BitVec.ofNat 16 r.seq
      { e with
        repairQ := ((all.drop n).filterMap fun y => y.pkt.map fun p => (y.timeNs, p)), started := true
        seqOff := if e.contPend then e.seqOff else e.lastIn + e.seqOff - seq, lastIn := seq, chgSeq := seq }) s

/-- An entry joins the job of its stream and mask: one whose rendition runs moves onto it, for which the rendition codes a key picture; one
whose synthesis is in its encode step is brought to the live point (R194, R199, R201, R246). -/
def joinJob (j i : Nat) (s : State) : State :=
  match tget s.vca.jobs j with
  | none => s
  | some x =>
    if x.entries.contains i then s
    else
      let s := modEntry i (fun e => { e with repair := some j }) (modJob j (fun x => { x with entries := x.entries ++ [i] }) s)
      match x.phase, x.hidEnc, x.live with
      | .bridged, some k, _ => repairResult i 7 (moveFeed i (262144 + j) (modEnc k (fun e => { e with keyNext := true }) s))
      | .encode, _, some live => joinAtLive i x live s
      | _, _, _ => s

/-- The hidden decoder has decoded a random access point of the sender cleanly: the entries move back to the sender's stream at that
picture, and the hidden contexts go (R199). Entries that never moved take the natural point. -/
def bridgeEnd (j : Nat) (x : Job) (ts : Word) (s : State) : State :=
  let recs := (cairnFrom s x.stream x.rap).dropWhile fun r => r.ts ≠ ts
  let s := x.entries.foldl (fun s i =>
    match tget s.fwe.ledger i with
    | none => s
    | some e =>
      if e.source = x.stream then endEntryRepair i 3 s
      else
        deliver x.stream i none (recs.filterMap (·.pkt)) (modEntry i (fun e => { e with repair := none }) (moveFeed i x.stream s))) s
  dropJob j s

/-- BRIDGED_LIMIT_EXPIRY: no access point of the sender came within the bridged limit; Plumb sends one keyframe request and the rendition
goes on (R199). -/
def execBridgedLimitExpiry (job : Nat) (s : State) : Host.Outcome State Fault Refusal :=
  match tget s.vca.jobs job with
  | some x =>
    if x.phase = .bridged ∧ !x.asked then
      let s := advanceTo ((x.startNs + s.vca.bridgeS * 1000000000) * 65536) s
      .next (requestKey x.stream (modJob job (fun x => { x with asked := true }) s)).2
    else .next s
  | none => .next s

/-- ENCODE_JOB_COMPLETE: an encode job ends on the core that runs it and its unit is sent; the first key picture of a rendition takes its
entries along (R177, R179, R199). -/
def execEncodeJobComplete (ctx : Nat) (r : EncodeResult) (s : State) : Host.Outcome State Fault Refusal :=
  match tget s.vca.encs ctx, runsOn s .encode ctx with
  | some e, some c =>
    match e.job with
    | none => .next s
    | some j =>
      let (out, s) := encodeDone ctx c j r s
      let s := if e.hidden ∧ j.key ∧ out ≠ [] then bridgeStart ctx s else s
      .next (encodeNext ctx (sendUnit j out s))
  | _, _ => .next s

/-- The timestamp of a refresh picture among the records that a step posted for a context (R167). -/
def refreshPosted (ctx before : Nat) (s : State) : Option Word :=
  ((s.vca.records.drop before).find? fun r => r.ctx = ctx ∧ r.refresh).map (·.ts)

/-- DECODE_JOB_COMPLETE: a decode job finishes (R147). A refresh picture of the sender that the hidden context of a rendition decodes ends the
rendition (R199). -/
def execDecodeJobComplete (ctx : Nat) (r : DecodeResult) (s : State) : Host.Outcome State Fault Refusal :=
  let s' := decodeJob ctx r s
  match s'.vca.jobs.find? (fun (x : Nat × Job) => x.2.hidDec = ctx ∧ x.2.phase = .bridged), refreshPosted ctx s.vca.records.length s' with
  | some (j, x), some ts => .next (bridgeEnd j x ts s')
  | _, _ => .next s'

/-! ### Commands (R203, R204) -/

/-- VID_KEYFRAME's body (R203). -/
def keyframe (c : Cmd) (s : State) : Res :=
  let k := field (word c 0) 0 16
  let i := field (word c 1) 0 19
  let method := field (word c 1) 20 2
  match field (word c 0) 16 4 with
  | 0 =>
    checks [(decide (1023 < k), .badParam), (!thas s.vca.encs k, .badTarget)]
      (.done [] (modEnc k (fun e => if bit (word c 0) 20 then { e with keyNext := true } else { e with keyAsk := true }) s))
  | 1 =>
    checks [(decide (method = 3), .badParam), (!thas s.fwe.ledger i, .badTarget)]
      (.accepted i (modEntry i (fun e => { e with needs := e.needs ++ [16 * method] }) s))
  | _ => .refuse .badParam

/-- VID_KEYFRAME (R203). -/
def execVidKeyframe (c : Cmd) (s : State) : Host.Outcome State Fault Refusal :=
  .next <| serve 0x0503 (fnLens [1, 2] c) c s (keyframe c)

/-- ENTRY_REPAIR_DONE: the result of an entry's repair is reported to every VID_KEYFRAME that waits for it (R203). -/
def execEntryRepairDone (entry result : Nat) (s : State) : Host.Outcome State Fault Refusal :=
  if s.vca.results.contains (entry, result) then
    .next (endEveryLong 0x0503 entry [w32 result] { s with vca.results := s.vca.results.filter fun r => r.1 ≠ entry })
  else .next s

/-- VID_SYNTH_POLICY (R204). -/
def execVidSynthPolicy (c : Cmd) (s : State) : Host.Outcome State Fault Refusal :=
  .next <| serve 0x0504 (exactly 2) c s fun s =>
    let share := field (word c 0) 0 8
    let burst := field (word c 1) 0 16
    let limit := field (word c 1) 16 16
    checks [(decide ((50 < share ∧ share ≠ 255) ∨ burst < 50 ∨ 2000 < burst ∨ limit < 1 ∨ 60 < limit), .badParam)]
      (.done [] { s with vca.polNew := some (nextBoundaryNs 10000000 s, share + field (word c 0) 8 3 * 256, burst, limit) })

/-- A policy that waits takes effect at its epoch boundary (R204). -/
def applyPolicy (s : State) : State :=
  match s.vca.polNew with
  | none => s
  | some (due, w, burst, limit) =>
    if nowNs s < due then s
    else { s with
      vca.share := w % 256, vca.allowBridge := decide (w / 256 % 2 = 1), vca.allowAv1 := decide (w / 512 % 2 = 1)
      vca.allowVvc := decide (w / 1024 % 2 = 1), vca.burstMs := burst, vca.bridgeS := limit, vca.polNew := none }

end Sys2Proof.Machine
end

