-- ==== Sys2Proof/Machine/Trace.lean ====
section
/-!
DEFINITION. The decision trace (13 R346; 16 R403, R406).
-/

namespace Sys2Proof.Machine

/-- Records the trace buffer holds (R346). -/
def traceSize : Nat := 4194304

/-- Writes a trace record with a time while its subsystem's bit is set and the trace runs: mode 1 wraps, mode 2 stops when full (R346, R403,
R406). -/
def traceAt (now sub kind core object flow detail : Nat) (s : State) : State :=
  if s.cpx.traceMode = 0 ∨ (s.cpx.traceMask >>> sub) % 2 = 0 then s
  else
    let r : TraceRec :=
      { timeNs := now % 2 ^ 48, sub := sub, kind := kind, core := core, object := object % 2 ^ 32, flow := flow % 65536
        detail := detail % 65536 }
    let s := engineTraffic .traceBuffer 16 s
    if s.cpx.trace.length < traceSize then { s with cpx.trace := s.cpx.trace ++ [r] }
    else if s.cpx.traceMode = 1 then { s with cpx.trace := s.cpx.trace.drop 1 ++ [r], cpx.traceLost := inc32 s.cpx.traceLost }
    else { s with cpx.traceLost := inc32 s.cpx.traceLost }

/-- Writes a trace record stamped by a capture of TSU time (R35, R403). -/
def traceRec (sub kind core object flow detail : Nat) (s : State) : State :=
  let (now, t) := stamp s
  if s.cpx.traceMode = 0 ∨ (s.cpx.traceMask >>> sub) % 2 = 0 then s else traceAt now sub kind core object flow detail t

end Sys2Proof.Machine
end

