-- ==== Sys2Proof/Machine/Governor.lean ====
section
/-!
DEFINITION. Plumb, the leg governor (09 R232-R253): the estimators, fair shares, the spending of a leg's rate, masks, encoder targets,
refresh handling and the GOV_ commands. Times of the estimator are in 2^-16 ms.
-/

namespace Sys2Proof.Machine

/-- Changes a leg's governance. -/
def modGov (i : Nat) (f : Gov → Gov) (s : State) : State := { s with lgv.legs := tmod s.lgv.legs i f }

/-- Writes a record of the decision trace, stamped with the publication time (R252). -/
def plumbTrace (kind object flow detail : Nat) (s : State) : State := traceAt (nowNs s) 15 kind 0xFF object flow detail s

/-! ### The delay-gradient estimator (R236) -/

/-- 2^-16 ms of ns. -/
def toMs16 (ns : Nat) : Int := (ns * 65536 / 1000000 : Nat)

/-- Send records in groups: packets sent within 5 ms of the group's first packet. cur: the group in progress, newest first. -/
def sendGroups : List SendRec → List SendRec → List (List SendRec)
  | [], [] => []
  | [], cur => [cur.reverse]
  | r :: rs, cur =>
    match cur.getLast? with
    | none => sendGroups rs [r]
    | some f => if r.sentNs ≤ f.sentNs + 5000000 then sendGroups rs (r :: cur) else cur.reverse :: sendGroups rs [r]

/-- The least-squares slope of a window as numerator and denominator. -/
def slopeOf (w : List (Int × Int)) : Int × Int :=
  let n : Int := w.length
  let x0 := ((w.head?).map (·.1)).getD 0
  let xs := w.map fun p => p.1 - x0
  let ys := w.map (·.2)
  let sx := xs.sum
  (n * ((xs.zip ys).map fun p => p.1 * p.2).sum - sx * ys.sum, n * (xs.map fun x => x * x).sum - sx * sx)

/-- One group of the estimator: send and arrival of its last packet. -/
def estimateGroup (g : Gov) (send arr : Int) : Gov :=
  match g.lastArr with
  | none => { g with lastArr := some (send, arr) }
  | some (send0, arr0) =>
    let acc := g.acc + ((arr - arr0) - (send - send0))
    let sm := Int.tdiv (9 * g.sm + acc) 10
    let win := (g.win ++ [(arr, sm)]).drop (g.win.length + 1 - 20)
    let seen := g.groups + 1
    let (num, den) := slopeOf win
    let trend := if win.length < 20 ∨ den = 0 then g.trend else Int.tdiv (num * (min seen 60 : Nat) * 4 * 65536) den
    let dt : Int := match g.lastAdapt with
      | some t => max 0 (min (arr - t) 6553600)
      | none => 0
    let mag : Int := trend.natAbs
    let gamma :=
      if mag - g.gamma ≤ 983040 then
        if g.gamma < mag then g.gamma + Int.tdiv ((mag - g.gamma) * dt) 6553600
        else g.gamma + Int.tdiv ((mag - g.gamma) * dt * 18) (100000 * 65536)
      else g.gamma
    let gamma := max (max 393216 (2 * ((g.jitterUs * 65536 / 1000 : Nat) : Int))) (min 39321600 gamma)
    let isOver := gamma < trend
    let time := if isOver then g.overTime + dt else 0
    let st : GovState :=
      if isOver then (if 655360 ≤ time ∧ g.prevTrend ≤ trend then .overuse else g.state)
      else if trend < -gamma then .underuse else .normal
    { g with
      lastArr := some (send, arr), acc := acc, sm := sm, win := win, groups := seen, trend := trend, prevTrend := trend
      lastAdapt := some arr, gamma := gamma, overTime := time, state := st }

/-- The groups not yet taken whose last packet has a reported arrival, in order; a group still open waits. -/
def estimate (now : Nat) (g : Gov) : Gov :=
  let from_ : Int := (g.lastArr.map (·.1)).getD (-1)
  let rs := g.sent.filter fun r => from_ < toMs16 r.sentNs
  (sendGroups rs []).foldl (fun g grp =>
    match grp.head?, grp.getLast? with
    | some f, some l =>
      match l.arrNs with
      | some a => if f.sentNs + 5000000 < now then estimateGroup g (toMs16 l.sentNs) (toMs16 a) else g
      | none => g
    | _, _ => g) g

/-! ### Measurements and the rate (R235, R237) -/

/-- Loss in 1/1,024 over the last 100 ms of send times; with no such packet reported the last value stays. A leg that sends no RFC 8888
reports has the fraction lost of its latest receiver report. -/
def lossNow (now : Nat) (g : Gov) : Nat :=
  let rs := g.sent.filter fun r => r.reported ∧ now ≤ r.sentNs + 100000000
  if rs = [] then (if g.haveDelay then g.lossP else g.lossRr) else (rs.filter fun r => r.arrNs.isNone).length * 1024 / rs.length

/-- Acked rate in 1/256 kb/s over the last 500 ms of feedback. -/
def ackedNow (now : Nat) (g : Gov) : Nat :=
  ((g.sent.filter fun r => r.arrNs.isSome ∧ now ≤ r.repNs + 500000000).map (·.size)).sum * 8 * 256 / 500

/-- Bits sent over the last 100 ms. -/
def sentNow (now : Nat) (g : Gov) : Nat := ((g.sent.filter fun r => now ≤ r.sentNs + 100000000).map (·.size)).sum * 8

/-- Audio rate a in b/s over the last 1 s. -/
def audioNow (now : Nat) (g : Gov) : Nat := ((g.sent.filter fun r => r.aud ∧ now ≤ r.sentNs + 1000000000).map (·.size)).sum * 8

/-- A_loss from the bits of the last 100 ms and p in 1/1,024: the rate sent less half of p, in 1/256 kb/s (R237). -/
def lossRate (bits p : Nat) : Nat := bits * 256 * (2048 - p) / (100 * 2048)

/-- srtt in us; 100 ms before any sample. -/
def srttUs (g : Gov) : Nat := g.srtt.getD 100000

/-- A round-trip sample (R235). -/
def addRtt (us : Nat) (g : Gov) : Gov :=
  { g with srtt := some (match g.srtt with
    | some t => ((t : Int) + Int.tdiv ((us : Int) - t) 8).toNat
    | none => us) }

/-- A measurement of a leg from a receiver report or a round trip (R235). -/
def takeMeasure (g : Gov) (m : Option (Nat × Nat) × Option Nat) : Gov :=
  let g := match m.1 with
    | some (jitter, loss) => { g with jitterUs := jitter, lossRr := loss }
    | none => g
  match m.2 with
  | some t => addRtt t g
  | none => g

/-- A measurement arrives for a leg (R232, R235). -/
def measureLeg (leg : Nat) (m : Option (Nat × Nat) × Option Nat) (s : State) : State :=
  modGov leg (fun g => if atBoundary s then { g with later := g.later ++ [m] } else takeMeasure g m) s

/-- A refresh need of an entry from a PLI or FIR (R232, R246). -/
def measureNeed (i : Nat) (s : State) : State := noteNeed i 0 s

/-- What arrived at the boundary itself counts from now on (R232, R251). -/
def takeLater (s : State) : State :=
  let s := { s with lgv.legs := s.lgv.legs.map fun (g : Nat × Gov) => (g.1, { g.2.later.foldl takeMeasure g.2 with later := [] }) }
  s.lgv.needLater.foldl (fun s n => modEntry n.1 (fun e => { e with needs := e.needs ++ [n.2] }) s) { s with lgv.needLater := [] }

/-- The send records as an epoch that ends at b has them: packets sent and reports received before b (R232). -/
def recordsBefore (b : Nat) (rs : List SendRec) : List SendRec :=
  (rs.filter fun r => r.sentNs < b).map fun r => if r.reported ∧ b ≤ r.repNs then { r with reported := false, arrNs := none } else r

/-- The growth per epoch for an increase limit in 0.1 % per second, in 2^-32: the largest fraction whose hundredth power does not pass
it. n bounds the search. -/
def growth (up : Nat) : Nat → Nat → Nat
  | 0, q => q
  | n + 1, q =>
    let t := q + 2 ^ n
    growth up n (if t ^ 100 * 1000 ≤ (1000 + up) * 2 ^ 3200 then t else q)

/-- A rate in 1/256 kb/s grown by one epoch, to the nearest unit. -/
def grow (up rate : Nat) : Nat := (rate * growth up 29 (2 ^ 32) + 2 ^ 31) / 2 ^ 32

/-- An increase: the rate grows by one epoch and is at most the ceiling (R237). -/
def growTo (up ceil rate : Nat) : Nat := min (grow up rate) ceil

/-- FEC share in percent (R239): from loss and the class maximum, halved on short paths; spent only with a protected video entry. -/
def fecShare (cap p srtt : Nat) (any_ : Bool) : Nat :=
  if !any_ ∨ p * 100 < 1024 then 0
  else
    let f := min cap (2 * p * 100 / 1024)
    if srtt ≤ 50000 then f / 2 else f

/-- The video budget V of a rate, with the audio rate in b/s (R239). -/
def videoBudget (rate fecPc audio : Nat) : Nat := (rate * (100 - fecPc) * 10 - audio) / 1000

/-! ### Operating points and shares (R235, R241, R242) -/

/-- Wire rate in kb/s of a layer of a stream over the 1 s before b. -/
def layerRate (s : State) (b st sid tid : Nat) : Nat :=
  match tget s.fwe.streams st with
  | none => 0
  | some x => ((x.layerBytes.filter fun (r : Nat × Nat × Nat) => r.2.1 = sid * 4 + tid ∧ b ≤ r.1 + 1000000000 ∧ r.1 < b).map
      fun (r : Nat × Nat × Nat) => r.2.2).sum * 8 / 1000

/-- The rate of an operating point of a stream: its layers' rates. -/
def maskRate (s : State) (b st mask : Nat) : Nat :=
  ((List.range 16).map fun i => if maskPasses mask (i / 4) (i % 4) then layerRate s b st (i / 4) (i % 4) else 0).sum

/-- The masks Plumb may choose within a ceiling, with their rates: contiguous from T0 and S0 (R242). -/
def opMasks (s : State) (b st ceiling : Nat) : List (Nat × Nat) :=
  ([1, 3, 7, 15].flatMap fun t => [16, 48, 112, 240].map fun sp => t + sp).filterMap fun m =>
    if maskMinus m ceiling = 0 then some (m, maskRate s b st m) else none

/-- The point of highest rate among some, the larger mask among equals. -/
def topPoint : List (Nat × Nat) → Option (Nat × Nat)
  | [] => none
  | p :: ps => match topPoint ps with
    | some q => if p.2 < q.2 ∨ (p.2 = q.2 ∧ p.1 < q.1) then some q else some p
    | none => some p

/-- The point of lowest rate among some, the smaller mask among equals. -/
def lowPoint : List (Nat × Nat) → Option (Nat × Nat)
  | [] => none
  | p :: ps => match lowPoint ps with
    | some q => if q.2 < p.2 ∨ (q.2 = p.2 ∧ q.1 < p.1) then some q else some p
    | none => some p

/-- The ceiling that Plumb uses for an entry: the one of the last computation, within the one that SUB_ADD has set since (R251). -/
def ceilingNow (s : State) (i : Nat) (e : Entry) : Nat :=
  match tget s.lgv.ceilings i with
  | some (src, c) => if src = e.source then c &&& e.ceiling else 0
  | none => 0

/-- The video entries of a leg that the computation saw, valid and not paused, under their ceilings (R241, R251). -/
def computedEntries (s : State) (es : Tbl Entry) : Tbl Entry :=
  (es.filter fun (e : Nat × Entry) => ((tget s.lgv.ceilings e.1).map fun c => decide (c.1 = e.2.source)).getD false).map fun e =>
    (e.1, { e.2 with ceiling := ceilingNow s e.1 e.2 })

/-- The video entries of a leg that are valid and not paused, by index (R241). -/
def videoEntries (s : State) (leg : Nat) : Tbl Entry :=
  (entriesTo s leg).filter fun (e : Nat × Entry) => e.2.valid ∧ !e.2.paused ∧ !isAudio (codecOf s e.2.source)

/-- Gives surplus share to entries in ascending order, each up to what the up-switch test of its top point needs. -/
def passSurplus : Nat → List (Nat × Nat × Nat) → List (Nat × Nat)
  | _, [] => []
  | left, (i, have_, want) :: es =>
    let take := min left (want - have_)
    (i, have_ + take) :: passSurplus (left - take) es

/-- The shares of V (R241): equal, and what an entry's top point does not use passes to the others. -/
def videoShares (s : State) (b V : Nat) (es : Tbl Entry) : List (Nat × Nat) :=
  let base := V / max es.length 1
  let tops := es.map fun (e : Nat × Entry) =>
    (e.1, ((topPoint (opMasks s b e.2.source e.2.ceiling)).map (·.2)).getD 0)
  let left := (tops.map fun t => base - t.2).sum
  passSurplus left (tops.map fun t => (t.1, base, if t.2 < base then 0 else (10 * t.2 + 8) / 9))

/-- The next higher point of an entry. -/
def nextPoint (s : State) (b : Nat) (e : Entry) : Option (Nat × Nat) :=
  let ps := opMasks s b e.source e.ceiling
  let r := if e.target = 0 then 0 else maskRate s b e.source e.target
  lowPoint (ps.filter fun p => if e.target = 0 then true else r < p.2)

/-- Whether some entry would pass the up-switch test at its next point with a rate R. -/
def upPasses (s : State) (b fecPc audio : Nat) (es : Tbl Entry) (R : Nat) : Bool :=
  (videoShares s b (videoBudget R fecPc audio) es).any fun x =>
    match (tget es x.1).bind (nextPoint s b) with
    | some p => decide (10 * p.2 ≤ 9 * x.2)
    | none => false

/-- The smallest R of at most 2^n - 1 + lo that passes; lo holds the rates known not to. -/
def smallestUp (pass : Nat → Bool) : Nat → Nat → Nat
  | 0, lo => lo
  | n + 1, lo => if pass (lo + 2 ^ n - 1) then smallestUp pass n lo else smallestUp pass n (lo + 2 ^ n)

/-- The ceiling of a leg's estimates in 1/256 kb/s (R237). -/
def rateCeiling (s : State) (b acked fecPc audio : Nat) (es : Tbl Entry) : Nat :=
  let r := if upPasses s b fecPc audio es (2 ^ 20 - 1) then smallestUp (upPasses s b fecPc audio es) 20 0 else 0
  max (3 * acked / 2) (256 * r)

/-- The measurements and estimates of a leg at an epoch boundary b; the decision is published at b + 10 ms, and S is the time from the
publication of the last decrease to that instant. The first computation starts the estimates at the class start rate (R232, R235-R237, R239). -/
def computeLeg (s : State) (b i : Nat) (l : Leg) (g0 : Gov) : Gov :=
  let g := { g0 with sent := recordsBefore b g0.sent }
  let c := classOf s l.cls
  let up := if c.up = 0 then s.lgv.modeUp else c.up
  let beta := if c.down = 0 then s.lgv.modeDown else c.down
  let first := !g.published && g.next.isNone
  let g := if first then { g with aDelay := c.start * 256, aLoss := c.start * 256 } else g
  let g := estimate b { g with up := up, beta := beta, haveDelay := g.haveDelay || g.sent.any (·.arrNs.isSome) }
  let p := lossNow b g
  let g := { g with lossP := p, acked := ackedNow b g }
  let es := videoEntries s i
  let fecPc := fecShare c.fecMax p (srttUs g) ((entriesTo s i).any fun (e : Nat × Entry) => e.2.fec && !isAudio (codecOf s e.2.source))
  let audio := audioNow b g
  let g := { g with sent := g0.sent }
  if l.kind = .tree then
    { g with next := some { rate := c.cap * 256, action := 0, inband := false, fecPc := 0, audio := audio } }
  else
    let ceil := rateCeiling s b g.acked fecPc audio es
    let sent := sentNow b { g with sent := recordsBefore b g.sent }
    let pub := b + 10000000
    let since := (g.lastDec.map fun t => pub - t).getD (2 ^ 60)
    let wait := srttUs g * 1000 + 100000000
    let down := decide (g.haveDelay ∧ g.state = .overuse ∧ wait ≤ since)
    let rise := decide (g.haveDelay ∧ g.state = .normal ∧ max wait 200000000 ≤ since)
    let aDelay := if down then beta * g.acked / 1000 else if rise then growTo up ceil g.aDelay else g.aDelay
    let aLoss := if 1024 < p * 10 then lossRate sent p
      else if p * 50 < 1024 then growTo up ceil g.aLoss else g.aLoss
    let aDelay := max aDelay (c.minR * 256)
    let aLoss := max aLoss (c.minR * 256)
    let used := if g.haveDelay then aDelay else c.cap * 256
    let R := max (c.minR * 256) (min (c.cap * 256) (min used aLoss))
    let inband := if 1024 ≤ p * 50 then true else if p * 100 < 1024 then false else g.inband
    { g with
      aDelay := aDelay, aLoss := aLoss
      next := some { rate := R, action := if down then 2 else if rise then 1 else 0, inband := inband, fecPc := fecPc, audio := audio } }

/-! ### Fair shares and overrides (R238, R249, R250) -/

/-- Applies one override: 0 pin, 1 cap, 2 freeze, 3 release, and 8 more when SHAPER_SET gave it; what the other of GOV_OVERRIDE and
SHAPER_SET had set goes (R249, R253). -/
def applyOverride (leg : Nat) (o : Nat × Nat) (s : State) : State :=
  let tree := ((tget s.fwe.legs leg).map fun l => decide (l.kind = .tree)).getD false
  let shaper := decide (8 ≤ o.1)
  let fn := o.1 % 8
  let s := plumbTrace 6 o.2 leg fn s
  let s := modGov leg (fun g =>
    let g := if g.byShaper = shaper then g else { g with pin := none, capR := none, frozen := false, byShaper := shaper }
    if fn = 0 then { g with pin := some o.2, capR := none }
    else if fn = 1 then { g with pin := none, capR := some o.2 }
    else if fn = 2 then { g with frozen := !tree }
    else { g with pin := none, capR := none, frozen := false }) s
  if fn = 3 then { s with tsh.legs := tmod s.tsh.legs leg fun x => { x with burstSet := none } } else s

/-- C_p in kb/s: what the OLT granted to the port's allocation over the 1 s before b; 0 for a port not bound (R238, R291). -/
def portCap (s : State) (b port : Nat) : Nat :=
  let x := s.ptu.ports.getD port PonPort.reset
  if x.alloc = 0xFFFF ∨ x.xgem = 0xFFFF then 0
  else (((s.ptu.ports.getD port PonPort.reset).granted.filter fun (g : Nat × Nat) => b ≤ g.1 + 1000000000 ∧ g.1 < b).map
    fun (g : Nat × Nat) => g.2).sum * 8 / 1000

/-- A share in 1/256 kb/s at a level L in 2^-24 kb/s: weight, minimum and R (R238). -/
def fairAt (L : Nat) (x : Nat × Nat × Nat × Nat) : Nat := max x.2.1 (min x.2.2.2 (x.2.2.1 * L / 65536))

/-- The largest level whose shares total at most the budget. n bounds the search. -/
def fairLevel (xs : List (Nat × Nat × Nat × Nat)) (budget : Nat) : Nat → Nat → Nat
  | 0, L => L
  | n + 1, L => fairLevel xs budget n (if ((xs.map (fairAt (L + 2 ^ n))).sum ≤ budget) then L + 2 ^ n else L)

/-- The rates of one PON port's legs after R238 and R250. rates: the legs' R after overrides, in 1/256 kb/s. -/
def fairPort (b port : Nat) (rates : Tbl Nat) (s : State) : Tbl Nat × List Nat × State :=
  let on := s.lgv.legs.filterMap fun (g : Nat × Gov) =>
    match tget s.fwe.legs g.1, tget rates g.1 with
    | some l, some r => if l.port = port then some (g.1, l, g.2, r) else none
    | _, _ => none
  let c := portCap s b port
  let held := on.filter fun x => x.2.2.1.pin.isSome ∨ x.2.1.kind = .tree ∨ x.2.2.1.frozen
  let pins := ((on.filter fun x => x.2.2.1.pin.isSome).map fun x => x.2.2.2).sum
  let used := (held.map fun x => x.2.2.2).sum
  let free := (on.filter fun x => !(x.2.2.1.pin.isSome ∨ x.2.1.kind = .tree ∨ x.2.2.1.frozen)).map fun x =>
    let cl := classOf s x.2.1.cls
    (x.1, cl.minR * 256, cl.weight, x.2.2.2)
  let pinsOver := decide (c * 95 * 256 / 100 < pins)
  let budget := c * 95 * 256 / 100 - used
  let s := if pinsOver then
      if (tget s.lgv.pinEvt port).any fun t => s.cpr.aonNs < t + 60000000000 then s
      else fault 0xF002 [w32 port] { s with lgv.pinEvt := tset s.lgv.pinEvt port s.cpr.aonNs }
    else s
  if (free.map fun x => x.2.2.2).sum ≤ budget then (rates, [], s)
  else
    let mins := (free.map fun x => x.2.1).sum
    let s := if budget < mins then modPort port (fun p => { p with shortfall := p.shortfall + 1 }) s else s
    let L := if budget < mins ∨ pinsOver then 0 else fairLevel free budget 56 0
    let outs := free.map fun x => (x.1, fairAt L x)
    let limited := (free.filter fun x => fairAt L x < x.2.2.2).map (·.1)
    (outs.foldl (fun t o => tset t o.1 o.2) rates, limited, plumbTrace 7 (budget / 256) 0xFFFF (port + 16 * min limited.length 4095) s)

/-! ### Spending the rate (R239-R243) -/

/-- Moves one entry's target at a publication, with its share (R243). -/
def moveTarget (b pub i share : Nat) (decreased : Bool) (s : State) : State :=
  match tget s.fwe.ledger i with
  | none => s
  | some e =>
    let ps := opMasks s b e.source (ceilingNow s i e)
    let r := if e.target = 0 then 0 else maskRate s b e.source e.target
    let hold := if decreased ∧ e.lastUp ≠ 0 ∧ pub ≤ e.lastUp + 5000000000 then min 32000 (2 * e.holdMs)
      else if 2000 < e.holdMs ∧ e.lastFailNs + 60000000000 ≤ pub then 2000 else e.holdMs
    let fail := if decreased ∧ e.lastUp ≠ 0 ∧ pub ≤ e.lastUp + 5000000000 then pub else e.lastFailNs
    let lowest := ((lowPoint ps).map (·.2)).getD 0
    let low := if 2 * share < lowest then some (e.lowSince.getD pub) else none
    let passing := ps.filter fun p => (if e.target = 0 then true else decide (r < p.2)) && decide (10 * p.2 ≤ 9 * share)
    let since := passing.map fun p => (p.1, ((e.upSince.find? fun u => u.1 = p.1).map (·.2)).getD pub)
    let ripe := passing.filter fun p => (since.find? fun u => u.1 = p.1).any fun u => decide (u.2 + hold * 1000000 ≤ pub)
    let down := (topPoint (ps.filter fun p => p.2 ≤ share)).orElse fun _ => lowPoint ps
    let target :=
      if (low.map fun t => decide (t + 1000000000 ≤ pub)).getD false then 0
      else if e.target ≠ 0 ∧ share < r then (down.map (·.1)).getD e.target
      else match topPoint ripe with
        | some p => p.1
        | none => e.target
    let upped := decide (ripe ≠ [] ∧ target ≠ e.target ∧ r ≤ maskRate s b e.source target ∧ target ≠ 0)
    let s := modEntry i (fun e => { e with
      target := target, share := share, holdMs := hold, lastFailNs := fail, lowSince := low
      upSince := since, lastUp := if upped then pub else e.lastUp }) s
    if target = e.target then s else plumbTrace 2 i e.dest (target + 256 * e.target) s

/-- A leg's estimates for publication; without delay samples A_delay is the class cap (R237, R253). -/
def shownOf (cap : Nat) (k : LegKind) (g : Gov) : GovShown :=
  { state := g.state, aDelay := if g.haveDelay && decide (k ≠ .tree) then g.aDelay / 256 else cap, aLoss := g.aLoss / 256, acked := g.acked / 256
    lossP := g.lossP, trend := g.trend, gamma := g.gamma }

/-- Publishes one leg's rate, given in 1/256 kb/s, and what it is spent on; its entries' targets are written as an item of the leg's flow
(R87, R234, R237, R239, R245, R252). limited: fairness. -/
def publishLeg (b pub i fine : Nat) (limited : Bool) (s : State) : State :=
  match (tget s.fwe.legs i).bind fun l => (tget s.lgv.legs i).bind fun g => g.next.map fun d => (l, g, d) with
  | none => s
  | some (l, g, d) =>
    let c := classOf s l.cls
    let rate := fine / 256
    let hold := g.frozen
    let bound := g.pin.isSome || g.capR.isSome || hold
    let opus := if hold then g.opus else max c.opusMin (min c.opusMax (rate * 5 / 100))
    let inband := if hold then g.inband else d.inband
    let fecPc := if hold then g.fecPc else d.fecPc
    let V := if hold then g.video else videoBudget rate fecPc d.audio
    let s := modGov i (fun g => { g with
      rate := rate, action := d.action, fair := if limited then some rate else none, opus := opus, inband := inband, fecPc := fecPc
      video := V, published := true, next := none, shown := shownOf c.cap l.kind g
      lastDec := if d.action = 2 then some pub else g.lastDec }) s
    let s := setLegRate i rate s
    let s := if c.trace then
        let lim := if bound then 3 else if limited then 2 else if g.aLoss < (if g.haveDelay then g.aDelay else c.cap * 256) then 1 else 0
        let st := match g.state with
          | .normal => 0
          | .overuse => 1
          | .underuse => 2
        plumbTrace 1 rate i (opus + b1 inband * 512 + fecPc * 1024)
          (plumbTrace 0 (if g.haveDelay then g.aDelay / 256 else 0xFFFFFFFF) i (st + d.action * 4 + lim * 16 + min g.lossP 1023 * 64) s)
      else s
    if hold ∨ l.kind = .tree then s
    else
      let s := inFlow i s
      (videoShares s b V (computedEntries s (videoEntries s i))).foldl (fun s x => moveTarget b pub x.1 x.2 (d.action == 2) s) s

/-! ### Encoder targets (R244) -/

/-- Applies one override of an encoder's target: 4 pin, 5 release (R250, R253). -/
def applyEncOverride (k : Nat) (o : Nat × Nat) (s : State) : State :=
  modEnc k (fun e => { e with pinned := if o.1 = 4 then some o.2 else none }) (plumbTrace 6 o.2 0xFFFF o.1 s)

/-- Applies the overrides that wait for an encoder's next publication (R250). -/
def applyEncOverrides (k : Nat) (s : State) : State :=
  (((tget s.vca.encs k).map (·.ovNew)).getD []).foldl (fun s o => applyEncOverride k o s) (modEnc k (fun e => { e with ovNew := [] }) s)

/-- Publishes an encoder context's target. -/
def publishEncoder (k : Nat) (s : State) : State :=
  match tget s.vca.encs k with
  | none => s
  | some e =>
    let top := 2 ^ (4 + (spatialLayers e.struct_ - 1))
    let es := s.fwe.ledger.filter fun (x : Nat × Entry) => x.2.source = e.out ∧ x.2.valid ∧ !x.2.paused ∧ ceilingNow s x.1 x.2 / top % 2 = 1
    let shares := (es.map fun (x : Nat × Entry) =>
      if x.2.tree then ((tget s.lgv.legs x.2.dest).map (·.rate)).getD 0 else x.2.share).mergeSort fun a b => decide (a ≤ b)
    let n := shares.length
    let want := 256 * max 64 (min e.rmax (shares.getD ((n + 9) / 10 - 1) 0))
    let old := if e.fine = 0 then 256 * e.target else e.fine
    let fine := if n = 0 then old else if old < want then min want (grow s.lgv.modeUp old) else want
    let e' := { e with target := e.pinned.getD (fine / 256), fine := fine, legs := n }
    let s := { s with vca.encs := tset s.vca.encs k e' }
    if targetOf e' = targetOf e then s else plumbTrace 3 (k + 1024 * targetOf e') 0xFFFF (min n 65535) s

/-! ### Refresh: request or repair (R246, R247) -/

/-- Whether a stream may be synthesised: policy, codec, R195, back-off (R195, R201, R204). -/
def synthEligible (s : State) (st : Nat) : Bool :=
  match tget s.fwe.streams st with
  | none => false
  | some x =>
    ((decide (x.codec = 8) && s.vca.allowAv1) || (decide (x.codec = 9) && s.vca.allowVvc)) && x.synthOk && decide (x.backoffNs ≤ nowNs s)

/-- Whether Cairn keeps a stream, so that repair can serve it (R194). -/
def repairable (s : State) (st : Nat) : Bool :=
  decide (shareNow s ≠ 0) && !s.mss.noAppend.contains st &&
    ((ringOf s st).bind fun c => tget s.mss.rings c).any fun (r : Ring) => decide (r.retentionMs ≠ 0)

/-- Gouge core time is left uncommitted for a repair (R46). -/
def coreTimeLeft (s : State) : Bool :=
  decide (decCharges s + encCharges s < gougeBudget s (ceiling (effMode s s.cpx.mode)))

/-- The estimated burst in ms of a synthesis for an entry is within the limit (R200). -/
def burstFits (s : State) (e : Entry) : Bool :=
  match tget s.fwe.streams e.source, (indexOf s e.source).head? with
  | some x, some rap =>
    let recs := cairnFrom s e.source rap.number
    let live := ((recs.getLast?).map (·.ts)).getD 0
    let pix := ((synthPictures x.codec recs e.target live).map fun h => h.w * h.h).sum
    let bits := pix * x.bpp.getD (if x.ten then 1152 else 768) / 256
    decide (bits ≤ s.vca.burstMs * ((tget s.lgv.legs e.dest).map (·.rate)).getD 0)
  | _, _ => true

/-- Records one refresh action of an entry (R252). -/
def traceRefresh (object flow code action : Nat) (s : State) : State := plumbTrace 4 object flow (code % 16 + 16 * action) s

/-- A keyframe request for an entry's need. -/
def requestFor (i code : Nat) (e : Entry) (s : State) : State :=
  let (r, s) := requestKey e.source s
  let s := if r = 0 then s else modGov e.dest (fun g => { g with requests := inc32 g.requests }) s
  traceRefresh i e.dest code r (repairResult i 8 s)

/-- One refresh need of an entry (R246). A need of method 1 asks for a request whatever job runs (R203). count: needs of its source in this
epoch. -/
def entryNeed (count : Nat) (i code : Nat) (s : State) : State :=
  match tget s.fwe.ledger i with
  | none => s
  | some e =>
    if ((tget s.fwe.streams e.source).map (·.origin)).getD true then
      traceRefresh i e.dest code 6 (repairResult i 8 (encoderKey e.source s))
    else if code / 16 = 1 then requestFor i code e s
    else match jobOf s e.source e.target with
      | some (j, _) => traceRefresh i e.dest code 0 (joinJob j i s)
      | none =>
        let cls := classOf s (((tget s.fwe.legs e.dest).map (·.cls)).getD 0)
        let method := if code / 16 = 0 then cls.method else code / 16
        let srtt := srttUs ((tget s.lgv.legs e.dest).getD Gov.reset)
        if ((requestPending s e.source).map fun t => decide (nowNs s < t + srtt * 1000 + 200000000)).getD false then
          traceRefresh i e.dest code 1 (repairResult i 8 s)
        else if method = 1 ∨ (method = 0 ∧ 8 ≤ count) ∨ !repairable s e.source ∨ !coreTimeLeft s then requestFor i code e s
        else if synthEligible s e.source ∧ burstFits s e then
          traceRefresh i e.dest code 4 (startRepair e.source e.target false [i] s)
        else if s.vca.allowBridge then traceRefresh i e.dest code 5 (startRepair e.source e.target true [i] s)
        else requestFor i code e s

/-- The refresh need of a decoder context: a request (R246, R247). -/
def decoderNeed (k : Nat) (s : State) : State :=
  match tget s.vca.decs k with
  | none => s
  | some d =>
    let (r, s) := requestKey d.stream s
    traceRefresh (2 ^ 31 + k) 0xFFFF 3 r s

/-- Gathers the refresh needs of the epoch that ends at b (R246): entries that wait for a switch point beyond the class's switch wait,
needs noted in entries, decoder contexts that wait or posted a degraded picture with no request pending. -/
def gatherNeeds (b : Nat) (s : State) : State :=
  let at_ := s.cpr.aonNs - (nowNs s - b)
  let records := s.vca.records.filter fun r => r.atNs < b
  let waits := s.fwe.ledger.filterMap fun (e : Nat × Entry) =>
    let cls := classOf s (((tget s.fwe.legs e.2.dest).map (·.cls)).getD 0)
    if e.2.awaiting ∧ e.2.valid ∧ !e.2.paused ∧ e.2.repair.isNone ∧ !isAudio (codecOf s e.2.source) ∧
        e.2.awaitNs + cls.wait * 1000000 < at_ then
      some (e.1, 1)
    else none
  let noted := s.fwe.ledger.flatMap fun (e : Nat × Entry) => e.2.needs.map fun n => (e.1, n)
  let waiting := (s.vca.decs.filter fun (d : Nat × Dec) => d.2.state = .waitingRap ∧ !d.2.hidden).map (·.1)
  let bad := (records.filter fun r => !r.hidden ∧ (r.need ∨ (r.degraded ∧ (requestPending s r.stream).isNone))).map (·.ctx)
  { s with
    lgv.needNow := s.lgv.needNow ++ noted ++ waits, lgv.decNeeds := (s.lgv.decNeeds ++ waiting ++ bad).eraseDups, vca.records := s.vca.records.filter fun r => b ≤ r.atNs
    fwe.ledger := s.fwe.ledger.map fun (e : Nat × Entry) => (e.1, { e.2 with needs := [] }) }

/-- Handles every need gathered; the needs of a source in the epoch are those of its entries and of its decoder context (R246). -/
def handleNeeds (s : State) : State :=
  let needs := s.lgv.needNow
  let ctxs := s.lgv.decNeeds
  let src := fun (i : Nat) => (tget s.fwe.ledger i).map (·.source)
  let from_ := (needs.filterMap fun n => src n.1) ++ ctxs.filterMap fun k => (tget s.vca.decs k).map (·.stream)
  let counted := needs.map fun n => (((src n.1).map fun st => (from_.filter (· = st)).length).getD 0, n)
  let s := { s with lgv.needNow := [], lgv.decNeeds := [] }
  counted.foldl (fun s (x : Nat × Nat × Nat) => entryNeed x.1 x.2.1 x.2.2 s) (ctxs.foldl (fun s k => decoderNeed k s) s)

/-! ### The epoch (R232-R234) -/

/-- The computation of an epoch that ends at b: estimates of every governed leg from the measurements before the boundary (R232). -/
def computeEpoch (b : Nat) (s : State) : State :=
  let s := gatherNeeds b s
  { s with
    lgv.epoch := b, lgv.computing := true, lgv.ceilings := s.fwe.ledger.map fun (e : Nat × Entry) => (e.1, e.2.source, e.2.ceiling)
    lgv.legs := s.lgv.legs.map fun (g : Nat × Gov) => match tget s.fwe.legs g.1 with
      | some l => (g.1, computeLeg s b g.1 l g.2)
      | none => g }

/-- The rate of a leg in 1/256 kb/s after overrides: a pin, the last published rate while frozen, or the computed rate under a cap; a tree
leg's cap stands in place of the class cap (R249, R250). -/
def overridden (tree : Bool) (g : Gov) (d : Decision) : Nat :=
  match g.pin with
  | some p => p * 256
  | none => if g.frozen then g.rate * 256 else match g.capR with
    | some c => if tree then c * 256 else min (c * 256) d.rate
    | none => d.rate

/-- Publishes every decision at once; the legs whose computation has not finished keep theirs (R233, R234, R250). -/
def publishEpoch (late : List Nat) (s : State) : State :=
    let b := s.lgv.epoch
    let pub := nowNs s
    let s := { s with lgv.computing := false }
    let s := (s.lgv.legs.filter fun (g : Nat × Gov) => g.2.ovNew ≠ []).foldl (fun s (g : Nat × Gov) =>
      modGov g.1 (fun g => { g with ovNew := [] }) (g.2.ovNew.foldl (fun s o => applyOverride g.1 o s) s)) s
    let missed := (s.lgv.legs.filter fun (g : Nat × Gov) => late.contains g.1).map (·.1)
    let s := missed.foldl (fun s i => modGov i (fun g => { g with next := none, carried := inc32 g.carried }) s) s
    let rates : Tbl Nat := s.lgv.legs.map fun (g : Nat × Gov) => (g.1, (g.2.next.map (overridden (((tget s.fwe.legs g.1).map fun l => decide (l.kind = .tree)).getD false) g.2)).getD (g.2.rate * 256))
    let (rates, limited, s) := (List.range 8).foldl (fun (x : Tbl Nat × List Nat × State) p =>
      let (r, lim, s) := fairPort b p x.1 x.2.2
      (r, x.2.1 ++ lim, s)) (rates, [], s)
    let s := rates.foldl (fun s (x : Nat × Nat) => publishLeg b pub x.1 x.2 (limited.contains x.1) s) s
    let s := (s.vca.encs.filter fun (e : Nat × Enc) => !e.2.hidden).foldl (fun s (e : Nat × Enc) => publishEncoder e.1 (applyEncOverrides e.1 s)) s
    let s := handleNeeds s
    if missed = [] then { s with lgv.overRow := 0 }
    else
      let s := plumbTrace 5 missed.length 0xFFFF 0 { s with lgv.overRow := s.lgv.overRow + 1 }
      if 10 ≤ s.lgv.overRow then fault 0xF001 [w32 missed.length] { s with lgv.overRow := 0 } else s

/-- PLUMB_PUBLICATION: the decisions of the computation in progress are published at b + 10 ms (R232). -/
def execPlumbPublication (late : List Nat) (s : State) : Host.Outcome State Fault Refusal :=
  .next (if s.lgv.computing then publishEpoch late (advanceTo ((s.lgv.epoch + 10000000) * 65536) s) else s)

/-! ### Commands (R248, R249, R253) -/

/-- The class parameters of GOV_CLASS_SET words 1-6. -/
def classOfWords (c : Cmd) : ClassP :=
  let w := word c
  { minR := (w 1).toNat, cap := (w 2).toNat, start := (w 3).toNat, up := field (w 4) 0 8, down := field (w 4) 8 10
    weight := field (w 4) 18 8, opusMin := field (w 5) 0 9, opusMax := field (w 5) 9 9, fecMax := field (w 5) 18 6
    playout := field (w 6) 0 8, wait := field (w 6) 8 16, method := field (w 6) 24 2, trace := bit (w 6) 26 }

/-- The six words that describe a class. -/
def classWords (x : ClassP) : List Word :=
  [w32 x.minR, w32 x.cap, w32 x.start, w32 (x.up + x.down * 2 ^ 8 + x.weight * 2 ^ 18),
    w32 (x.opusMin + x.opusMax * 2 ^ 9 + x.fecMax * 2 ^ 18), w32 (x.playout + x.wait * 2 ^ 8 + x.method * 2 ^ 24 + b1 x.trace * 2 ^ 26)]

/-- A parameter outside its range (R248). -/
def classBad (x : ClassP) : Bool :=
  decide (x.minR < 8 ∨ 100000 < x.minR ∨ x.cap < x.minR ∨ 1000000 < x.cap ∨ x.start < x.minR ∨ x.cap < x.start) ||
    decide (x.down ≠ 0 ∧ (x.down < 500 ∨ 990 < x.down)) || decide (x.weight = 0) ||
    decide (x.opusMin < 6 ∨ 510 < x.opusMin ∨ x.opusMax < 6 ∨ 510 < x.opusMax ∨ 50 < x.fecMax) ||
    decide (x.playout < 5 ∨ 200 < x.playout ∨ x.wait < 100 ∨ 10000 < x.wait ∨ x.method = 3)

/-- GOV_CLASS_SET's body (R253). -/
def classSet (c : Cmd) (s : State) : Res :=
  let k := field (word c 0) 0 3
  let due := nextBoundaryNs 10000000 s
  let put := fun (x : ClassP) => { s with lgv.classNew := (s.lgv.classNew.filter fun y => y.1 ≠ k ∨ y.2.1 < due) ++ [(k, due, x)] }
  match field (word c 0) 16 4 with
  | 0 => checks [(classBad (classOfWords c), .badParam)] (.done [] (put (classOfWords c)))
  | 1 => .done (classWords (((s.lgv.classNew.reverse.find? fun y => y.1 = k).map (·.2.2)).getD (classOf s k))) s
  | 2 => .done [] (put ClassP.reset)
  | _ => .refuse .badParam

/-- GOV_CLASS_SET (R248, R253). -/
def execGovClassSet (c : Cmd) (s : State) : Host.Outcome State Fault Refusal :=
  .next <| serve 0x0701 (fnLens [7, 1, 1] c) c s (classSet c)

/-- Class changes take effect at their boundary (R248). -/
def applyClasses (s : State) : State :=
  { s with
    lgv.classes := (s.lgv.classNew.filter fun x => x.2.1 ≤ nowNs s).foldl (fun cs x => cs.set x.1 x.2.2) s.lgv.classes
    lgv.classNew := s.lgv.classNew.filter fun x => nowNs s < x.2.1 }

/-- GOV_OVERRIDE's body (R249, R253). -/
def govOverride (c : Cmd) (s : State) : Res :=
  let fn := field (word c 0) 16 4
  let i := field (word c 0) 0 14
  let k := field (word c 0) 0 10
  let leg := tget s.fwe.legs i
  let is := fun (x : LegKind) => (leg.map fun l => decide (l.kind = x)).getD false
  if 5 < fn then .refuse .badParam
  else if 4 ≤ fn then
    checks [(!thas s.vca.encs k, .badTarget)]
      (.done [] (modEnc k (fun e => { e with ovNew := e.ovNew ++ [(fn, if fn = 4 then (word c 1).toNat else 0)] }) s))
  else
    checks
      [(leg.isNone, .badTarget), (is .producer, .badParam),
       (decide (fn = 2) && is .network && (leg.map fun l => decide (l.state = .created)).getD false, .unavailable)]
      (.done [] (modGov i (fun g => { g with ovNew := g.ovNew ++ [(fn, if fn ≤ 1 then (word c 1).toNat else 0)] }) s))

/-- GOV_OVERRIDE (R249, R253). -/
def execGovOverride (c : Cmd) (s : State) : Host.Outcome State Fault Refusal :=
  .next <| serve 0x0702 (exactly 2) c s (govOverride c)

/-- Microseconds of 2^-16 ms. -/
def ms16Us (x : Int) : Word := i32 (Int.tdiv (x * 1000) 65536)

/-- The 16 words of a leg (R253). -/
def govLegWords (cls : Nat) (g : Gov) : List Word :=
  let st := match g.shown.state with
    | .normal => 0
    | .overuse => 1
    | .underuse => 2
  let ov := if g.pin.isSome then 1 else if g.capR.isSome then 2 else 0
  [w32 (ov + b1 g.frozen * 4 + st * 8 + g.action * 32 + cls * 128), w32 g.rate, w32 g.shown.aDelay, w32 g.shown.aLoss, w32 g.shown.acked,
    w32 (g.fair.getD 0xFFFFFFFF), w32 (srttUs g), w32 g.jitterUs, w32 g.shown.lossP, ms16Us g.shown.trend, ms16Us g.shown.gamma,
    w32 (g.opus + b1 g.inband * 512 + g.fecPc * 1024), w32 g.video, w32 g.requests, w32 g.repairs, w32 g.carried]

/-- GOV_READ's body (R253). -/
def govRead (c : Cmd) (s : State) : Res :=
  let i := field (word c 0) 0 14
  let leg := tget s.fwe.legs i
  match field (word c 0) 16 4 with
  | 0 =>
    checks [(leg.isNone, .badTarget), ((leg.map fun l => decide (l.kind = .producer)).getD false, .badParam)]
      (.done (govLegWords ((leg.map (·.cls)).getD 0) ((tget s.lgv.legs i).getD Gov.reset)) s)
  | 1 =>
    match tget s.vca.encs i with
    | some e => .done [w32 (targetOf e), w32 e.legs, w32 (b1 e.pinned.isSome)] s
    | none => .refuse .badTarget
  | 2 =>
    let on := s.lgv.legs.filter fun (g : Nat × Gov) => ((tget s.fwe.legs g.1).map fun l => decide (l.port = i)).getD false
    checks [(decide (7 < i), .badParam)]
      (.done [w32 (portCap s (nowNs s) i), w32 ((on.map fun (g : Nat × Gov) => g.2.rate).sum),
        w32 ((on.filterMap fun (g : Nat × Gov) => g.2.pin).sum), w32 on.length] s)
  | _ => .refuse .badParam

/-- GOV_READ (R253). -/
def execGovRead (c : Cmd) (s : State) : Host.Outcome State Fault Refusal :=
  .next <| serve 0x0703 (exactly 1) c s (govRead c)

end Sys2Proof.Machine
end

