-- ==== Sys2Proof/Machine/Rtp.lean ====
section
/-!
DEFINITION. Ingress of the packet path: classification, STUN and consent, DTLS, RTP, RTCP, FlexFEC and replays (01 R27, R28; 03
R61-R69, R79; 10 R274).
-/

namespace Sys2Proof.Machine

/-! ### Classification (R62, R63) -/

/-- Counts at a port of family 0x8000: 0 no leg, 1 unknown first byte, 2 RTCP of another type, 3 Ledger cache misses (R486). -/
def portCount (port i : Nat) (s : State) : State :=
  { s with fwe.portCnt := s.fwe.portCnt.modify port fun l => l.modify i fun n => inc32 n }

/-- The leg of a datagram's 5-tuple. -/
def legOfTuple (s : State) (d : Datagram) : Option (Nat × Leg) :=
  s.fwe.legs.find? fun (l : Nat × Leg) => tupleOf l.2 = some (d.laddr, d.lport, d.raddr, d.rport)

/-- The SSRCs of a leg's streams, with those of RTX and FlexFEC. -/
def knownSsrcs (s : State) (leg : Nat) : List Word :=
  ((s.fwe.streams.filter fun (x : Nat × Stream) => x.1 / 4 = leg).flatMap fun (x : Nat × Stream) => streamSsrcs x.2)

/-- An RTP packet whose SSRC no stream of its leg has: dropped and counted; EVT_LEG detail 3 at most once per second per leg (R62). -/
def unknownSsrc (leg : Nat) (ssrc : Word) (s : State) : State :=
  let s := legDrops leg 1 s
  let last := (tget s.fwe.legs leg).bind (·.unkEvt)
  if (last.map fun t => decide (s.cpr.aonNs < t + 1000000000)).getD false then s
  else evtLeg 3 leg [ssrc] (modLeg leg (fun l => { l with unkEvt := some s.cpr.aonNs }) s)

/-- Classifies a UDP datagram: STUN goes to Keystone, DTLS to the host, RTP and RTCP on along the packet path, each in a step of its own;
the rest is dropped and counted (R62). -/
def classify (port : Nat) (d : Datagram) (s : State) : State :=
  match legOfTuple s d with
  | none => if d.first ≤ 3 then s else portCount port 0 s
  | some (leg, _) =>
    if d.first ≤ 3 ∨ (20 ≤ d.first ∧ d.first ≤ 63) then s
    else if 128 ≤ d.first ∧ d.first ≤ 191 then
      if 192 ≤ d.second ∧ d.second ≤ 223 then s
      else if (knownSsrcs s leg).contains d.ssrc then s
      else unknownSsrc leg d.ssrc s
    else portCount port 1 s

/-- INGRESS_DATAGRAM (R62). -/
def execIngressDatagram (port : Nat) (d : Datagram) (s : State) : Host.Outcome State Fault Refusal := .next (classify port d s)

/-- IP_PACKET_CELL: an IP packet carried in cells of a Course port is classified like any other arrival (R62, R415). -/
def execIpPacketCell (port : Nat) (d : Datagram) (s : State) : Host.Outcome State Fault Refusal :=
  .next (if 4 ≤ port then s else if relays s then relayCell 32 (w32 (d.lport + d.rport * 65536) :: w32 d.laddr :: d.raddr.words) s else classify (9 + port) d s)

/-- DTLS_DATAGRAM_INGRESS: delivered to the host with its leg index, unparsed (R63, R319). -/
def execDtlsDatagramIngress (leg : Nat) (bytes : List Byte) (s : State) : Host.Outcome State Fault Refusal :=
  .next <| match tget s.fwe.legs leg with
    | some l =>
      if l.kind = .network then
        withBuf leg bytes.length 1 s fun b s =>
          let (t, s) := stamp s
          bufRelease b <| sendData { kind := 0, tag := leg, timeNs := t, len := bytes.length, data := bytes.map (·.toNat) } s
      else s
    | none => s

/-- A big-endian number of bytes. -/
def beNat (bs : List Byte) : Nat := bs.foldl (fun n b => n * 256 + b.toNat) 0

/-- The datagram of an IP packet to an owned address, when it carries UDP (R62, R319). -/
def parseIp (s : State) (bs : List Byte) : Option Datagram :=
  let at_ := fun (i n : Nat) => (bs.drop i).take n
  let v := ((bs.getD 0 0).toNat) / 16
  let v6 := decide (v = 6)
  let hl := if v6 then 40 else ((bs.getD 0 0).toNat) % 16 * 4
  let src : Addr := ⟨v6, bytesWords (if v6 then at_ 8 16 else at_ 12 4)⟩
  let dst : Addr := ⟨v6, bytesWords (if v6 then at_ 24 16 else at_ 16 4)⟩
  let proto := (bs.getD (if v6 then 6 else 9) 0).toNat
  let i := s.fwe.owned.findIdx fun a => a = some dst
  if (v ≠ 4 ∧ v ≠ 6) ∨ proto ≠ 17 ∨ bs.length < hl + 8 ∨ 64 ≤ i then none
  else
    some
      { laddr := i, lport := beNat (at_ (hl + 2) 2), raddr := src, rport := beNat (at_ hl 2), first := (bs.getD (hl + 8) 0).toNat
        second := (bs.getD (hl + 9) 0).toNat, ssrc := w32 (beNat (at_ (hl + 16) 4)) }

/-- Sends a datagram of n bytes to a leg that no chain walk makes, in CTL, not encrypted, as an item of the leg's flow; data: the bytes that pass
untouched (R63, R64, R82, R86). -/
def sendPlain (leg : Nat) (proto : FrameKind) (n : Nat) (data : List Nat) (s : State) : State :=
  match tget s.fwe.legs leg with
  | some l => withBuf leg n 1 (inFlow leg s) fun b s => queueUdp { legFrame leg l 1 proto with buf := some b, data := data } l.ipv6 n s
  | none => s

/-- Counts a discarded data frame (R319, R323). -/
def frameDiscard (s : State) : State := { s with hlp.counters := s.hlp.counters.modify 7 fun n => inc32 n }

/-- A data frame from the host (R319): kind 0 is sent as DTLS from its leg; kind 1 is an arrival on the host link; anything else is
discarded and counted. -/
def hostFrame (bs : List Byte) (s : State) : State :=
  let kind := (bs.getD 0 0).toNat
  let tag := field (bytesWord (bs.take 4)) 16 16
  let len := (bytesWord ((bs.drop 4).take 4)).toNat
  let body := bs.take (bs.length - 4)
  let ok := decide (28 ≤ bs.length) && decide (bs.length = dataFrameBytes len) && decide (bytesWord (bs.drop (bs.length - 4)) = crc32c body)
  if !ok ∨ 1 < kind then frameDiscard s
  else if kind = 0 then
    let leg := tag % 16384
    if ((tget s.fwe.legs leg).map fun l => decide (l.kind = .network)).getD false then
      sendPlain leg .dtls len (((bs.drop 24).take len).map (·.toNat)) s
    else frameDiscard s
  else match parseIp s ((bs.drop 24).take len) with
    | some d => classify 8 d s
    | none => s

/-- HOST_DATA_FRAME (R319). -/
def execHostDataFrame (bytes : List Byte) (s : State) : Host.Outcome State Fault Refusal :=
  .next (if s.hlp.link = .active then hostFrame bytes s else s)

/-! ### STUN and consent (R64, R65) -/

/-- Bytes of a STUN binding request with a leg's ICE credentials, or of its response (RFC 5389). -/
def stunBytes (l : Leg) (request : Bool) : Nat :=
  let user := l.lufrag.length + l.rufrag.length + 1
  20 + (if request then 4 + (user + 3) / 4 * 4 else 4 + (if l.ipv6 then 20 else 8)) + 24 + 8

/-- STUN_BINDING_REQUEST: answered when it carries the leg's credentials; with USE-CANDIDATE it confirms the path, and from another
address and port it moves the leg's remote pair as an item of the leg's flow, whatever other leg holds that pair (log 105) (R64, R86). -/
def execStunBindingRequest (leg : Nat) (r : StunReq) (s : State) : Host.Outcome State Fault Refusal :=
  .next <| match tget s.fwe.legs leg with
    | none => s
    | some l =>
      if l.kind ≠ .network ∨ !l.ice then s
      else withBuf leg (stunBytes l true) 1 s fun b s => bufRelease b <|
      if r.user ≠ l.rufrag ∨ r.password ≠ l.lpwd then modLeg leg (fun l => { l with stunIgnored := l.stunIgnored + 1 }) s
      else
        let s := sendPlain leg .stun (stunBytes l false) [] s
        if !r.nominate then s
        else
          let s := modLeg leg (fun l => { l with confirmed := true }) s
          let s := if r.raddr = l.raddr ∧ r.rport = l.rport then s
            else evtLeg 5 leg [] (modLeg leg (fun l => { l with raddr := r.raddr, rport := r.rport }) (inFlow leg s))
          legCheck leg s

/-- A leg whose consent Keystone checks (R65). -/
def consentLeg (l : Leg) : Bool := l.ice && decide (l.kind = .network) && decide (l.state = .active ∨ l.state = .consentLost)

/-- CONSENT_CHECK_SEND: a request is sent when it is due; the next one is due after an interval between 4 s and 6 s, a free value (R65). -/
def execConsentCheckSend (leg : Nat) (s : State) : Host.Outcome State Fault Refusal :=
  .next <| match tget s.fwe.legs leg with
    | some l =>
      if consentLeg l then
        let s := match l.consentDue with
          | some t => advanceAon t s
          | none => s
        let (wait, s) := drawBelow 2000000001 s
        let due := s.cpr.aonNs + 4000000000 + wait
        sendPlain leg .stun (stunBytes l true) [] (modLeg leg (fun l => { l with consentTx := l.consentTx + 1, consentDue := some due }) s)
      else s
    | none => s

/-- CONSENT_RESPONSE: a valid success response renews consent, gives Plumb a round-trip time and takes a leg back to ACTIVE (R61,
R65). -/
def execConsentResponse (leg rttUs : Nat) (valid : Bool) (s : State) : Host.Outcome State Fault Refusal :=
  .next <| match tget s.fwe.legs leg with
    | some l =>
      if !valid ∨ !consentLeg l then s
      else withBuf leg (stunBytes l false) 1 s fun b s => bufRelease b <|
        let s := modLeg leg (fun l => { l with consentNs := s.cpr.aonNs, stats.rttUs := min rttUs 0xFFFFFFFE }) s
        let s := measureLeg leg (none, some rttUs) s
        setLegState leg .active s
    | none => s

/-- CONSENT_EXPIRY: 30 s without a valid response; the leg's queued egress is dropped and EVT_LEG raised (R61, R65, R89). -/
def execConsentExpiry (leg : Nat) (s : State) : Host.Outcome State Fault Refusal :=
  .next <| match tget s.fwe.legs leg with
    | some l =>
      if consentLeg l ∧ l.state = .active then
        let due := l.consentNs + 30000000000
        let s := advanceAon due s
        evtLeg 2 leg [] (flushLeg leg (fun _ => true) (setLegState leg .consentLost s))
      else s
    | none => s

/-! ### RTP (R27, R67-R69) -/

/-- Notes a sequence number of an ingress stream: the numbers skipped are gaps seen now; a number that fills a gap ends it (R68,
R69). A gap half the number space old is forgotten. -/
def noteSeq (seq : BitVec 16) (now : Nat) (x : Stream) : Stream :=
  match x.maxSeq with
  | none => { x with maxSeq := some (seq.setWidth 32) }
  | some m =>
    let d := seqDiff seq (m.setWidth 16)
    if d ≤ 0 then { x with gaps := x.gaps.filter fun (g : Nat × Nat × Nat) => g.1 ≠ seq.toNat }
    else
      let miss := (List.range (d.toNat - 1)).map fun i => ((seq - BitVec.ofNat 16 (i + 1)).toNat, now, 0)
      { x with
        maxSeq := some (seq.setWidth 32)
        gaps := (x.gaps.filter fun (g : Nat × Nat × Nat) => 0 < seqDiff seq (BitVec.ofNat 16 g.1)) ++ miss.reverse }

/-- Counts a packet of an ingress stream's own SSRC in its reception statistics, by RFC 3550 (R68). clock: its RTP clock rate. -/
def noteRx (seq : BitVec 16) (ts : Word) (now clock : Nat) (x : RtpRx) : RtpRx :=
  let top := match x.base with
    | none => seq.toNat
    | some _ => (x.top + (seqDiff seq (BitVec.ofNat 16 x.top)).toNat)
  let t : Int := (now * clock / 1000000000 : Nat) - (ts.toNat : Int)
  let d := match x.transit with
    | some u => (BitVec.ofInt 32 (t - u)).toInt.natAbs
    | none => 0
  { x with
    base := some (x.base.getD seq.toNat), top := top, count := x.count + 1, jitter := x.jitter + d - (x.jitter + 8) / 16, transit := some t }

/-- The middle word of a TSU time as an NTP time, in 1/65536 s (R68, R235). -/
def ntpMid (now : Nat) : Nat := now * 65536 / 1000000000 % 2 ^ 32

/-- The report block of an ingress stream at a time (R68). -/
def reportBlock (now : Nat) (x : Stream) : ReportBlock :=
  let r := x.rx
  let expected := (r.base.map fun b => r.top + 1 - b).getD 0
  let span := expected - r.expPrior
  let got := r.count - r.recPrior
  { ssrc := x.ssrc, fractionLost := if span = 0 then 0 else (span - got) * 256 / span, lost := (expected : Int) - r.count
    highest := r.top, jitter := r.jitter / 16, lsr := (r.sr.map (·.1)).getD 0
    dlsr := (r.sr.map fun y => (now - y.2) * 65536 / 1000000000).getD 0 }

/-- The reception statistics of a stream after a report (R68). -/
def reported (x : Stream) : Stream :=
  { x with rx.expPrior := (x.rx.base.map fun b => x.rx.top + 1 - b).getD 0, rx.recPrior := x.rx.count }

/-- What a packet's headers say of its stream for R195 and R200: a key picture starts afresh. -/
def noteSynth (p : RtpPkt) (x : Stream) : Stream :=
  let key := decide (p.rap = 1 ∨ p.rap = 2 ∨ p.rap = 3)
  { x with synthOk := (key || x.synthOk) && !p.synthBad, ten := (p.hdr.map fun h => decide (h.depth = 10)).getD x.ten }

/-- Decoder contexts that take a stream's packets, hidden ones among them. -/
def decodersOf (s : State) (st : Nat) : List Nat :=
  (s.vca.decs.filter fun (d : Nat × Dec) => d.2.stream = st).map (·.1)

/-- What FWE reads of a packet's extensions with its leg's IDs, and its layer by the codec: audio is always (0, 0), HEVC and VVC give a
temporal layer only, AVC gives one in frame marking or is (0, 0), and only AV1's dependency descriptor starts a frame (R67, R74-R76). An AV1 packet
without the descriptor is (0, 0) and no switch point (DESIGN CHOICE, log 132). -/
def readExtensions (ext : Word) (codec : Nat) (p : RtpPkt) : RtpPkt :=
  let id := fun lo => decide (field ext lo 8 ≠ 0) && p.exts.any fun e => e.1 = field ext lo 8
  let p := { p with kept := keptExts ext p.exts, level := if isAudio codec && id 0 then p.level else none, twcc := if id 8 then p.twcc else none }
  if isAudio codec then { p with tid := 0, sid := 0, sof := false, switch := 0 }
  else if codec = 8 then if id 16 then p else { p with tid := 0, sid := 0, sof := false, switch := 0 }
  else
    let p := { p with sid := 0, sof := false }
    if codec = 11 ∧ !id 24 then { p with tid := 0, switch := 0 } else p

/-- Step 4 of R27 for a packet of a REMOTE stream: its header is read, and it is measured, forked, and given to the jitter buffer or the decoders. -/
def mediaArrive (st : Nat) (x : Stream) (p : RtpPkt) (buf : Option Nat) (s : State) : State :=
  let audio := isAudio x.codec
  let p := readExtensions (((tget s.fwe.legs (st / 4)).map (·.extIds)).getD 0) x.codec p
  let s := modStream st (noteSynth p) s
  let s := forkPacket st p buf false (audio || !(decodersOf s st).isEmpty) s
  let s := if p.rap ≠ 0 ∧ !audio then supersede st s else s
  if audio then jitterArrive st p s else (decodersOf s st).foldl (fun s k => decAssemble k p s) s

/-- Notes an arrival for RFC 8888 feedback on a leg created with the feedback flag (R68). -/
def noteFeedback (st : Nat) (l : Leg) (seq : BitVec 16) (now : Nat) (s : State) : State :=
  if l.feedback then modStream st (fun x => { x with feedback := x.feedback ++ [(seq.toNat, now)] }) s else s

/-- An RTP packet of a stream, classified and authenticated in turn (R27, R61, R82, R351). A retransmission stands for the packet it
carries. What the leg's counters take in is log 103. -/
def rtpArrives (st : Nat) (p : RtpPkt) (s : State) : State :=
  match tget s.fwe.streams st, tget s.fwe.legs (st / 4) with
  | some x, some l =>
    if x.origin ∨ l.kind ≠ .network then s
    else if l.state = .created ∨ l.state = .deleting ∨ subDown s 8 then legDrops (st / 4) 1 s
    else
      match bufAlloc p.bytes (isAudio x.codec) 4 1 s with
      | (none, s) => legDrops (st / 4) 1 s
      | (some b, s) =>
        if p.poisoned then bufRelease b (legDrops (st / 4) 1 s)
        else match ingressAuth (st / 4) p.ssrc p.seq.toNat false p.mki p.prot p.bytes s with
        | (false, s) => bufRelease b s
        | (true, s) =>
          let s := modLeg (st / 4) (fun l => { l with
            stats.inPkts := inc64 l.stats.inPkts, stats.inBytes := inc64 l.stats.inBytes p.bytes }) s
          if x.fecPt ≠ 0 ∧ p.ssrc = x.fecSsrc then bufRelease b s
          else
            let rtx := decide (x.rtxPt ≠ 0) && decide (p.ssrc = x.rtxSsrc)
            let q := if rtx then { p with ssrc := x.ssrc, seq := p.osn, pt := x.pt } else p
            let (now, s) := stamp s
            let rx := fun (y : Stream) => if rtx then y else { y with rx := noteRx q.seq q.ts now (clockRate x.codec) y.rx }
            mediaArrive st x q (some b) (noteFeedback st l q.seq now (modStream st (fun y => rx (noteSeq q.seq now y)) s))
  | _, _ => s

/-- An RTP packet of a stream, as an item of its leg's flow (R27, R86). -/
def rtpIngress (st : Nat) (p : RtpPkt) (s : State) : State := rtpArrives st p (inFlow (st / 4) s)

/-- RTP_PACKET_INGRESS (R27). -/
def execRtpPacketIngress (stream : Nat) (p : RtpPkt) (s : State) : Host.Outcome State Fault Refusal := .next (rtpIngress stream p s)

/-- A packet recovered by FlexFEC: one that fills a gap enters at step 4 of R27, marked recovered; a poisoned one is dropped, its buffer freed
and the drop counted (R21, R69). -/
def recoverPacket (st : Nat) (x : Stream) (s : State) (p : RtpPkt) : State :=
  let missing := ((tget s.fwe.streams st).map fun y => y.gaps.any fun (g : Nat × Nat × Nat) => g.1 = p.seq.toNat).getD false
  if !missing then s
  else
    match bufAlloc p.bytes (isAudio x.codec) 4 1 s with
    | (none, s) => legDrops (st / 4) 1 s
    | (some b, s) =>
      if p.poisoned then bufRelease b (legDrops (st / 4) 1 s)
      else
        let s := modStream st (fun y => { y with
          gaps := y.gaps.filter fun (g : Nat × Nat × Nat) => g.1 ≠ p.seq.toNat, recovered := y.recovered + 1 }) s
        mediaArrive st x { p with ssrc := x.ssrc, pt := x.pt, recovered := true } (some b) s

/-- FLEXFEC_REPAIR_PACKET: the packets recovered from a repair packet, as an item of the leg's flow (R69, R86). -/
def execFlexfecRepairPacket (stream : Nat) (recovered : List RtpPkt) (s : State) : Host.Outcome State Fault Refusal :=
  .next <| match tget s.fwe.streams stream, tget s.fwe.legs (stream / 4) with
    | some x, some l =>
      if x.fecPt = 0 ∨ x.origin ∨ l.state = .created ∨ l.state = .deleting ∨ subDown s 8 then s
      else recovered.foldl (recoverPacket stream x) (inFlow (stream / 4) s)
    | _, _ => s

/-- The gap of a sequence number of a stream: when it was seen and NACKs sent. -/
def gapOf (s : State) (st seq : Nat) : Option (Nat × Nat) :=
  (tget s.fwe.streams st).bind fun x => (x.gaps.find? fun (g : Nat × Nat × Nat) => g.1 = seq).map (·.2)

/-- FLEXFEC_RECOVERY_TIMEOUT: a packet not recovered within 20 ms after its gap is seen is counted as lost (R69). -/
def execFlexfecRecoveryTimeout (stream seq : Nat) (s : State) : Host.Outcome State Fault Refusal :=
  .next <| match tget s.fwe.streams stream, gapOf s stream seq with
    | some x, some (t, _) =>
      if x.fecPt = 0 then s
      else
        let s := advanceTo ((t + 20000000) * 65536) s
        modStream stream (fun x => { x with gaps := x.gaps.filter (fun (g : Nat × Nat × Nat) => g.1 ≠ seq), lostPkts := x.lostPkts + 1 }) s
    | _, _ => s

/-- NACK_SEND: a missing packet is asked for 5 ms after its gap is seen, at most twice (R68). When the second NACK goes is the command's
choice (DESIGN CHOICE, log 104). -/
def execNackSend (stream seq : Nat) (s : State) : Host.Outcome State Fault Refusal :=
  .next <| match tget s.fwe.streams stream, gapOf s stream seq with
    | some x, some (t, n) =>
      if 2 ≤ n then s
      else
        let s := advanceTo ((t + 5000000) * 65536) s
        sendRtcp (stream / 4) x.ssrc (.nack x.ssrc seq) (modStream stream (fun x => { x with
          gaps := x.gaps.map fun (g : Nat × Nat × Nat) => if g.1 = seq then (g.1, g.2.1, g.2.2 + 1) else g }) s)
    | _, _ => s

/-- FEEDBACK_SEND: the RFC 8888 report of an ingress stream, every 20 ms (R68). -/
def execFeedbackSend (stream : Nat) (s : State) : Host.Outcome State Fault Refusal :=
  .next <| match tget s.fwe.streams stream, tget s.fwe.legs (stream / 4) with
    | some x, some l =>
      if !l.feedback ∨ x.origin then s
      else
        let s := if x.fbNs = 0 then s else advanceTo ((x.fbNs + 20000000) * 65536) s
        let now := nowNs s
        sendRtcp (stream / 4) x.ssrc (.feedback x.ssrc now x.feedback) (modStream stream (fun x => { x with feedback := [], fbNs := now }) s)
    | _, _ => s

/-! ### RTCP received (R68, R79) -/

/-- RTCP of n bytes received on a leg, in a buffer of its own while it is read: not on one in CREATED, where it is dropped and counted (R61,
R82, R83). -/
def rtcpOn (leg n : Nat) (s : State) (f : Leg → State → State) : State :=
  match tget s.fwe.legs leg with
  | some l =>
    if l.kind ≠ .network then s
    else if l.state = .created ∨ l.state = .deleting then legDrops leg 1 s
    else withBuf leg n 1 s fun b s => bufRelease b (f l s)
  | none => s

/-- The round-trip time in us that a report block gives at a time; one that echoes no SR, or a later one, gives none (R235, RFC 3550). -/
def blockRtt (now : Nat) (b : ReportBlock) : Option Nat :=
  let d := (BitVec.ofInt 32 ((ntpMid now : Int) - b.lsr - b.dlsr)).toInt
  if b.lsr = 0 ∨ d < 0 then none else some (d.toNat * 1000000 / 65536)

/-- A report block on an output SSRC of a leg goes to Plumb: jitter in us at the stream's clock rate, fraction lost in 1/1,024, and the
round-trip time (R68, R235). A block on any other source says nothing of the leg. -/
def takeBlock (leg now : Nat) (s : State) (b : ReportBlock) : State :=
  match (entriesTo s leg).find? fun (e : Nat × Entry) => e.2.ssrcOut = b.ssrc with
  | some (_, e) =>
    measureLeg leg (some (b.jitter * 1000000 / clockRate (codecOf s e.source), b.fractionLost * 4), blockRtt now b) s
  | none => s

/-- An SR received on a leg is noted for the report blocks on its sender's stream (R68). -/
def noteSr (leg : Nat) (r : RtcpReport) (now : Nat) (s : State) : State :=
  match r.ntpMid, s.fwe.streams.find? fun (x : Nat × Stream) => x.1 / 4 = leg ∧ x.2.ssrc = r.ssrc with
  | some m, some (st, _) => modStream st (fun x => { x with rx.sr := some (m, now) }) s
  | _, _ => s

/-- Bytes of an SR or RR (RFC 3550). -/
def reportBytes (r : RtcpReport) : Nat := 8 + (if r.ntpMid.isSome then 20 else 0) + 24 * r.blocks.length

/-- RTCP_SR_RR: report blocks and round-trip times go to Plumb; the fraction lost counts only without RFC 8888 reports (R68, R235). -/
def execRtcpSrRr (leg : Nat) (r : RtcpReport) (s : State) : Host.Outcome State Fault Refusal :=
  .next <| rtcpOn leg (reportBytes r) s fun _ s =>
    let (now, s) := stamp s
    r.blocks.foldl (takeBlock leg now) (noteSr leg r now s)

/-- RTCP_SDES: the CNAME is consumed (R68). -/
def execRtcpSdes (leg : Nat) (cname : List Byte) (s : State) : Host.Outcome State Fault Refusal :=
  .next <| rtcpOn leg (sdesBytes cname) s fun _ s => modLeg leg (fun l => { l with cname := cname }) s

/-- RTCP_BYE: EVT_LEG detail 4; the stream stays (R68, R89). -/
def execRtcpBye (leg : Nat) (ssrc : Word) (s : State) : Host.Outcome State Fault Refusal :=
  .next <| rtcpOn leg 8 s fun _ s => evtLeg 4 leg [ssrc] s

/-- The packet that answers a NACK for an output sequence number of an entry, with its record and output timestamp: when the number is in the
window, at most 1 s old, and its Cairn record or synthesised packet is still held (R79, R197). -/
def nackPacket (s : State) (e : Entry) (seq : Nat) : Option (RtpPkt × Option Nat × Word) :=
  match (e.window.reverse.find? fun (w : Nat × Option Nat × Nat × Word) => w.1 = seq) with
  | none => none
  | some w =>
    if w.2.2.1 + 1000000000 < nowNs s then none
    else match w.2.1 with
      | some n => (((cairnFrom s e.source n).find? fun r => r.number = n).bind (·.pkt)).map fun p => (p, some n, w.2.2.2)
      | none => (e.synPk.find? fun (y : Nat × RtpPkt × Nat) => y.1 = seq ∧ s.cpr.aonNs < y.2.2).map fun y => (y.2.1, none, w.2.2.2)

/-- A retransmission of a packet with its output number and timestamp, its extensions rewritten: an RTX packet, which carries the number before
the payload, or a plain copy (R67, R79). -/
def retransmit (i : Nat) (e : Entry) (l : Leg) (seq : Nat) (a : RtpPkt × Option Nat × Word) (s : State) : State :=
  let x := (tget s.fwe.streams e.source).getD Stream.reset
  let ssrc := if e.rtx then x.rtxSsrc else e.ssrcOut
  let p := { a.1 with osn := if e.rtx then BitVec.ofNat 16 seq else a.1.osn }
  let n := copyBytes l.extIds p + (if e.rtx then 2 else 0)
  let q : BitVec 16 := if e.rtx then BitVec.ofNat 16 e.rtxSeq else BitVec.ofNat 16 seq
  match egressProtect e.dest ssrc q false n s with
  | (none, s) => legDrops e.dest 1 s
  | (some (k, extra), s) =>
    let s := if e.rtx then modEntry i (fun e => { e with rtxSeq := (e.rtxSeq + 1) % 65536 }) s else s
    let (tw, s) := nextTwcc e.dest s
    let f : Frame := { legFrame e.dest l e.service (if e.rtx then .rtx else .rtp) with
      port := e.port, ssrc := ssrc, seq := q, ts := a.2.2, pt := if e.rtx then x.rtxPt else e.ptOut, twcc := tw, slot := some k
      exts := outExts l.extIds p.kept, level := if extId l.extIds 0 = 0 then none else p.level, pkt := some p }
    withBuf e.dest (n + extra) e.service s fun b s =>
      modLeg e.dest (fun l => { l with stats.rtx := inc32 l.stats.rtx }) (queueUdp { f with buf := some b } l.ipv6 (n + extra) s)

/-- GENERIC_NACK: answered from the retransmission window, or discarded and counted (R79). One for a leg that is not ACTIVE counts as
discarded (DESIGN CHOICE, log 103). -/
def execGenericNack (leg : Nat) (ssrc : Word) (seqs : List Nat) (s : State) : Host.Outcome State Fault Refusal :=
  .next <| rtcpOn leg (12 + 4 * seqs.length) s fun l s =>
    seqs.foldl (fun s q =>
      let s := modLeg leg (fun l => { l with stats.nacksIn := inc32 l.stats.nacksIn }) s
      let discard := fun (s : State) => modLeg leg (fun l => { l with stats.nacksDrop := inc32 l.stats.nacksDrop }) s
      match (entriesTo s leg).find? fun (e : Nat × Entry) => e.2.ssrcOut = ssrc with
      | none => discard s
      | some (i, e) =>
        match nackPacket s e q with
        | some a => if l.state = .active then retransmit i e l q a s else discard s
        | none => discard s) (inFlow leg s)

/-- PLI_FIR: a refresh need of the entries that send that SSRC (R68, R246). -/
def execPliFir (leg : Nat) (ssrc : Word) (_fir : Bool) (s : State) : Host.Outcome State Fault Refusal :=
  .next <| rtcpOn leg 12 s fun _ s =>
    ((entriesTo s leg).filter fun (e : Nat × Entry) => e.2.ssrcOut = ssrc).foldl
      (fun s (e : Nat × Entry) => measureNeed e.1 s) s

/-- Marks the send records of the last 1 s that a report covers (R235). -/
def takeReport (now : Nat) (r : FbReport) (g : Gov) : Gov :=
  { g with
    sent := g.sent.map fun x =>
      if x.ssrc = r.ssrc ∧ x.seq = r.seq.toNat ∧ x.arrNs.isNone ∧ now ≤ x.sentNs + 1000000000 then { x with reported := true, arrNs := r.arrivalNs, repNs := now } else x }

/-- CONGESTION_FEEDBACK: RFC 8888 reports matched to send records (R68, R235). -/
def execCongestionFeedback (leg : Nat) (reports : List FbReport) (s : State) : Host.Outcome State Fault Refusal :=
  .next <| rtcpOn leg (20 + 4 * reports.length) s fun _ s =>
    let now := nowNs s
    modGov leg (fun g => reports.foldl (fun g r => takeReport now r g) g) s

/-- RTCP_OTHER_TYPE: dropped and counted (R68, R486). -/
def execRtcpOtherType (port : Nat) (s : State) : Host.Outcome State Fault Refusal := .next (portCount port 2 s)

/-- SR_SEND: one sender report of an output SSRC, with report blocks for the leg's ingress streams and an SDES with the leg's CNAME, when it
is due; the next one is due after an interval between 0.5 s and 1.5 s, a free value (R68). -/
def execSrSend (leg : Nat) (ssrc : Word) (s : State) : Host.Outcome State Fault Refusal :=
  .next <| match (entriesTo s leg).find? fun (e : Nat × Entry) => e.2.ssrcOut = ssrc with
    | none => s
    | some (i, e) =>
      let s := match e.srDue with
        | some t => advanceTo (t * 65536) s
        | none => s
      let (wait, s) := drawBelow 1000000001 s
      let now := nowNs s
      let due := now + 500000000 + wait
      let own := s.fwe.streams.filter fun (x : Nat × Stream) => x.1 / 4 = leg ∧ x.2.origin = false
      let cname := ((tget s.fwe.legs leg).map (·.cnameTx)).getD []
      let rtpTs := e.lastTs + w32 (((now - e.lastSendNs) * clockRate (codecOf s e.source)) / 1000000000)
      let s := own.foldl (fun s x => modStream x.1 reported s) (modEntry i (fun e => { e with srDue := some due }) s)
      sendRtcp leg ssrc (.sr now rtpTs e.outPkts e.outBytes (own.map fun x => reportBlock now x.2) cname) s

/-! ### Replays (R274) -/

/-- REPLAY_RECORD_SEND: a replay sends its next record's packet at its time, as the target stream's output (R274, R390). A replay whose
next record has been reclaimed, or that has none to send, sends nothing here. -/
def execReplayRecordSend (n : Nat) (s : State) : Host.Outcome State Fault Refusal :=
  .next <| match tget s.mss.replays n with
    | none => s
    | some r =>
      let recs := ((tget s.mss.rings r.conf).map (·.recs)).getD []
      match r.firstNs, recs.find? (replayOwes r) with
      | some first, some x =>
        if !r.running ∨ r.lost then s
        else match x.pkt, tget s.fwe.streams r.target with
          | some p, some y =>
            let due := r.launchNs + (x.timeNs - first)
            let s := engineTraffic .cairnRead (recBytes x.length) (advanceTo (due * 65536) s)
            let (v, s) := if r.sent = 0 ∧ y.lastTs.isNone then draw s else (0, s)
            let tsOff : Word := if 0 < r.sent then r.tsOff
              else match y.lastTs with
                | some t => t + w32 (max 1 ((nowNs s - y.lastNs) * clockRate y.codec / 1000000000)) - p.ts
                | none => v.setWidth 32 - p.ts
            let seqOff : BitVec 16 := if 0 < r.sent then r.firstSeq.setWidth 16 else BitVec.ofNat 16 y.txSeq.toNat - p.seq
            let q := { p with ssrc := y.ssrc, pt := y.pt, seq := p.seq + seqOff, ts := p.ts + tsOff, launch := some due }
            let s := { s with mss.replays := tset s.mss.replays n { r with
              next := x.number + 1, sent := inc32 r.sent, tsOff := tsOff, firstSeq := seqOff.setWidth 32 } }
            forkLocal r.target q (modStream r.target (fun y => { y with txSeq := w32 ((q.seq + 1).toNat) }) s)
          | _, _ => s
      | _, _ => s

end Sys2Proof.Machine
end

