-- ==== Sys2Proof/Machine/Pon.lean ====
section
/-!
DEFINITION. The PON terminal: downstream synchronisation, PLOAM, activation, bursts, OMCI, time of day, watchful sleep, the protection
trigger and performance monitoring (11 R280-R309).
-/

namespace Sys2Proof.Machine

/-! ### Downstream synchronisation (R282-R285) -/

/-- Leaves O1 for O2-3 when the chosen rate's downstream is in SYNC and a Burst_Profile has been received; TO1 starts (R283, R289). -/
def leaveO1 (s : State) : State :=
  let r := chooseRate s
  if s.ptu.act = .o1 ∧ s.ptu.profLearned ∧ r ≠ 0 then
    let s := if s.ptu.lastRate ≠ r then evtPon 5 [w32 s.ptu.lastRate, w32 r] s else s
    setAct .o23 { s with ptu.rate := r, ptu.lastRate := r, ptu.to1 := true, ptu.to1Ns := s.cpr.aonNs }
  else s

/-- The rate code of a receive path. -/
def rateOf (path : Nat) : Nat := if path = 1 then 2 else 1

/-- A path is the one the activation uses. -/
def isActive (path : Nat) (s : State) : Bool := decide (s.ptu.rate = rateOf path)

/-- PSYNC_CANDIDATE: the hunt of an enabled path finds a candidate (R284, R285). -/
def execPsyncCandidate (path counter : Nat) (s : State) : Host.Outcome State Fault Refusal :=
  let p := pathOf s path
  .next (if path < 2 ∧ p.enabled ∧ p.sync = .hunt then modPath path (fun p => { p with sync := .confirm1, counter := counter }) s else s)

/-- A path enters SYNC: LODS clears; O6 returns to O5 with everything kept (R285, R289, R307). -/
def syncGained (path : Nat) (s : State) : State :=
  let lods := (pathOf s path).lods
  let s := modPath path (fun p => { p with sync := .sync, misses := 0, lods := false }) (accruePon s)
  let s := if path = 0 then { s with ptu.noCand50 := false, ptu.confNs := s.cpr.aonNs } else s
  let s := if lods then evtPon 3 [] s else s
  if isActive path s ∧ s.ptu.act = .o6 then
    setAct .o5 { s with ptu.to2 := false, ptu.prot := false, ptu.protFired := false }
  else leaveO1 s

/-- LODS is declared: fault and event; on the active path O5 falls to O6 with TO2 and the 4 ms timer, and the tick goes to the crystal
(R36, R284, R289, R304). -/
def lodsDeclared (path : Nat) (s : State) : State :=
  let s := modPath path (fun p => { p with sync := .hunt, misses := 0, lods := true }) (accruePon (if isActive path s then breakFrags s else s))
  let s := if path = 0 then { s with ptu.confNs := s.cpr.aonNs } else s
  let s := evtPon 2 [] (fault 0x3001 [] (ponCount 2 1 s))
  if isActive path s then
    let s := { s with tsu.ponRef := false, cpr.cmux := s.cpr.cmux.set 7 1 }
    if s.ptu.act = .o5 then
      setAct .o6 { (setSleep .awakeHeld s) with ptu.to2 := true, ptu.prot := true, ptu.protFired := false, ptu.to2Ns := s.cpr.aonNs, ptu.protNs := s.cpr.aonNs }
    else s
  else s

/-- The FEC counts of a frame (R306). -/
def fecCounts (f : PhyFrame) (s : State) : State :=
  let s := ponCount 9 f.uncorrectable (ponCount 8 f.bits (ponCount 7 f.corrected (ponCount 6 f.codewords s)))
  let sec := nowNs s / 1000000000
  if f.uncorrectable ≠ 0 ∧ s.ptu.fecSec ≠ some sec then ponCount 10 1 { s with ptu.fecSec := some sec } else s

/-- A time-of-day pair whose frame has been captured becomes a source update (R301, R374). -/
def passTod (tstamp cap : Nat) (s : State) : State :=
  let p := s.ptu.profile
  let k : Int := if p.k = 0 then 32768 else p.k
  let eqd : Int := (s.ptu.eqd * 65536 * 100000 / 248832 : Nat)
  let corr : Int := if p.teqd = 0 then 0 else ((p.teqd * 65536 : Nat) - eqd) * k / 65536
  let arr := ((tstamp : Int) + corr).toNat
  let s := ponCount 23 1 { s with ptu.todSeen := true, ptu.lastTodOff := ((arr : Int) - cap) / 65536 }
  sourceUpdate 0 arr cap
    { s with tsu.qualified := s.tsu.qualified.set 0 (decide (s.ptu.act = .o5)), tsu.seenNs := s.tsu.seenNs.set 0 s.cpr.aonNs }

/-- A path's frames go on to FEC decoding: it is the active path, or no rate is chosen yet (R282, R285). -/
def delivers (path : Nat) (s : State) : Bool := isActive path s || decide (s.ptu.rate = 0)

/-- A frame delivered in SYNC or at a miss: it is decoded, a profile of earlier frames becomes usable, and delineation starts again
(R285, R287, R290, R306). -/
def frameDelivered (path : Nat) (f : PhyFrame) (s : State) : State :=
  if delivers path s then
    fecCounts f { s with ptu.frameNo := s.ptu.frameNo + 1, ptu.wordLost := false, ptu.rxPower := f.rxPower }
  else s

/-- A frame received in SYNC: its start is captured in TSU time; a time-of-day pair that waits for it is passed on, and one whose frame
went by without being received in SYNC is discarded and counted (R35, R285, R301, R307). -/
def frameCaptured (path : Nat) (f : PhyFrame) (s : State) : State :=
  if delivers path s then
    let (u, s) := drawBelow 131073 s
    let cap := s.tsu.now + 196608 + u
    let due := s.ptu.todWait.filter fun (w : Nat × Nat) => w.1 = f.counter
    let gone := s.ptu.todWait.filter fun (w : Nat × Nat) => w.1 < f.counter
    let s := ponCount 24 gone.length { s with
      ptu.frames := ((path, f.counter, cap) :: s.ptu.frames).take 16000
      ptu.todWait := s.ptu.todWait.filter fun (w : Nat × Nat) => f.counter < w.1 }
    due.foldl (fun s (w : Nat × Nat) => passTod w.2 cap s) s
  else s

/-- Frames from one judged position to the next: in WATCH the receiver samples one PHY frame in 8 (R302). -/
def frameStep (s : State) : Nat := if s.ptu.sleepSt = .watch ∨ s.ptu.sleepSt = .watchPeek then 8 else 1

/-- The counter after a position: the one received, where its structure passes the HEC, which is counted when it does not follow; else the one
expected (R284). -/
def adoptCounter (path expected : Nat) (f : PhyFrame) (s : State) : State :=
  let s := if f.hec ≤ 1 ∧ f.counter ≠ expected then { s with ptu.ctrAdopted := inc32 s.ptu.ctrAdopted } else s
  modPath path (fun p => { p with counter := if f.hec ≤ 1 then f.counter else expected }) s

/-- A candidate's next position confirms it, or discards it (R284, R285). -/
def confirmAt (path expected : Nat) (f : PhyFrame) (s : State) : State :=
  if f.psyncErrors ≠ 0 ∨ 1 < f.hec ∨ f.counter ≠ expected then modPath path (fun p => { p with sync := .hunt }) s
  else
    let s := if path = 0 then { s with ptu.noCand50 := false, ptu.confNs := s.cpr.aonNs } else s
    if (pathOf s path).sync = .confirm1 then modPath path (fun p => { p with sync := .confirm2, counter := f.counter }) s
    else frameCaptured path f <| frameDelivered path f (syncGained path (modPath path (fun p => { p with counter := f.counter }) s))

/-- A position of a path in SYNC is good, or a miss, the fourth of which in a row loses sync (R284, R285). -/
def judgeAt (path expected : Nat) (f : PhyFrame) (s : State) : State :=
  let p := pathOf s path
  let s := adoptCounter path expected f s
  if 2 < f.psyncErrors ∨ f.hec = 2 then
    let s := ponCount 1 1 s
    if 3 ≤ p.misses then lodsDeclared path s
    else frameDelivered path f (modPath path (fun p => { p with sync := .syncMiss, misses := p.misses + 1 }) s)
  else frameCaptured path f <| frameDelivered path f (modPath path (fun p => { p with sync := .sync, misses := 0 }) (ponCount 0 1 s))

/-- EXPECTED_FRAME_POSITION: what the position holds confirms a candidate, is judged in SYNC, or discards the candidate; its counter
structure's HEC counts in every state but the hunt (R284, R285, R306). -/
def execExpectedFramePosition (path : Nat) (f : PhyFrame) (s : State) : Host.Outcome State Fault Refusal :=
  let p := pathOf s path
  let expected := (p.counter + frameStep s) % 2 ^ 51
  if 2 ≤ path ∨ !p.enabled ∨ p.sync = .hunt then .next s
  else
    let s := if f.hec = 1 then ponCount 4 1 s else if f.hec = 2 then ponCount 5 1 s else s
    .next (if inSync p then judgeAt path expected f s else confirmAt path expected f s)

/-- RATE_NO_CANDIDATE_TIMEOUT: the 50G-PON path has confirmed no candidate for 1 s (R282). -/
def execRateNoCandidateTimeout (s : State) : Host.Outcome State Fault Refusal :=
  .next (if !s.ptu.p50.enabled ∨ inSync s.ptu.p50 then s
    else
      let s := advanceAon (s.ptu.confNs + 1000000000) s
      leaveO1 { s with ptu.noCand50 := true })

/-! ### XGEM (R287) -/

/-- A key register is valid for a frame's key index: unicast for unicast ports, broadcast for multicast ones (R287, R295). -/
def xgemKeyOk (f : Xgem) (s : State) : Bool :=
  let keys := if s.ptu.mcPorts.contains f.portId then s.ptu.bkeys else s.ptu.ukeys
  decide (f.keyIdx = 0) || (decide (f.keyIdx ≤ 2) && (keys.getD (f.keyIdx - 1) none).isSome)

/-- The PON port of a downstream XGEM Port-ID: the port it is bound to, else 0. -/
def ponPortOf (s : State) (id : Nat) : Nat :=
  let i := s.ptu.ports.findIdx fun p => p.xgem = id
  if i < 8 then i else 0

/-- A fragment is discarded: with it goes what is held of its sequence and what is still to come (R287). -/
def breakFrag (f : Xgem) (s : State) : State :=
  { s with
    ptu.frag := s.ptu.frag.filter fun (x : Nat × Nat) => x.1 ≠ f.portId
    ptu.broken := if f.last then s.ptu.broken else s.ptu.broken ++ [f.portId] }

/-- XGEM_FRAME: an uncorrectable header loses the rest of the PHY frame; an accepted frame is decrypted, reassembled, checked and
delivered to FWE; the rest of a broken fragment sequence is discarded (R287). -/
def execXgemFrame (f : Xgem) (s : State) : Host.Outcome State Fault Refusal :=
  if !inSync (activePath s) ∨ s.ptu.wordLost then .next s
  else if f.hecBad then
    let s := ponCount 12 f.lostWords (ponCount 11 1 s)
    .next (breakFrags { s with ptu.wordLost := true })
  else if f.portId ≠ s.ptu.onuId ∧ !s.ptu.uniPorts.contains f.portId ∧ !s.ptu.mcPorts.contains f.portId then .next s
  else if s.ptu.broken.contains f.portId then
    .next (if f.last then { s with ptu.broken := s.ptu.broken.filter fun p => p ≠ f.portId } else s)
  else if !xgemKeyOk f s then .next (breakFrag f (ponCount 13 1 s))
  else
    let s := ponCount 26 f.bytes (ponCount 25 1 s)
    let have_ := ((s.ptu.frag.find? fun (x : Nat × Nat) => x.1 = f.portId).map (·.2)).getD 0 + f.bytes
    let rest := s.ptu.frag.filter fun (x : Nat × Nat) => x.1 ≠ f.portId
    if !f.last then .next { s with ptu.frag := rest ++ [(f.portId, have_)] }
    else
      let s := { s with ptu.frag := rest }
      if 2000 < have_ ∨ f.ownMac then .next (xgemDiscard s)
      else match f.d with
        | some d => .next (classify (ponPortOf s f.portId) d s)
        | none => .next s

/-! ### PLOAM (R286, R289) -/

/-- A downstream PLOAM message is taken: its path is in SYNC (in O1 either path), or it came before the loss of sync that the module still
times (always), and it is addressed to this module (R286, R307). none: discarded. -/
def takePloam (always : Bool) (p : Ploam) (s : State) : Option State :=
  let heard := if s.ptu.act = .o1 then inSync s.ptu.p50 || inSync s.ptu.pXgs else inSync (activePath s)
  if (heard || always) && p.forUs then some (ponCount 15 1 s) else none

/-- Runs a PLOAM message's meaning; a message that fails its MIC is discarded and counted (R286). -/
def ploamWhen (always : Bool) (p : Ploam) (s : State) (f : State → State) : Host.Outcome State Fault Refusal :=
  match takePloam always p s with
  | none => .next s
  | some s' => .next (if p.micBad then ponCount 14 1 s else f s')

/-- Runs a PLOAM message's meaning in SYNC (R286). -/
def ploam (p : Ploam) (s : State) (f : State → State) : Host.Outcome State Fault Refusal := ploamWhen false p s f

/-- Sends Acknowledge with a completion code: 0 OK, 1 parameter error. -/
def ackPloam (code : Nat) (s : State) : State := sendPloam 3 [w32 code] s

/-- The module's own serial number (R288). -/
def ownSerial (s : State) : Word × Word := (0x42525354, s.flash.serial)

/-- BURST_PROFILE: stored for the BWmaps after the frame that carried it, at most 4 for each supported rate (R281, R290). -/
def execBurstProfile (p : Ploam) (s : State) : Host.Outcome State Fault Refusal :=
  ploam p s fun s =>
    if 4 ≤ p.value ∨ p.rate < 1 ∨ 3 < p.rate then s
    else
      let x : Profile := { Profile.reset with
        rate := p.rate, index := p.value, preamble := p.preamble, delimiter := p.delimiter, fec := p.fec, fromFrame := s.ptu.frameNo + 1 }
      leaveO1 { s with
        ptu.profLearned := true
        ptu.profiles := s.ptu.profiles.filter (fun y => y.rate ≠ p.rate ∨ y.index ≠ p.value) ++ [x] }

/-- ASSIGN_ONU_ID (R289). -/
def execAssignOnuId (p : Ploam) (s : State) : Host.Outcome State Fault Refusal :=
  ploam p s fun s =>
    if s.ptu.act = .o23 ∧ p.serial = some (ownSerial s) then
      setAct .o4 { s with ptu.onuId := p.value % 65536, ptu.defAlloc := true }
    else s

/-- RANGING_TIME: O4 enters O5 and TO1 stops; in O5 the delay is adjusted (R289, R302). -/
def execRangingTime (p : Ploam) (s : State) : Host.Outcome State Fault Refusal :=
  ploam p s fun s =>
    if s.ptu.act = .o4 then
      setAct .o5 (setSleep .awakeHeld (ackPloam 0 { s with ptu.eqd := p.value % 2 ^ 32, ptu.to1 := false }))
    else if s.ptu.act = .o5 then ackPloam 0 { s with ptu.eqd := p.value % 2 ^ 32 }
    else s

/-- DEACTIVATE_ONU_ID: to O1; a running 4 ms timer is discarded, also by a message that arrived before the loss of sync (R289, R307). -/
def execDeactivateOnuId (p : Ploam) (s : State) : Host.Outcome State Fault Refusal :=
  ploamWhen s.ptu.prot p s fun s => if s.ptu.act = .o7 then s else enterO1 s

/-- DISABLE_SERIAL_NUMBER: disable enters O7; enable leaves it, also under the broadcast serial number (R289). -/
def execDisableSerialNumber (p : Ploam) (s : State) : Host.Outcome State Fault Refusal :=
  ploam p s fun s =>
    let mine := decide (p.serial = some (ownSerial s))
    if p.option = 0 then
      if mine ∧ s.ptu.act ≠ .o7 ∧ s.ptu.act ≠ .o1 then
        fault 0x3002 [] (setAct .o7 { (setSleep .awakeHeld s) with ptu.to1 := false, ptu.to2 := false, ptu.prot := false })
      else s
    else if s.ptu.act = .o7 ∧ (mine ∨ p.serial = none) then enterO1 s
    else s

/-- REQUEST_REGISTRATION: answered with Registration (R286). -/
def execRequestRegistration (p : Ploam) (s : State) : Host.Outcome State Fault Refusal :=
  ploam p s fun s => if s.ptu.act = .o5 then sendPloam 1 s.ptu.regInUse s else s

/-- Takes an Alloc-ID from the ports bound to it. -/
def dropAlloc (alloc : Nat) (p : PonPort) : PonPort := if p.alloc = alloc then { p with alloc := 0xFFFF, grants := [] } else p

/-- ASSIGN_ALLOC_ID: the OLT assigns an Alloc-ID or removes it (R291). -/
def execAssignAllocId (p : Ploam) (s : State) : Host.Outcome State Fault Refusal :=
  ploam p s fun s =>
    let alloc := p.value % 65536
    if s.ptu.act ≠ .o5 then s
    else if p.option = 1 then ackPloam 0 { s with ptu.allocs := s.ptu.allocs.filter (fun a => a ≠ alloc) ++ [alloc] }
    else ackPloam 0 { s with
      ptu.allocs := s.ptu.allocs.filter fun a => a ≠ alloc, ptu.ports := s.ptu.ports.map (dropAlloc alloc) }

/-- Four random words (R295). -/
def drawKey (s : State) : List Word × State :=
  let (a, s) := draw s
  let (b, s) := draw s
  (w64 a.toNat ++ w64 b.toNat, s)

/-- KEY_CONTROL: a unicast key is generated and reported, the upstream index is switched, or an index is retired (R295). -/
def execKeyControl (p : Ploam) (s : State) : Host.Outcome State Fault Refusal :=
  ploam p s fun s =>
    if s.ptu.act ≠ .o5 ∨ p.value < 1 ∨ 2 < p.value then s
    else if p.option = 0 then
      let (key, s) := drawKey s
      let s := { s with ptu.ukeys := s.ptu.ukeys.set (p.value - 1) (some key) }
      sendPloam 2 (w32 p.value :: Config.keyWrap (Config.ponKek s.ptu.regInUse s.cpe.psk) key) s
    else if p.option = 1 then
      if s.ptu.keyIdx = p.value then s else evtPon 7 [w32 p.value] { s with ptu.keyIdx := p.value }
    else { s with ptu.ukeys := s.ptu.ukeys.set (p.value - 1) none }

/-- SLEEP_ALLOW: OFF wakes the terminal and is a PON wake indication (R302, R472). -/
def execSleepAllow (p : Ploam) (s : State) : Host.Outcome State Fault Refusal :=
  ploam p s fun s =>
    let s := if p.answer then ackPloam 0 s else s
    if p.option = 1 then ponTrySleep { s with ptu.sleepAllow := true }
    else wakeSource 3 (ponWake false { s with ptu.sleepAllow := false })

/-- CHANGE_POWER_LEVEL (R286). -/
def execChangePowerLevel (p : Ploam) (s : State) : Host.Outcome State Fault Refusal :=
  ploam p s fun s => ackPloam 0 { s with ptu.powerLevel := p.value }

/-- POWER_CONSUMPTION_INQUIRE: answered with the input power (R286). -/
def execPowerConsumptionInquire (p : Ploam) (s : State) : Host.Outcome State Fault Refusal :=
  ploam p s fun s => sendPloam 5 [w32 s.cpr.power] s

/-- REFUSED_PLOAM: a TWDM or channel-management message, answered "parameter error" where an answer is required (R286). -/
def execRefusedPloam (p : Ploam) (s : State) : Host.Outcome State Fault Refusal :=
  ploam p s fun s => if p.answer then ackPloam 1 s else s

/-- TO1_EXPIRY: 10 s after O2-3 without O5 (R289). -/
def execTo1Expiry (s : State) : Host.Outcome State Fault Refusal :=
  .next (if s.ptu.to1 ∧ (s.ptu.act = .o23 ∨ s.ptu.act = .o4) then enterO1 (advanceAon (s.ptu.to1Ns + 10000000000) s) else s)

/-- TO2_EXPIRY: 100 ms in O6 (R289). -/
def execTo2Expiry (s : State) : Host.Outcome State Fault Refusal :=
  .next (if s.ptu.to2 ∧ s.ptu.act = .o6 then enterO1 (advanceAon (s.ptu.to2Ns + 100000000) s) else s)

/-! ### Grants and bursts (R290-R294) -/

/-- The burst profile a grant names, usable in the present frame (R290). -/
def profileUsable (s : State) (index : Nat) : Bool :=
  s.ptu.profiles.any fun p => decide (p.index = index ∧ p.fromFrame ≤ s.ptu.frameNo) && decide (p.rate = 3 ↔ s.ptu.rate = 2)

/-- The port of a data grant's Alloc-ID. -/
def grantPort (s : State) (alloc : Nat) : Option Nat := if s.ptu.allocs.contains alloc then (List.range 8).find? fun i => (s.ptu.ports.getD i PonPort.reset).alloc = alloc else none

/-- The equalisation delay in ns (R292, log 59). -/
def eqdNs (s : State) : Nat := s.ptu.eqd * 100000 / 248832

/-- When the burst of a StartTime begins: that long after the captured start of the frame that carries the BWmap, plus the equalisation delay,
on the always-on clock (R292). -/
def burstStart (start : Nat) (s : State) : Nat :=
  let ago := (s.ptu.frames.head?.map fun (x : Nat × Nat × Nat) => (s.tsu.now - x.2.2) / 65536).getD 0
  s.cpr.aonNs + start * 125000 / 9720 + eqdNs s - ago

/-- A grant begins a burst at its StartTime with its profile, or continues the burst of the grant before it (R290, R292). -/
def noteBurst (g : Grant) (s : State) : State :=
  if g.start = 0xFFFF then s else { s with ptu.burstNs := burstStart g.start s, ptu.burstProf := g.profile }

/-- A data grant as it waits for its burst (R290, R292). -/
def ponGrant (g : Grant) (s : State) : PonGrant :=
  { bytes := g.bytes, report := g.report, profile := s.ptu.burstProf, dueNs := s.ptu.burstNs }

/-- BWMAP_GRANT: a grant with a bad entry or a profile the module does not hold is ignored and counted; serial-number and ranging grants
are answered in their states; a data grant waits for its burst (R288-R292). -/
def execBwmapGrant (g : Grant) (s : State) : Host.Outcome State Fault Refusal :=
  if !inSync (activePath s) ∨ s.ptu.rate = 0 then .next s
  else if g.bad ∨ !profileUsable s g.profile then .next (ponCount 17 1 (ponCount 18 1 s))
  else
    let s := noteBurst g s
    if g.kind = 1 then
      .next (if s.ptu.act = .o23 ∧ s.ptu.laser then
          let (delay, s) := draw { s with ptu.profUse := s.ptu.burstProf }
          emitPloam 0 [0x42525354, s.flash.serial, w32 delay.toNat] (ponCount 18 1 s)
        else s)
    else if g.kind = 2 then
      .next (if s.ptu.act = .o4 ∧ s.ptu.laser then
          emitPloam 1 s.ptu.regInUse (ponCount 18 1 { s with ptu.profUse := s.ptu.burstProf })
        else s)
    else if s.ptu.act ≠ .o5 ∨ !s.ptu.laser then .next s
    else match grantPort s g.alloc with
      | some i =>
        let s := ponPortCount i 1 g.bytes (ponPortCount i 0 1 (ponCount 19 g.bytes (ponCount 18 1 s)))
        let now := nowNs s
        .next { s with ptu.ports := s.ptu.ports.modify i fun p =>
          { p with
            grants := p.grants ++ [ponGrant g s]
            granted := p.granted.filter (fun (x : Nat × Nat) => now < x.1 + 2000000000) ++ [(now, g.bytes)] } }
      | none =>
        .next (if s.ptu.defAlloc ∧ g.alloc = s.ptu.onuId then
            ponCount 19 g.bytes (ponCount 18 1 { s with ptu.defGrants := s.ptu.defGrants ++ [ponGrant g s] })
          else s)

/-- What fits a grant of the items that wait, whole ones with their 8-byte XGEM headers, then a fragment of the head: items done, bytes of the
head sent, bytes and fragments sent (R292). -/
structure Fill where
  done : Nat
  head : Nat
  bytes : Nat
  frags : Nat

/-- Fills room for a grant with items of some lengths, of the first of which so many bytes are sent already (R292). -/
def fillLens : List Nat → Nat → Nat → Fill
  | [], _, _ => ⟨0, 0, 0, 0⟩
  | n :: ns, sent, room =>
    let left := n - sent
    if left + 8 ≤ room then
      let r := fillLens ns 0 (room - (left + 8))
      { r with done := r.done + 1, bytes := r.bytes + left + 8, frags := r.frags + b1 (sent ≠ 0) }
    else if 8 < room then ⟨0, sent + (room - 8), room, 1⟩
    else ⟨0, sent, 0, 0⟩

/-- The room that a grant leaves beside its report of 4 bytes (R292, log 59). -/
def grantRoom (g : PonGrant) : Nat := if g.report then g.bytes - 4 else g.bytes

/-- Bytes queued in TSH for a port (R292). -/
def tshBytes (s : State) (port : Nat) : Nat :=
  ((s.tsh.queues.filter fun (q : Nat × FrameQ) => q.1 % 16 = port).map fun (q : Nat × FrameQ) => (q.2.frames.map (·.len)).sum).sum

/-- A burst of a PON port: the first waiting grant is filled; a report asked gives the bytes queued in TSH and released to the port,
rounded up to 4 (R292, R293). -/
def portBurst (port : Nat) (g : PonGrant) (s : State) : State :=
  let x := s.ptu.ports.getD port PonPort.reset
  let lens := x.queue.map fun f => f.len - (portShape s port).overhead
  let queued := (tshBytes s port + lens.sum - x.sentHead + 3) / 4 * 4
  let r := fillLens lens x.sentHead (grantRoom g)
  let s := { s with
    ptu.profUse := g.profile
    ptu.ports := s.ptu.ports.modify port fun p => { p with grants := p.grants.drop 1, queue := p.queue.drop r.done, sentHead := r.head } }
  let s := (x.queue.take r.done).foldl (fun s (f : Frame) => bufReleaseOpt f.buf s) s
  let s := ponPortCount port 3 r.frags (ponPortCount port 2 r.bytes (ponCount 21 1 (ponCount 20 r.bytes s)))
  let s := if g.report then ponPortCount port 4 1 s else s
  emit (.burst x.alloc r.bytes (if g.report then queued else 0) s.ptu.dyingGasp) s

/-- Bytes of an OMCI answer (log 61). -/
def omciBytes (m : Nat × List Word) : Nat := max 48 (4 * m.2.length)

/-- The oldest waiting PLOAM message leaves (R291). -/
def ploamOut (s : State) : State :=
  match s.ptu.ploamQ with
  | [] => s
  | m :: ms => ploamSent m (emitPloam m.1 m.2 { s with ptu.ploamQ := ms })

/-- A burst of the default Alloc-ID: a PLOAM message, then the OMCI answers that fit; a report gives the bytes of those that wait (R291-R293). -/
def defBurst (g : PonGrant) (s : State) : State :=
  let lens := s.ptu.omciQ.map omciBytes
  let queued := (lens.sum - s.ptu.omciHead + 3) / 4 * 4
  let r := fillLens lens s.ptu.omciHead (grantRoom g)
  let out := s.ptu.omciQ.take r.done
  let s := { s with
    ptu.profUse := g.profile, ptu.defGrants := s.ptu.defGrants.drop 1, ptu.omciQ := s.ptu.omciQ.drop r.done, ptu.omciHead := r.head }
  let s := out.foldl (fun s m => emit (.omci m.1 m.2) s) s
  emit (.burst s.ptu.onuId r.bytes (if g.report then queued else 0) s.ptu.dyingGasp) (ploamOut (ponCount 21 1 (ponCount 20 r.bytes s)))

/-- UPSTREAM_BURST: at the scheduled instant the burst of a PON port 0-7, or of the default Alloc-ID (8), is sent (R292). The transmit
power measured is a free value (R500). -/
def execUpstreamBurst (port : Nat) (s : State) : Host.Outcome State Fault Refusal :=
  if s.ptu.act ≠ .o5 ∨ !s.ptu.laser then .next s
  else
    let send := fun (g : PonGrant) (f : State → State) =>
      let (v, s) := draw (advanceAon g.dueNs s)
      Host.Outcome.next (f { s with ptu.txPower := v.truncate 32 })
    if port < 8 then
      match (s.ptu.ports.getD port PonPort.reset).grants with
      | g :: _ => send g (portBurst port g)
      | [] => .next s
    else match s.ptu.defGrants with
      | g :: _ => send g (defBurst g)
      | [] => .next s

/-- TRANSMIT_MONITOR_TRIP: the laser is disabled until the PTU is reset, and the fatal fault is raised (R294). -/
def execTransmitMonitorTrip (s : State) : Host.Outcome State Fault Refusal :=
  .next (if s.ptu.txOff then s
    else raiseFault 0x3003 [] true (evtPon 8 [] (ponCount 22 1 { s with ptu.txOff := true, ptu.laser := false })))

/-! ### OMCI (R297-R300) -/

/-- Classes the agent implements (R297). -/
def omciClasses : List Nat :=
  [2, 5, 6, 7, 45, 47, 130, 131, 134, 347, 171, 256, 257, 262, 263, 266, 268, 273, 274, 277, 278, 281, 312, 341, 344, 345, 346, 329,
    332, 336]

/-- Read-only classes (R297, R299). -/
def omciReadOnly : List Nat := [5, 6, 7, 134, 347, 256, 257, 277, 278, 312, 341, 344, 345, 346, 329]

/-- PM history data classes (R297). -/
def omciHistory : List Nat := [312, 341, 344, 345, 346]

/-- Key of a managed entity's attributes. -/
def omciKey (cls inst : Nat) : Nat := cls * 65536 + inst % 65536

/-- An OMCI answer waits for bursts of the default Alloc-ID; with no ONU-ID, or with the transmitter held off, none is sent (R289, R291, R294). -/
def sendOmci (trans : Nat) (ws : List Word) (s : State) : State :=
  if (s.ptu.act = .o5 ∨ s.ptu.act = .o6) ∧ !s.ptu.txOff then { s with ptu.omciQ := s.ptu.omciQ ++ [(trans, ws)] } else s

/-- Sends an OMCI answer: result codes 0 done, 2 command not supported, 3 parameter error, 4 unknown ME, 5 unknown instance, 6 device
busy, 1 processing error (ITU-T G.988). -/
def omciAnswer (m : Omci) (result : Nat) (ws : List Word) (s : State) : State := sendOmci m.trans (w32 result :: ws) s

/-- What a managed entity's attributes change in the module (R291, R295, R297, R302). Attribute words: T-CONT: Alloc-ID; GEM port network
CTP: Port-ID, T-CONT instance; threshold data: counter index and threshold, in pairs; multicast: Port-ID; extended VLAN: one rule a word (`ruleTag`); enhanced security: key index, key;
power management: I_hold, I_aware, I_lowpower, in frames of 125 us, and the modes asked (1 doze, 2 cyclic sleep, 4 watchful sleep). -/
def omciEffect (m : Omci) (s : State) : State :=
  let v := fun i => (m.vals.getD i 0).toNat
  match m.cls with
  | 262 => if m.inst < 8 then { s with ptu.ports := s.ptu.ports.modify m.inst fun p => { p with alloc := v 0 % 65536 } } else s
  | 268 =>
    let s := { s with ptu.uniPorts := s.ptu.uniPorts.filter (fun p => p ≠ v 0) ++ [v 0] }
    if v 1 < 8 then { s with ptu.ports := s.ptu.ports.modify (v 1) fun p => { p with xgem := v 0 % 65536 } } else s
  | 281 => { s with ptu.mcPorts := s.ptu.mcPorts.filter (fun p => p ≠ v 0) ++ [v 0] }
  | 332 => if 1 ≤ v 0 ∧ v 0 ≤ 2 then { s with ptu.bkeys := s.ptu.bkeys.set (v 0 - 1) (some ((m.vals.drop 1).take 4)) } else s
  | 336 => { s with ptu.iHold := v 0, ptu.iAware := v 1, ptu.iLow := v 2 }
  | _ => s

/-- What deleting a managed entity undoes. -/
def omciUndo (cls inst : Nat) (s : State) : State :=
  let v := fun i => (((tget s.ptu.omci (omciKey cls inst)).getD []).getD i 0).toNat
  match cls with
  | 262 => { s with ptu.ports := s.ptu.ports.modify inst fun p => { p with alloc := 0xFFFF } }
  | 268 => { s with
      ptu.uniPorts := s.ptu.uniPorts.filter fun p => p ≠ v 0
      ptu.ports := s.ptu.ports.map fun p => if p.xgem = v 0 then { p with xgem := 0xFFFF } else p }
  | 281 => { s with ptu.mcPorts := s.ptu.mcPorts.filter fun p => p ≠ v 0 }
  | _ => s

/-- MIB data sync after a change: 1 to 255, skipping 0. -/
def bumpMib (s : State) : State := { s with ptu.mibSync := if s.ptu.mibSync = 255 then 1 else s.ptu.mibSync + 1 }

/-- A limit of R291 or R297 on what a class may hold, in a state without what the entity held before. -/
def omciFull (m : Omci) (s : State) : Bool :=
  let v := (m.vals.getD 0 0).toNat
  (decide (m.cls = 268 ∧ 64 ≤ s.ptu.uniPorts.length) && !s.ptu.uniPorts.contains v) ||
    (decide (m.cls = 281 ∧ 16 ≤ s.ptu.mcPorts.length) && !s.ptu.mcPorts.contains v) ||
    (decide (m.cls = 171) && [false, true].any fun down =>
      decide (8 < ((vlanRules s ++ m.vals).filter fun w => decide (w.toNat ≠ 0) && bit w 0 == down).length))

/-- An instance that the module does not have: the classes whose number of instances the manual gives (R291, R297). -/
def omciNoInstance (m : Omci) : Bool := decide ((m.cls = 7 ∧ 2 ≤ m.inst) ∨ ((m.cls = 262 ∨ m.cls = 277 ∨ m.cls = 278) ∧ 8 ≤ m.inst))

/-- A set asks for doze or cyclic sleep, which the module does not support (R281, R297). -/
def omciUnsupported (m : Omci) : Bool := decide (m.cls = 336) && decide ((m.vals.getD 3 4).toNat % 4 ≠ 0)

/-- The attribute words that the agent keeps: never a key's (R296). -/
def omciStored (m : Omci) : List Word := if m.cls = 332 then m.vals.take 1 else m.vals

/-- The owned addresses of a family, instance by instance (R297). -/
def omciAddress (s : State) (v6 : Bool) (inst : Nat) : List Word :=
  ((((s.fwe.owned.filterMap id).filter fun a => a.v6 == v6)[inst]?).map (·.words)).getD []

/-- A firmware slot as a software image: valid, its sequence number, its length, and whether it runs (R297, R299, R439). -/
def omciImage (s : State) (inst : Nat) : List Word :=
  let x := if inst = 0 then s.flash.fwA else s.flash.fwB
  [w32 (b1 x.hdr), x.seq, w32 x.length, w32 (b1 (s.cpx.fwSlot = inst + 1))]

/-- Counters of a bin, by their indices. -/
def binCounters (b : PmBin) (is : List Nat) : List Word := is.map fun i => w32 (b.counters.getD i 0)

/-- The attribute words that the agent reads back. Those that reflect the module are taken from it; PM history data comes from a 15-minute
bin (R288, R297, R306). -/
def omciGet (cls inst : Nat) (b : PmBin) (s : State) : List Word :=
  let stored := (tget s.ptu.omci (omciKey cls inst)).getD []
  match cls with
  | 2 => [w32 s.ptu.mibSync]
  | 7 => omciImage s inst
  | 134 => omciAddress s false inst
  | 347 => omciAddress s true inst
  | 256 => [(ownSerial s).1, (ownSerial s).2]
  | 257 => [0x4B422D38, 0x31393200]
  | 262 => [w32 (s.ptu.ports.getD inst PonPort.reset).alloc]
  | 263 => [s.ptu.rxPower, s.ptu.txPower, w32 s.ptu.powerLevel]
  | 277 => [w32 inst, w32 (tshBytes s inst)]
  | 278 => [w32 inst]
  | 312 => binCounters b [6, 7, 8, 9, 10]
  | 341 => (b.ports.getD inst []).map w32
  | 344 => binCounters b [11, 12, 13, 25, 26, 27]
  | 345 => binCounters b [0, 1, 2, 3, 4, 5, 14, 15]
  | 346 => binCounters b [16, 17, 18, 19, 20, 21]
  | 332 => stored ++ s.ptu.auth
  | _ => stored

/-- A set or create of an entity: refused for a read-only class, for a sleep mode that is not supported and beyond a limit (R281, R291, R297,
R298). -/
def omciWrite (m : Omci) (s : State) : State :=
  let key := omciKey m.cls m.inst
  let free := { omciUndo m.cls m.inst s with ptu.omci := terase s.ptu.omci key }
  if omciReadOnly.contains m.cls then omciAnswer m 2 [] s
  else if omciUnsupported m ∨ omciFull m free then omciAnswer m 3 [] s
  else omciAnswer m 0 [] (bumpMib (omciEffect m { free with ptu.omci := tset free.ptu.omci key (omciStored m) }))

/-- Mutual authentication: the OLT's challenge is answered under the pre-shared key, with a challenge of the module's own; it cannot run without
the key (R297, R366). -/
def omciChallenge (m : Omci) (s : State) : State :=
  match s.cpe.psk with
  | none => omciAnswer m 1 [] s
  | some psk =>
    let (own, s) := drawKey s
    omciAnswer m 0 [] { s with ptu.auth := own ++ Config.ponAnswer psk m.vals own }

/-- The agent performs a message for a class it implements. Actions: 4 create, 6 delete, 8 set, 9 get, 13 MIB upload, 14 MIB upload next,
15 MIB reset, 28 get current data, 29 set table; any other, software download among them, is not supported (R281, R297-R299). -/
def omciPerform (m : Omci) (s : State) : State :=
  let key := omciKey m.cls m.inst
  if omciNoInstance m then omciAnswer m 5 [] s
  else match m.action with
    | 4 | 8 => omciWrite m s
    | 6 =>
      if omciReadOnly.contains m.cls then omciAnswer m 2 [] s
      else omciAnswer m 0 [] (bumpMib { omciUndo m.cls m.inst s with ptu.omci := terase s.ptu.omci key })
    | 9 => omciAnswer m 0 (omciGet m.cls m.inst (s.ptu.past15.headD PmBin.reset) s) s
    | 13 => omciAnswer m 0 [w32 s.ptu.omci.length] s
    | 14 => match s.ptu.omci[(m.vals.getD 0 0).toNat]? with
      | some e => omciAnswer m 0 (w32 (e.1 / 65536) :: w32 (e.1 % 65536) :: e.2) s
      | none => omciAnswer m 3 [] s
    | 15 =>
      omciAnswer m 0 []
        { s.ptu.omci.foldl (fun s (e : Nat × List Word) => omciUndo (e.1 / 65536) (e.1 % 65536) s) s with
          ptu.omci := [], ptu.mibSync := 0 }
    | 28 => if omciHistory.contains m.cls then omciAnswer m 0 (omciGet m.cls m.inst s.ptu.cur15 s) s else omciAnswer m 2 [] s
    | 29 => if m.cls = 332 then omciChallenge m s else omciWrite m s
    | _ => omciAnswer m 2 [] s

/-- OMCI_MESSAGE: a delegated class goes to the host with its bytes; another unimplemented class is an unknown ME (R297, R300). -/
def execOmciMessage (m : Omci) (s : State) : Host.Outcome State Fault Refusal :=
  if s.ptu.act ≠ .o5 then .next s
  else if m.cls ≠ 0 ∧ s.ptu.delegated.contains m.cls then
    .next (evtPon 6 m.wire { s with ptu.relays := s.ptu.relays ++ [{ trans := m.trans, cls := m.cls, startNs := s.cpr.aonNs }] })
  else if omciClasses.contains m.cls then .next (omciPerform m s)
  else .next (omciAnswer m 4 [] s)

/-- OMCI_RELAY_TIMEOUT: no answer of the host within 2 s: "device busy", and a later answer is discarded (R300). -/
def execOmciRelayTimeout (trans : Nat) (s : State) : Host.Outcome State Fault Refusal :=
  .next (match s.ptu.relays.find? fun r => r.trans = trans with
    | some r =>
      let s := advanceAon (r.startNs + 2000000000) s
      sendOmci trans [6] { s with ptu.relays := s.ptu.relays.filter fun r => r.trans ≠ trans }
    | none => s)

/-! ### Time of day (R301) -/

/-- The superframe count nearest the present whose low 32 bits are n. -/
def nearestFrame (now n : Nat) : Int :=
  let d : Int := (BitVec.ofNat 32 n - BitVec.ofNat 32 now).toInt
  (now : Int) + d

/-- TIME_OF_DAY_PAIR: matched to its frame; one outside the window, or whose frame was not received in SYNC, is discarded and counted; a
frame still to come completes the pair (R301, R307). -/
def execTimeOfDayPair (n sec ns : Nat) (s : State) : Host.Outcome State Fault Refusal :=
  if s.ptu.act ≠ .o5 ∨ 1000000000 ≤ ns then .next s
  else
    let now := (activePath s).counter
    let fr := nearestFrame now n
    let tstamp := sec * secUnits + ns * 65536
    if fr < (now : Int) - 8000 ∨ (now : Int) + 80000 ≤ fr ∨ fr < 0 then .next (ponCount 24 1 s)
    else if (now : Int) < fr then .next { s with ptu.todWait := s.ptu.todWait ++ [(fr.toNat, tstamp)] }
    else match s.ptu.frames.find? fun (x : Nat × Nat × Nat) => rateOf x.1 = s.ptu.rate ∧ x.2.1 = fr.toNat with
      | some x => .next (passTod tstamp x.2.2 s)
      | none => .next (ponCount 24 1 s)

/-! ### Watchful sleep and the protection trigger (R302-R304) -/

/-- The end of a time in a sleep state, given in frames of 125 us (R302, log 59). -/
def sleepTimer (frames : Nat) (s : State) : State := advanceAon (s.ptu.sleepNs + frames * 125000) s

/-- I_HOLD_EXPIRY (R302). -/
def execIHoldExpiry (s : State) : Host.Outcome State Fault Refusal :=
  .next (if s.ptu.act = .o5 ∧ s.ptu.sleepSt = .awakeHeld then ponTrySleep (setSleep .awakeFree (sleepTimer s.ptu.iHold s)) else s)

/-- WATCH_PEEK_TICK: the receiver samples one frame; it shows no wake (0), the forced-wake indication (1) or Sleep_Allow OFF (2) (R302,
R472). -/
def execWatchPeekTick (wake : Nat) (s : State) : Host.Outcome State Fault Refusal :=
  if s.ptu.sleepSt ≠ .watch then .next s
  else
    let s := advanceAon (s.ptu.peekNs + 1000000) s
    let s := setSleep .watchPeek { s with ptu.peekNs := s.cpr.aonNs }
    if wake = 0 then .next (setSleep .watch s)
    else .next (wakeSource 3 (ponWake false (if wake = 2 then { s with ptu.sleepAllow := false } else s)))

/-- I_LOWPOWER_EXPIRY (R302). -/
def execILowpowerExpiry (s : State) : Host.Outcome State Fault Refusal :=
  .next (if s.ptu.sleepSt = .watch then setSleep .aware (sleepTimer s.ptu.iLow s) else s)

/-- I_AWARE_EXPIRY (R302). -/
def execIAwareExpiry (s : State) : Host.Outcome State Fault Refusal :=
  .next (if s.ptu.sleepSt = .aware then setSleep .watch (sleepTimer s.ptu.iAware s) else s)

/-- PROTECTION_TIMER_EXPIRY: 4 ms of LODS raise the trigger; it goes to the twin protocol when armed on the active of a pair, and is
only counted otherwise (R304, R307). -/
def execProtectionTimerExpiry (s : State) : Host.Outcome State Fault Refusal :=
  if s.ptu.prot ∧ (activePath s).lods ∧ !s.ptu.protFired then
    let s := advanceAon (s.ptu.protNs + 4000000) s
    let s := evtPon 4 [] { s with
      ptu.prot := false, ptu.protFired := true, ptu.triggers := inc32 s.ptu.triggers, ptu.lastTrigNs := nowNs s }
    .next (if s.ptu.armed ∧ s.cti.twin = 1 ∧ s.cti.paired then twinTrigger 0 s
      else { s with ptu.trigCount := inc32 s.ptu.trigCount })
  else .next { s with ptu.prot := false }

/-! ### Performance monitoring (R305, R306) -/

/-- The seconds that bins run on: UTC, or TSU seconds while UNSET (R305). -/
def binSeconds (s : State) : Int := (s.tsu.now / secUnits : Nat) - (if s.tsu.state = .unset then 0 else s.tsu.utcOff)

/-- The start of the bin of a span that holds a second. -/
def binStart (span : Nat) (sec : Int) : Int := sec / (span : Int) * span

/-- The TSU instant at which a bin ends (R305). -/
def binBoundary (b : PmBin) (s : State) : Nat := (b.until_ + (if s.tsu.state = .unset then 0 else s.tsu.utcOff)).toNat * secUnits

/-- A new bin, opened at a second of the bins: it begins at the boundary before it. -/
def openBin (day part suspect : Bool) (at_ : Int) (s : State) : PmBin :=
  let span := if day then 86400 else 900
  { PmBin.reset with
    start := (binStart span at_).toNat, opened := at_, until_ := binStart span at_ + span, day := day, part := part, suspect := suspect
    unaligned := decide (s.tsu.state = .unset) }

/-- A bin closed at a second of the bins. -/
def closedBin (b : PmBin) (part suspect : Bool) (at_ : Int) : PmBin :=
  { b with valid := true, part := b.part || part, suspect := b.suspect || suspect, elapsed := (at_ - b.opened).toNat }

/-- Closes the current 15-minute bin at one second and opens the next at another, the same but at a time change; EVT_PON detail 10 carries its
number (R305). -/
def close15 (part suspC suspO : Bool) (closed opened : Int) (s : State) : State :=
  let n := s.ptu.binNo + 1
  evtPon 10 [w32 n] { s with
    ptu.binNo := n, ptu.past15 := (closedBin s.ptu.cur15 part suspC closed :: s.ptu.past15).take 32
    ptu.cur15 := openBin false part suspO opened s }

/-- Closes the current day bin and opens one (R305). -/
def closeDay (part suspC suspO : Bool) (closed opened : Int) (s : State) : State :=
  { s with
    ptu.pastDay := (closedBin s.ptu.curDay part suspC closed :: s.ptu.pastDay).take 2
    ptu.curDay := openBin true part suspO opened s }

/-- PM_BIN_BOUNDARY: at its end the bin closes; an event exactly there belongs to the bin that begins (R305). -/
def execPmBinBoundary (day : Bool) (s : State) : Host.Outcome State Fault Refusal :=
  let b := if day then s.ptu.curDay else s.ptu.cur15
  let s := accruePon (advanceTo (binBoundary b s) s)
  .next (if day then closeDay false false false b.until_ b.until_ s else close15 false false false b.until_ b.until_ s)

/-- A bin that continues over a backward step, flagged suspect, until the next boundary of the new time (R305). -/
def steppedBin (span : Int) (old now : Int) (b : PmBin) : PmBin :=
  { b with suspect := true, opened := b.opened + (now - old), until_ := now / span * span + span }

/-- A time change from a second of the bins: the first setting closes the current bins as partial; a forward step closes them as suspect; a
backward step keeps them, flagged suspect (R305). The state s is after the change. -/
def pmTimeChange (first forward : Bool) (old : Int) (s : State) : State :=
  let now := binSeconds s
  if first ∨ forward then closeDay true (!first) (!first) old now (close15 true (!first) (!first) old now s)
  else { s with ptu.cur15 := steppedBin 900 old now s.ptu.cur15, ptu.curDay := steppedBin 86400 old now s.ptu.curDay }

/-! ### Commands (R308) -/

/-- PON_STATUS word 0, which PTU_STATUS shows (R308, R500). -/
def ponStatus0 (s : State) : Word :=
  let p := activePath s
  w32 (s.ptu.act.code + p.sync.code * 8 + s.ptu.rate * 64 + b1 p.lods * 256 + s.ptu.sleepSt.code * 512 + b1 s.ptu.todSeen * 4096)

/-- PON_STATUS (R308). -/
def execPonStatus (c : Cmd) (s : State) : Host.Outcome State Fault Refusal :=
  .next <| serve 0x0201 (exactly 1) c s fun s =>
    .done ([ponStatus0 s, w32 s.ptu.onuId, w32 s.ptu.eqd, w32 (activePath s).counter, s.ptu.rxPower, s.ptu.txPower,
        w32 (s.ptu.keyIdx + s.ptu.profUse * 4)] ++
      (s.ptu.ports.map fun p => w32 (p.alloc + p.xgem * 65536)) ++ [i32 s.ptu.lastTodOff]) s

/-- The words of a profile after word 0 (R308). -/
def profileWords (p : PonProfile) : List Word := [w32 (p.policy + 4 * b1 p.sleepOk), w32 p.teqd, w32 p.k] ++ p.regId

/-- The profile that 12 words describe. -/
def profileOf (ws : List Word) : PonProfile :=
  { policy := field (ws.getD 0 0) 0 2, sleepOk := bit (ws.getD 0 0) 2, teqd := (ws.getD 1 0).toNat, k := field (ws.getD 2 0) 0 16
    regId := ws.drop 3 }

/-- Sets the running profile; the sleep permission takes effect at once (R308). -/
def takeProfile (ws : List Word) (s : State) : State :=
  let s := ponTrySleep { s with ptu.profile := profileOf ws }
  if s.ptu.profile.sleepOk then s else ponWake true s

/-- Sets the running profile and the copy that CONFIG_COMMIT stores (R308, R345). -/
def setProfile (ws : List Word) (s : State) : State :=
  takeProfile ws { s with flash.staged := tset s.flash.staged 0x3001 (profileWords (profileOf ws)) }

/-- The restart bit of PON_SET_PROFILE: O1 at once; declared LODS ends with the activation (R285, R289, R308). -/
def restartPon (s : State) : State := enterO1 s

/-- PON_SET_PROFILE's body (R307, R308). -/
def ponSetProfile (c : Cmd) (s : State) : Res :=
  let fn := field (word c 0) 16 4
  let restart := bit (word c 1) 3
  checks [(decide (1 < fn), .badParam)]
    (if fn = 1 then .done (profileWords s.ptu.profile) s
     else checks
       [(decide (field (word c 1) 0 2 = 3), .badParam),
        (restart && decide (s.cpx.mode ≠ .service), .modeForbids),
        (restart && s.cpr.saving, .unavailable)]
       (.done [] (let s := setProfile (c.words.drop 1) s; if restart then restartPon s else s)))

/-- PON_SET_PROFILE (R308). -/
def execPonSetProfile (c : Cmd) (s : State) : Host.Outcome State Fault Refusal :=
  .next <| serve 0x0202 (fnLens [13, 1] c) c s (ponSetProfile c)

/-- Words of PON_OMCI_RELAY: an answer's words follow its length (R308). -/
def relayLens (c : Cmd) (k : Nat) : Bool :=
  match field (word c 0) 16 4 with
  | 0 => k == 9
  | 1 => decide (2 ≤ k) && (k == 2 + (field (word c 1) 0 16 + 3) / 4 ||
      decide (field (word c 1) 0 16 < 48 ∨ 1980 < field (word c 1) 0 16))
  | 2 => k == 1
  | _ => true

/-- The 16 delegated classes in 8 words. -/
def delegatedOf (ws : List Word) : List Nat := ws.flatMap fun w => [field w 0 16, field w 16 16]

/-- PON_OMCI_RELAY's body. The message's bytes 0-1 are its transaction, big-endian (R300, R308). -/
def ponOmciRelay (c : Cmd) (s : State) : Res :=
  match field (word c 0) 16 4 with
  | 0 =>
    let cs := delegatedOf ((c.words.drop 1).take 8)
    checks [(cs.any fun k => decide (k ≠ 0) && omciClasses.contains k, .badParam)] (.done [] { s with ptu.delegated := cs })
  | 1 =>
    let n := field (word c 1) 0 16
    let trans := field (word c 2) 0 8 * 256 + field (word c 2) 8 8
    checks
      [(decide (n < 48 ∨ 1980 < n), .badParam),
       (s.ptu.relays.all fun r => decide (r.trans ≠ trans), .badParam)]
      (.done [] (sendOmci trans (c.words.drop 2) { s with ptu.relays := s.ptu.relays.filter fun r => r.trans ≠ trans }))
  | 2 => .done ((List.range 8).map fun i => w32 (s.ptu.delegated.getD (2 * i) 0 + s.ptu.delegated.getD (2 * i + 1) 0 * 65536)) s
  | _ => .refuse .badParam

/-- PON_OMCI_RELAY (R308). -/
def execPonOmciRelay (c : Cmd) (s : State) : Host.Outcome State Fault Refusal :=
  .next <| serve 0x0203 (relayLens c) c s (ponOmciRelay c)

/-- The bin that a bin number names: none for a number that names no bin; an invalid bin for one that does not exist yet (R308). -/
def binOf (s : State) (n : Nat) : Option PmBin :=
  if n = 0 then some s.ptu.cur15
  else if n ≤ 32 then some ((s.ptu.past15[n - 1]?).getD { PmBin.reset with part := false, unaligned := false })
  else if n = 64 then some s.ptu.curDay
  else if n = 65 ∨ n = 66 then some ((s.ptu.pastDay[n - 65]?).getD { PmBin.reset with part := false, unaligned := false })
  else none

/-- PON_PM_READ's body (R308). -/
def ponPmRead (c : Cmd) (s : State) : Res :=
  let s := accruePon s
  let n := field (word c 0) 24 8
  let port := field (word c 0) 20 4
  let sel := bit (word c 0) 0
  match binOf s n with
  | none => .refuse .badParam
  | some b =>
    let running := decide (n = 0 ∨ n = 64)
    let el := if running then (binSeconds s - b.opened).toNat else b.elapsed
    let cnt := if sel then b.ports.getD port [] else b.counters
    checks [(sel && decide (8 ≤ port), .badParam)]
      (.done ([w32 b.start, w32 (b.start / 2 ^ 32 % 65536 + b1 b.valid * 65536 + b1 b.part * 2 ^ 17 + b1 b.suspect * 2 ^ 18 +
          b1 b.unaligned * 2 ^ 19), w32 el] ++ cnt.map w32) s)

/-- PON_PM_READ (R308). -/
def execPonPmRead (c : Cmd) (s : State) : Host.Outcome State Fault Refusal :=
  .next <| serve 0x0204 (exactly 1) c s (ponPmRead c)

/-- PON_PROTECT_CTRL's body (R304, R308). -/
def ponProtectCtrl (c : Cmd) (s : State) : Res :=
  match field (word c 0) 16 4 with
  | 0 => .done [] { s with ptu.armed := true }
  | 1 => .done [] { s with ptu.armed := false }
  | 2 => .done ([w32 (b1 s.ptu.armed + 2 * b1 (activePath s).lods), w32 s.ptu.triggers] ++ w64 s.ptu.lastTrigNs) s
  | _ => .refuse .badParam

/-- PON_PROTECT_CTRL (R308). -/
def execPonProtectCtrl (c : Cmd) (s : State) : Host.Outcome State Fault Refusal :=
  .next <| serve 0x0205 (exactly 1) c s (ponProtectCtrl c)

/-- PON_CLOCK_RETURN: with the path in SYNC, CMUX_7 goes back to the PON receive clock glitch-free (R36, R460). -/
def execPonClockReturn (s : State) : Host.Outcome State Fault Refusal :=
  .next (if inSync (activePath s) then
      { s with cpr.stopped := s.cpr.stopped.set 14 false, cpr.cmux := s.cpr.cmux.set 7 0, tsu.ponRef := true }
    else s)

end Sys2Proof.Machine
end

