-- ==== Sys2Proof/Machine/Packets.lean ====
section
/-!
DEFINITION. Command packets as bytes (13 R324-R330): the parse, the catalogue of opcodes (R340) and arrival in a queue.
-/

namespace Sys2Proof.Machine

/-- The opcodes of the catalogue (R340). -/
def catalogue : List Nat :=
  [0x0001, 0x0002, 0x0003, 0x0004, 0x0005, 0x0006, 0x0101, 0x0102, 0x0103, 0x0104, 0x0105, 0x0201, 0x0202, 0x0203, 0x0204, 0x0205,
    0x0301, 0x0302, 0x0303, 0x0304, 0x0305, 0x0306, 0x0307, 0x0308, 0x0309, 0x030A, 0x030B, 0x0401, 0x0402, 0x0403, 0x0404, 0x0405,
    0x0406, 0x0501, 0x0502, 0x0503, 0x0504, 0x0505, 0x0601, 0x0602, 0x0603, 0x0604, 0x0701, 0x0702, 0x0703] ++
  [0x0801, 0x0802, 0x0803, 0x0804, 0x0901, 0x0902, 0x0903, 0x0904, 0x0A01, 0x0A02, 0x0A03, 0x0A04, 0x0A05, 0x0B01, 0x0B02, 0x0B03,
    0x0B04, 0x0C01, 0x0C02, 0x0C03, 0x0C04, 0x0C05, 0x0D01, 0x0D02, 0x0D03, 0x0D04, 0x0D05, 0x0E01, 0x0E02]

/-- A packet as received (R324, R325). -/
structure RawPacket where
  version : Nat
  flags : Nat
  opcode : Nat
  tag : Word
  /-- The length field. -/
  length : Nat
  /-- Bytes 10-11. -/
  target : Nat
  seq : Word
  words : List Word
  /-- The trailer CRC passes. -/
  crcOk : Bool
  /-- The length field equals the whole words received. -/
  lengthOk : Bool
deriving DecidableEq, Repr

/-- Reads a packet's header, words and trailer (R324, R325). -/
def parsePacket (bs : List Byte) : RawPacket :=
  let h := bytesWords (bs.take 16)
  let body := bs.take (bs.length - 4)
  let h0 := h.getD 0 0
  let h2 := h.getD 2 0
  let n := bs.length - 20
  { version := field h0 0 8, flags := field h0 8 8, opcode := field h0 16 16, tag := h.getD 1 0, length := field h2 0 16
    target := field h2 16 16, seq := h.getD 3 0, words := bytesWords (body.drop 16)
    crcOk := decide (20 ≤ bs.length) && decide (bytesWord (bs.drop (bs.length - 4)) = crc32c body)
    lengthOk := decide (n % 4 = 0) && decide (field h2 0 16 = n / 4) }

/-- The command that a packet on a queue carries. -/
def rawCmd (backup : Bool) (queue : Nat) (src : Option (Addr × Nat)) (p : RawPacket) : Cmd :=
  { backup := backup, queue := queue, tag := p.tag, seq := p.seq, qfield := p.target / 4096, target := p.target % 4096
    more := decide (p.flags / 4 % 2 = 1), words := p.words, src := src }

/-- A reply without an accepted sequence, in command order (R330 orders 1 and 3). -/
def refuseRaw (op : Nat) (c : Cmd) (st : Status) (s : State) : State :=
  if canStart (qiOf c) s ∧ (queueOf s (qiOf c)).waiting = [] then replyUnaccepted c op st s
  else enqueue op c (some st) s

/-- An opcode outside the catalogue: its sequence is accepted, then BAD_OPCODE (R330 orders 4 and 5). -/
def refuseOpcode (op : Nat) (c : Cmd) (s : State) : State :=
  match seqCase (queueOf s (qiOf c)).lastSeq c.seq with
  | .accept gap =>
    let s := acceptSeq c gap s
    if canStart (qiOf c) s ∧ (queueOf s (qiOf c)).waiting = [] then finish c op .badOpcode [] s
    else enqueue op c (some .badOpcode) s
  | .repeated => repeatReply c s
  | .stale => refuseRaw op c .staleSequence s

/-- Counts a packet that is discarded without a reply (R330, R486). -/
def discardPacket (qi : Nat) (s : State) : State :=
  modQueue qi (fun q => { q with cntDiscarded := inc32 q.cntDiscarded }) s

/-- A packet that arrives on a queue: the checks of R330 in order up to the opcode; a command that passes waits at its place in the
queue until Keystone takes it (R328). -/
def packetArrives (backup : Bool) (queue : Nat) (src : Option (Addr × Nat)) (bs : List Byte) (s : State) : State :=
  let p := parsePacket bs
  let c := rawCmd backup queue src p
  let s := takeCredit (qiOf c) s
  if !p.crcOk then refuseRaw p.opcode c .badCrc s
  else if p.flags % 4 ≠ 0 then returnCredit (qiOf c) (discardPacket (qiOf c) s)
  else if p.version ≠ 1 then refuseRaw p.opcode c .badParam s
  else if !p.lengthOk then refuseRaw p.opcode c .badLength s
  else if !catalogue.contains p.opcode then refuseOpcode p.opcode c s
  else arrive p.opcode c s

end Sys2Proof.Machine
end

