-- ==== Sys2Proof/Machine/SvcEth.lean ====
section
/-!
DEFINITION. The service Ethernet MAC, its wake filters and the backup command path (17 R430-R432, 13 R338).
-/

namespace Sys2Proof.Machine

/-- The MAC runs: its domain is ON, or it listens for a wake (R431, R467). -/
def svcOn (s : State) : Bool :=
  s.cpr.powered && !s.cpx.loopbacks.contains 6 && decide ((domainOf s 26).state = .on) && s.cti.svc.up

/-! ### Frames -/

/-- One bit of a CRC-16 with polynomial 0x1021 (R411). -/
def crc16Bits : Nat → BitVec 16 → BitVec 16
  | 0, c => c
  | n + 1, c => crc16Bits n (if c.getLsbD 15 then (c <<< 1) ^^^ 0x1021 else c <<< 1)

/-- CRC-16 with polynomial 0x1021 and initial value 0xFFFF (R411). -/
def crc16 (bs : List Byte) : BitVec 16 :=
  bs.foldl (fun c b => crc16Bits 8 (c ^^^ (BitVec.zeroExtend 16 b <<< 8))) 0xFFFF

/-- The bytes that a wake filter's mask selects among a frame's first 128 (R431). -/
def maskedBytes (mask : List Word) (head : List Byte) : List Byte :=
  (List.range 128).filterMap fun i => if bit (mask.getD (i / 32) 0) (i % 32) then head[i]? else none

/-- A wake filter matches a frame (R431). -/
def filterMatches (f : WakeFilter) (head : List Byte) : Bool :=
  f.on && decide ((crc16 (maskedBytes f.mask head)).toNat = f.check)

/-- What the VLAN setting does with a frame's tag: a tag with the VID is removed, other tags are dropped, untagged frames pass when
permitted (R430). -/
def vlanPasses (v : SvcEth) (f : EthFrame) : Bool :=
  match f.tag with
  | some t => decide (t = v.vid)
  | none => v.untagged

/-- SERVICE_ETHERNET_FRAME: a frame is received, or dropped and counted; in S2 and S3 the wake filters watch (R430, R431, R472). -/
def serviceFrame (f : EthFrame) (s : State) : State :=
  if !svcOn s then s
  else
    let asleep := decide (s.cpr.sleep ≠ 0) || s.cpr.waking.isSome
    let s := if 2 ≤ s.cpr.sleep ∧ s.cti.svc.filters.any fun x => filterMatches x f.head then wakeSource 2 s else s
    if !vlanPasses s.cti.svc f then svcCount 7 s
    else if 49152 < (if asleep then s.cti.svc.rxBytes else 0) + f.len then svcCount 6 s
    else
      let s := svcCount 1 { s with cti.svc.rxBytes := if asleep then s.cti.svc.rxBytes + f.len else 0 }
      if f.kind ≤ 2 then s
      else { s with fwe.portCnt := s.fwe.portCnt.modify 14 fun l => l.modify 0 fun n => inc32 n }

/-- SERVICE_ETHERNET_FRAME (R430). -/
def execServiceEthernetFrame (f : EthFrame) (s : State) : Host.Outcome State Fault Refusal := .next (serviceFrame f s)

/-- Delays every queued frame: the head starts again after a wait. -/
def restamp (wait : Nat) (s : State) : State :=
  match s.cti.svc.txq with
  | [] => s
  | f :: _ =>
    let d := s.cpr.aonNs + wait + svcWireNs s f.len - f.stamp
    { s with cti.svc.txq := s.cti.svc.txq.map fun g => { g with stamp := g.stamp + d } }

/-- A collision of the head frame's transmission: truncated binary exponential back-off with an exponent of at most 10, a random number
of slots of 512 bit times; after 16 attempts the frame is dropped (R430). -/
def collision (late : Bool) (s : State) : State :=
  let s := svcDrain s
  if !svcOn s || s.cti.svc.txq.isEmpty then s
  else
    let s := svcCount 2 (if late then svcCount 4 s else s)
    let n := s.cti.svc.attempts + 1
    if 16 ≤ n then
      restamp 0 (svcCount 3 { s with cti.svc.txq := s.cti.svc.txq.drop 1, cti.svc.attempts := 0, cti.svc.backoff := 0 })
    else
      let e := min n 10
      let (k, s) := drawBelow (2 ^ e) s
      restamp (k * 64 * 8 * (if s.cti.svc.fast then 10 else 100)) { s with cti.svc.attempts := n, cti.svc.backoff := e }

/-- COLLISION (R430). -/
def execCollision (late : Bool) (s : State) : Host.Outcome State Fault Refusal := .next (collision late s)

/-- SPEED_POLICY_TIMER: 10 s at 100 Mb/s with a transmit utilisation (in 0.01 %) below 1 % restarts autonegotiation at 10 Mb/s only, never
while the Quoin heartbeat is down (R430). -/
def execSpeedPolicyTimer (util : Nat) (s : State) : Host.Outcome State Fault Refusal :=
  if !svcOn s || !s.cti.svc.fast || decide (s.cti.svc.policy ≠ 0) then .next s
  else
    let s := advanceAon (s.cti.svc.fastNs + 10000000000) s
    .next (if decide (util < 100) && (!s.cti.paired || quoinUp s) then { s with cti.svc.advert := 2, cti.svc.up := false }
      else { s with cti.svc.fastNs := s.cpr.aonNs })

/-- SERVICE_ETHERNET_LINK_CHANGE: autonegotiation ends at a speed that is advertised, or the link goes down (R430). -/
def execServiceEthernetLinkChange (up fast : Bool) (s : State) : Host.Outcome State Fault Refusal :=
  if (domainOf s 26).state ≠ .on ∨ (domainOf s 26).latched ∨ !s.cpr.powered then .next s
  else if !up then .next (let s := svcDrain s; { s with cti.svc.up := false })
  else
    let a := s.cti.svc.advert
    .next (restamp 0 { s with
      cti.svc.up := true, cti.svc.fastNs := s.cpr.aonNs, cti.svc.fast := decide (a = 1) || (decide (a = 0) && fast) })

/-! ### The backup path (R338) -/

/-- An event that the host acknowledges is kept no longer (R338). -/
def backupAck (queue code : Nat) (tag seq : Word) (s : State) : State :=
  { s with cpx.backupUnacked := s.cpx.backupUnacked.filter fun e =>
      !(e.queue = queue ∧ e.code = code ∧ e.tag = tag ∧ e.seq = seq) }

/-- BACKUP_ACKNOWLEDGEMENT (R330, R338). -/
def execBackupAcknowledgement (queue code : Nat) (tag seq : Word) (s : State) : Host.Outcome State Fault Refusal :=
  .next (if s.cpx.backupOn && svcOn s then backupAck queue code tag seq s else s)

/-- NOT_A_COMMAND_DISCARD: a packet of the link flagged as reply or event is discarded without a reply and counted; its credit returns at
once (R327, R330). -/
def execNotACommandDiscard (queue : Nat) (s : State) : Host.Outcome State Fault Refusal :=
  .next (if s.hlp.link = .active ∧ queue < 4 then returnCredit queue (discardPacket queue (takeCredit queue s)) else s)

/-- BACKUP_DATAGRAM: a datagram to port 47,110. Its tag is the first 16 bytes of HMAC-SHA-256 over the packet; one whose tag fails is
discarded and counted with no reply; a packet with flags bit 0 or 1 is taken as an acknowledgement; any other is queued as a command
(R330, R338). -/
def backupDatagram (source : Addr) (port : Nat) (bytes : List Byte) (s : State) : State :=
  match s.cpe.backupKey with
  | none => s
  | some key =>
    let n := bytes.length - 16
    let body := bytes.take n
    if bytes.drop n ≠ (hmacSha256 (wordsBytes key) body).take 16 then
      { s with cpx.backupTagFails := inc32 s.cpx.backupTagFails }
    else
      let s := { s with cpx.backupPeer := some (source, port) }
      let p := parsePacket body
      let q := p.target / 4096
      if p.crcOk ∧ p.flags % 4 ≠ 0 then
        if p.flags % 4 = 3 ∧ p.words = [] then backupAck (q % 4) p.opcode p.tag p.seq s else discardPacket (4 + q % 4) s
      else packetArrives true (q % 4) (some (source, port)) body s

/-- BACKUP_DATAGRAM (R338). -/
def execBackupDatagram (source : Addr) (port : Nat) (bytes : List Byte) (s : State) : Host.Outcome State Fault Refusal :=
  .next (if s.cpx.backupOn && svcOn s then backupDatagram source port bytes s else s)

/-- BACKUP_EVENT_RESEND: the unacknowledged event that is due first is sent again, 100 ms after it was last sent; after 5 resends it is
counted as lost (R338). -/
def execBackupEventResend (s : State) : Host.Outcome State Fault Refusal :=
  match s.cpx.backupUnacked with
  | [] => .next s
  | e :: es =>
    let due := e.sentNs + 100000000
    let s := advanceAon due s
    if 5 ≤ e.resends then
      .next { s with cpx.backupUnacked := es, cpx.backupEventsLost := inc32 s.cpx.backupEventsLost }
    else
      let s := { s with cpx.backupUnacked := es ++ [{ e with resends := e.resends + 1, sentNs := s.cpr.aonNs }] }
      .next (sendBackup (.packet true e.queue s.cpx.backupPeer e.packet) s.cpx.backupPeer e.packet s)

/-! ### SVCETH_SET (R432) -/

/-- SVCETH_SET addresses: words 1 to 11, which configuration item 0x4005 holds too (R432). -/
def svcAddresses (ws : List Word) (s : State) : State :=
  let w := fun i => ws.getD i 0
  { s with
    cti.svc.ip4 := w 0, cti.svc.pfx4 := field (w 1) 0 6, cti.svc.pfx6 := field (w 1) 8 8
    cti.svc.ip6 := [w 2, w 3, w 4, w 5], cti.svc.gw4 := w 6, cti.svc.gw6 := [w 7, w 8, w 9, w 10] }

/-- SVCETH_SET link: VLAN and speed policy; a fixed speed that is not the one in force restarts autonegotiation (R430, R432). -/
def svcLink (w : Word) (s : State) : State :=
  let policy := field w 16 2
  let s := { s with
    cti.svc.vid := field w 0 12, cti.svc.pcp := field w 12 3, cti.svc.untagged := bit w 15, cti.svc.policy := policy
    cti.svc.advert := policy }
  let fits := decide (policy = 0) || decide (policy = (if s.cti.svc.fast then 1 else 2))
  if fits then s else { s with cti.svc.up := false }

/-- The 10 words of SVCETH_SET status: speed in Mb/s, then the counters (R432). -/
def svcStatus (s : State) : List Word :=
  w32 (if !s.cti.svc.up then 0 else if s.cti.svc.fast then 100 else 10) :: s.cti.svc.counters.map w32

/-- SVCETH_SET's checks and effect (R432). -/
def svcethSet (c : Cmd) (s : State) : Res :=
  let w := word c 1
  match field (word c 0) 16 4 with
  | 0 =>
    checks [(decide (32 < field (word c 2) 0 6) || decide (128 < field (word c 2) 8 8), .badParam)]
      (.done [] (svcAddresses (c.words.drop 1) s))
  | 1 => checks [(decide (field w 16 2 = 3), .badParam)] (.done [] (svcLink w s))
  | 2 =>
    .done []
      { s with cti.svc.filters := s.cti.svc.filters.modify (field w 0 3) fun _ =>
          { on := bit w 3, check := field w 16 16, mask := (c.words.drop 2).take 4 } }
  | 3 =>
    let s := svcDrain s
    .done (svcStatus s) { s with cti.svc.counters := SvcEth.reset.counters }
  | _ => .refuse .badParam

/-- SVCETH_SET (R432). -/
def execSvcethSet (c : Cmd) (s : State) : Host.Outcome State Fault Refusal :=
  .next <| serve 0x0A05 (fnLens [12, 2, 7, 1] c) c s (svcethSet c)

end Sys2Proof.Machine
end

