-- ==== Sys2Proof/Machine/ConfigItems.lean ====
section
/-!
DEFINITION. Configuration items: their lengths, defaults, checks and effects (13 R345; 03 R81; 10 R255; 11 R308; 15 R389, R394;
17 R432; 18 R446, R454).
-/

namespace Sys2Proof.Machine

/-- Items that only the module writes (R446, R454). -/
def itemReadOnly (id : Nat) : Bool := decide (id = 0x1001 ∨ (0x1100 ≤ id ∧ id ≤ 0x137F))

/-- Value words of an item; none for an unknown item (R345, R394, R432, R446, R454). -/
def itemLen (id : Nat) : Option Nat :=
  if id = 0x1001 then some 8 else if itemReadOnly id then some 256
  else if id = 0x0001 ∨ id = 0x4010 ∨ id = 0x6001 ∨ id = 0xA001 ∨ (0x7000 ≤ id ∧ id ≤ 0x7007) then some 1
  else if id = 0x3001 then some 12 else if id = 0x4001 ∨ id = 0x4004 then some 2 else if id = 0x4002 then some 8
  else if id = 0x4003 then some 3 else if id = 0x4005 then some 11 else if id = 0x5001 then some 4 else none

/-- The defined bits of each word of an item; the others are reserved (R13, R308, R338, R389, R393, R394, R432). -/
def itemMask (id : Nat) : List Word :=
  if id = 0x3001 then [0xF, 0xFFFFFFFF, 0xFFFF] ++ List.replicate 9 0xFFFFFFFF
  else if id = 0x4001 then [0xF0000, 0x1FF]
  else if id = 0x4002 then [0xF0003, 0x7F, 0xF0003, 0x7F, 0xF0003, 0x7F, 0xF0003, 0x7F]
  else if id = 0x4003 then [0xF0000, 0xFFFFFFFF, 3] else if id = 0x4004 then [0xF0000, 0x3FFFF]
  else if id = 0x4005 then [0xFFFFFFFF, 0xFF3F] ++ List.replicate 9 0xFFFFFFFF
  else if id = 0x4010 then [1] else if id = 0x5001 then [0xFFF, 0x3F03, 0xFFFFFFFF, 0xFFFFFFFF]
  else if id = 0xA001 then [0x7FFF] else List.replicate ((itemLen id).getD 0) 0xFFFFFFFF

/-- An item's words as kept: its reserved bits read 0 (R13, R14). -/
def maskItem (id : Nat) (ws : List Word) : List Word := (ws.zip (itemMask id)).map fun x => x.1 &&& x.2

/-- Factory default of an item (R42, R81, R255, R375, R393). -/
def itemDefault (id : Nat) : List Word :=
  if id = 0x5001 then [0x210, 0, 1000, 1000] else if id = 0x6001 then [1536]
  else if 0x7000 ≤ id ∧ id ≤ 0x7007 then [w32 (Pool.defaults.getD (id - 0x7000) Pool.reset).count]
  else List.replicate ((itemLen id).getD 0) 0

/-- The committed value of an item: the configuration in force, or the factory default; the boot report and the saved roster for
theirs (R445, R446, R454). -/
def itemCommitted (s : State) (id : Nat) : List Word :=
  if id = 0x1001 then s.flash.bootReport
  else if itemReadOnly id then ((s.flash.roster.drop ((id - 0x1100) * 256)) ++ List.replicate 256 0).take 256
  else (tget s.flash.running id).getD (itemDefault id)

/-- The staged value of an item: the value written last, or the committed one (R345). -/
def itemStaged (s : State) (id : Nat) : List Word :=
  if itemReadOnly id then itemCommitted s id else (tget s.flash.staged id).getD (itemCommitted s id)

/-- Ranges of one item's value (R345, R393, R394, R408, R432). The boot mode has none: another value gives CONVERSE (R42). -/
def itemBad (id : Nat) (ws : List Word) : Bool :=
  let w := fun i => ws.getD i 0
  if id = 0x3001 then decide (field (w 0) 0 2 = 3)
  else if id = 0x4001 then roleBad (w 1)
  else if id = 0x4002 then (List.range 4).any fun p => decide (16 < field (w (2 * p + 1)) 2 5)
  else if id = 0x4003 then decide (field (w 2) 0 2 = 3)
  else if id = 0x4004 then decide (field (w 1) 16 2 = 3)
  else if id = 0x4005 then decide (32 < field (w 1) 0 6) || decide (128 < field (w 1) 8 8)
  else if id = 0x5001 then timeSourceBad (w 0) (w 1) || timeThresholdBad (w 2) (w 3)
  else if id = 0x6001 then decide ((w 0).toNat % 64 ≠ 0 ∨ 1792 < (w 0).toNat)
  else false

/-- Bytes of the pools from a to b - 1 as staged (R81). -/
def poolBytes (s : State) (a b : Nat) : Nat :=
  ((List.range b).map fun p => if a ≤ p then poolSize p * ((itemStaged s (0x7000 + p)).getD 0 0).toNat else 0).sum

/-- Bytes of DRAM that pools 4 to 7 and the bindings share, for a Cairn area in GiB (R81, R255). -/
def workingBytes (areaGiB : Nat) : Nat := (2048 - areaGiB - 64) * 2 ^ 30

/-- CONFIG_COMMIT's checks of the staged items (R81, R255, R345). -/
def commitBad (s : State) : Bool :=
  (s.flash.staged.any fun (i : Nat × List Word) => itemBad i.1 i.2) || decide (64 * 2 ^ 20 < poolBytes s 0 4) ||
    decide (workingBytes ((itemStaged s 0x6001).getD 0 0).toNat < poolBytes s 4 8)

/-- Names the partner and the preferred role: pairing waits for the partner's cells (R421, R432). -/
def twinForm (serial : Word) (prefer : Nat) (s : State) : State :=
  let lane := fun p s => modCtiPort p (fun x =>
    if x.enabled then x else { x with enabled := true, path := { SyncPath.reset with enabled := true }, syncWait := true, syncNs := s.cpr.aonNs }) s
  lane 5 (lane 4 { s with cti.forming := true, cti.formNs := s.cpr.aonNs, cti.partner := serial, cti.prefer := prefer })

/-- The lowest free comparator of 8-63 (R382, R389). -/
def freeCmp (s : State) : Option Nat := (List.range 64).find? fun n => decide (8 ≤ n ∧ (cmpOf s n).owner = 0)

/-- A port becomes paced with a comparator, or stays unpaced with a fault when none is free (R389). -/
def pacePort (p : Nat) (s : State) : State :=
  match freeCmp s with
  | none => fault 0xA001 [w32 p] s
  | some n => modPort p (fun x => { x with paced := true, cmp := n }) (modCmp n (fun _ => { Cmp.reset with owner := 2 }) s)

/-- A port becomes unpaced: its timed queue is launched in stamp order and its comparator is free (R389). -/
def unpacePort (p : Nat) (s : State) : State :=
  let x := portShape s p
  let s := modCmp x.cmp (fun _ => Cmp.reset) (modPort p (fun y => { y with paced := false, cmp := 0 }) s)
  if s.cti.egressStopped then s
  else x.timed.foldl (fun s f => launchFrame f s) (modPort p (fun y => { y with timed := [] }) s)

/-- Item 0xA001 as applied (R389). -/
def applyPaced (mask : Nat) (s : State) : State :=
  (List.range 15).foldl (fun s p =>
    let want := decide ((mask >>> p) % 2 = 1)
    if want ∧ !(portShape s p).paced then pacePort p s
    else if !want ∧ (portShape s p).paced then unpacePort p s else s) s

/-- Item 0x5001 as applied: the SYNC function is accepted only with the claims it needs and is otherwise none (R379, R393, R394). -/
def applyTime (ws : List Word) (s : State) : State :=
  let w := fun i => ws.getD i 0
  let fn := field (w 1) 0 2
  let cmp := field (w 1) 8 6
  let ok := decide (fn = 0) || (decide (s.tsu.syncOwner = 1) && (decide (fn ≠ 2) || decide ((cmpOf s cmp).owner = 1)))
  let s := { s with tsu.prio := prioList (w 0), tsu.jump := (w 2).toNat, tsu.late := (w 3).toNat }
  setSyncFn (if ok then fn else 0) cmp (noSource s)

/-- An item's effect when CONFIG_COMMIT has written it (R308, R345, R389, R394). -/
def applyAtCommit (id : Nat) (ws : List Word) (s : State) : State :=
  if id = 0x3001 then takeProfile ws s
  else if id = 0x4010 then { s with cpx.backupOn := bit (ws.getD 0 0) 0 }
  else if id = 0x5001 then applyTime ws s
  else if id = 0xA001 then applyPaced (field (ws.getD 0 0) 0 15) s
  else s

/-- Pools with the counts of items 0x7000-0x7007, taken at boot (R81). -/
def bootPools (s : State) : List Pool :=
  (List.range 8).map fun p =>
    let n := ((itemCommitted s (0x7000 + p)).getD 0 0).toNat
    { Pool.reset with count := n, free := n }

/-- The items that take effect at boot, but for what waits for DRAM and for the ports (R345, R432, R445). -/
def applyAtBoot (s : State) : State :=
  let s := [0x3001, 0x4010, 0x5001, 0xA001].foldl (fun s id => applyAtCommit id (itemCommitted s id) s) s
  let s := if s.ptu.act = .o1 then profileAtO1 s else s
  svcLink ((itemCommitted s 0x4004).getD 1 0) (svcAddresses (itemCommitted s 0x4005) { s with bpm.pools := bootPools s })

/-- The cluster role and the Course ports, and the pair, that the configuration sets: their ports start alignment (R432, R447). -/
def applyPorts (s : State) : State :=
  let ports := itemCommitted s 0x4002
  let s := takeRole ((itemCommitted s 0x4001).getD 1 0) s
  let s := (List.range 4).foldl (fun s p => coursePort p (ports.getD (2 * p + 1) 0) s) s
  let form := itemCommitted s 0x4003
  let role := field (form.getD 2 0) 0 2
  if role = 0 then s else twinForm (form.getD 1 0) role s

end Sys2Proof.Machine
end

