-- ==== Sys2Proof/Machine/Flags.lean ====
section
/-!
DEFINITION. The flags of a Mallet core: sr[0] z, sr[1] n, sr[2] sat, sr[3] av (R129).
-/

namespace Sys2Proof.Machine

/-- z and n from a 32-bit result (R129). -/
def setZN (w : Word) (c : Core) : Core := { c with z := decide (w = 0), n := w.msb }

end Sys2Proof.Machine
end

