-- ==== Sys2Proof/Machine/Mallet.lean ====
section
/-!
DEFINITION. The instructions of the customer Mallet cores and AUD_PROGRAM_LOAD (05 R127-R145).
-/

namespace Sys2Proof.Machine

/-! ### Fields and registers (R129, R133) -/

/-- len bits of an instruction from bit lo (R133). -/
def ifield (w : BitVec 64) (lo len : Nat) : Nat := (w.toNat >>> lo) % 2 ^ len

/-- The opcode. -/
def opOf (w : BitVec 64) : Nat := ifield w 56 8

/-- Field d. -/
def dOf (w : BitVec 64) : Nat := ifield w 52 4

/-- Field a. -/
def aOf (w : BitVec 64) : Nat := ifield w 48 4

/-- Field b. -/
def bOf (w : BitVec 64) : Nat := ifield w 44 4

/-- Field imm12. -/
def immOf (w : BitVec 64) : Nat := ifield w 32 12

/-- imm12, sign-extended. -/
def simmOf (w : BitVec 64) : Int := (BitVec.ofNat 12 (immOf w)).toInt

/-- Register x[i]. -/
def xreg (x : Core) (i : Nat) : Word := x.x.getD i 0

/-- Accumulator i. -/
def areg (x : Core) (i : Nat) : BitVec 72 := x.acc.getD i 0

/-- Writes an accumulator. -/
def setAcc (i : Nat) (v : BitVec 72) (x : Core) : Core := { x with acc := x.acc.set i v }

/-- sr as a word (R129). -/
def srWord (x : Core) : Word := w32 (b1 x.z + 2 * b1 x.n + 4 * b1 x.sat + 8 * b1 x.av)

/-- A register of a class: 0 x, 1 acc, 2 p, 3 b, 4 l, 5 m, 6 sr; its value, signed for the wide and data classes. -/
def readClass (x : Core) (cls i : Nat) : BitVec 72 :=
  match cls with
  | 0 => (xreg x (i % 16)).signExtend 72
  | 1 => areg x (i % 4)
  | 2 => (x.p.getD (i % 8) 0).setWidth 72
  | 3 => (x.b.getD (i % 8) 0).setWidth 72
  | 4 => (x.l.getD (i % 8) 0).setWidth 72
  | 5 => (x.m.getD (i % 8) 0).signExtend 72
  | _ => (srWord x).setWidth 72

/-- Writes a register of a class other than x. -/
def writeClass (cls i : Nat) (v : BitVec 72) (x : Core) : Core :=
  let w : Word := v.setWidth 32
  match cls with
  | 1 => setAcc (i % 4) v x
  | 2 => { x with p := x.p.set (i % 8) w }
  | 3 => { x with b := x.b.set (i % 8) w }
  | 4 => { x with l := x.l.set (i % 8) w }
  | 5 => { x with m := x.m.set (i % 8) w }
  | 6 => { x with z := bit w 0, n := bit w 1, sat := bit w 2, av := bit w 3 }
  | _ => x

/-! ### Memory (R130, R136) -/

/-- Why a core stops at an instruction. -/
inductive CoreStop
  /-- An illegal instruction or access. -/
  | illegal
  /-- A request that the protection unit DENIES. -/
  | denied (addr : Word)
deriving DecidableEq, Repr

/-- Where an address leads on a bus: 0 X memory, 1 Y memory, 2 the cluster slice, with the offset in it. -/
def coreMap (ybus : Bool) (a : Word) : Except CoreStop (Nat × Nat) :=
  let n := a.toNat
  if n % 4 ≠ 0 then .error .illegal
  else if n < 0x10000 ∧ !ybus then .ok (0, n)
  else if 0x10000 ≤ n ∧ n < 0x20000 ∧ ybus then .ok (1, n - 0x10000)
  else if 0x20000 ≤ n ∧ n < 0x28000 then .error .illegal
  else if 0x100000 ≤ n ∧ n < 0x120000 then .ok (2, n - 0x100000)
  else .error (.denied a)

/-- The memory of a place. -/
def coreMem (x : Core) (m : Nat) : List Host.Cell := if m = 0 then x.xmem else if m = 1 then x.ymem else x.slice

/-- Stores a word at a place. -/
def coreStore (m a : Nat) (w : Word) (x : Core) : Core :=
  if m = 0 then { x with xmem := writeWord x.xmem a w }
  else if m = 1 then { x with ymem := writeWord x.ymem a w }
  else { x with slice := writeWord x.slice a w }

/-- A pointer after its post-modify (R130). -/
def postModify (x : Core) (n k : Nat) : Word :=
  let p := x.p.getD n 0
  let m := x.m.getD k 0
  let l := (x.l.getD n 0).toNat
  if l = 0 then p + m
  else
    let b := x.b.getD n 0
    b + BitVec.ofInt 32 (((p.toNat : Int) - b.toNat + m.toInt) % (l : Int))

/-- Cycles of an access: 1 to private memory; 4 to 12 to the cluster slice, as the round-robin service falls (R136). -/
def accessCycles (m : Nat) (s : State) : Nat × State :=
  if m = 2 then
    let (n, s) := drawBelow 9 s
    (n + 3, s)
  else (0, s)

/-! ### One instruction -/

/-- What an operation gives: the core, a data register to write, cycles, and the state its free values came from. -/
structure OpOut where
  core : Core
  wr : List (Nat × Word) := []
  cycles : Nat := 1
  /-- Control is transferred: no loop is taken round. -/
  jump : Bool := false
  /-- The last instruction of a body that is skipped. -/
  skip : Option Nat := none
  st : State

/-- An operation: the instruction word, the core, and the state; an error stops the core at the instruction. -/
abbrev CoreOp := BitVec 64 → Core → State → Except CoreStop OpOut

/-- A move slot (R133): loads see memory as it was before the instruction, and stores land in the order operation, X slot, Y slot (DESIGN CHOICE,
log 131); its access uses the pointer as it stood and its store the register as it stood (R132). A pointer that the
operation has changed as well takes a value that the specification does not give. -/
def moveSlot (slot : Nat) (ybus : Bool) (x0 : Core) (o : OpOut) : Except CoreStop OpOut :=
  if slot / 2 ^ 15 % 2 = 0 then .ok o
  else
    let n := slot / 2 ^ 12 % 4 + 4 * b1 ybus
    let r := slot / 2 ^ 5 % 16
    match coreMap ybus (x0.p.getD n 0) with
    | .error e => .error e
    | .ok (m, a) =>
      let (extra, s) := accessCycles m o.st
      let (v, s) := if o.core.p.getD n 0 = x0.p.getD n 0 then (postModify x0 n (slot / 2 ^ 9 % 8), s)
        else let (f, s) := draw s; (f.setWidth 32, s)
      let c := { o.core with p := o.core.p.set n v }
      if slot / 2 ^ 14 % 2 = 1 then .ok { o with core := coreStore m a (xreg x0 r) c, cycles := o.cycles + extra, st := s }
      else .ok { o with core := c, wr := o.wr ++ [(r, readWord (coreMem x0 m) a)], cycles := o.cycles + extra, st := s }

/-- Writes the data registers of an instruction; one that it writes twice takes a value that the specification does not give. -/
def writeRegs (all : List (Nat × Word)) : List (Nat × Word) → Core → State → Core × State
  | [], x, s => (x, s)
  | (r, w) :: t, x, s =>
    if 1 < (all.filter fun q => q.1 = r).length then
      let (f, s) := draw s
      writeRegs all t { x with x := x.x.set r (f.setWidth 32) } s
    else writeRegs all t { x with x := x.x.set r w } s

/-- The next instruction after one that stands at pc and falls through to nxt: the loops that end there go round or close; a body of more
than 64 instructions costs 2 cycles at its back edge (R135). A loop that a branch has left stays open on top of the outer ones (DESIGN CHOICE,
log 131). -/
def loopEdge (pc nxt : Nat) : List (Nat × Nat × Nat) → Nat × Nat × List (Nat × Nat × Nat)
  | [] => (nxt, 0, [])
  | (first, last, left) :: t =>
    if last < pc ∨ nxt ≤ last then (nxt, 0, (first, last, left) :: t)
    else if 1 < left then (first, if 64 < last + 1 - first then 2 else 0, (first, last, left - 1) :: t)
    else loopEdge pc nxt t

/-- A core stops at an instruction: FAULTED, its claim ends, its slot is detached with the crossfade, and EVT_FAULT is raised
(R23, R128). -/
def coreFault (c : Nat) (why : CoreStop) (s : State) : State :=
  let code := match why with
    | .denied _ => 0x6102
    | .illegal => Config.programFault % 65536
  let params := match why with
    | .denied a => [w32 (32 + (c - 224)), a]
    | .illegal => [w32 c]
  let s := modCore c (fun x => { x with state := .faulted, lastFault := code, detach := x.attached.isSome, inBlock := false }) s
  let s := if ((tget s.aue.cores c).map (·.attached.isNone)).getD true then { s with aue.cores := terase s.aue.cores c } else s
  fault code params s

/-- An operation's outcome after the move slots of its instruction, slot 0 first (R132, R133). -/
def afterMoves (moves : Bool) (w : BitVec 64) (x0 : Core) (o : OpOut) : Except CoreStop OpOut :=
  if moves then
    match moveSlot (ifield w 16 16) false x0 o with
    | .error e => .error e
    | .ok o => moveSlot (ifield w 0 16) true x0 o
  else .ok o

/-- The state after an instruction of core c that stood as x: its data registers written, its loops taken round, its cycles counted,
from the release at done to the next done for the largest count of a block (R128, R132, R135, R143, R145). -/
def retire (c : Nat) (x : Core) (o : OpOut) : State :=
  let (y, s) := writeRegs o.wr o.wr o.core o.st
  let (pc, extra, loops) := if o.jump then (y.pc, 0, y.loops) else loopEdge (o.skip.getD x.pc) y.pc y.loops
  let used := y.used + o.cycles + extra
  let ended := y.waiting && y.inBlock
  modCore c (fun _ => { y with
    pc := pc, loops := loops, used := used, inBlock := y.inBlock && !ended
    maxUsed := if ended then max y.maxUsed (min used 0xFFFFFFFF) else y.maxUsed }) s

/-- A core executes: it is RUNNING, does not wait at done, and its clock is not gated (R128, R470). -/
def coreRuns (s : State) (x : Core) : Bool := decide (x.state = .running ∧ s.cpr.sleep = 0) && !x.waiting

/-- Runs an operation of opcode op on a core, if that is what the core's next instruction holds: RUNNING and not waiting at done. Its
move slots follow, unless the opcode takes none (R128, R132-R134). -/
def runOp (c op : Nat) (moves : Bool) (act : CoreOp) (s : State) : Host.Outcome State Fault Refusal :=
  match tget s.aue.cores c with
  | none => .next s
  | some x =>
    let w := (tget x.prog x.pc).getD 0
    if !coreRuns s x ∨ 4096 ≤ x.pc ∨ opOf w ≠ op then .next s
    else
      match act w { x with pc := x.pc + 1 } s with
      | .error e => .next (coreFault c e s)
      | .ok o =>
        match afterMoves moves w x o with
        | .error e => .next (coreFault c e s)
        | .ok o => .next (retire c x o)

/-- What an operation on data registers gives: it writes d and sets z and n from the result (R129, R134). -/
def aluOut (f : Word → Word → BitVec 64 → Word) (w : BitVec 64) (x : Core) (s : State) : OpOut :=
  let r := f (xreg x (aOf w)) (xreg x (bOf w)) w
  { core := setZN r x, wr := [(dOf w, r)], st := s }

/-- An operation on data registers. -/
def aluOp (f : Word → Word → BitVec 64 → Word) : CoreOp := fun w x s => .ok (aluOut f w x s)

/-- What an operation on an accumulator gives (R131). -/
def accOut (f : BitVec 72 → Int → BitVec 64 → BitVec 72 × Bool) (w : BitVec 64) (x : Core) (s : State) : OpOut :=
  let i := dOf w % 4
  let r := f (areg x i) ((xreg x (aOf w)).toInt * (xreg x (bOf w)).toInt) w
  { core := { setAcc i r.1 x with av := x.av || r.2 }, st := s }

/-- An operation on an accumulator. -/
def accOp (f : BitVec 72 → Int → BitVec 64 → BitVec 72 × Bool) : CoreOp := fun w x s => .ok (accOut f w x s)

/-- A 72-bit result of an exact value, and whether it wrapped. -/
def wrap72 (v : Int) : BitVec 72 × Bool := (BitVec.ofInt 72 v, decide ((BitVec.ofInt 72 v).toInt ≠ v))

/-- Saturation to n bits. -/
def satBits (n : Nat) (v : Int) : Int := max (-(2 ^ (n - 1))) (min (2 ^ (n - 1) - 1) v)

/-- What a saturating operation on data registers gives; it sets sr.sat when it saturates (R134). -/
def satOut (f : Int → Int → Int) (w : BitVec 64) (x : Core) (s : State) : OpOut :=
  let v := f (xreg x (aOf w)).toInt (xreg x (bOf w)).toInt
  let r := i32 (satBits 32 v)
  { core := { setZN r x with sat := x.sat || decide (satBits 32 v ≠ v) }, wr := [(dOf w, r)], st := s }

/-- A saturating operation on data registers. -/
def satOp (f : Int → Int → Int) : CoreOp := fun w x s => .ok (satOut f w x s)

/-- nop: moves only (R134). -/
def execMalletNop (core : Nat) (s : State) : Host.Outcome State Fault Refusal :=
  runOp core 0x00 true (fun _ x s => .ok { core := x, st := s }) s

/-- mac: acc += a × b (R131, R134). -/
def execMac (core : Nat) (s : State) : Host.Outcome State Fault Refusal :=
  runOp core 0x01 true (accOp fun acc p _ => wrap72 (acc.toInt + p)) s

/-- msu: acc -= a × b (R131, R134). -/
def execMsu (core : Nat) (s : State) : Host.Outcome State Fault Refusal :=
  runOp core 0x02 true (accOp fun acc p _ => wrap72 (acc.toInt - p)) s

/-- mpy: acc = a × b (R131, R134). -/
def execMpy (core : Nat) (s : State) : Host.Outcome State Fault Refusal :=
  runOp core 0x03 true (accOp fun _ p _ => (BitVec.ofInt 72 p, false)) s

/-- clr: acc = 0 (R134). -/
def execClr (core : Nat) (s : State) : Host.Outcome State Fault Refusal :=
  runOp core 0x04 true (accOp fun _ _ _ => (0, false)) s

/-- asra: acc >>= imm12[5:0], arithmetic (R134). -/
def execAsra (core : Nat) (s : State) : Host.Outcome State Fault Refusal :=
  runOp core 0x05 true (accOp fun acc _ w => (acc.sshiftRight (immOf w % 64), false)) s

/-- The store of sta at a place: acc, shifted right by imm12[5:0] and saturated to 32 or 24 bits; pointer b is post-modified, by which
modifier is not in the specification (R131, R134). -/
def staOut (m a : Nat) (w : BitVec 64) (x : Core) (s : State) : OpOut :=
  let n := bOf w % 8
  let v := (areg x (dOf w % 4)).toInt / 2 ^ (immOf w % 64)
  let bits := if immOf w / 64 % 2 = 1 then 24 else 32
  let y := coreStore m a (i32 (satBits bits v)) x
  { core := { y with p := y.p.set n (postModify x n (Config.staModifier w % 8)), sat := x.sat || decide (satBits bits v ≠ v) }
    cycles := 1 + (accessCycles m s).1, st := (accessCycles m s).2 }

/-- sta: a store through pointer b (R131, R134). -/
def staOp : CoreOp := fun w x s =>
  match coreMap (decide (4 ≤ bOf w % 8)) (x.p.getD (bOf w % 8) 0) with
  | .error e => .error e
  | .ok (m, a) => .ok (staOut m a w x s)

/-- sta (R131, R134). -/
def execSta (core : Nat) (s : State) : Host.Outcome State Fault Refusal := runOp core 0x06 true staOp s

/-- add: d = a + b, 32-bit wrap (R134). -/
def execAdd (core : Nat) (s : State) : Host.Outcome State Fault Refusal := runOp core 0x10 true (aluOp fun a b _ => a + b) s

/-- sub: d = a - b, 32-bit wrap (R134). -/
def execSub (core : Nat) (s : State) : Host.Outcome State Fault Refusal := runOp core 0x11 true (aluOp fun a b _ => a - b) s

/-- adds: d = a + b, saturating (R134). -/
def execAdds (core : Nat) (s : State) : Host.Outcome State Fault Refusal := runOp core 0x12 true (satOp fun a b => a + b) s

/-- subs: d = a - b, saturating (R134). -/
def execSubs (core : Nat) (s : State) : Host.Outcome State Fault Refusal := runOp core 0x13 true (satOp fun a b => a - b) s

/-- and (R134). -/
def execAnd (core : Nat) (s : State) : Host.Outcome State Fault Refusal := runOp core 0x14 true (aluOp fun a b _ => a &&& b) s

/-- or (R134). -/
def execOr (core : Nat) (s : State) : Host.Outcome State Fault Refusal := runOp core 0x15 true (aluOp fun a b _ => a ||| b) s

/-- xor (R134). -/
def execXor (core : Nat) (s : State) : Host.Outcome State Fault Refusal := runOp core 0x16 true (aluOp fun a b _ => a ^^^ b) s

/-- shl: shift a left by imm12[4:0] (R134). -/
def execShl (core : Nat) (s : State) : Host.Outcome State Fault Refusal :=
  runOp core 0x17 true (aluOp fun a _ w => a <<< (immOf w % 32)) s

/-- shr: shift a right by imm12[4:0] (R134). -/
def execShr (core : Nat) (s : State) : Host.Outcome State Fault Refusal :=
  runOp core 0x18 true (aluOp fun a _ w => a >>> (immOf w % 32)) s

/-- asr: shift a right by imm12[4:0], arithmetic (R134). -/
def execAsr (core : Nat) (s : State) : Host.Outcome State Fault Refusal :=
  runOp core 0x19 true (aluOp fun a _ w => a.sshiftRight (immOf w % 32)) s

/-- min, signed (R134). -/
def execMin (core : Nat) (s : State) : Host.Outcome State Fault Refusal :=
  runOp core 0x1A true (aluOp fun a b _ => if a.toInt ≤ b.toInt then a else b) s

/-- max, signed (R134). -/
def execMax (core : Nat) (s : State) : Host.Outcome State Fault Refusal :=
  runOp core 0x1B true (aluOp fun a b _ => if a.toInt ≤ b.toInt then b else a) s

/-- abs, signed; for the most negative number the result is a free value (R134). -/
def absOut (w : BitVec 64) (x : Core) (s : State) : OpOut :=
  let a := xreg x (aOf w)
  let (r, s) := if a = 0x80000000 then let (f, s) := draw s; (f.setWidth 32, s) else (i32 a.toInt.natAbs, s)
  { core := setZN r x, wr := [(dOf w, r)], st := s }

/-- abs. -/
def absOp : CoreOp := fun w x s => .ok (absOut w x s)

/-- abs (R134). -/
def execAbs (core : Nat) (s : State) : Host.Outcome State Fault Refusal := runOp core 0x1C true absOp s

/-- A value into a register of a class, as a data-register write or at once. -/
def classOut (cls i : Nat) (v : BitVec 72) (x : Core) (cycles : Nat) (s : State) : OpOut :=
  if cls = 0 then { core := x, wr := [(i % 16, v.setWidth 32)], cycles := cycles, st := s }
  else { core := writeClass cls i v x, cycles := cycles, st := s }

/-- movi: a register of any class takes imm12 sign-extended, or, with imm12 = 0x800, the low 32 bits of the next instruction word,
which is not executed (R134). The class codes of field d are not in the specification, nor what extends those 32 bits into a 72-bit accumulator:
their sign does (DESIGN CHOICE, log 131). -/
def moviOut (w : BitVec 64) (x : Core) (s : State) : OpOut :=
  let cls := Config.moviClass (dOf w) % 7
  if immOf w = 0x800 then
    let v : Word := ((tget x.prog x.pc).getD 0).setWidth 32
    classOut cls (aOf w) (v.signExtend 72) { x with pc := x.pc + 1 } 2 s
  else classOut cls (aOf w) (BitVec.ofInt 72 (simmOf w)) x 1 s

/-- The address of an instruction (R136). -/
def progAddr (pc : Nat) : Word := w32 (0x20000 + 8 * pc)

/-- movi; a second word beyond the program memory is outside the core's map (R136). -/
def moviOp : CoreOp := fun w x s =>
  if immOf w = 0x800 ∧ 4096 ≤ x.pc then .error (.denied (progAddr x.pc)) else .ok (moviOut w x s)

/-- movi (R134). -/
def execMovi (core : Nat) (s : State) : Host.Outcome State Fault Refusal := runOp core 0x20 true moviOp s

/-- mov: register to register, any classes; how the two registers are encoded is not in the specification (R134). A 72-bit value into a
narrower register is a free value where it does not fit. -/
def movOut (w : BitVec 64) (x : Core) (s : State) : OpOut :=
  let (dc, di) := Config.movDest w
  let (sc, si) := Config.movSource w
  let v := readClass x (sc % 7) si
  let (v, s) := if dc % 7 ≠ 1 ∧ sc % 7 = 1 ∧ (BitVec.ofInt 32 v.toInt).toInt ≠ v.toInt then
      let (f, s) := draw s; (f.setWidth 72, s) else (v, s)
  classOut (dc % 7) di v x 1 s

/-- mov. -/
def movOp : CoreOp := fun w x s => .ok (movOut w x s)

/-- mov (R134). -/
def execMov (core : Nat) (s : State) : Host.Outcome State Fault Refusal := runOp core 0x21 true movOp s

/-- The count of a loop: imm12, or x(a) when imm12 is 0 (R134). -/
def loopCount (w : BitVec 64) (x : Core) : Nat := if immOf w = 0 then (xreg x (aOf w)).toNat else immOf w

/-- loop: repeats the instructions up to a label; a count of 0 skips the body. Where the label stands in the word is not in the
specification (R134, R135). -/
def loopOut (w : BitVec 64) (x : Core) (s : State) : OpOut :=
  let last := Config.loopEnd w (x.pc - 1) % 4096
  if loopCount w x = 0 then { core := { x with pc := last + 1 }, skip := some last, st := s }
  else { core := { x with loops := (x.pc, last, loopCount w x) :: x.loops }, st := s }

/-- loop; a fifth open loop faults the core (R135). -/
def loopOp : CoreOp := fun w x s => if loopCount w x ≠ 0 ∧ 4 ≤ x.loops.length then .error .illegal else .ok (loopOut w x s)

/-- loop (R134). -/
def execLoop (core : Nat) (s : State) : Host.Outcome State Fault Refusal := runOp core 0x30 false loopOp s

/-- A branch target: the signed offset from the branch or from the instruction after it, which the specification does not say
(R133). -/
def branchTarget (w : BitVec 64) (x : Core) : Nat :=
  (((x.pc : Int) - 1 + (Config.branchBase % 2 : Nat) + simmOf w) % 4096).toNat

/-- br: on a condition in d: always, z, nz, n, nn, numbered from 0 in that order (DESIGN CHOICE, log 131); on another code whether it branches is a
free value (R134). -/
def brOut (w : BitVec 64) (x : Core) (s : State) : OpOut :=
  let (f, s') := draw s
  let (t, s) : Bool × State := match dOf w with
    | 0 => (true, s)
    | 1 => (x.z, s)
    | 2 => (!x.z, s)
    | 3 => (x.n, s)
    | 4 => (!x.n, s)
    | _ => (f.getLsbD 0, s')
  if t then { core := { x with pc := branchTarget w x }, cycles := 2, jump := true, st := s } else { core := x, st := s }

/-- br. -/
def brOp : CoreOp := fun w x s => .ok (brOut w x s)

/-- br (R134). -/
def execBr (core : Nat) (s : State) : Host.Outcome State Fault Refusal := runOp core 0x31 false brOp s

/-- Return addresses whose values the specification does not give. -/
def drawStack : Nat → State → List Nat × State
  | 0, s => ([], s)
  | n + 1, s =>
    let (a, s) := drawBelow 4096 s
    let (as_, s) := drawStack n s
    (a :: as_, s)

/-- call: pushes the return address; beyond 8 entries what the stack holds is free values (R134). -/
def callOut (w : BitVec 64) (x : Core) (s : State) : OpOut :=
  let (stack, s) := if x.stack.length < 8 then (x.pc :: x.stack, s) else drawStack 8 s
  { core := { x with stack := stack, pc := branchTarget w x }, cycles := 2, jump := true, st := s }

/-- call. -/
def callOp : CoreOp := fun w x s => .ok (callOut w x s)

/-- call (R134). -/
def execCall (core : Nat) (s : State) : Host.Outcome State Fault Refusal := runOp core 0x32 false callOp s

/-- ret: pops the return address; from an empty stack the address is a free value (R134). A loop that ends at the call returned to is taken
round from here (R135). -/
def retOut (x : Core) (s : State) : OpOut :=
  match x.stack with
  | a :: t => { core := { x with stack := t, pc := a }, cycles := 2, skip := some (a - 1), st := s }
  | [] =>
    let (a, s) := drawBelow 4096 s
    { core := { x with pc := a }, cycles := 2, jump := true, st := s }

/-- ret. -/
def retOp : CoreOp := fun _ x s => .ok (retOut x s)

/-- ret (R134). -/
def execRet (core : Nat) (s : State) : Host.Outcome State Fault Refusal := runOp core 0x33 false retOp s

/-- done: the block is finished; the core waits for the next input block (R134, R139). -/
def execDone (core : Nat) (s : State) : Host.Outcome State Fault Refusal :=
  runOp core 0x3E false (fun _ x s => .ok { core := { x with waiting := true, doneNs := nowNs s }, st := s }) s

/-- halt: the core enters LOADED, and an attached slot is detached (R128, R134). -/
def execHalt (core : Nat) (s : State) : Host.Outcome State Fault Refusal :=
  match tget s.aue.cores core with
  | none => .next s
  | some x =>
    if coreRuns s x ∧ x.pc < 4096 ∧ opOf ((tget x.prog x.pc).getD 0) = 0x3F then
      .next (modCore core (fun x => { coreAtEntry x with state := .loaded, detach := x.attached.isSome }) s)
    else .next s

/-- The opcodes of R134. -/
def listedOps : List Nat :=
  [0x00, 0x01, 0x02, 0x03, 0x04, 0x05, 0x06, 0x10, 0x11, 0x12, 0x13, 0x14, 0x15, 0x16, 0x17, 0x18, 0x19, 0x1A, 0x1B, 0x1C,
    0x20, 0x21, 0x30, 0x31, 0x32, 0x33, 0x3E, 0x3F]

/-- ILLEGAL_INSTRUCTION: an unlisted opcode faults the core; so does a fetch beyond the program memory, which is DENIED (R23, R128, R134,
R136). -/
def execIllegalInstruction (core : Nat) (s : State) : Host.Outcome State Fault Refusal :=
  match tget s.aue.cores core with
  | none => .next s
  | some x =>
    if !coreRuns s x then .next s
    else if 4096 ≤ x.pc then .next (coreFault core (.denied (progAddr x.pc)) s)
    else if listedOps.contains (opOf ((tget x.prog x.pc).getD 0)) then .next s
    else .next (coreFault core .illegal s)

/-! ### AUD_PROGRAM_LOAD (R141-R145) -/

/-- A little-endian word of an image. -/
def imageWord (bs : List Byte) (a : Nat) : Nat := (bytesWord ((bs.drop a).take 4)).toNat

/-- The checks of a whole image (R143, R144). An empty section too must lie at an address of its region (DESIGN CHOICE, log 131). -/
def imageOk (bs : List Byte) : Bool :=
  let g := imageWord bs
  let inside := fun off len => decide (off + len ≤ bs.length)
  let data := fun (base addr len : Nat) => decide (base ≤ addr ∧ addr + len ≤ base + 0xFE00)
  decide (64 ≤ bs.length ∧ g 0 = 0x4B4D4C54 ∧ g 4 % 65536 = 1 ∧ g 8 = bs.length ∧ g 12 < 4096) &&
    decide (g 20 % 8 = 0 ∧ g 20 ≤ 32768 ∧ g 48 ≤ 131072) && inside (g 16) (g 20) && inside (g 24) (g 32) && inside (g 36) (g 44) &&
    data 0 (g 28) (g 32) && data 0x10000 (g 40) (g 44) &&
    decide (g 60 = (crc32c (bs.take 60 ++ [0, 0, 0, 0] ++ bs.drop 64)).toNat)

/-- The program of an image, index by index. -/
def imageProg (bs : List Byte) : Nat → Nat → Tbl (BitVec 64)
  | 0, _ => []
  | n + 1, i =>
    let v : BitVec 64 := BitVec.ofNat 64 (imageWord bs 0 + imageWord bs 4 * 2 ^ 32)
    let rest := imageProg (bs.drop 8) n (i + 1)
    if v = 0 then rest else (i, v) :: rest

/-- Installs a checked image: X and Y memory zeroed, sections copied, LOADED (R144). -/
def installImage (bs : List Byte) (x : Core) : Core :=
  let g := imageWord bs
  let sect := fun off len => (bs.drop off).take len
  coreAtEntry
    { x with
      state := .loaded, prog := imageProg (sect (g 16) (g 20)) (g 20 / 8) 0
      xmem := writeBytes [] (g 28) (sect (g 24) (g 32)), ymem := writeBytes [] (g 40 - 0x10000) (sect (g 36) (g 44))
      entry := g 12, kinds := g 4 / 65536 % 32, cycles := g 52, image := [], total := 0, maxUsed := 0 }

/-- Word counts by function (R145). -/
def programLens (c : Cmd) (k : Nat) : Bool :=
  match field (word c 0) 16 4 with
  | 0 => decide (3 ≤ k ∧ k ≤ 4096)
  | 1 | 2 | 4 | 6 => k == 1
  | 3 => k == 2
  | 5 => k == 3
  | _ => true

/-- The bytes of an image that a core holds (R143). -/
def heldImage (x : Core) : List Byte := if x.state = .empty then [] else x.image

/-- The bytes that a chunk carries, its padding dropped (R145). -/
def chunkBytes (c : Cmd) : List Byte := (wordsBytes (c.words.drop 3)).take ((word c 2).toNat - (word c 1).toNat)

/-- The checks of a chunk (R144, R145). -/
def chunkChecks (x : Core) (c : Cmd) : List (Bool × Status) :=
  let off := (word c 1).toNat
  let total := (word c 2).toNat
  [(decide (x.state ≠ .empty ∧ x.state ≠ .loading), .unavailable),
   (decide (196608 < total ∨ total < 64 ∨ off ≠ (heldImage x).length ∨ (x.state = .loading ∧ total ≠ x.total) ∨
      (total + 3) / 4 * 4 < off + 4 * (c.words.length - 3)), .badParam)]

/-- Function 0: a chunk of an image (R144, R145). -/
def programChunk (i : Nat) (x : Core) (c : Cmd) (s : State) : Res :=
  let total := (word c 2).toNat
  checks (chunkChecks x c)
    (let img := heldImage x ++ chunkBytes c
     if img.length < total then .done [] (modCore i (fun x => { x with state := .loading, image := img, total := total }) s)
     else if imageOk img then .done [] (modCore i (installImage img) s)
     else .refuseWith .badParam (modCore i (fun _ => Core.reset) s))

/-- Where an attach points: at a bus or at a row (R141, R145). -/
def attachPoint (c : Cmd) : Nat := if bit (word c 1) 0 then field (word c 1) 6 3 else field (word c 1) 1 5

/-- The checks of an attach (R141, R142). -/
def attachChecks (x : Core) (c : Cmd) (s : State) : List (Bool × Status) :=
  let k := audConf c
  let bus := bit (word c 1) 0
  let p := attachPoint c
  let y := (tget s.aue.confs k).getD Conf.reset
  let held := if bus then (y.outs.getD p OutSt.reset).core else (y.rows.getD p Row.reset).core
  [(!confUsed s k, .badTarget), (if bus then !busOk y p else !rowOk y p, .badParam),
   (decide (x.state ≠ .running), .unavailable), (x.attached.isSome || held.isSome, .resourceBusy),
   (decide (800 * malletMHz (ceiling (effMode s s.cpx.mode)) < x.cycles), .noCapacity),
   (decide ((x.kinds / (if bus then 2 else 1)) % 2 = 0 ∨ (x.kinds / 2 ^ (2 + y.domain)) % 2 = 0) ||
     (bus && decide (y.lock ≠ 0)), .badParam)]

/-- A core attached at a point, from the next block boundary (R141). -/
def attachAt (i : Nat) (c : Cmd) (s : State) : State :=
  let bus := bit (word c 1) 0
  let p := attachPoint c
  modCore i (fun x => { x with
    attached := some (audConf c, bus, p), attachNs := nextBlockNs s, wet := 0, wetTo := 0, detach := false, bypass := false, onTime := 0
    delivered := false, counted := false, missFlag := false
    occupant := if bus then none else (tget s.aue.confs (audConf c)).bind fun y => (y.rows.getD p Row.reset).leg }) <|
  modConf (audConf c) (fun y =>
    if bus then { y with outs := y.outs.modify p fun o => { o with core := some i } }
    else { y with rows := y.rows.modify p fun r => { r with core := some i } }) s

/-- Function 3: attach at a row or a bus (R141). -/
def programAttach (i : Nat) (x : Core) (c : Cmd) (s : State) : Res :=
  checks (attachChecks x c s) (.done (w64 (nextBlockNs s)) (attachAt i c s))

/-- AUD_PROGRAM_LOAD's body (R145). -/
def programLoad (c : Cmd) (s : State) : Res :=
  let fn := field (word c 0) 16 4
  let i := field (word c 0) 20 8
  match tget s.aue.cores i with
  | none => checks [(decide (6 < fn ∨ i < 224), .badParam), (decide (fn = 3) && !confUsed s (audConf c), .badTarget)] (.refuse .resourceBusy)
  | some x =>
    match fn with
    | 0 => programChunk i x c s
    | 1 => checks [(decide (x.state ≠ .loaded), .unavailable)] (.done [] (modCore i (fun x => { coreAtEntry x with state := .running }) s))
    | 2 => checks [(decide (x.state ≠ .running), .unavailable)]
        (.done [] (modCore i (fun x =>
          if x.attached.isSome then { x with detach := true, halting := true } else { coreAtEntry x with state := .loaded }) s))
    | 3 => programAttach i x c s
    | 4 => .done (w64 (nextBlockNs s)) (modCore i (fun x => { x with detach := x.attached.isSome }) s)
    | 5 => .done [] (modCore i (fun x => { x with params := [word c 1, word c 2] }) s)
    | 6 => .done [w32 x.state.code, w32 x.lastFault, w32 x.missed, w32 x.maxUsed] s
    | _ => .refuse .badParam

/-- AUD_PROGRAM_LOAD (R145). -/
def execAudProgramLoad (c : Cmd) (s : State) : Host.Outcome State Fault Refusal :=
  .next <| serve 0x0406 (programLens c) c s (programLoad c)

end Sys2Proof.Machine
end

