-- ==== Sys2Proof/Machine/Fabric.lean ====
section
/-!
DEFINITION. The Mortar fabric and the DRAM controllers: parity, the order of requests and of grants (01 R19-R26, 10 R254-R265).
-/

namespace Sys2Proof.Machine

/-! ### Parity (R19, R20, R264, R265) -/

/-- Odd parity holds: the word and its parity bit together hold an odd number of ones (R19). -/
def parityOk (w : Word) (p : Bool) : Bool := decide ((popcount 32 w.toNat + b1 p) % 2 = 1)

/-- A burst that fails its third read: counted, logged, and MEM_READ_POISONED raised, which folds within 1 s per channel (R264, R279,
R484). -/
def poisonRead (line : Nat) (s : State) : State :=
  let addr := 64 * line
  let ch := channelOf addr
  let s := modChan ch (fun c => { c with
    poisons := inc32 c.poisons, log := ((addr, nowNs s / 1000000000) :: c.log).take 16 }) s
  fault 0x6201 (w32 ch :: w64 addr) s

/-- A burst of 64 bytes read by its controller, which checks all of its 16 words: the words, by word address, that each successive read
finds bad, beside those stored so; at most two re-reads. The words delivered poisoned (R254, R264, R265). -/
def readLine (bad : List (List Nat)) (line : Nat) (s : State) : List Nat × State :=
  let fails := fun i => ((List.range 16).map (16 * line + ·)).filter fun w => s.mss.badParity.contains w || (bad.getD i []).contains w
  if fails 0 = [] then ([], s)
  else if fails 1 = [] ∨ fails 2 = [] then ([], modChan (channelOf (64 * line)) (fun c => { c with replays := inc32 c.replays }) s)
  else (fails 2, poisonRead line s)

/-- Bursts read one after the other: the words delivered poisoned. -/
def readLines (bad : List (List Nat)) : List Nat → State → List Nat × State
  | [], s => ([], s)
  | l :: ls, s =>
    let (b, s) := readLine bad l s
    let (bs, s) := readLines bad ls s
    (b ++ bs, s)

/-- The bursts that n bytes from an address touch, by 64-byte line: consecutive 256-byte blocks rotate over the channels (R254). -/
def linesOf (addr n : Nat) : List Nat :=
  if n = 0 then [] else (List.range ((addr % 64 + n + 63) / 64)).map (addr / 64 + ·)

/-- The words that n bytes from an address touch. -/
def wordsOf (addr n : Nat) : Nat := if n = 0 then 0 else (addr % 4 + n + 3) / 4

/-! ### The protection unit (R23, R266, R267) -/

/-- Bytes that a request moves. -/
def reqBytes (r : FabReq) : Nat := if r.write then r.data.length else r.len

/-- The protection unit permits a request. No region of memory contains what lies beyond its last byte (log 9) (R254, R266). -/
def permittedRequest (s : State) (r : FabReq) : Bool :=
  permitted s r (reqBytes r) && (decide (r.target ≠ 6) || decide (r.addr + reqBytes r ≤ dramBytes))

/-- A request that is DENIED: nothing changes but the fault; a customer core that made it is halted and released (R23). -/
def denyRequest (r : FabReq) (n : Nat) (s : State) : State :=
  let s := if 32 ≤ r.master ∧ thas s.aue.cores (192 + r.master) then coreFault (192 + r.master) (.denied (w32 r.addr)) s
    else fault 0x6102 (w32 r.master :: w64 r.addr) s
  emit (.completion r.master 4 (if r.write then [] else List.replicate n 0) []) s

/-! ### Requests performed (R21, R22, R264, R265) -/

/-- The poisoned words of a request's own data, by place. -/
def reqPoison (r : FabReq) : List Nat := (List.range (wordsOf r.addr (reqBytes r))).filter fun i => r.poison.contains i

/-- Bytes of a burst's line that a request moves. -/
def lineBytes (r : FabReq) (line : Nat) : Nat := min (r.addr + reqBytes r) (64 * line + 64) - max r.addr (64 * line)

/-- The bursts of a request in the figures of their channels, and its latency (R258, R279). -/
def recordRequest (r : FabReq) (s : State) : State :=
  let s := (linesOf r.addr (reqBytes r)).foldl (fun s l => recordBurst (reqClass r) (channelOf (64 * l)) (lineBytes r l) s) s
  if reqClass r = 0 then recordLatency s else s

/-- A write to memory: its bytes are stored; a word that arrives poisoned is stored with inverted parity; one written whole with good data
has good parity again (R264, R265). -/
def memWrite (r : FabReq) (s : State) : State :=
  let first := r.addr / 4
  let whole := fun w => decide (r.addr ≤ 4 * w ∧ 4 * w + 4 ≤ r.addr + r.data.length)
  let bad := (reqPoison r).map (first + ·)
  { s with
    mss.dram := writeBytes s.mss.dram r.addr r.data
    mss.badParity := (s.mss.badParity.filter fun w => !whole w && !bad.contains w) ++ bad }

/-- A read of memory: its bytes, and the places of its poisoned words. The words of the request's own mask fail every read (R22,
R264). -/
def memRead (r : FabReq) (s : State) : List Nat × List Nat × State :=
  let first := r.addr / 4
  let own := (reqPoison r).map (first + ·)
  let (bad, s) := readLines [own, own, own] (linesOf r.addr r.len) s
  ((readBytes s.mss.dram r.addr r.len).map (·.toNat),
    (List.range (wordsOf r.addr r.len)).filter fun i => bad.contains (first + i), s)

/-- A control core's load that meets a poisoned word: the exception is a logged fault 0x0003 with the address, and the command in
progress ends with INTERNAL_FAULT. A core does not say which command it works for: the model takes the one of the lowest-numbered queue
that has a command in service (DESIGN CHOICE, log 93) (R21). -/
def coreLoadPoisoned (addr : Nat) (s : State) : State :=
  let s := fault 0x0003 (w64 addr) s
  match (List.range 8).find? fun qi => (queueOf s qi).inService.isSome with
  | some qi => finishDeferred qi .internalFault [] s
  | none => s

/-- The key of a byte behind a port other than memory. -/
def portKey (target addr : Nat) : Nat := target * 2 ^ 48 + addr

/-- Writes bytes behind a port other than memory: each is kept with its writer and its word's poison (R21, R24). -/
def portWrite (r : FabReq) : Nat → List Byte → State → State
  | _, [], s => s
  | a, b :: bs, s =>
    let bad := (reqPoison r).contains (a / 4 - r.addr / 4)
    portWrite r (a + 1) bs { s with mss.portMem := tset s.mss.portMem (portKey r.target a) (r.master, b, bad) }

/-- Reads n bytes behind a port other than memory: a requester sees its own earlier writes (R24); the value of any other byte has no
rule here and is free (log 15). -/
def portRead (master target : Nat) : Nat → Nat → State → List Nat × State
  | _, 0, s => ([], s)
  | a, n + 1, s =>
    let (v, s) := match tget s.mss.portMem (portKey target a) with
      | some (m, b, _) => if m = master then (b.toNat, s) else drawBelow 256 s
      | none => drawBelow 256 s
    let (vs, s) := portRead master target (a + 1) n s
    (v :: vs, s)

/-- The places of the poisoned words of a read behind a port other than memory: those of its mask, and those it wrote poisoned (R21,
R22). -/
def portBad (r : FabReq) (s : State) : List Nat :=
  let hit := fun a => ((tget s.mss.portMem (portKey r.target a)).map fun x => decide (x.1 = r.master) && x.2.2).getD false
  (List.range (wordsOf r.addr r.len)).filter fun i =>
    r.poison.contains i || (List.range r.len).any fun k => decide ((r.addr + k) / 4 = r.addr / 4 + i) && hit (r.addr + k)

/-- A read performed at its target: its bytes and the places of its poisoned words. -/
def readTarget (r : FabReq) (s : State) : List Nat × List Nat × State :=
  if r.target = 6 then memRead r (recordRequest r s)
  else
    let bad := portBad r s
    let (bs, s) := portRead r.master r.target r.addr r.len s
    (bs, bad, s)

/-- A write performed at its target. Only requests to memory are in the figures of the channels (R279). -/
def writeTarget (r : FabReq) (s : State) : State :=
  if r.target = 6 then memWrite r (recordRequest r s) else portWrite r r.addr r.data s

/-- The completion of a request performed: OK, or POISONED with the mask of its poisoned words (R22). -/
def complete (r : FabReq) (bs bad : List Nat) (s : State) : State := emit (.completion r.master (if bad = [] then 0 else 3) bs bad) s

/-- A permitted request performed at its target, with its one completion. A control core that loads a poisoned word takes the exception
of R21 (R21, R22, R24, R264). -/
def performRequest (r : FabReq) (s : State) : State :=
  if r.write then complete r [] (reqPoison r) (writeTarget r s)
  else
    let (bs, bad, s) := readTarget r s
    let s := complete r bs bad s
    if bad ≠ [] ∧ r.master < 16 then coreLoadPoisoned r.addr s else s

/-! ### The order of requests (R24, R254, R261) -/

/-- A channel serves nothing: it is in its retraining pause, or its DRAM is in self-refresh (R261, R263). -/
def channelPauses (s : State) (ch : Nat) : Bool :=
  (decide (ch = s.mss.pauseCh) && decide (nowNs s < s.mss.pauseEnd)) || (chanOf s ch).selfRef

/-- The first channel of a request's bursts that serves nothing now. -/
def pausedChannel (s : State) (r : FabReq) : Option Nat :=
  if r.target = 6 then ((linesOf r.addr (reqBytes r)).map fun l => channelOf (64 * l)).find? (channelPauses s) else none

/-- A request must follow an earlier one: a write the earlier write of its requester to its target in its class, a read an earlier write
of its requester to a line of 64 bytes that it reads (R24). -/
def mustFollow (e r : FabReq) : Bool :=
  e.write && decide (e.master = r.master ∧ e.target = r.target ∧ e.inst = r.inst) &&
    (if r.write then decide (reqClass e = reqClass r)
     else (linesOf e.addr (reqBytes e)).any fun l => (linesOf r.addr (reqBytes r)).contains l)

/-- The requests issued before one that have not been performed: in flits held for replay, on the channels, and behind others. -/
def earlierReqs (s : State) (seq : Nat) : List FabReq :=
  (((s.mss.linkReplay.flatMap (·.2)).filter fun f => !f.reply && decide (f.seq < seq)).map (·.req)) ++
    ((s.mss.chans.flatMap (·.queue) ++ s.mss.behind).filter fun x => decide (x.seq < seq)).map (·.req)

/-- A request waits for an earlier one of its requester (R24). -/
def mustWait (s : State) (x : HeldReq) : Bool := (earlierReqs s x.seq).any fun e => mustFollow e x.req

/-- A permitted request at its target: UNAVAILABLE when the port is fenced or draining, a reply that comes after the fence being discarded
and counted; behind an earlier request it must follow, or for want of room at a channel that serves nothing, it waits at its requester;
at such a channel it waits in the queue; else it is performed (R22, R24-R26, R254, R261). -/
def serveRequest (x : HeldReq) (s : State) : State :=
  let r := x.req
  if r.fenced || portDown s r.target r.inst then
    emit (.completion r.master 1 [] [])
      (if r.fenced ∧ !r.write then { s with mss.fenceDrop := s.mss.fenceDrop.modify r.target fun c => inc32 c } else s)
  else if mustWait s x then { s with mss.behind := s.mss.behind ++ [x] }
  else match pausedChannel s r with
    | some ch =>
      if (chanOf s ch).queue.length < 2048 then modChan ch (fun c => { c with queue := c.queue ++ [x] }) s
      else { s with mss.behind := s.mss.behind ++ [x] }
    | none => performRequest r s

/-! ### The order of grants after a pause (R43, R257) -/

/-- A class's age limit in ns; C0 has none (R257, R504). -/
def ageLimitNs (s : State) (cls : Nat) : Nat := 500 * [0, s.mss.ageC1, s.mss.ageC2, s.mss.ageC3].getD cls 0

/-- A C1, C2 or C3 request that had waited longer than its class's age limit when its channel could serve again (R257). -/
def promoted (s : State) (openNs : Nat) (x : HeldReq) : Bool :=
  decide (0 < reqClass x.req) && decide (ageLimitNs s (reqClass x.req) < openNs - x.at_)

/-- The grants of each class in a round of 16, by the weights in force; the grants of a class with nothing waiting pass to the waiting
classes in proportion to their weights, what the proportion leaves over to the first of them (R257). -/
def roundGrants (s : State) (n1 n2 n3 : Nat) : List Nat :=
  let w := s.mss.weights
  let live := [(n1, w.1), (n2, w.2.1), (n3, w.2.2)].map fun x => if x.1 = 0 then 0 else x.2
  let sum := live.sum
  if sum = 0 then [16, 16, 16]
  else
    let part := live.map fun x => x * 16 / sum
    let rest := 16 - part.sum
    part.set (live.findIdx fun x => 0 < x) (part.getD (live.findIdx fun x => 0 < x) 0 + rest)

/-- Rounds of 16 grants among the waiting C1, C2 and C3 requests, oldest first in each class; within a round C1 goes first, then C2, then
C3 (the order inside a round is the model's: log 94) (R257). fuel bounds the number of rounds. -/
def grantRounds (s : State) : Nat → List FabReq → List FabReq → List FabReq → List FabReq
  | 0, c1, c2, c3 => c1 ++ c2 ++ c3
  | n + 1, c1, c2, c3 =>
    if c1.isEmpty ∧ c2.isEmpty ∧ c3.isEmpty then []
    else
      let g := roundGrants s c1.length c2.length c3.length
      c1.take (g.getD 0 0) ++ c2.take (g.getD 1 0) ++ c3.take (g.getD 2 0) ++
        grantRounds s n (c1.drop (g.getD 0 0)) (c2.drop (g.getD 1 0)) (c3.drop (g.getD 2 0))

/-- The requests that wait on a channel in the order of their grants: C0 oldest first, promoted ones oldest first, then by the weights
(R257). -/
def grantOrder (s : State) (openNs : Nat) (q : List HeldReq) : List FabReq :=
  let rest := q.filter fun x => decide (0 < reqClass x.req) && !promoted s openNs x
  let cls := fun k => (rest.filter fun x => reqClass x.req = k).map (·.req)
  (q.filter fun x => reqClass x.req = 0).map (·.req) ++ (q.filter fun x => promoted s openNs x).map (·.req) ++
    grantRounds s rest.length (cls 1) (cls 2) (cls 3)

/-- A channel serves what waits for it (R257, R263). -/
def drainChannel (ch : Nat) (s : State) : State :=
  (grantOrder s (chanOf s ch).openNs (chanOf s ch).queue).foldl (fun s r => performRequest r s)
    (modChan ch (fun c => { c with queue := [] }) s)

/-- A channel out of its pause serves what waited for it (R257, R261). -/
def settleChannel (ch : Nat) (s : State) : State :=
  if (chanOf s ch).queue.isEmpty ∨ channelPauses s ch then s else drainChannel ch s

/-- The requests that waited at their requesters are looked at again, in the order of their issue (R24, R254). -/
def releaseBehind (s : State) : State :=
  s.mss.behind.foldl (fun s x => serveRequest x { s with mss.behind := s.mss.behind.filter fun y => y.seq ≠ x.seq }) s

/-- Every channel serves what waited for it, if its pause has ended, and what waited behind that follows. -/
def settleChannels (s : State) : State := releaseBehind ((List.range 16).foldl (fun s ch => settleChannel ch s) s)

/-- Before self-refresh every controller completes its queued requests (R263). -/
def drainChannels (s : State) : State := releaseBehind ((List.range 16).foldl (fun s ch => drainChannel ch s) s)

/-- A request at the protection unit and then its target: DENIED, or what the target does (R22, R23, R26). -/
def checkedRequest (x : HeldReq) (s : State) : State :=
  if !permittedRequest s x.req then denyRequest x.req (reqBytes x.req) s else serveRequest x s

/-- A request takes its place in the order of issue (R24). -/
def issue (r : FabReq) (s : State) : HeldReq × State := (⟨s.mss.issued, nowNs s, r⟩, { s with mss.issued := s.mss.issued + 1 })

end Sys2Proof.Machine
end

