-- ==== Sys2Proof/Machine/TaskDispatch.lean ====
section
/-!
DEFINITION. Headstock: thread descriptors, dispatch, atomic flows and load counters (16 R396-R407). Cores are numbered 0-15 for the
control cores and 16 + n for Mallet core n.
-/

namespace Sys2Proof.Machine

/-! ### Load windows (R407) -/

/-- Load counters of a core. -/
def loadOf (s : State) (core : Nat) : CoreLoad := (tget s.tds.loads core).getD CoreLoad.reset

/-- Running time of a core in a window of a TSU second, with what its running thread adds, in ns. -/
def busyIn (s : State) (core sec : Nat) : Nat :=
  let held := if s.tds.winSec = sec then (loadOf s core).busy else 0
  match (tget s.tds.running core).bind (tget s.tds.threads) with
  | some t => held + (min (nowNs s) ((sec + 1) * 1000000000) - max t.startNs (sec * 1000000000))
  | none => held

/-- Closes the windows that have ended: load and mean wait of the last completed one (R407). -/
def rollLoads (s : State) : State :=
  let sec := nowNs s / 1000000000
  if sec = s.tds.winSec then s
  else
    let last := sec - 1
    { s with
      tds.winSec := sec
      tds.loads := (List.range 272).filterMap fun c =>
        let l := loadOf s c
        let busy := busyIn s c last
        let fresh := decide (last = s.tds.winSec)
        let wait := if fresh ∧ l.dispatches ≠ 0 then min (l.sumWait / l.dispatches) 0xFFFFFFFF else 0
        let load := min (busy / 100000) 10000
        if wait = 0 ∧ load = 0 ∧ l = CoreLoad.reset then none
        else some (c, { wait := wait, load := load, sumWait := 0, dispatches := 0, busy := 0 }) }

/-- Changes a core's load counters. -/
def modLoad (core : Nat) (f : CoreLoad → CoreLoad) (s : State) : State := { s with tds.loads := tset s.tds.loads core (f (loadOf s core)) }

/-! ### Threads (R396, R397) -/

/-- Changes a thread. -/
def modThread (n : Nat) (f : Thread → Thread) (s : State) : State := { s with tds.threads := tmod s.tds.threads n f }

/-- The flow of a thread as a trace record gives it. -/
def flowWord (d : Desc) : Nat := d.flow.getD 0xFFFF

/-- Threads waiting in a flow, in post order. -/
def waitingIn (s : State) (flow : Nat) : List Nat := (tget s.tds.flows flow).getD []

/-- A thread of a flow is READY or RUNNING, or threads wait in it (R401). -/
def flowBusy (s : State) (flow : Nat) : Bool :=
  !(waitingIn s flow).isEmpty ||
    s.tds.threads.any fun (t : Nat × Thread) => decide (t.2.d.flow = some flow ∧ (t.2.state = .ready ∨ t.2.state = .running))

/-- A thread becomes READY; a flow's head takes the highest priority held by a thread then waiting in the flow (R402). -/
def makeReady (n : Nat) (s : State) : State :=
  match tget s.tds.threads n with
  | none => s
  | some t =>
    let waiting := (t.d.flow.map (waitingIn s)).getD []
    let best := (waiting.filterMap fun i => (tget s.tds.threads i).map (·.d.priority)).foldl min t.d.priority
    modThread n (fun t => { t with
      state := .ready, readyNs := nowNs s, readyNo := s.tds.order, prio := best, raised := decide (best < t.d.priority) })
      { s with tds.order := s.tds.order + 1 }

/-- A thread waits at the tail of its flow (R401, R404). -/
def waitFlow (n flow : Nat) (s : State) : State :=
  let q := waitingIn s flow ++ [n]
  traceRec 11 4 0xFF n flow (min q.length 65535)
    (modThread n (fun t => { t with state := .flowWait }) { s with tds.flows := tset s.tds.flows flow q })

/-- A thread that is to run again, or has been posted: READY, or waiting in its busy flow (R397, R401). -/
def enterThread (n : Nat) (s : State) : State :=
  match (tget s.tds.threads n).bind (·.d.flow) with
  | none => makeReady n s
  | some f => if flowBusy s f then waitFlow n f s else makeReady n s

/-- The oldest waiting thread of a flow becomes READY (R401). -/
def releaseFlow (flow : Option Nat) (s : State) : State :=
  match flow with
  | none => s
  | some f =>
    match waitingIn s f with
    | [] => s
    | n :: ns => makeReady n { s with tds.flows := if ns.isEmpty then terase s.tds.flows f else tset s.tds.flows f ns }

/-- The fields of a descriptor are in range (R396). -/
def descOk (n : Nat) (d : Desc) : Bool :=
  decide (n < 65536 ∧ d.cls ≤ 1 ∧ d.priority ≤ 63 ∧ 1 ≤ d.budgetUs ∧ d.budgetUs ≤ 100000) && (d.flow.all fun f => f < 16384)

/-- THREAD_POST: a post creates a FREE descriptor's thread, makes a BLOCKED one READY or puts it in its flow, and otherwise merges into
pending (R397, R401, R404). -/
def threadPost (n : Nat) (d : Desc) (s : State) : State :=
  let merged := ((tget s.tds.threads n).map fun t => decide (t.state ≠ .blocked)).getD false
  let t := (tget s.tds.threads n).getD { Thread.reset with d := d }
  let s := traceRec 11 0 0xFF n (flowWord t.d) (t.d.priority + 64 * b1 merged) s
  if merged then modThread n (fun t => { t with pend := true }) s
  else enterThread n { s with tds.threads := tset s.tds.threads n t }

/-- THREAD_POST (R397). -/
def execThreadPost (n : Nat) (d : Desc) (s : State) : Host.Outcome State Fault Refusal :=
  .next (if descOk n d then threadPost n d s else s)

/-! ### Dispatch (R398, R400) -/

/-- Headstock dispatches to a core: not a claimed customer core, nor a core of a cluster that is fenced or off; only control core 0 runs in
S1 and S2 (R400, R470). -/
def dispatchable (s : State) (core : Nat) : Bool :=
  if core < 16 then decide (s.cpr.sleep = 0 ∨ (core = 0 ∧ s.cpr.sleep ≠ 3))
  else decide (core < 272 ∧ s.cpr.sleep = 0) && !thas s.aue.cores (core - 16) && !portDown s 12 ((core - 16) / 16)

/-- A thread may run on a core by class and affinity (R396). -/
def suits (core : Nat) (d : Desc) : Bool :=
  if core < 16 then decide (d.cls = 0) && d.affinity.contains core else decide (d.cls = 1) && d.affinity.contains ((core - 16) / 16)

/-- The READY thread that a core takes: highest priority, then first READY, then lowest descriptor (R398). -/
def chooseThread (s : State) (core : Nat) : Option (Nat × Thread) :=
  (s.tds.threads.filter fun (t : Nat × Thread) => decide (t.2.state = .ready) && suits core t.2.d).foldl (fun (b : Option (Nat × Thread)) t =>
    match b with
    | none => some t
    | some x => if t.2.prio < x.2.prio ∨ (t.2.prio = x.2.prio ∧ t.2.readyNo < x.2.readyNo) then some t else some x) none

/-- The core number of a trace record. -/
def traceCore (core : Nat) : Nat := if core < 16 then core else core - 16

/-- CORE_FREE_DISPATCH: a free core takes its thread (R398, R404, R407). -/
def dispatch (core : Nat) (s : State) : State :=
  if !dispatchable s core || thas s.tds.running core then s
  else match chooseThread s core with
  | none => s
  | some (n, t) =>
    let s := rollLoads s
    let wait := nowNs s - t.readyNs
    let s := traceRec 11 (if core < 16 then 1 else 2) (traceCore core) n (flowWord t.d)
      (t.prio + 64 * b1 t.raised + 128 * min (wait / 1000) 511) s
    modLoad core (fun l => { l with sumWait := l.sumWait + wait, dispatches := l.dispatches + 1 })
      (modThread n (fun t => { t with state := .running, core := core, startNs := nowNs s, raised := false, overrun := false })
        { s with tds.running := tset s.tds.running core n })

/-- CORE_FREE_DISPATCH (R398). -/
def execCoreFreeDispatch (core : Nat) (s : State) : Host.Outcome State Fault Refusal := .next (dispatch core s)

/-! ### The end of a run (R397, R400, R401) -/

/-- A run ends: how 0 completed, 1 yielded, 2 blocked, 3 aborted. The oldest thread waiting in its flow follows; a thread that yields or has a
post pending goes to the tail (R397, R401). -/
def endRun (core how : Nat) (s : State) : State :=
  match tget s.tds.running core with
  | none => s
  | some n =>
    match tget s.tds.threads n with
    | none => { s with tds.running := terase s.tds.running core }
    | some t =>
      let s := rollLoads s
      let us := (nowNs s - t.startNs) / 1000
      let s := traceRec 11 3 (traceCore core) n (flowWord t.d) (b1 (decide (16 ≤ core)) + 2 * how + 8 * min us 8191) s
      let win := s.tds.winSec * 1000000000
      let s := modLoad core (fun l => { l with busy := l.busy + (nowNs s - max t.startNs win) }) s
      let again := decide (how = 1) || t.pend
      let s := modThread n (fun t => { t with state := .blocked, pend := t.pend && decide (how = 1) })
        { s with tds.running := terase s.tds.running core }
      let s := releaseFlow t.d.flow s
      if again then enterThread n s else s

/-- THREAD_COMPLETE (R397). -/
def execThreadComplete (core : Nat) (s : State) : Host.Outcome State Fault Refusal := .next (endRun core 0 s)

/-- THREAD_YIELD (R397, R401). -/
def execThreadYield (core : Nat) (s : State) : Host.Outcome State Fault Refusal := .next (endRun core 1 s)

/-- THREAD_BLOCK (R397). -/
def execThreadBlock (core : Nat) (s : State) : Host.Outcome State Fault Refusal := .next (endRun core 2 s)

/-- The threads running on a cluster that is fenced or goes off end ABORTED, their flows are released, and the aborts are counted (R400). -/
def abortCluster (k : Nat) (s : State) : State :=
  (List.range 16).foldl (fun s i =>
    let core := 16 + k * 16 + i
    if thas s.tds.running core then endRun core 3 { s with tds.aborts := s.tds.aborts + 1 } else s) s

/-- The runs that a fence ends: those on the Mallet cores behind it, all clusters' or one cluster's (R25, R400). -/
def abortFenced (sub inst : Nat) (s : State) : State :=
  if sub ≠ 12 then s
  else if inst = 0xFFF then (List.range 16).foldl (fun s k => abortCluster k s) s
  else abortCluster inst s

/-- RUN_BUDGET_OVERRUN: a run passes its descriptor's budget, once; the fault folds within 1 s per descriptor, and the thread goes on
(R399, R404, R484). -/
def runOverrun (core : Nat) (s : State) : State :=
  match tget s.tds.running core with
  | none => s
  | some n =>
    match tget s.tds.threads n with
    | none => s
    | some t =>
      if t.overrun then s
      else
        let s := modThread n (fun t => { t with overrun := true }) (advanceTo ((t.startNs + t.d.budgetUs * 1000) * 65536) s)
        fault 0xB001 [w32 n, w32 (traceCore core)]
          (traceRec 11 5 (traceCore core) n (flowWord t.d) (min ((nowNs s - t.startNs) / 1000000) 65535) s)

/-- RUN_BUDGET_OVERRUN (R399). -/
def execRunBudgetOverrun (core : Nat) (s : State) : Host.Outcome State Fault Refusal := .next (runOverrun core s)

/-- The three words of a core's load counters (R407); a claimed customer core reads 0. -/
def loadWords (s : State) (core : Nat) : List Word :=
  if 16 ≤ core ∧ thas s.aue.cores (core - 16) then [0, 0, 0]
  else
    let l := loadOf s core
    let q := (s.tds.threads.filter fun (t : Nat × Thread) => decide (t.2.state = .ready) && suits core t.2.d).length
    [w32 (min q 65535), w32 l.wait, w32 l.load]

end Sys2Proof.Machine
end

