-- ==== Sys2Proof/Machine/Reset.lean ====
section
/-!
DEFINITION. The full reset (18 R437; 20 R481, R483, R487) and the reset of one subsystem or instance group (13 R343; 03 R85).
-/

namespace Sys2Proof.Machine

/-! ### The full reset -/

/-- Cause-6 resets less than an hour old (R481). -/
def recentCause6 (s : State) : List Nat := s.cpx.cause6.filter fun t => s.cpr.aonNs < t + 3600000000000

/-- A full reset with a cause (R437): every register and table takes its reset value. Kept are the flash, the always-on domain
with the fault log (R443, R481, R483, R495), the power entry and the hold-up bank's measurement (R435), and the running crystal. -/
def fullReset (cause : Nat) (s : State) : State :=
  let six := if cause = 6 then s.cpr.aonNs :: recentCause6 s else recentCause6 s
  { State.reset with
    out := s.out, free := s.free, pending := s.pending
    flash := { s.flash with staged := [], running := [], bootReport := List.replicate 8 0, roster := [] }
    cpx := { Cpx.reset with
      faults := s.cpx.faults, faultNum := s.cpx.faultNum, faultLast := s.cpx.faultLast, resetCause := cause, cause6 := six
      held := decide (cause ≠ 7) && (s.cpx.held || decide (3 ≤ six.length)) }
    cpr := { Cpr.reset with
      powered := s.cpr.powered, volts := s.cpr.volts, power := s.cpr.power, cap := s.cpr.cap, capValid := s.cpr.capValid
      holdDone := s.cpr.holdDone, holdupFailed := s.cpr.holdupFailed, holdupLow := s.cpr.holdupLow
      armed := s.cpr.armed, bankV := s.cpr.bankV, saveSize := s.cpr.saveSize, aonNs := s.cpr.aonNs, resetNs := s.cpr.aonNs
      aonTrim := s.cpr.aonTrim, crystal := s.cpr.crystal, crystalFailed := s.cpr.crystalFailed
      switchOpen := s.cpr.switchOpen, overtemp := s.cpr.overtemp } }

/-- A full reset that a fatal fault needs under R460 at once; during a save it waits (R480). -/
def fatalReset (s : State) : State := if s.cpr.saving ∧ !s.cpr.saveDone ∧ !s.cpr.saveAborted then s else fullReset 6 s

/-! ### The reset of a subsystem (R343) -/

/-- The registers of a Gouge core go; whether the host has it in service stays until it returns it, and a quiesce that waited for its job
has ended (R168, R174, R343). -/
def clearGouge (core : Nat) (s : State) : State :=
  let g := gougeOf s core
  let s := modGouge core (fun _ => { Gouge.reset with svc := if g.svc = 1 then 2 else g.svc, trips := g.trips }) s
  if g.svc = 1 then endEveryLong 0x0505 core [] s else s

/-- The job on a Gouge core is lost with it: a picture being decoded is discarded and the context's references are degraded, a unit of a
catch-up is decoded again, a picture being encoded is dropped, a synthesis is coded again; the contexts go on (R155, R159, R165, R343). -/
def loseJob (core : Nat) (s : State) : State :=
  let job := (gougeOf s core).job
  let s := clearGouge core s
  match job with
  | none => scheduleCores s
  | some (kind, k) =>
    let s := dropVjob kind k s
    match kind with
    | .decode =>
      match tget s.vca.decs k with
      | none => s
      | some d =>
        if d.unbinding then freeDec k s
        else match d.ready with
          | p :: ps =>
            let bad := d.dpb.map fun r => (r.1, { r.2 with degraded := true })
            let s := modDec k (fun d => { d with ready := ps, dpb := bad, draining := d.draining && decide (1 < ps.length) }) s
            startDecode k (discardPic k p s)
          | [] => startCatch k s
    | .encode => encodeNext k (modEnc k (fun e => { e with job := none, state := .ready, keyNext := true }) s)
    | .synth => addVjob .synth k none s

/-- A Mallet cluster's customer cores return to their installed programs, halted, and the level and decode reads of its cores release their
buffers (R85, R343). -/
def resetCluster (k : Nat) (s : State) : State :=
  let s := releaseReads 12 (fun st => decide (decodeCore st s / 16 = k)) (abortCluster k s)
  { s with
    aue.cores := s.aue.cores.map fun (c : Nat × Core) =>
      if c.1 / 16 = k then
        (c.1, if c.2.total = 0 ∨ c.2.image.length < c.2.total then
            { Core.reset with attached := c.2.attached, attachNs := c.2.attachNs, releasing := c.2.releasing, detach := c.2.detach }
          else
            { installImage c.2.image { Core.reset with image := c.2.image, total := c.2.total, params := c.2.params } with
              attached := c.2.attached, attachNs := c.2.attachNs, releasing := c.2.releasing, detach := c.2.detach, bypass := true })
      else c
    aue.coreCnt := s.aue.coreCnt.filter fun (c : Nat × List Nat) => c.1 / 16 ≠ k }

/-- A stream whose decode job runs on a Gouge half. -/
def decodesOn (s : State) (h st : Nat) : Bool :=
  (List.range 16).any fun i => match (gougeOf s (h * 16 + i)).job with
    | some (.decode, k) => ((tget s.vca.decs k).map fun d => decide (d.stream = st)).getD false
    | _ => false

/-- A Gouge half: its 16 cores, the buffers that they read and the jobs on them (R85, R343, R467). -/
def resetGougeHalf (h : Nat) (s : State) : State :=
  (List.range 16).foldl (fun s i => loseJob (h * 16 + i) s) (releaseReads 13 (decodesOn s h) s)

/-- An Ashlar half: the frames its canvases were composing are lost (R343). -/
def resetAshlarHalf (h : Nat) (s : State) : State :=
  { s with lco.canvases := s.lco.canvases.map fun (c : Nat × Canvas) =>
      (c.1, if c.2.die = h then { c.2 with composing := [], frame := ([], [], []), drawn := [], lateRow := 0, hintsOut := [] } else c.2) }

/-- A Course port or Quoin lane starts alignment again with the host's settings (R343, R413). -/
def resetCtiPort (p : Nat) (s : State) : State :=
  { s with
    cti.ports := s.cti.ports.modify p fun x =>
      { CtiPort.reset with
        enabled := x.enabled, child := x.child, plugged := x.plugged, path := { SyncPath.reset with enabled := x.path.enabled } } }

/-- The service Ethernet keeps its addresses, filters and policy; its queue, buffer and counters go (R343). -/
def resetSvc (s : State) : State :=
  { s with
    cti.svc := { s.cti.svc with
      up := false, fast := false, advert := SvcEth.reset.advert, txq := [], rxBytes := 0, attempts := 0, backoff := 0
      counters := SvcEth.reset.counters } }

/-- The SYNC and EVT pad ring returns its outputs to rest (R343, R379, R476). -/
def resetPads (s : State) : State :=
  let s := if s.tsu.ppsHigh then drivePin 0 false { s with tsu.ppsHigh := false } else s
  if s.tsu.evtHigh then drivePin 1 s.tsu.evtFall { s with tsu.evtHigh := false } else s

/-- A leg's on-chip forwarding counters return to 0 (R487). -/
def clearLegCounts (l : Leg) : Leg := { l with stats := LegStats.reset }

/-- Returns an instance group to its reset values and restores the host's tables (R343). -/
def resetInst (sub inst : Nat) (s : State) : State :=
  match sub with
  | 4 => if inst = 6 then resetSvc s else resetCtiPort inst s
  | 5 => resetPads s
  | 12 => resetCluster inst s
  | 13 => resetGougeHalf inst s
  | 14 => resetAshlarHalf inst s
  | _ => s

/-- Every instance group of a subsystem in turn. -/
def resetInsts (sub n : Nat) (s : State) : State := (List.range n).foldl (fun s i => resetInst sub i s) s

/-- PTU: activation starts again from O1, where the running profile takes effect, and the hold of a monitor trip ends; the OMCI tables and closed
bins, which firmware holds, stay (R289, R294, R297, R305). The frames its ports hold are dropped and their buffers released (R85). -/
def resetPtu (s : State) : State :=
  let s := setAct .o1 s
  let s := (s.ptu.ports.flatMap (·.queue)).foldl (fun s (f : Frame) => blockRelease 3 f.buf s) s
  let p := s.ptu
  profileAtO1 { s with
    ptu := { Ptu.reset with
      profile := p.profile, armed := p.armed, lastRate := p.lastRate, delegated := p.delegated, relays := p.relays
      mibSync := p.mibSync, omci := p.omci, uniPorts := p.uniPorts, mcPorts := p.mcPorts
      past15 := p.past15, pastDay := p.pastDay, cur15 := p.cur15, curDay := p.curDay, binNo := p.binNo
      iHold := p.iHold, iAware := p.iAware, iLow := p.iLow, confNs := s.cpr.aonNs }
    tsu.qualified := s.tsu.qualified.set 0 false }

/-- TSU: time is UNSET and counts from zero; sources, thresholds, comparator claims and pin claims are the host's tables (R34,
R393, R476). -/
def resetTsu (s : State) : State :=
  let t := s.tsu
  { resetPads s with
    aue.blockNs := 1, lgv.gap := true
    tsu := { Tsu.reset with
      prio := t.prio, jump := t.jump, late := t.late, syncFn := t.syncFn, ppsCmp := t.ppsCmp, utcOff := t.utcOff
      cmps := t.cmps.map fun (c : Cmp) => { Cmp.reset with owner := c.owner }, syncOwner := t.syncOwner, evtOwner := t.evtOwner
      evtOut := t.evtOut, evtFall := t.evtFall, evtCmp := t.evtCmp, evtWidth := t.evtWidth, evtSet := t.evtSet } }

/-- MSS: the fabric's registers and counters; DRAM, the protection unit and the Cairn tables stay. Requests in its crossbars end
UNAVAILABLE, and the references that Cairn's appends hold are released (R22, R85, R267, R343). -/
def resetMss (s : State) : State :=
  let held := (s.mss.linkReplay.flatMap (·.2)).map (·.req) ++ (s.mss.chans.flatMap (·.queue) ++ s.mss.behind).map (·.req)
  let s := held.foldl (fun s r => emit (.completion r.master 1 [] []) s) s
  let s := (s.mss.rings.flatMap fun r => r.2.recs.map (·.buf)).foldl (fun s b => blockRelease 6 b s) s
  { s with
    mss.ageC1 := Mss.reset.ageC1, mss.ageC2 := Mss.reset.ageC2, mss.ageC3 := Mss.reset.ageC3, mss.fenceDrop := Mss.reset.fenceDrop
    mss.linkReplay := [], mss.behind := [], mss.portMem := s.mss.portMem.filter fun c => c.1 / 2 ^ 48 ≠ 6
    mss.traffic := [], mss.c0Lats := [], mss.c0MaxClear := 0
    mss.rings := s.mss.rings.map fun (r : Nat × Ring) =>
      (r.1, { r.2 with recs := r.2.recs.map fun (y : CairnRec) => { y with buf := none } })
    mss.chans := s.mss.chans.map fun c => { c with replays := 0, poisons := 0, pauses := 0, discards := 0, log := [], queue := [] } }

/-- BPM: every pool is whole again, quarantined buffers included (R84). No reference held elsewhere is good any more, so none is
released later. -/
def resetBpm (s : State) : State :=
  let off := fun f : Frame => { f with buf := none }
  let s := { s with
    fwe.walkQ := s.fwe.walkQ.map fun (w : WalkItem) => { w with buf := none }
    tsh.queues := s.tsh.queues.map fun (q : Nat × FrameQ) => (q.1, { q.2 with frames := q.2.frames.map off })
    tsh.ports := s.tsh.ports.map fun (x : PortShape) => { x with timed := x.timed.map off }
    ptu.ports := s.ptu.ports.map fun (x : PonPort) => { x with queue := x.queue.map off }
    mss.rings := s.mss.rings.map fun (r : Nat × Ring) =>
      (r.1, { r.2 with recs := r.2.recs.map fun (y : CairnRec) => { y with buf := none } })
    lco.images := s.lco.images.map fun (i : Nat × Image) => (i.1, { i.2 with bufs := [] })
    fwe.synBufs := [] }
  { s with bpm := { pools := s.bpm.pools.map fun (p : Pool) => { Pool.reset with count := p.count, free := p.count }
                    bufs := [], blockDrops := Bpm.reset.blockDrops } }

/-- FWE: the tables stay; packets waiting for their walks are dropped and their buffers released (R85). -/
def resetFwe (s : State) : State :=
  let s := dropWalks (fun _ => true) s
  { s with
    fwe.portCnt := Fwe.reset.portCnt, fwe.filtered := 0
    fwe.legs := s.fwe.legs.map fun (l : Nat × Leg) => (l.1, clearLegCounts l.2) }

/-- TSH: the settings stay; queued frames are dropped and their buffers released (R85). -/
def resetTsh (s : State) : State :=
  let held := ((s.tsh.queues.flatMap fun q => q.2.frames) ++ s.tsh.ports.flatMap fun p => p.timed).filter fun f => f.buf.isSome
  let s := countReleased 10 held.length s
  let s := s.fwe.legs.foldl (fun s (l : Nat × Leg) => flushLeg l.1 (fun _ => true) s) s
  { s with
    tsh.queues := [], tsh.legStats := [], tsh.portStats := Tsh.reset.portStats, tsh.winSec := 0
    tsh.ports := s.tsh.ports.map fun p => { p with timed := [], round := [0, 0, 0, 0], shortfall := 0 } }

/-- CPE: the keys stay loaded; rollover counters and replay windows with them; the counts of failures start again (R343, R351). -/
def resetCpe (s : State) : State :=
  { s with
    cpe.slots := s.cpe.slots.map fun (x : Nat × Slot) => (x.1, { x.2 with tagFails := 0, replays := 0 })
    cpe.unwrapFails := 0, cpe.replayDrops := 0 }

/-- TDS: no thread runs; descriptors stay; loads start again (R343, R407). -/
def resetTds (s : State) : State :=
  { s with
    tds.running := [], tds.loads := []
    tds.threads := s.tds.threads.map fun (t : Nat × Thread) =>
      (t.1, if t.2.state = .running then { t.2 with state := .ready, readyNo := s.tds.order } else t.2) }

/-- AUE: jitter buffers, meters and speaker levels start again (R93, R97). -/
def resetAue (s : State) : State :=
  let s := releaseReads 12 (fun _ => true) (resetInsts 12 16 s)
  { s with
    aue.coreCnt := []
    fwe.streams := s.fwe.streams.map fun (x : Nat × Stream) => (x.1, { x.2 with jitter := Jitter.reset })
    aue.confs := s.aue.confs.map fun (x : Nat × Conf) =>
      (x.1, { x.2 with
        partials := [], fullSum := [], levelCells := [], missedSum := 0, mismatch := 0, contribSent := []
        rows := x.2.rows.map fun r => { r with acc := 0, cnt := 0, rms := 511, peak := 0, cond := [], tail := none } }) }

/-- VCA: pictures in assembly, decoded picture buffers, backlogs and jobs are lost, repair jobs end ABANDONED; decoders wait for a random
access point, encoders start a new sequence (R156, R192, R343). -/
def resetVca (s : State) : State :=
  let s := { s with vca.sched := [], vca.used := (0, 0, 0) }
  let s := s.vca.jobs.foldl (fun s (j : Nat × Job) => endJob j.1 6 s) s
  let s := { s with
    vca.encs := s.vca.encs.map fun (e : Nat × Enc) =>
      (e.1, { e.2 with job := none, waitPic := none, state := .ready, keyNext := true, newSeq := true, full := [], carry := [], refs := [] }) }
  let s := releaseReads 13 (fun _ => true) (resetInsts 13 2 s)
  s.vca.decs.foldl (fun s (d : Nat × Dec) =>
    let s := modDec d.1 (fun d => { d with asm := [], ready := [], dpb := [], seq := none, draining := false }) s
    if d.2.unbinding then freeDec d.1 s else enterWaitingRap d.1 s) s

/-- LCO: canvases, layers and images stay; frames being composed are lost (R343). -/
def resetLco (s : State) : State := resetInsts 14 2 s

/-- LGV: the estimators and budgets start again; classes stay (R236, R343). -/
def resetLgv (s : State) : State :=
  { s with
    lgv.legs := s.lgv.legs.map fun (g : Nat × Gov) => (g.1, { g.2 with
      sent := [], state := .normal, acc := 0, sm := 0, win := [], groups := 0, gamma := Gov.reset.gamma, trend := 0, prevTrend := 0
      overTime := 0, lastAdapt := none, lastArr := none })
    lgv.computing := false, lgv.needNow := [], lgv.overRow := 0, lgv.decNeeds := [] }

/-- Returns a whole subsystem to its reset values and restores the host's tables (R343). -/
def resetSub (sub : Nat) (s : State) : State :=
  let s := { s with cpx.hdrFault := s.cpx.hdrFault.set sub 0 }
  match sub with
  | 3 => resetPtu s
  | 4 => resetInsts 4 7 s
  | 5 => resetTsu s
  | 6 => resetMss s
  | 7 => resetBpm s
  | 8 => resetFwe s
  | 9 => resetCpe s
  | 10 => resetTsh s
  | 11 => resetTds s
  | 12 => resetAue s
  | 13 => resetVca s
  | 14 => resetLco s
  | 15 => resetLgv s
  | _ => s

end Sys2Proof.Machine
end

