-- ==== Sys2Proof/Machine/Save.lean ====
section
/-!
DEFINITION. The save on sag: its size, its list and its trigger (18 R449-R455).
-/

namespace Sys2Proof.Machine

/-- Permitted save size in bytes for a bank of c microfarads: 2 MiB times the time that 0.8 of the bank's energy above 30 V feeds
30 W through a 1.38 derating, over 18 ms, down to 64 KiB and capped at 2 MiB (R451). -/
def permittedBytes (c : Nat) : Nat := min 2097152 (2097152 * (34560 * c - 8280000) / 74520000 / 65536 * 65536)

/-- Rounds a size up to 4 KiB (R450). -/
def up4k (n : Nat) : Nat := (n + 4095) / 4096 * 4096

/-- Events held and not delivered (R450). -/
def undelivered (s : State) : List EvRec := s.cpx.queues.flatMap (·.events)

/-- The PM bins of the PTU (R305, R450). -/
def pmBins (s : State) : List PmBin := [s.ptu.cur15, s.ptu.curDay] ++ s.ptu.past15 ++ s.ptu.pastDay

/-- A conference's roster entry (R454). -/
def rosterConf (s : State) (k : Nat) (x : Conf) : List Word :=
  [w32 (k + x.n * 65536 + (x.domain + 4 * b1 x.lowLat) * 2 ^ 24),
   w32 (x.lock + (s.fwe.legs.filter fun l => decide (l.2.conf = some k)).length * 65536), 0, 0]

/-- A leg's roster entry (R454). -/
def rosterLeg (i : Nat) (l : Leg) : List Word :=
  let kind := b1 l.ipv6 + 2 * b1 l.ice + 4 * b1 (l.kind == .tree) + 8 * b1 (l.kind == .producer) + 16 * b1 l.feedback + 32 * l.cls
  [w32 (i + kind * 65536 + l.port * 2 ^ 24), w32 (l.conf.getD 0xFFFF + l.lport * 65536), w32 (l.rport + l.laddr * 65536), 0] ++
    (l.raddr.words ++ [0, 0, 0, 0]).take 4

/-- The roster summary: conferences in use, then legs not FREE, in index order (R454). -/
def rosterWords (s : State) : List Word :=
  (s.aue.confs.flatMap fun c => rosterConf s c.1 c.2) ++ (s.fwe.legs.flatMap fun l => rosterLeg l.1 l.2)

/-- Sizes of items 1 to 5 before rounding, each at most its largest size (R450). -/
def saveSizes (s : State) : List Nat :=
  [min 524288 ((s.flash.staged.map fun (i : Nat × List Word) => 8 + 4 * i.2.length).sum),
   min 524288 (32 * s.cpx.faults.length + ((undelivered s).map fun e => 16 + 4 * e.words.length).sum),
   min 262144 (344 * (pmBins s).length), min 655360 (4 * (rosterWords s).length), 8]

/-- The items kept within a space: each whole while it fits; the first that does not is cut to 4 KiB blocks and the rest are dropped
(R451). Gives each kept item's bytes. -/
def keepItems : List Nat → Nat → List Nat
  | [], _ => []
  | n :: ns, room => if up4k n ≤ room then up4k n :: keepItems ns (room - up4k n) else if room / 4096 = 0 then [] else [room / 4096 * 4096]

/-- Bytes planned: the header block and the kept items (R451, R455). -/
def plannedBytes (kept : List Nat) : Nat := 65536 + kept.sum

/-- The number of the next save (R452). -/
def nextSave (s : State) : Nat := ((s.flash.saves.map (·.number)).foldl max 0) + 1

/-- The slot of the running save: slots are used in rotation (R452). -/
def saveSlotOf (number : Nat) : Nat := (number - 1) % 4

/-- The staged items that fit in a truncated item 1 (R451). -/
def takeItems : Tbl (List Word) → Nat → Tbl (List Word)
  | [], _ => []
  | (k, ws) :: t, room => if 8 + 4 * ws.length ≤ room then (k, ws) :: takeItems t (room - (8 + 4 * ws.length)) else []

/-- The save slot as its header sector is written at the trigger, with the items the save list keeps (R450, R455). -/
def newSave (trigger : Nat) (s : State) : SaveSlot :=
  let kept := keepItems (saveSizes s) (s.cpr.saveSize - 65536)
  { SaveSlot.reset with
    hdr := true, number := nextSave s, timeNs := nowNs s, trigger := trigger, capLow := decide (s.cpr.cap < 2400), cap := s.cpr.cap
    planned := plannedBytes kept, dir := kept, staged := takeItems s.flash.staged (kept.getD 0 0)
    faults := s.cpx.faults.take (kept.getD 1 0 / 32)
    events := if 32 * s.cpx.faults.length < kept.getD 1 0 then undelivered s else []
    pm := (pmBins s).take (kept.getD 2 0 / 344)
    roster := (rosterWords s).take ((kept.getD 3 0) / 4), aonTrim := s.cpr.aonTrim, incr := w32 s.tsu.incr }

/-- Items whole within the bytes written, as a mask (R455). -/
def savedMask (kept : List Nat) (written : Nat) : Nat :=
  ((List.range kept.length).map fun i => b1 (decide (65536 + (kept.take (i + 1)).sum ≤ written)) * 2 ^ i).sum

/-- Changes the slot of the running save. -/
def modSave (f : SaveSlot → SaveSlot) (s : State) : State :=
  { s with flash.saves := s.flash.saves.modify (saveSlotOf (nextSave s - 1)) f }

/-- The compute domains lose power at once, without a drain, fenced (R25, R449). -/
def cutCompute (s : State) : State :=
  let s := resetInsts 12 16 (resetInsts 13 2 (resetInsts 14 2 s))
  let s := releaseReads 13 (fun _ => true) s
  fenceSettle { s with cpr.domains := s.cpr.domains.mapIdx fun d x => if d < 20 then { x with state := .off, fenced := true } else x }

/-- Long flash operations that end UNAVAILABLE, their headers unwritten, when a save starts (R345, R453). -/
def abortFlashOps (s : State) : State :=
  endLong 0x0105 0 .unavailable [] (endLong 0x0102 0 .unavailable [] s)

/-- A save on the standby in step 2 of a switch aborts its takeover; the next boot counts it (R429). -/
def abortTakeover (armed : Bool) (s : State) : State :=
  if s.cti.taking then { s with
    cti.taking := false, cti.switching := none, flash.takeoverLost := armed
    cpx.pending := none, cpx.pendingAt := 0 } else s

/-- The save on sag starts: trigger 0 for the input, 1 for POWER_LOSS (R449). A save that is running is not started again (R453);
before it is armed, or before firmware runs, nothing is written and the next boot reports cause 3. -/
def saveStart (trigger : Nat) (s : State) : State :=
  if s.cpr.saving then s
  else
    let armed := s.cpr.armed && decide (s.cpr.boot ≠ .rom ∧ s.cpr.boot ≠ .romStopped)
    let s := { s with
      cpr.saving := true, cpr.saveNs := nowNs s, cpr.saveDone := false, cpr.saveAborted := false
      ptu.dyingGasp := true }
    let s := abortTakeover armed (twinTrigger 3 (cutCompute (abortFlashOps (ponWake false s))))
    if armed then
      { s with flash.saves := s.flash.saves.set (saveSlotOf (nextSave s)) (newSave trigger s), flash.lostDisarmed := false }
    else { s with flash.lostDisarmed := true }

end Sys2Proof.Machine
end

