-- ==== Sys2Proof/Machine/HostLink.lean ====
section
/-!
DEFINITION. The Yelheli Link: sideband messages, training, flits, retrains and SOF marks (12 R310-R323; 19 R457).
-/

namespace Sys2Proof.Machine

/-! ### The sideband (R312, R313) -/

/-- The sideband protocol runs: from SIDEBAND_UP on, while the module has power (R312, R314). -/
def sidebandOn (s : State) : Bool := s.cpr.powered && decide (s.hlp.link ≠ .detect ∧ s.hlp.link ≠ .power)

/-- Training runs. -/
def inTraining (s : State) : Bool :=
  decide (s.hlp.link = .laneSync ∨ s.hlp.link = .equalize ∨ s.hlp.link = .fecLock ∨ s.hlp.link = .creditInit)

/-- Firmware runs (R447). -/
def firmwareRuns (s : State) : Bool := decide (s.cpr.boot ≠ .rom ∧ s.cpr.boot ≠ .romStopped)

/-- The STATUS answer (R313). -/
def sidebandStatus (s : State) : List Nat :=
  [s.hlp.link.code + 16 * b1 (firmwareRuns s) + 32 * b1 s.hlp.trainReady + 64 * b1 s.hlp.wakePending + 128 * b1 s.cpr.saving,
   s.hlp.lastFault % 256, s.hlp.lastFault / 256]

/-- POLL (R313). -/
def execPoll (s : State) : Host.Outcome State Fault Refusal :=
  .next (if sidebandOn s then emit (.sideband 0x81 (sidebandStatus s)) s else s)

/-- WAKE_PATTERN: ignored while the link is ACTIVE; else an edge wake source (R313, R322, R472). -/
def execWakePattern (s : State) : Host.Outcome State Fault Refusal :=
  .next (if s.hlp.link = .active then s else wakeSource 1 s)

/-- Adds to a counter of R323, in table order. -/
def hlpCount (i n : Nat) (s : State) : State := { s with hlp.counters := s.hlp.counters.modify i fun x => inc32 x n }

/-- SIDEBAND_CRC_FAIL: the message is ignored and counted (R313, R323). -/
def execSidebandCrcFail (s : State) : Host.Outcome State Fault Refusal := .next (if sidebandOn s then hlpCount 8 1 s else s)

/-- SIDEBAND_PROTOCOL_START: the link leaves POWER for SIDEBAND_UP (R312, R314). -/
def execSidebandProtocolStart (s : State) : Host.Outcome State Fault Refusal :=
  .next (if s.hlp.link = .power then { s with hlp.link := .sidebandUp } else s)

/-! ### Training (R314, R315) -/

/-- Raises a fault of HLP, which STATUS then reports (R313). -/
def hlpFault (code : Nat) (s : State) : State := fault code [] { s with hlp.lastFault := code }

/-- Enters LANE_SYNC; a polarity written since takes effect (R314, R499). -/
def laneSync (s : State) : State :=
  { s with
    hlp.link := .laneSync, hlp.outNs := if s.hlp.link = .active then s.cpr.aonNs else s.hlp.outNs, hlp.stateNs := s.cpr.aonNs
    hlp.locked := 0, hlp.rxInvUse := s.hlp.rxInv, hlp.txInvUse := s.hlp.txInv }

/-- The link leaves ACTIVE for the sideband; what its queues hold of commands and replies goes, events stay (R314, R328, R337). -/
def leaveLink (s : State) : State :=
  { s with
    hlp.link := .sidebandUp, hlp.outNs := if s.hlp.link = .active then s.cpr.aonNs else s.hlp.outNs, hlp.width := 0
    hlp.lanes := 0, hlp.retraining := false, hlp.replay := [], hlp.frameQueue := []
    hlp.assembly := List.replicate 6 []
    cpx.queues := s.cpx.queues.mapIdx fun i q =>
      if i < 4 then
        { q with waiting := [], outReplies := [], inService := none, seqBeforeLoss := q.lastSeq.getD q.seqBeforeLoss }
      else q }

/-- The link falls to SIDEBAND_UP from ACTIVE or a retrain: flits and packets in its buffers and queues are discarded; effects already
applied and stored events stay (R314, R318, R337, R342). -/
def dropLink (s : State) : State := hlpCount 5 1 (leaveLink s)

/-- A retrain has failed (R318). -/
def linkDown (s : State) : State := hlpFault 0x2003 (dropLink s)

/-- Training is abandoned (R315, R318). -/
def abandonTraining (s : State) : State :=
  if s.hlp.retraining then linkDown s
  else hlpFault 0x2001 { s with hlp.link := .sidebandUp, hlp.width := 0, hlp.lanes := 0 }

/-- POWER_LOSS: acknowledged; training is abandoned and the save on sag starts 10 us later (R449); during a running save it is ignored (R313, R322,
R453). -/
def execPowerLoss (s : State) : Host.Outcome State Fault Refusal :=
  if !sidebandOn s then .next s
  else
    let s := emit (.sideband 0x82 []) s
    if s.cpr.saving then .next s
    else .next (saveStart 1 (advanceTo (s.tsu.now + 10000 * 65536) (if inTraining s then abandonTraining s else s)))

/-- HLP retrains from LANE_SYNC with the 2 ms equalisation and never widens by itself (R315, R318). -/
def retrain (s : State) : State :=
  let keep := if s.hlp.width = 3 then 0 else if s.hlp.width = 2 then 1 else 2
  laneSync (hlpCount 4 1
    { s with
      hlp.retraining := true, hlp.full := false, hlp.widest := max s.hlp.widest keep, hlp.fecFails := 0, hlp.nrzTried := s.hlp.nrz })

/-- TRAIN: acknowledged and accepted only when train-ready is set; from ACTIVE the link retrains under its flags (R313, R314,
R322). -/
def execTrain (payload : Byte) (s : State) : Host.Outcome State Fault Refusal :=
  if !sidebandOn s then .next s
  else if !s.hlp.trainReady ∨ payload.toNat / 2 % 4 = 3 then .next (wakeSource 0 s)
  else
    let active := decide (s.hlp.link = .active) || s.hlp.retraining
    let s := if s.hlp.link = .active then hlpCount 4 1 s else s
    .next (wakeSource 0 (laneSync (emit (.sideband 0x83 [])
      { s with
        hlp.full := payload.getLsbD 0, hlp.widest := payload.toNat / 2 % 4, hlp.nrz := false, hlp.nrzTried := false
        hlp.fecFails := 0, hlp.retraining := active })))

/-- The timeout of a training state is over: it counts from entry to the state (R314). -/
def trainTimeout (ms : Nat) (s : State) : State := advanceAon (s.hlp.stateNs + ms * 1000000) s

/-- LANE_SYMBOL_LOCK: lanes lock (R314). -/
def execLaneSymbolLock (mask : Nat) (s : State) : Host.Outcome State Fault Refusal :=
  .next (if s.hlp.link = .laneSync ∧ mask % 16 ≠ 0 then { s with hlp.locked := mask % 16, hlp.link := .equalize, hlp.stateNs := s.cpr.aonNs } else s)

/-- LANE_SYNC_TIMEOUT: no lane has locked within 2 ms (R314). -/
def execLaneSyncTimeout (s : State) : Host.Outcome State Fault Refusal :=
  .next (if s.hlp.link = .laneSync then abandonTraining (trainTimeout 2 s) else s)

/-- The lanes of a mask, lowest first. -/
def lanesOf (mask : Nat) : List Nat := (List.range 4).filter fun i => mask.testBit i

/-- Lanes of the width that a mask of good lanes fills, up to the widest allowed: 4, 2 or 1, the lowest-numbered (R315). -/
def chooseWidth (good widest : Nat) : List Nat :=
  let l := lanesOf good
  if widest = 0 ∧ l.length = 4 then l else if widest ≤ 1 ∧ 2 ≤ l.length then l.take 2 else l.take 1

/-- EQUALIZE_DONE: the width is chosen; with no good lane a reuse of coefficients falls to full equalisation, PAM4 falls to NRZ once,
and NRZ abandons training. A locked lane that has not met the margin fails at the timeout (R314, R315). -/
def execEqualizeDone (good : Nat) (s : State) : Host.Outcome State Fault Refusal :=
  if s.hlp.link ≠ .equalize then .next s
  else
    let met := good &&& s.hlp.locked
    let s := if met = s.hlp.locked then s else trainTimeout (if s.hlp.full then 40 else 2) s
    let lanes := chooseWidth met s.hlp.widest
    if lanes = [] then
      .next (if !s.hlp.full then { s with hlp.full := true, hlp.stateNs := s.cpr.aonNs }
        else if !s.hlp.nrzTried then laneSync { s with hlp.nrz := true, hlp.nrzTried := true }
        else abandonTraining s)
    else
      let s := { s with
        hlp.link := .fecLock, hlp.stateNs := s.cpr.aonNs, hlp.coeffs := true, hlp.chosen := (lanes.map fun i => 2 ^ i).sum
        hlp.width := if lanes.length = 4 then 3 else lanes.length }
      .next (if lanes.length < 4 ∨ s.hlp.nrz then hlpFault 0x2002 s else s)

/-- A failure of FEC_LOCK or CREDIT_INIT: LANE_SYNC once, then the next width; x1 abandons training (R314). -/
def fecFailed (s : State) : State :=
  if s.hlp.fecFails = 0 then laneSync { s with hlp.fecFails := 1 }
  else if s.hlp.width = 1 then abandonTraining s
  else laneSync { s with hlp.fecFails := 0, hlp.widest := if s.hlp.width = 3 then 1 else 2 }

/-- FEC_ALIGNMENT_LOCK: the lanes are aligned, or are not within 5 ms (R314). -/
def execFecAlignmentLock (ok : Bool) (s : State) : Host.Outcome State Fault Refusal :=
  .next (if s.hlp.link = .fecLock then (if ok then { s with hlp.link := .creditInit, hlp.stateNs := s.cpr.aonNs }
    else fecFailed (trainTimeout 5 s)) else s)

/-- A queue at its CREDIT_INIT values, with the credits the host advertises (R327, R329). -/
def queueAtCreditInit (n : Nat) (q : CmdQ) : CmdQ := { q with lastSeq := none, sendSeq := 0, txCredits := n, waiting := [] }

/-- The link's values at CREDIT_INIT after a training that is no retrain (R317, R318, R329, R344). -/
def creditInit (credits : List Nat) (s : State) : State :=
  { s with
    hlp.txSeq := 0, hlp.rxSeq := 0, hlp.replay := [], hlp.assembly := List.replicate 6 []
    hlp.rxCredits := Hlp.reset.rxCredits, hlp.chanCredits := credits, hlp.frameSeq := []
    cpx.evMask := 0xFF, cpx.mirror := false
    cpx.queues := s.cpx.queues.mapIdx fun i q => if i < 4 then queueAtCreditInit (credits.getD i 0) q else q }

/-- Channels 2 and 5 alternately: one packet, then one data frame (R317). fuel bounds the rounds. -/
def alternate : Nat → State → State
  | 0, s => s
  | n + 1, s => alternate n (drainOne 5 (pumpLink 2 1 s)).2

/-- Everything that waits to be sent, in the order of R317: channel 0, then 4, then 1, then 3, then 2 and 5 alternately. -/
def sendWaiting (s : State) : State :=
  let s := pump 3 (pump 1 (drainFrames 4 (pump 0 s)))
  alternate ((queueOf s 2).outReplies.length + (queueOf s 2).events.length + s.hlp.frameQueue.length) s

/-- The link is ACTIVE: what waited for it goes out; EVT_POWER detail 3 follows a wake from S3 (R314, R337, R473). -/
def linkActive (s : State) : State :=
  let s := { s with hlp.link := .active, hlp.lanes := s.hlp.chosen, hlp.retraining := false, hlp.outage := false, hlp.sofSeen := 0 }
  let s := match s.cpr.woke with
    | some (left, bit, us) => evtPower 3 [w32 (left + bit * 4), w32 us] { s with cpr.woke := none }
    | none => s
  sendWaiting s

/-- CREDIT_INIT: both sides have advertised every channel's credits, or have not within 1 ms; a retrain keeps sequences, replay buffers and credits (R314,
R317, R318). -/
def execCreditInit (credits : List Nat) (s : State) : Host.Outcome State Fault Refusal :=
  .next (if s.hlp.link ≠ .creditInit then s
    else if credits.length ≠ 6 then fecFailed (trainTimeout 1 s)
    else linkActive (if s.hlp.retraining then s else creditInit credits s))

/-- LINK_RETRAIN: a lane in use loses symbol lock (R318). -/
def execLinkRetrain (s : State) : Host.Outcome State Fault Refusal := .next (if s.hlp.link = .active then retrain s else s)

/-- RETRAIN_FAILED (R318). -/
def execRetrainFailed (s : State) : Host.Outcome State Fault Refusal :=
  .next (if s.hlp.retraining ∧ inTraining s then linkDown s else s)

/-! ### Flits (R316-R318) -/

/-- What follows a flit sequence in the replay buffer; the whole buffer when it does not hold the sequence. -/
def afterSeq (seq : Nat) (fs : List Flit) : List Flit :=
  if fs.any fun f => f.seq = seq then (fs.dropWhile fun f => f.seq ≠ seq).drop 1 else fs

/-- Flits acknowledged leave the replay buffer (R317). -/
def ackFlits (seq : Nat) (s : State) : State := { s with hlp.replay := afterSeq seq s.hlp.replay }

/-- A NAK with the host's last good sequence: the flits after it are sent again; a flit already replayed 4 times makes the link
retrain (R317, R318). -/
def nakFlits (seq : Nat) (s : State) : State :=
  let s := ackFlits seq s
  if s.hlp.replay.any fun f => 5 ≤ f.sends then retrain s
  else hlpCount 3 s.hlp.replay.length { s with hlp.replay := s.hlp.replay.map fun f => { f with sends := f.sends + 1 } }

/-- FLIT_NAK (R317). -/
def execFlitNak (seq : Nat) (s : State) : Host.Outcome State Fault Refusal :=
  .next (if s.hlp.link = .active then nakFlits (seq % 4096) s else s)

/-- Credits the host returns on a channel; what waited for them goes out (R317, R327). -/
def addCredits (ch n : Nat) (s : State) : State :=
  if ch < 4 then pump ch (modQueue ch (fun q => { q with txCredits := q.txCredits + n }) s)
  else
    drainFrames ch { s with hlp.chanCredits := s.hlp.chanCredits.modify ch fun c => c + n }

/-- CREDIT_RETURN (R317). -/
def execCreditReturn (ch n : Nat) (s : State) : Host.Outcome State Fault Refusal :=
  .next (if s.hlp.link = .active ∧ ch < 6 then addCredits ch n s else s)

/-- Asks for replay from the flit after the last good one (R317). -/
def sendNak (s : State) : State := emit (.flit 1 ((s.hlp.rxSeq + 4095) % 4096)) s

/-- A frame received whole on a channel: a packet goes to its queue, a data frame to its use (R317, R319, R326). -/
def frameReceived (ch : Nat) (bs : List Byte) (s : State) : State :=
  let n := if ch < 4 then 20 + 4 * field (bytesWord ((bs.drop 8).take 4)) 0 16
    else dataFrameBytes (bytesWord ((bs.drop 4).take 4)).toNat
  let frame := if flitsOf n = bs.length / 244 then bs.take n else bs
  if ch < 4 then packetArrives false ch none frame s else hostFrame frame s

/-- A frame flit in sequence: its payload joins the frame of its channel (R316). -/
def takeFlit (ch : Nat) (first last : Bool) (payload : List Byte) (s : State) : State :=
  let bs := (if first then [] else s.hlp.assembly.getD ch []) ++ payload
  let s := emit (.flit 0 s.hlp.rxSeq) { s with hlp.rxSeq := (s.hlp.rxSeq + 1) % 4096 }
  if last then frameReceived ch bs { s with hlp.assembly := s.hlp.assembly.set ch [] }
  else { s with hlp.assembly := s.hlp.assembly.set ch bs }

/-- An uncorrectable codeword took the flit: counted; more than 16 within 1 ms make the link retrain (R317, R318). -/
def codewordLost (s : State) : State :=
  let row := (s.hlp.uncorr.filter fun t => s.cpr.aonNs < t + 1000000) ++ [s.cpr.aonNs]
  let s := sendNak (hlpCount 1 1 { s with hlp.uncorr := row })
  if 16 < row.length then retrain { s with hlp.uncorr := [] } else s

/-- The header of a flit (R316). -/
def flitHeader (bytes : List Byte) : Nat := nat64 (bytesWord (bytes.take 4)) (bytesWord ((bytes.drop 4).take 4))

/-- What a flit's header carries for the transmitter: an acknowledgement or a NAK, and returned credits (R316, R317). -/
def flitControl (h : Nat) (s : State) : State :=
  let ack := h / 2 ^ 24 % 4096
  let s := if h.testBit 36 then (if h.testBit 37 then nakFlits ack s else ackFlits ack s) else s
  if h.testBit 43 ∧ h / 2 ^ 40 % 8 < 6 then addCredits (h / 2 ^ 40 % 8) (h / 2 ^ 44) s else s

/-- A flit whose CRC holds: its control fields, then its payload when it is the next in sequence (R316, R317). -/
def goodFlit (bytes : List Byte) (s : State) : State :=
  let h := flitHeader bytes
  let s := flitControl h s
  if s.hlp.link ≠ .active ∨ h % 8 ≠ 1 ∨ 5 < h / 8 % 8 then s
  else if h / 256 % 4096 ≠ s.hlp.rxSeq then sendNak s
  else takeFlit (h / 8 % 8) (h.testBit 6) (h.testBit 7) ((bytes.drop 8).take 244) s

/-- A flit's bytes as decoded: a CRC failure or a gap in sequence sends NAK; acknowledgement and credit fields are taken, then the payload
(R316-R318). -/
def flitBytes (bytes : List Byte) (s : State) : State :=
  if bytes.length ≠ 256 then codewordLost s
  else if bytesWord (bytes.drop 252) ≠ crc32c (bytes.take 252) then sendNak (hlpCount 2 1 s)
  else goodFlit bytes s

/-- FLIT_RECEIVED: 256 bytes as decoded, or none of that length when FEC could not correct them; corrected counts the codewords that FEC
corrected (R316-R318, R323). -/
def execFlitReceived (f : RxFlit) (s : State) : Host.Outcome State Fault Refusal :=
  if s.hlp.link ≠ .active then .next s else .next (flitBytes f.bytes (hlpCount 0 f.corrected s))

/-! ### SOF marks and the always-on trim (R320, R457) -/

/-- A missed mark: counted; 16 in a row hold the trim (R320, R323, R457). -/
def sofMissed (s : State) : State :=
  let n := s.hlp.sofMisses + 1
  let s := hlpCount 6 1 { s with hlp.sofMisses := n, hlp.sofSeen := 0, cpr.windowMissed := true }
  if n = 16 then hlpFault 0x2004 { s with cpr.trimHeld := true } else s

/-- SOF_MISS: a mark is missing from its slot, retrains included (R320, R322). -/
def execSofMiss (s : State) : Host.Outcome State Fault Refusal :=
  .next (if s.hlp.link = .active ∨ s.hlp.retraining then sofMissed s else s)

/-- SOF_MARK: a mark so many always-on cycles after the slot before it, which holds a mark or was counted as missed. More than 1 us (25 cycles) from its slot it is a miss; two good
marks in a row resume a held trim (R320). -/
def execSofMark (cycles : Nat) (s : State) : Host.Outcome State Fault Refusal :=
  if s.hlp.link ≠ .active then .next s
  else if cycles < 3100 ∨ 3150 < cycles then .next (sofMissed s)
  else
    let seen := s.hlp.sofSeen + 1
    .next { s with hlp.sofMisses := 0, hlp.sofSeen := seen, cpr.trimHeld := s.cpr.trimHeld && decide (seen < 2) }

/-- The reference of the always-on trim: 1 SYNC 10 MHz, 2 SOF marks, 0 none (R457). -/
def trimRef (s : State) : Nat :=
  if s.tsu.syncFn = 3 then 1 else if s.hlp.link = .active ∧ !s.cpr.trimHeld then 2 else 0

/-- AON_TRIM_WINDOW: an 8 ms window ends with a count of always-on cycles; the trim moves by the error over 5, at most 16 steps, in
the correcting direction; a window with a missed mark is discarded (R457). -/
def execAonTrimWindow (count : Nat) (s : State) : Host.Outcome State Fault Refusal :=
  let ref := trimRef s
  let s := advanceAon (s.cpr.trimNs + 8000000) s
  let s := { s with cpr.trimNs := s.cpr.aonNs }
  let bad := s.cpr.windowMissed && decide (ref = 2)
  let s := { s with cpr.windowMissed := false, cpr.aonRef := ref }
  if ref = 0 ∨ bad then .next s
  else
    let move := clampInt (-16) 16 (((count : Int) - 200000).tdiv 5)
    .next { s with cpr.aonTrim := clampInt (-128) 127 (s.cpr.aonTrim - move) }

end Sys2Proof.Machine
end

