-- ==== Sys2Proof/Machine/Clocks.lean ====
section
/-!
DEFINITION. Clocks, performance levels, power domains, sleep states and resource claims (19 R456-R477, 02 R48).
-/

namespace Sys2Proof.Machine

/-! ### Clock multiplexers (R458-R460) -/

/-- A multiplexer's input is stopped (R459, R497). -/
def inputStopped (s : State) (mux input : Nat) : Bool := s.cpr.stopped.getD (2 * mux + input) false

/-- The power domains that a multiplexer's clock domain covers (R458, R467). -/
def muxDomains (mux : Nat) : List Nat :=
  match mux with
  | 4 => List.range 16
  | 5 => [16, 17]
  | 6 => [18, 19]
  | 8 => [26]
  | _ => []

/-- The ports of the subsystems and groups that a multiplexer's clock domain covers: a subsystem, and an instance group or 0xFFF
(R458). -/
def muxPorts (mux : Nat) : List (Nat × Nat) :=
  match mux with
  | 1 | 2 => [(6, 0xFFF)]
  | 3 => [(8, 0xFFF), (9, 0xFFF), (10, 0xFFF), (7, 0xFFF)]
  | 4 => [(12, 0xFFF)]
  | 5 => [(13, 0xFFF)]
  | 6 => [(14, 0xFFF)]
  | 8 => [(4, 6)]
  | _ => []

/-- The recovery for a forced switch: the domain is fenced and held in reset, the selection is forced, the reset is released and the
domain is restored and its fence lifted as under RESET_DOMAIN (R25, R460). -/
def recoverMux (mux input : Nat) (s : State) : State :=
  let held := s.cpr.fencedSubs
  let s := (muxPorts mux).foldl (fun s p => fencePort p.1 p.2 s) s
  let s := { s with cpr.cmux := s.cpr.cmux.set mux input, cpr.switching := s.cpr.switching.filter fun x => x.1 ≠ mux }
  let s := (muxPorts mux).foldl (fun s p => if p.2 = 0xFFF then resetSub p.1 s else resetInst p.1 p.2 s) s
  (muxPorts mux).foldl (fun s p => if held.contains p.1 then s else liftFence p.1 p.2 s) s

/-- The word of CLOCK_SELECT's reply (R475). -/
def muxWord (s : State) (mux : Nat) : Word := w32 (s.cpr.cmux.getD mux 0 + 2 * b1 (s.cpr.stuck.getD mux false))

/-- The checks of CLOCK_SELECT (R458, R475). -/
def clockChecks (mux input : Nat) (s : State) : List (Bool × Status) :=
  [(decide (8 < mux ∨ mux = 7), .badParam), (decide (s.cpx.mode ≠ .service), .modeForbids),
   ((muxDomains mux).any fun d => (domainOf s d).state = .draining ∨ (domainOf s d).state = .off, .unavailable),
   (inputStopped s mux input, .unavailable), (s.cpr.switching.any fun x => x.1 = mux, .resourceBusy)]

/-- A clock switch set to an input (R458). -/
def putMux (mux input : Nat) (s : State) : State :=
  { s with cpr.cmux := s.cpr.cmux.set mux input, cpr.stuck := s.cpr.stuck.set mux false }

/-- CLOCK_SELECT's checks and effect: a switch whose old input has stopped hangs until its timeout (R459, R460, R474, R475). -/
def clockSelect (c : Cmd) (s : State) : Res :=
  let w := word c 0
  let mux := field w 0 4
  let input := b1 (bit w 4)
  checks (clockChecks mux input s)
    (let old := s.cpr.cmux.getD mux 0
     let hung := decide (old ≠ input) && inputStopped s mux old
     if bit w 5 then
       let s' := putMux mux input (recoverMux mux input s)
       .done [muxWord s' mux] (if hung && decide (mux ≤ 3) then raiseFault 0x1003 [w32 mux] true s' else s')
     else if hung then
       .deferred { s with
         cpr.switching := s.cpr.switching ++ [(mux, input)], cpr.switchNs := s.cpr.switchNs.set mux s.cpr.aonNs }
     else .done [muxWord (putMux mux input s) mux] (putMux mux input s))

/-- CLOCK_SELECT (R475). -/
def execClockSelect (c : Cmd) (s : State) : Host.Outcome State Fault Refusal :=
  .next <| serve 0x0C04 (exactly 1) c s (clockSelect c)

/-- The queue whose command in service has an opcode. -/
def servingQueue (s : State) (op : Nat) : Option Nat :=
  (List.range 8).find? fun qi => ((queueOf s qi).inService.map (·.op)) = some op

/-- 64 cycles of a multiplexer's input, in ns, rounded up (R36, R458, R459, R465). -/
def switchLimit (s : State) (mux input : Nat) : Nat :=
  let level := fun g (l : List Nat) => l.getD (s.cpr.levels.getD g 0) 0
  let khz :=
    if mux = 8 then (if input = 0 then 25000 else 2500)
    else if input = 1 then 50000
    else 1000 * (match mux with
      | 0 => level 0 [2000, 1600, 1200, 800]
      | 1 | 2 => 1600
      | 3 => 1200
      | 4 => level 1 [1250, 1000, 750, 400]
      | 5 => level 2 [1000, 800, 600, 300]
      | _ => level 3 [800, 640, 480, 240])
  (64000000 + khz - 1) / khz

/-- SWITCH_STUCK_TIMEOUT: 64 cycles of the new clock have passed; the fault is raised and the switch is forced under the recovery; on CMUX_0 to CMUX_3 the fault is fatal
(R459, R460). -/
def execSwitchStuckTimeout (mux : Nat) (s : State) : Host.Outcome State Fault Refusal :=
  match s.cpr.switching.find? fun x => x.1 = mux with
  | none => .next s
  | some (_, input) =>
    let s := advanceAon (s.cpr.switchNs.getD mux 0 + switchLimit s mux input) s
    let s := recoverMux mux input { s with cpr.stuck := s.cpr.stuck.set mux true }
    let s := raiseFault 0x1003 [w32 mux] (decide (mux ≤ 3)) s
    .next (match servingQueue s 0x0C04 with
      | some qi => finishDeferred qi .ok [muxWord s mux] s
      | none => s)

/-- CLOCK_INPUT_STOPPED: the clock monitor reports an input; the PON receive clock's stop forces CMUX_7 to the crystal without a reset
(R459, R460). -/
def execClockInputStopped (input : Nat) (s : State) : Host.Outcome State Fault Refusal :=
  if 18 ≤ input ∨ s.cpr.stopped.getD input false then .next s
  else
    let s := raiseFault 0x1004 [w32 input] (decide (input < 8)) { s with cpr.stopped := s.cpr.stopped.set input true }
    .next (if input = 14 then { s with cpr.cmux := s.cpr.cmux.set 7 1, tsu.ponRef := false } else s)

/-- PLL_UNLOCK: fatal for PLL_0 to PLL_3 and PLL_7; the domain of another PLL is forced to the crystal, the PLL locks again and the domain
switches back (R460). -/
def execPllUnlock (p : Nat) (s : State) : Host.Outcome State Fault Refusal :=
  if 8 ≤ p then .next s
  else if p < 4 ∨ p = 7 then
    .next (raiseFault 0x1005 [w32 p] true { s with cpr.pllLock := s.cpr.pllLock.set p false })
  else
    let s := recoverMux p 1 (fault 0x1005 [w32 p] s)
    .next { s with cpr.cmux := s.cpr.cmux.set p 0 }

/-! ### Crossings (R463) -/

/-- HANDSHAKE_OVERRUN: the lost request sets the bit of the domain it went into; the fault folds within 1 s (R463, R484;
DEDUCED, log 125). -/
def execHandshakeOverrun (src dst : Nat) (s : State) : Host.Outcome State Fault Refusal :=
  if 14 ≤ src ∨ 14 ≤ dst then .next s
  else
    .next (fault 0x1007 [w32 src, w32 dst]
      { s with cpr.xing := s.cpr.xing.set dst true, cpr.overruns := inc32 s.cpr.overruns })

/-! ### Performance levels (R48, R465, R466) -/

/-- Level in force of a domain group: 0 control, 1 Mallet, 2 Gouge, 3 Ashlar. -/
def levelOf (s : State) (g : Nat) : Nat := s.cpr.levels.getD g 0

/-- Whether a step-down holds a group (R48). -/
def stepped (s : State) (g : Nat) : Bool := (decide (g = 1) && s.cpr.steppedM) || (decide (g = 2) && s.cpr.steppedG)

/-- The committed Gouge charges or the attached slots do not fit a level (R46, R141, R475). -/
def levelShort (s : State) (g level : Nat) : Bool :=
  (decide (g = 2) && !gougeFits (effMode s s.cpx.mode) (gougeBudget s level) (decCharges s) (encCharges s)) ||
    (decide (g = 1) && s.aue.cores.any fun (x : Nat × Core) =>
      x.2.attached.isSome && decide (800 * malletMHz level < x.2.cycles))

/-- Detail words 1 and 2 of EVT_POWER (R477). -/
def powerWords (s : State) (g level : Nat) : List Word := [w32 (g + level * 16), w32 s.cpr.power]

/-- PERF_LEVEL_SET's checks and start; its reply follows the change (R466, R475). -/
def perfLevelSet (c : Cmd) (s : State) : Res :=
  let g := field (word c 0) 0 2
  let l := field (word c 0) 4 2
  checks
    [((if g = 0 then decide (0 < l ∧ s.cpx.mode ≠ .service) else decide (l < ceiling s.cpx.mode)), .modeForbids),
     (levelShort s g l, .noCapacity),
     (s.cpr.changing.any (fun x => x.1 = g) || (stepped s g && decide (l < levelOf s g) && s.cpr.powerStop), .resourceBusy)]
    (if l = levelOf s g then .done [w32 l] s
     else .deferred { s with cpr.changing := s.cpr.changing ++ [(g, l)], cpr.perfReply := s.cpr.perfReply ++ [(g, qiOf c)] })

/-- PERF_LEVEL_SET (R475). -/
def execPerfLevelSet (c : Cmd) (s : State) : Host.Outcome State Fault Refusal :=
  .next <| serve 0x0C02 (exactly 1) c s (perfLevelSet c)

/-- A domain that is ON starts to drain (R468). -/
def startDrain (d : Nat) (s : State) : State := 
  modDomain d (fun x => if x.state = .on then { x with state := .draining, drainNs := s.cpr.aonNs } else x) s

/-- Step 1 of entry: the domains that S2 and S3 switch off drain, once no level change runs (R471, R474). -/
def startEntry (s : State) : State :=
  match s.cpr.entering with
  | some t => if 2 ≤ t ∧ s.cpr.changing.isEmpty then sleepDomains.foldl (fun s d => startDrain d s) s else s
  | none => s

/-- A step-down of a group is being carried out; a change that a command started is not one (R466). -/
def stepRuns (s : State) (g : Nat) : Bool :=
  stepped s g && s.cpr.changing.any (fun x => x.1 = g) && !s.cpr.perfReply.any fun x => x.1 = g

/-- LEVEL_CHANGE_COMPLETE: the level is in force; a command's reply follows with EVT_POWER detail 2 (R466, R475, R477). -/
def execLevelChangeComplete (group : Nat) (s : State) : Host.Outcome State Fault Refusal :=
  match s.cpr.changing.find? fun x => x.1 = group with
  | none => .next s
  | some (_, l) =>
    let up := decide (l < levelOf s group)
    let s := { s with
      cpr.overWindows := if stepRuns s group then 0 else s.cpr.overWindows
      cpr.levels := s.cpr.levels.set group l, cpr.changing := s.cpr.changing.filter fun x => x.1 ≠ group }
    let s := match s.cpr.perfReply.find? fun x => x.1 = group with
      | none => s
      | some (_, qi) =>
        let s := { s with
          cpr.perfReply := s.cpr.perfReply.filter fun x => x.1 ≠ group
          cpr.steppedM := s.cpr.steppedM && !(up && decide (group = 1))
          cpr.steppedG := s.cpr.steppedG && !(up && decide (group = 2)) }
        finishDeferred qi .ok [w32 l] (evtPower 2 (powerWords s group l) s)
    .next (startEntry s)

/-- The level that a group goes to: the target of a change in progress, else the level in force. -/
def levelAimed (s : State) (g : Nat) : Nat := ((s.cpr.changing.find? fun x => x.1 = g).map (·.2)).getD (levelOf s g)

/-- One group steps down one level, no lower than PL3, with EVT_POWER detail 1; a change that a command started goes one level further
(log 98) (R48, R466). -/
def stepDown (g : Nat) (s : State) : State :=
  let l := levelAimed s g
  let s := if 3 ≤ l then s else
    { s with
      cpr.changing := s.cpr.changing.filter (fun x => x.1 ≠ g) ++ [(g, l + 1)]
      cpr.steppedM := s.cpr.steppedM || decide (g = 1), cpr.steppedG := s.cpr.steppedG || decide (g = 2) }
  evtPower 1 (powerWords s g (min 3 (l + 1))) s

/-- POWER_WINDOW: a 1 ms average of input power in 0.1 W. Two in a row above the mode's maximum step Gouge and Mallet down and stop
admission; asleep or entering sleep it is not acted on (R48, R466, R474). -/
def execPowerWindow (dw : Nat) (s : State) : Host.Outcome State Fault Refusal :=
  let s := advanceAon (s.cpr.powerNs + 1000000) s
  let s := { s with cpr.power := min dw 4095, cpr.powerNs := s.cpr.aonNs }
  let top := maxPower s.cpx.mode
  if s.cpr.sleep ≠ 0 ∨ s.cpr.entering.isSome then .next s
  else if top < dw then
    let s := { s with cpr.overWindows := s.cpr.overWindows + 1, cpr.coolMs := 0 }
    if s.cpr.overWindows < 2 ∨ stepRuns s 1 ∨ stepRuns s 2 then .next s
    else
      .next (stepDown 1 (stepDown 2
        { s with cpr.overWindows := 0, cpr.powerStop := true, cpr.stepDowns := inc32 s.cpr.stepDowns }))
  else
    .next { s with cpr.overWindows := 0, cpr.coolMs := if dw * 100 ≤ top * 95 then s.cpr.coolMs + 1 else 0 }

/-- ADMISSION_RESUME: the average has stayed at or below 95 % of the maximum for 1 s (R48). -/
def execAdmissionResume (s : State) : Host.Outcome State Fault Refusal :=
  .next (if s.cpr.powerStop ∧ 1000 ≤ s.cpr.coolMs then { s with cpr.powerStop := false } else s)

/-! ### Power domains (R467-R469) -/

/-- A domain enters OFF: what it held is lost, its port is fenced, its pads are latched with transmit enables and outputs inactive
(R85, R468, R469). -/
def domainOff (d aborted : Nat) (s : State) : State :=
  let s := resetInst (domainSub d) (domainInst d) s
  let s := if d = 27 then { s with cpr.ringPads := 3 } else s
  fenceSettle (modDomain d (fun x =>
    { x with state := .off, fenced := true, latched := x.latched || decide (20 ≤ d), aborted := min aborted 4095 }) s)

/-- DRAIN_END: a draining domain is empty or has reached its limit with requests outstanding, given by their masters; each of these
completes ABORTED (R22, R468). -/
def execDrainEnd (domain : Nat) (outstanding : List Nat) (s : State) : Host.Outcome State Fault Refusal :=
  if 28 ≤ domain ∨ (domainOf s domain).state ≠ .draining then .next s
  else
    let s := if outstanding = [] then s else advanceAon ((domainOf s domain).drainNs + 2000000) s
    let s := outstanding.foldl (fun s m => emit (.completion m 2 [] []) s) s
    let s := domainOff domain outstanding.length s
    .next (if outstanding = [] then s
      else fault 0x1008 [w32 outstanding.length] { s with cpr.drains := inc32 s.cpr.drains })

/-- DOMAIN_POWERED: a powering domain is ON and its fence is lifted; its pads stay latched (R468). -/
def execDomainPowered (domain : Nat) (s : State) : Host.Outcome State Fault Refusal :=
  .next (if (domainOf s domain).state = .powering then modDomain domain (fun x => { x with state := .on, fenced := false }) s else s)

/-- The power domain of a pad group (R475). -/
def padDomain (g : Nat) : Nat := if g < 7 then 20 + g else 27

/-- Releases a pad group: outputs follow their logic again (R469, R475). -/
def releasePad (g : Nat) (s : State) : State :=
  if g < 7 then modDomain (padDomain g) (fun x => { x with latched := false }) s
  else
    let k := g - 7
    if (s.cpr.ringPads >>> k) % 2 = 0 then s
    else
      let s := { s with cpr.ringPads := s.cpr.ringPads - 2 ^ k }
      let s := modDomain 27 (fun x => { x with latched := decide (s.cpr.ringPads ≠ 0) }) s
      if k = 0 then (if s.tsu.ppsHigh then drivePin 0 true s else s)
      else if s.tsu.evtHigh then drivePin 1 (!s.tsu.evtFall) s else s

/-- PAD_RELEASE's checks and effect (R474, R475). -/
def padRelease (c : Cmd) (s : State) : Res :=
  let g := field (word c 0) 0 4
  checks [(decide (8 < g), .badParam), (decide ((domainOf s (padDomain g)).state = .off), .unavailable)] (.done [] (releasePad g s))

/-- PAD_RELEASE (R475). -/
def execPadRelease (c : Cmd) (s : State) : Host.Outcome State Fault Refusal :=
  .next <| serve 0x0C03 (exactly 1) c s (padRelease c)

/-! ### Sleep states (R470-R474) -/

/-- POWER_STATE_SET's checks and start (R471, R475). -/
def powerStateSet (c : Cmd) (s : State) : Res :=
  let t := field (word c 0) 0 2
  if t = 0 then .done [] s
  else
    checks
      [(decide (s.cpx.mode = .shadow), .modeForbids),
       (!s.fwe.legs.isEmpty || s.cti.paired || s.cti.forming || s.cpr.entering.isSome ||
          s.cpx.queues.any (fun q => !q.longOps.isEmpty), .resourceBusy)]
      (.accepted 0 (startEntry { s with cpr.entering := some t, cpr.wakeMask := field (word c 0) 8 6, cpr.wakeDue := none }))

/-- POWER_STATE_SET (R475). -/
def execPowerStateSet (c : Cmd) (s : State) : Host.Outcome State Fault Refusal :=
  .next <| serve 0x0C01 (exactly 1) c s (powerStateSet c)

/-- DRAM goes into self-refresh and the controllers stop their clocks (R263). -/
def selfRefresh (s : State) : State := { s with mss.chans := s.mss.chans.map fun c => { c with selfRef := true, stopped := true } }

/-- SLEEP_ENTERED: entry steps 2 and 3. The controllers complete what is queued and DRAM enters self-refresh, EVT_LONG_DONE is sent, in S3 the link
leaves ACTIVE, and the entry window opens (R263, R470, R471). -/
def execSleepEntered (s : State) : Host.Outcome State Fault Refusal :=
  match s.cpr.entering with
  | none => .next s
  | some t =>
    if s.cpr.window || !s.cpr.changing.isEmpty || (decide (2 ≤ t) && sleepDomains.any fun d => (domainOf s d).state ≠ .off) then .next s
    else
      let s := endLong 0x0C01 0 .ok [w32 t] s
      let s := { s with cpr.sleep := t, cpr.window := true, cpr.windowNs := s.cpr.aonNs, hlp.wakePending := false }
      let s := if 2 ≤ t then selfRefresh (drainChannels s) else s
      let s := if t = 2 then { s with cpr.ctlBefore := levelOf s 0, cpr.levels := s.cpr.levels.set 0 3 } else s
      .next (if t = 3 then ponTrySleep ((if s.hlp.link = .active then hlpCount 5 1 else id) (leaveLink { s with hlp.trainReady := false })) else s)

/-- ENTRY_WINDOW_END: a wake source kept during entry, or a level still present, wakes the module at once (R473, R474). -/
def execEntryWindowEnd (s : State) : Host.Outcome State Fault Refusal :=
  if !s.cpr.window then .next s
  else
    let due := s.cpr.wakeDue
    let s := advanceAon (s.cpr.windowNs + 320) s
    let s := { s with cpr.window := false, cpr.entering := none, cpr.wakeDue := none }
    .next (match due with
      | some b => startWake b s
      | none => s)

/-- A command waits on the host link or the backup path (R472). -/
def commandWaits (s : State) : Bool := s.cpx.queues.any fun q => !q.waiting.isEmpty

/-- WAKE_EVENT: a wake source is present. Source 4 is a waiting command (R472-R474). -/
def execWakeEvent (source : Nat) (s : State) : Host.Outcome State Fault Refusal :=
  .next (if 6 ≤ source ∨ (source = 4 ∧ !commandWaits s) then s else wakeSource source s)

/-- The result of a retraining pause of a channel: one below the training limit is discarded, and three in a row raise
MEM_RETRAIN_FAILED (log 16) (R260, R262). -/
def pauseResult (ch : Nat) (marginOk : Bool) (s : State) : State :=
  let row := if marginOk then 0 else (chanOf s ch).discRow + 1
  let (hot, s) := drawBelow 2 s
  let s := modChan ch (fun c => { c with
    doubled := decide (hot = 1), pauses := inc32 c.pauses, discards := if marginOk then c.discards else inc32 c.discards
    discRow := if 3 ≤ row then 0 else row }) s
  if 3 ≤ row then fault 0x6202 [w32 ch] s else s

/-- On a wake each channel leaves self-refresh, and one in service runs a pause before its first request; its result is a free bit (log 16).
What waited is then served (R263). -/
def wakePauses (s : State) : State :=
  settleChannels <| (List.range 16).foldl (fun s ch =>
    let s := modChan ch (fun c => { c with selfRef := false, openNs := nowNs s }) s
    if (chanOf s ch).inService then
      let (bad, s) := drawBelow 2 s
      pauseResult ch (decide (bad = 0)) s
    else s) s

/-- WAKE_COMPLETE: every domain switched off is ON again and DRAM is retrained. From S3 the PTU is in AWAKE_HELD and train-ready is set.
EVT_POWER detail 3 follows once the link is ACTIVE; waiting commands are served (R470, R473). -/
def execWakeComplete (s : State) : Host.Outcome State Fault Refusal :=
  match s.cpr.waking with
  | none => .next s
  | some (left, src) =>
    if (List.range 28).any fun d => (domainOf s d).state = .powering then .next s
    else
      let us := (s.cpr.aonNs - s.cpr.wakeNs) / 1000
      let s := { s with cpr.waking := none, cpr.sleep := 0, hlp.wakePending := false }
      let s := if 2 ≤ left then wakePauses s else s
      let s := if left = 2 then { s with cpr.levels := s.cpr.levels.set 0 s.cpr.ctlBefore } else s
      let s := if left = 3 then { (ponWake (decide (src ≠ 3)) s) with hlp.trainReady := true } else s
      let s := if s.hlp.link = .active then evtPower 3 [w32 (left + src * 4), w32 us] s
        else { s with cpr.woke := some (left, src, us) }
      .next ((List.range 8).foldl (fun s qi => drainRefused qi (queueOf s qi).waiting s) s)

/-! ### Resource claims (R476) -/

/-- The owner of a resource: 0 SYNC, 1 EVT, 2 comparator, 3 customer core (R476). -/
def ownerOf (s : State) (res i : Nat) : Nat :=
  match res with
  | 0 => s.tsu.syncOwner
  | 1 => s.tsu.evtOwner
  | 2 => (cmpOf s i).owner
  | _ => b1 (thas s.aue.cores i)

/-- The EVT output returns to rest. -/
def evtRest (s : State) : State := if s.tsu.evtHigh then drivePin 1 s.tsu.evtFall { s with tsu.evtHigh := false } else s

/-- The host takes a free resource. A claimed customer core is EMPTY (R128, R476). -/
def claimRes (res i : Nat) (s : State) : State :=
  match res with
  | 0 => { s with tsu.syncOwner := 1 }
  | 1 => { s with tsu.evtOwner := 1 }
  | 2 => modCmp i (fun x => { x with owner := 1 }) s
  | _ => { s with aue.cores := tset s.aue.cores i Core.reset }

/-- What depends on a resource is undone with its release: SYNC's function becomes 0; a comparator stops the output it drives; a core's
slot is detached first (R142, R476). -/
def releaseRes (res i : Nat) (s : State) : State :=
  match res with
  | 0 => { setSyncFn 0 0 s with tsu.syncOwner := 0 }
  | 1 => let s := evtRest s
         { s with tsu.evtOwner := 0, tsu.evtSet := false }
  | 2 =>
    let s := if s.tsu.syncFn = 2 ∧ s.tsu.ppsCmp = i ∧ s.tsu.ppsHigh then drivePin 0 false { s with tsu.ppsHigh := false } else s
    let s := if s.tsu.evtSet ∧ s.tsu.evtOut ∧ s.tsu.evtCmp = i then evtRest s else s
    modCmp i (fun x => { x with owner := 0, armed := false }) s
  | _ =>
    match tget s.aue.cores i with
    | some x =>
      if x.attached.isSome then modCore i (fun x => { x with releasing := true, detach := true }) s
      else { s with aue.cores := terase s.aue.cores i }
    | none => s

/-- Index rules (R476). -/
def claimIndexBad (res i : Nat) : Bool :=
  match res with
  | 0 | 1 => decide (i ≠ 0)
  | 2 => decide (i < 8 ∨ 63 < i)
  | 3 => decide (i < 224)
  | _ => true

/-- EVT set-up: direction, polarity, comparator and pulse width (R476). -/
def evtSetUp (w : Word) (s : State) : Res :=
  let out := bit w 0
  let cmp := field w 2 6
  checks
    [(out && (decide (cmp < 8) || decide (field w 8 24 = 0)), .badParam), (decide (s.tsu.evtOwner ≠ 1), .unavailable),
     (out && decide ((cmpOf s cmp).owner ≠ 1), .resourceBusy)]
    (let s := evtRest s
     .done [] { s with
       tsu.evtOut := out, tsu.evtFall := bit w 1, tsu.evtCmp := cmp, tsu.evtWidth := field w 8 24, tsu.evtSet := true })

/-- The checks of a claim (R476). -/
def claimChecks (res i : Nat) (s : State) : List (Bool × Status) :=
  (claimIndexBad res i, Status.badParam) ::
    (if res = 3 then admission s (fun m => decide (m ≠ .studio)) (fun _ => false) ++
        [(domainDown s (i / 16), Status.unavailable)] else []) ++ [(decide (ownerOf s res i ≠ 0), .resourceBusy)]

/-- RESOURCE_CLAIM's checks and effect (R476). -/
def resourceClaim (c : Cmd) (s : State) : Res :=
  let w := word c 0
  let res := field w 0 4
  let i := field w 8 8
  let own := ownerOf s res i
  let bad := (claimIndexBad res i, Status.badParam)
  match field w 16 4 with
  | 0 =>
    checks (claimChecks res i s) (.done [1] (claimRes res i s))
  | 1 => checks [bad, (decide (2 ≤ own), .resourceBusy)] (.done [0] (if own = 0 then s else releaseRes res i s))
  | 2 => checks [bad] (.done (if res = 1 then [w32 own, w32 s.tsu.evtEdges] ++ w64 s.tsu.evtLast else [w32 own]) s)
  | 3 => checks [bad, (decide (res ≠ 1), .badParam)] (evtSetUp (word c 1) s)
  | _ => .refuse .badParam

/-- RESOURCE_CLAIM (R476). -/
def execResourceClaim (c : Cmd) (s : State) : Host.Outcome State Fault Refusal :=
  .next <| serve 0x0C05 (fnLens [1, 1, 1, 2] c) c s (resourceClaim c)

end Sys2Proof.Machine
end

