-- ==== Sys2Proof/Machine/Memory.lean ====
section
/-!
DEFINITION. The requests and flits of the Mortar fabric, DRAM reads, retraining, the memory system's registers and MEM_STATUS (01 R18-R26,
10 R254-R267, R279; 21 R504, R505).
-/

namespace Sys2Proof.Machine

/-! ### Requests (R22-R26) -/

/-- DRAM_READ: words from an address in bursts of 64 bytes; bad gives the words, from the word at addr, that fail on the first, second and
third read (R254, R264). -/
def execDramRead (addr : Nat) (span : ReadSpan) (bad : List (List Nat)) (s : State) : Host.Outcome State Fault Refusal :=
  if dramBytes < addr + 4 * span.words then .fault (.noSuchAddress addr)
  else
    let r : FabReq := { master := 22, addr := addr, len := 4 * span.words, traffic := span.traffic }
    .next (readLines (bad.map fun b => b.map (addr / 4 + ·))
      ((linesOf addr (4 * span.words)).filter fun l => (chanOf s (channelOf (64 * l))).inService) (recordRequest r s)).2

/-- FABRIC_REQUEST: the protection unit checks it before the target sees it; every request ends in one completion (R22-R26, R266). -/
def execFabricRequest (r : FabReq) (s : State) : Host.Outcome State Fault Refusal :=
  if 64 ≤ r.master ∨ 16 ≤ r.target then .next s
  else
    let (x, s) := issue r (settleChannels s)
    .next (checkedRequest x s)

/-! ### Fabric links (R18, R20, R26) -/

/-- The flits held for replay towards a link end. -/
def linkHeld (s : State) (link : Nat) : List ReplayFlit := (tget s.mss.linkReplay link).getD []

/-- Changes what a link end's replay buffer holds. -/
def setHeld (link : Nat) (l : List ReplayFlit) (s : State) : State :=
  { s with mss.linkReplay := if l.isEmpty then terase s.mss.linkReplay link else tset s.mss.linkReplay link l }

/-- The request of a flit with the bytes and the poisoned words that arrive. A request to read has no data words of its own: what arrives
poisoned of its flit takes nothing from it (DESIGN CHOICE, log 128) (R20, R21). -/
def flitReq (f : FabFlit) (bad : List Nat) : FabReq :=
  { f.req with
    data := if f.req.write then (wordsBytes (f.words.map (·.1))).take f.req.len else []
    poison := if f.req.write ∨ f.reply then bad else [] }

/-- A reply that arrives: its request ends, UNAVAILABLE with the reply discarded and counted when its port is fenced (R20-R22, R25,
R26). -/
def replyArrives (f : FabFlit) (r : FabReq) (s : State) : State :=
  if r.fenced || portDown s r.target r.inst then
    emit (.completion r.master 1 [] []) { s with mss.fenceDrop := s.mss.fenceDrop.modify r.target fun c => inc32 c }
  else
    let s := complete r (if r.write then [] else ((wordsBytes (f.words.map (·.1))).take r.len).map (·.toNat)) r.poison s
    if r.poison ≠ [] ∧ !r.write ∧ r.master < 16 then coreLoadPoisoned r.addr s else s

/-- The words of a flit that fail parity (R19, R20). -/
def flitBad (f : FabFlit) : List Nat :=
  (List.range f.words.length).filter fun i => !((f.words[i]?).map fun w => parityOk w.1 w.2).getD true

/-- FABRIC_FLIT_ARRIVAL: the receiver checks every word of a 16-word flit; a good one is delivered; a bad one is refused and replayed from
the sender's buffer of 64 flits, at most twice, and keeps its request's place in the order of issue; the third failing arrival is
delivered with its bad words poisoned and raises FAB_REPLAY_EXHAUSTED; a flit awaiting replay to a fenced port is abandoned and its
request completes UNAVAILABLE. What waited behind it follows (R18, R20, R24, R26). -/
def execFabricFlitArrival (link number : Nat) (f : FabFlit) (s : State) : Host.Outcome State Fault Refusal :=
  let s := settleChannels s
  let held := linkHeld s link
  let rest := held.filter fun x => x.number ≠ number
  let old := held.find? fun x => x.number = number
  let tries := (old.map (·.tries)).getD 0
  let r := flitReq f (flitBad f)
  if f.words.length ≠ 16 ∨ 64 ≤ rest.length ∨ 64 ≤ r.master ∨ 16 ≤ r.target then .next s
  else
    let (x, s) := match old with
      | some o => ((⟨o.seq, nowNs s, r⟩ : HeldReq), s)
      | none => issue r s
    if flitBad f ≠ [] ∧ !f.reply ∧ (r.fenced || portDown s r.target r.inst) ∧ permittedRequest s r then
      .next (releaseBehind (emit (.completion r.master 1 [] []) (setHeld link rest s)))
    else if flitBad f ≠ [] ∧ tries < 2 then .next (setHeld link (rest ++ [⟨number, tries + 1, f.reply, x.seq, r⟩]) s)
    else
      let s := setHeld link rest s
      let s := if flitBad f = [] then s else fault 0x6101 [w32 link] s
      .next (releaseBehind (if f.reply then replyArrives f r s else checkedRequest x s))

/-! ### Retraining (R261, R262) -/

/-- The slot of a channel's next pause, in ns of TSU time: 250 ms after that of its last one, or the next to come (R261). -/
def pauseSlot (s : State) (ch : Nat) : Nat :=
  let t := nowNs s
  let base := t / 250000000 * 250000000 + ch * 15625000
  let slot := if t ≤ base then base else base + 250000000
  if (chanOf s ch).lastSlot.any fun b => decide (slot ≤ b) then slot + 250000000 else slot

/-- The start of a channel's next pause: its slot, or the end of the pause in progress (R261). -/
def pauseStart (s : State) (ch : Nat) : Nat := max (pauseSlot s ch) s.mss.pauseEnd

/-- RETRAINING_PAUSE: a channel pauses for 600 ns; a result below the training limit is discarded, and three in a row raise
MEM_RETRAIN_FAILED (R261, R262). -/
def execRetrainingPause (ch : Nat) (marginOk : Bool) (s : State) : Host.Outcome State Fault Refusal :=
  if 16 ≤ ch ∨ !(chanOf s ch).inService ∨ (chanOf s ch).selfRef then .next s
  else
    let slot := pauseSlot s ch
    let t := pauseStart s ch
    let s := settleChannels (advanceTo (t * 65536) s)
    .next (pauseResult ch marginOk (modChan ch (fun c => { c with lastSlot := some slot, openNs := t + 600 })
      { s with mss.pauseEnd := t + 600, mss.pauseCh := ch }))

/-! ### Registers (R504, R505) -/

/-- A field of MSS_AGE_LIMIT: 0 or above 128 keeps the previous value (R504). -/
def ageField (v old : Nat) : Nat := if v = 0 ∨ 128 < v then old else v

/-- A write of MSS_AGE_LIMIT: each field for itself (R504). -/
def writeAgeLimit (value : Word) (s : State) : State :=
  { s with
    mss.ageC1 := ageField (field value 0 8) s.mss.ageC1, mss.ageC2 := ageField (field value 8 8) s.mss.ageC2
    mss.ageC3 := ageField (field value 16 8) s.mss.ageC3 }

/-- MSS_AGE_LIMIT_WRITE (R40, R504). -/
def execMssAgeLimitWrite (value : Word) (s : State) : Host.Outcome State Fault Refusal :=
  .next (regAccess true 0x60100 (writeAgeLimit value) s)

/-- PU_REGION_WRITE: nothing is written, and MSS_PU_WRITE_LOCKED is raised (R40, R267, R505). -/
def execPuRegionWrite (addr _value : Word) (s : State) : Host.Outcome State Fault Refusal :=
  .next (regAccess true addr.toNat (fault 0x6103 [addr]) s)

/-! ### MEM_STATUS (R279) -/

/-- A share of the bytes moved over the last 1 s, in MB/s. -/
def bandwidth (s : State) (share : Nat × Nat × Nat × Nat → Nat) : Nat :=
  ((s.mss.traffic.filter fun t => recent s t.1).map share).sum / 1000000

/-- A channel's part of a record of traffic (R254). -/
def channelShare (ch : Nat) (t : Nat × Nat × Nat × Nat) : Nat :=
  if t.2.2.1 = ch then t.2.2.2 else if t.2.2.1 = 16 then t.2.2.2 / 16 else 0

/-- Function 0: summary. -/
def memSummary (s : State) : List Word :=
  let lats := (s.mss.c0Lats.filter fun t => recent s t.1).map (·.2)
  [w32 (b1 s.mss.locked), w32 (areaMiB s), w32 (ringTotal s), w32 (s.mss.workFree / 1048576), w32 ((s.mss.chans.map (·.replays)).sum),
    w32 ((s.mss.chans.map (·.poisons)).sum), w32 (lats.foldl max 0), w32 s.mss.c0MaxClear] ++
    (List.range 4).map fun k => w32 (bandwidth s fun t => if t.2.1 = k then t.2.2.2 else 0)

/-- Function 1: a channel. -/
def memChannel (s : State) (ch : Nat) : List Word :=
  let c := chanOf s ch
  [w32 (b1 c.inService + 2 * b1 c.selfRef + 4 * b1 c.doubled), w32 c.pauses, w32 c.discards, w32 c.replays, w32 c.poisons,
    w32 (bandwidth s (channelShare ch)), w32 (if ch = 0 then s.mss.early else 0)]

/-- Function 2: a channel's error log, newest first. -/
def memLog (s : State) (ch : Nat) : List Word :=
  ((chanOf s ch).log.flatMap fun e => [w32 e.1, w32 (e.1 / 2 ^ 32 % 65536 + channelOf e.1 * 65536), w32 e.2] ++ []) ++
    List.replicate (48 - 3 * (chanOf s ch).log.length) 0

/-- Function 3: a region. -/
def memRegion (s : State) (i : Nat) : List Word :=
  let g := s.mss.regions.getD i Region.reset
  w64 g.base ++ w64 g.limit ++ w64 g.mask ++ [w32 (b1 g.rd + 2 * b1 g.wr + 4 * b1 g.on)]

/-- MEM_STATUS's body (R279). -/
def memStatus (c : Cmd) (s : State) : Res :=
  let w := word c 0
  let i := field w 20 8
  match field w 16 4 with
  | 0 =>
    .done (memSummary s) (if bit w 31 then
      { s with mss.c0MaxClear := 0, mss.chans := s.mss.chans.map fun c => { c with replays := 0, poisons := 0 } } else s)
  | 1 => checks [(decide (15 < i), .badParam)] (.done (memChannel s i) s)
  | 2 => checks [(decide (15 < i), .badParam)] (.done (memLog s i) s)
  | 3 => .done (memRegion s i) s
  | _ => .refuse .badParam

/-- MEM_STATUS (R279). -/
def execMemStatus (c : Cmd) (s : State) : Host.Outcome State Fault Refusal :=
  .next <| serve 0x0B04 (exactly 1) c s (memStatus c)

end Sys2Proof.Machine
end

