-- ==== Sys2Proof/Machine/Epoch.lean ====
section
/-!
DEFINITION. The 10 ms epoch boundary (01 R33, 09 R232) and what a mode change moves there (02 R43, R47, R48, R52, R54-R56).
-/

namespace Sys2Proof.Machine

/-- The mode whose policies a target mode applies: SERVICE keeps those of the mode it is entered from (R43, R56). -/
def policyOf (m : Mode) (s : State) : Mode := if m = .service then effMode s s.cpx.mode else m

/-- The level of a compute group after a mode change: one that stood at the old ceiling or was stepped down follows the new ceiling,
and no group stays faster than it (R47, R48, R54). -/
def levelAfter (old new : Nat) (g : Nat) (s : State) : Nat :=
  let l := levelOf s g
  if stepped s g ∨ l = old ∨ l < new then new else l

/-- Starts a level change, in place of one in progress (R466). -/
def startLevel (g target : Nat) (s : State) : State :=
  let rest := s.cpr.changing.filter fun x => x.1 ≠ g
  { s with cpr.changing := if levelOf s g = target then rest else rest ++ [(g, target)] }

/-- A domain that is off or draining is powered again (R468). -/
def powerUp (d : Nat) (s : State) : State :=
  modDomain d (fun x => if x.state = .off then { x with state := .powering } else if x.state = .draining then { x with state := .on } else x) s

/-- Mallet, Gouge and Ashlar domains (R467). -/
def computeDomains : List Nat := List.range 20

/-- A mode takes effect: policies, ceilings and power maximum change together; a step-down ends; control leaves SERVICE at PL0;
SHADOW powers Mallet, Gouge and Ashlar off (R43, R47, R48, R54, R55, R465). -/
def applyMode (m : Mode) (s : State) : State :=
  let pol := policyOf m s
  let old := ceiling (effMode s s.cpx.mode)
  let new := ceiling pol
  let left := s.cpx.mode
  let s := [1, 2, 3].foldl (fun s g => startLevel g (levelAfter old new g s) s) s
  let s := if left = .service ∧ m ≠ .service then startLevel 0 0 s else s
  let s := { s with
    mss.weights := memWeights pol, cpx.base := pol, cpx.mode := m, cpx.pending := none, cpx.pendingAt := 0, cpr.steppedM := false, cpr.steppedG := false
    lgv.modeUp := defaultUp pol, lgv.modeDown := defaultDown pol }
  if m = .shadow then computeDomains.foldl (fun s d => startDrain d s) s
  else if left = .shadow then computeDomains.foldl (fun s d => powerUp d s) s
  else s

/-- Releases the POOL_7 buffers of synthesised packets whose time has come (R197). -/
def expireSynBufs (s : State) : State :=
  let gone := s.fwe.synBufs.filter fun b => b.2 ≤ s.cpr.aonNs
  gone.foldl (fun s b => bufReleaseOpt (some b.1) s) { s with fwe.synBufs := s.fwe.synBufs.filter fun b => s.cpr.aonNs < b.2 }

/-- The epoch in progress closes: levels, speakers and the lock group (R97-R101, R418). -/
def closeEpoch (s : State) : State := clusterEpoch (speakersEpoch s)

/-- What takes effect at an epoch boundary for the epoch that begins there: a pending mode, synthesis policy and leg classes; core time is
accounted afresh (R52, R54, R157, R204, R248). -/
def openEpoch (s : State) : State :=
  let s := openCoreEpoch (applyClasses (applyPolicy s))
  scheduleCores (match s.cpx.pending with
    | some m => if s.cpx.pendingAt ≤ nowNs s then applyMode m s else s
    | none => s)

/-- What ends with the epoch that ends at a boundary: none is in progress before the first boundary after a step (R378). Reclaim runs at
every boundary (R272). -/
def endEpoch (s : State) : State := expireSynBufs (reclaimPass (if s.lgv.gap then s else closeEpoch s))

/-- PLUMB_EPOCH_BOUNDARY: the decisions of the epoch before are published, unless they have been; Plumb's computation over the epoch that ends
takes the mode and the classes in force from here on (R232, R248). A fenced Plumb computes nothing. -/
def execPlumbEpochBoundary (s : State) : Host.Outcome State Fault Refusal :=
  let due := epochDue s
  let s := settleChannels (advanceTo (due * 65536) s)
  let idle := s.lgv.gap || subDown s 15
  let s := if s.lgv.computing ∧ s.lgv.epoch < due then publishEpoch [] s else s
  let s := openEpoch (endEpoch s)
  let s := if idle then s else computeEpoch due s
  .next (takeLater { s with lgv.gap := false, lgv.boundNs := due })

end Sys2Proof.Machine
end

