-- ==== Sys2Proof/Machine/Boot.lean ====
section
/-!
DEFINITION. Power entry, the boot ROM, bring-up and the end of a save (18 R434-R455; 19 R456; 20 R480, R481; 22 R511, R512, R523).
-/

namespace Sys2Proof.Machine

/-- What outlasts a loss of power: the flash. The staged copy, the configuration in force and the boot counts do not (R438, R443). -/
def coldFlash (f : Flash) : Flash :=
  { f with staged := [], running := [], bootReport := List.replicate 8 0, roster := [], attempts := (0, 0) }

/-- The module without power (R449, R512, R523). -/
def powerOff (aborted : Bool) (s : State) : State :=
  { State.reset with
    out := s.out, free := s.free, pending := s.pending, flash := coldFlash s.flash
    hlp := { Hlp.reset with link := .detect }
    cpr := { Cpr.reset with powered := false, volts := 0, switchOpen := s.cpr.switchOpen, overtemp := s.cpr.overtemp, saveAborted := aborted } }

/-- The newest save later than the last one reported, as the boot looks for it (R455). -/
def newestSave (s : State) : Option SaveSlot :=
  (s.flash.saves.filter fun x => x.hdr ∧ s.flash.reported < x.number).foldl
    (fun b x => match b with
      | some y => if y.number < x.number then some x else b
      | none => some x) none

/-- The reset cause of a power-on (R437). -/
def powerOnCause (s : State) : Nat :=
  if s.flash.lostDisarmed then 3
  else match newestSave s with
    | some x => if x.marker then 1 else 2
    | none => 0

/-- Power entry: converters, the always-on oscillator and the bank charger start (R434, R447). -/
def powerOn (dv cause : Nat) (s : State) : State :=
  { State.reset with
    out := s.out, free := s.free, pending := s.pending, flash := coldFlash s.flash
    hlp := { Hlp.reset with link := .power }
    cpx := { Cpx.reset with resetCause := cause }
    cpr := { Cpr.reset with volts := dv } }

/-- INPUT_POWER_APPLIED: the input reaches dv tenths of a volt. From 44 V the converters start; with power on, an input back during a
save is noted; after an abort the reset waits for 100 ms of input (R434, R437, R453, R511, R512, R523). -/
def execInputPowerApplied (dv : Nat) (s : State) : Host.Outcome State Fault Refusal :=
  let good := decide (440 ≤ dv ∧ dv ≤ 600)
  if s.cpr.powered then
    let s := { s with cpr.volts := min dv 1023 }
    .next (if good ∧ s.cpr.saving ∧ !s.cpr.switchOpen then
        { s with cpr.backNs := if s.cpr.inputBack then s.cpr.backNs else s.cpr.aonNs, cpr.inputBack := true }
      else s)
  else if !good then .next s
  else if s.cpr.saveAborted then .next { s with cpr.volts := dv, cpr.backNs := s.cpr.aonNs, cpr.inputBack := true, cpr.switchOpen := false, cpr.overtemp := false }
  else .next (powerOn dv (powerOnCause s) s)

/-- Raises the faults of the hold-up bank once firmware runs (R436). -/
def holdupFaults (s : State) : State :=
  if !firmwareRuns s then s
  else
    let s := if s.cpr.holdupFailed then fault 0x1002 [] { s with cpr.holdupFailed := false } else s
    if s.cpr.holdupLow then fault 0x1001 [] { s with cpr.holdupLow := false } else s

/-- BANK_CHARGED: the bank reaches 40.0 V, t us after it passed 10.0 V, which is no sooner than t us after the input passed 44 V.
C = 1.00 A x t / 30.0 V; the save is armed unless the bank was late, 400 ms after the input, or small; the charger then holds the bank at 42.0 V (R434-R436, R451). -/
def execBankCharged (tUs : Nat) (s : State) : Host.Outcome State Fault Refusal :=
  if !s.cpr.powered || s.cpr.capValid then .next s
  else
    let c := min (tUs / 30) 65535
    let s := advanceAon (tUs * 1000) s
    let late := !s.cpr.holdDone && decide (400000000 < s.cpr.aonNs)
    .next <| holdupFaults
      { s with
        cpr.cap := c, cpr.capValid := true, cpr.bankV := 420, cpr.armed := !s.cpr.holdDone && !late && decide (1000 ≤ c)
        cpr.saveSize := if c < 1000 then 0 else permittedBytes c, cpr.holdDone := s.cpr.holdDone || late
        cpr.holdupFailed := s.cpr.holdupFailed || late || decide (c < 1000)
        cpr.holdupLow := s.cpr.holdupLow || decide (1000 ≤ c ∧ c < 2400) }

/-- HOLDUP_CHARGE_TIMEOUT: 400 ms have passed and the bank is below 40.0 V: the save stays disarmed (R436). -/
def execHoldupChargeTimeout (s : State) : Host.Outcome State Fault Refusal :=
  .next (if s.cpr.powered ∧ !s.cpr.capValid ∧ !s.cpr.holdDone then
      holdupFaults { advanceAon 400000000 s with cpr.holdDone := true, cpr.holdupFailed := true }
    else s)

/-- CRYSTAL_STABLE: the crystal runs and PLL_0 to PLL_7 lock, PLL_7 to the crystal (R447, R456). -/
def execCrystalStable (s : State) : Host.Outcome State Fault Refusal :=
  .next (if s.cpr.powered ∧ !s.cpr.crystalFailed then
      { s with cpr.crystal := true, cpr.pllLock := List.replicate 8 true }
    else s)

/-- CRYSTAL_TIMEOUT: no amplitude within 20 ms. CPR_XTAL_FAILED shows in SYS_FAULT_LAST alone, the PLLs do not start and the module
stays in the bootstrap responder (R456, R495). -/
def execCrystalTimeout (s : State) : Host.Outcome State Fault Refusal :=
  .next (if s.cpr.powered ∧ !s.cpr.crystal ∧ !s.cpr.crystalFailed then
      { advanceAon 20000000 s with cpr.crystalFailed := true, cpx.faultLast := 0x1006, cpx.hdrFault := s.cpx.hdrFault.set 1 0x1006 }
    else s)

/-! ### The boot ROM (R440-R444) -/

/-- A little-endian word of a byte list. -/
def leWord (bs : List Byte) (off : Nat) : Word := bytesWord ((bs.drop off).take 4)

/-- A region table entry of an image (R440). -/
def imageRegion (bs : List Byte) (off : Nat) : Region :=
  let q := fun o => nat64 (leWord bs (off + o)) (leWord bs (off + o + 4))
  let r := leWord bs (off + 24)
  { base := q 0 % 2 ^ 48, limit := q 8 % 2 ^ 48, mask := q 16, rd := bit r 0, wr := bit r 1, on := bit r 2 }

/-- The regions of an image (R440). -/
def imageRegions (bs : List Byte) : List Region :=
  (List.range (leWord bs 16).toNat).map fun i => imageRegion bs ((leWord bs 12).toNat + 32 * i)

/-- The boot ROM's checks of an image: signature, magic, version and regions (R440, R441). -/
def imageVerified (bs : List Byte) : Bool :=
  decide (320 ≤ bs.length ∧ leWord bs 0 = 0x4B56494D ∧ leWord bs 4 = 1 ∧ (leWord bs 16).toNat ≤ 224) &&
    (imageRegions bs).all (fun r => decide (r.base % 64 = 0 ∧ r.base ≤ r.limit ∧ r.mask < 2 ^ 32)) && Config.imageSigned bs

/-- A firmware slot: 1 FW_A, 2 FW_B. -/
def fwOf (s : State) (n : Nat) : FwSlot := if n = 1 then s.flash.fwA else s.flash.fwB

/-- Changes a firmware slot. -/
def modFw (n : Nat) (f : FwSlot → FwSlot) (s : State) : State :=
  if n = 1 then { s with flash.fwA := f s.flash.fwA } else { s with flash.fwB := f s.flash.fwB }

/-- The slot whose sequence is the later under serial-number arithmetic, A at a tie, among the valid ones; 0 for none (R442). -/
def laterSlot (a b : Bool) (seqA seqB : Word) : Nat :=
  if a && b then (if 0 ≤ (seqA - seqB).toInt then 1 else 2) else if a then 1 else if b then 2 else 0

/-- Boot-watchdog resets of a slot in a row (R443). -/
def attemptsOf (s : State) (n : Nat) : Nat := if n = 1 then s.flash.attempts.1 else s.flash.attempts.2

/-- The slots the boot ROM tries, in order, and the one it skipped (R442, R443). -/
def bootOrder (s : State) : List Nat × Option Nat :=
  let first := laterSlot s.flash.fwA.hdr s.flash.fwB.hdr s.flash.fwA.seq s.flash.fwB.seq
  if first = 0 then ([], none)
  else if 2 ≤ attemptsOf s first ∧ (fwOf s (3 - first)).hdr then ([3 - first, first], some first)
  else ([first, 3 - first], none)

/-- The protection regions as the boot ROM leaves them: the image's, then one for each customer core's cluster slice (R136, R444). -/
def bootRegions (bs : List Byte) : List Region :=
  (List.range 256).map fun n =>
    if n < 224 then (imageRegions bs).getD n Region.reset
    else { base := 0x100000, limit := 0x11FFFF, mask := 2 ^ (32 + (n - 224)), rd := true, wr := true, on := true }

/-- The boot ROM hands over to the image of slot n; a newer slot that it skipped is invalidated with a fault (R442-R444). -/
def handOver (n : Nat) (skipped : Option Nat) (s : State) : State :=
  let f := fwOf s n
  let s := { s with
    mss.regions := bootRegions f.content, mss.locked := true, cpx.fwVersion := leWord f.content 20, cpx.fwSlot := n
    cpr.boot := .firmware, cpr.handNs := s.cpr.aonNs, cpr.pllLock := List.replicate 8 true }
  let s := match skipped with
    | some k =>
      if k = n then s
      else fault 0x0001 [(fwOf s k).seq, f.seq] (modFw k (fun x => { x with hdr := false }) { s with cpx.fwFallback := true })
    | none => s
  holdupFaults s

/-- BOOT_ROM_HANDOFF: the boot ROM chooses and verifies a slot, programs and locks the protection unit and starts the firmware;
with no slot it stays in the bootstrap responder. Firmware that starts after a skip erases the skipped slot's header (R442-R444). -/
def execBootRomHandoff (s : State) : Host.Outcome State Fault Refusal :=
  if !s.cpr.powered || !s.cpr.crystal || decide (s.cpr.boot ≠ .rom) then .next s
  else
    match (bootOrder s).1.find? fun n => (fwOf s n).hdr && imageVerified (fwOf s n).content with
    | none => .next { s with cpr.boot := .romStopped }
    | some n => .next (handOver n (bootOrder s).2 s)

/-- BOOT_WATCHDOG: 5 s after the boot ROM's handoff, HLP_CTRL.handoff is not set (R437, R443). -/
def execBootWatchdog (s : State) : Host.Outcome State Fault Refusal :=
  if s.hlp.handoff ∨ s.cpr.boot = .rom ∨ s.cpr.boot = .romStopped then .next s
  else
    let (a, b) := s.flash.attempts
    .next (fullReset 5 { advanceAon (s.cpr.handNs + 5000000000) s with flash.attempts := if s.cpx.fwSlot = 1 then (a + 1, b) else (a, b + 1) })

/-! ### Configuration and bring-up (R445-R448) -/

/-- The boot report (R446). -/
def bootReport (x : Option SaveSlot) (defaults : Bool) (s : State) : List Word :=
  match x with
  | some x =>
    [w32 (s.cpx.resetCause + 256 + 512 * b1 x.marker + 1024 * x.mask + 32768 * b1 s.cpx.fwFallback + 65536 * b1 defaults),
     w32 x.number, w32 x.written] ++ w64 x.timeNs ++ [w32 s.cpr.cap, w32 x.volts, w32 x.durUs]
  | none =>
    [w32 (s.cpx.resetCause + 32768 * b1 s.cpx.fwFallback + 65536 * b1 defaults), 0, 0, 0, 0, w32 s.cpr.cap, 0, 0]

/-- A saved item by its bit of the mask (R450, R455). -/
def itemSaved (x : SaveSlot) (k : Nat) : Bool := decide ((x.mask >>> (k - 1)) % 2 = 1)

/-- The items of a save restored at boot. The fault log is restored where the always-on log was lost (R450, R483). -/
def restoreSave (x : SaveSlot) (s : State) : State :=
  let s := if itemSaved x 1 then { s with flash.staged := x.staged } else s
  let s := if itemSaved x 2 ∧ s.cpx.resetCause ≤ 3 then
      let old := x.faults.map fun (e : FaultEntry) => { e with restored := true }
      { s with cpx.faults := (s.cpx.faults ++ old).take 1000 }
    else s
  let s := if itemSaved x 3 then
      let past := x.pm.map fun (b : PmBin) => { b with part := true, valid := true }
      { s with
        ptu.past15 := (s.ptu.past15 ++ past.filter (fun b => !b.day)).take 32
        ptu.pastDay := (s.ptu.pastDay ++ past.filter (fun b => b.day)).take 2 }
    else s
  let s := if itemSaved x 4 then { s with flash.roster := x.roster } else s
  { s with flash.reported := x.number, cpr.lastSaved := x.marker }

/-- The newest complete save (R445). -/
def completeSave (s : State) : Option SaveSlot :=
  (s.flash.saves.filter fun x => x.hdr ∧ x.marker ∧ itemSaved x 5).foldl
    (fun b x => match b with
      | some y => if y.number < x.number then some x else b
      | none => some x) none

/-- Starting trims: those of the last complete save, or FACTORY's (R445). -/
def startTrims (s : State) : State :=
  match completeSave s with
  | some x => { s with cpr.aonTrim := x.aonTrim, tsu.incr := x.incr.toNat }
  | none => { s with cpr.aonTrim := s.flash.factoryTrim }

/-- The configuration in force: the later slot with a good header, or the defaults with a fault; the boot report, and what the newest
save restores (R345, R445, R446). -/
def chooseConfig (s : State) : State :=
  let n := laterSlot s.flash.cfgA.hdr s.flash.cfgB.hdr s.flash.cfgA.seq s.flash.cfgB.seq
  let slot := if n = 1 then s.flash.cfgA else s.flash.cfgB
  let s := if n = 0 then fault 0x0002 [] { s with cpx.cfgSlot := 3, flash.running := [], flash.cfgSeq := 0 }
    else { s with cpx.cfgSlot := n, flash.running := slot.items, flash.cfgSeq := slot.seq }
  let save := newestSave s
  let s := { s with
    cti.abortedTakeover := s.cti.abortedTakeover + b1 s.flash.takeoverLost, flash.takeoverLost := false }
  let s := startTrims { s with flash.bootReport := bootReport save (decide (n = 0)) s, flash.lostDisarmed := false }
  match save with
  | some x => restoreSave x s
  | none => s

/-- CONFIGURATION_CHOSEN: firmware chooses the configuration slot, or factory defaults with a fault; the boot report is made and the
newest unreported save restored; items that take effect at boot are taken (R345, R445, R446, R455). -/
def execConfigurationChosen (s : State) : Host.Outcome State Fault Refusal :=
  if s.cpr.boot ≠ .firmware then .next s
  else .next (applyAtBoot { chooseConfig s with cpr.boot := .configured })

/-- DRAM_TRAINED: the channels of the mask are in service, and the memory is split (R254, R255, R447). -/
def execDramTrained (mask : Nat) (s : State) : Host.Outcome State Fault Refusal :=
  if s.cpr.boot ≠ .configured then .next s
  else
    let area := ((itemCommitted s 0x6001).getD 0 0).toNat
    let pools := ((List.range 8).map fun p => if p < 4 then 0 else poolSize p * (poolOf s p).count).sum
    .next { s with
      cpr.boot := .trained, mss.area := area, mss.workFree := workingBytes area - pools
      mss.chans := s.mss.chans.mapIdx fun i c => { c with inService := decide ((mask >>> i) % 2 = 1) } }

/-- HLP_CTRL.handoff set: the boot counts of the running slot clear, and the ports that the configuration enables start alignment (R321,
R443, R447, R499). -/
def setHandoff (s : State) : State :=
  let (a, b) := s.flash.attempts
  applyPorts { s with
    hlp.handoff := true, cpr.bringNs := s.cpr.aonNs, flash.attempts := if s.cpx.fwSlot = 1 then (0, b) else (a, 0) }

/-- HANDOFF_SET: firmware sets HLP_CTRL.handoff and serves commands (R40, R321, R447, R499). -/
def execHandoffSet (s : State) : Host.Outcome State Fault Refusal :=
  .next (if s.cpr.boot = .rom ∨ s.cpr.boot = .romStopped ∨ s.hlp.handoff then s else regAccess true 0x20100 setHandoff s)

/-- TRAIN_READY_SET: firmware sets HLP_CTRL.train_ready: TRAIN is accepted (R40, R314, R447, R499). -/
def execTrainReadySet (s : State) : Host.Outcome State Fault Refusal :=
  .next (if s.cpr.boot = .rom ∨ s.cpr.boot = .romStopped then s
    else regAccess true 0x20100 (fun s => { s with hlp.trainReady := true }) s)

/-- The boot mode: CONVERSE, ASSEMBLY, STUDIO or FRUGAL as configured, and CONVERSE for any other value (R42). -/
def bootMode (s : State) : Mode :=
  match ((itemCommitted s 0x0001).getD 0 0).toNat with
  | 1 => .assembly
  | 2 => .studio
  | 3 => .frugal
  | _ => .converse

/-- What ready leaves missing, as EVT_POWER detail 4 says it (R448, R477). -/
def readyMissing (s : State) : Nat × Nat × Nat :=
  (b1 (decide (s.ptu.act ≠ .o5)),
   b1 ((s.cti.ports.take 4).any fun p => p.enabled && p.path.enabled && decide (p.path.sync ≠ .sync)),
   b1 ((s.cti.forming || s.cti.paired) && !s.cti.heartbeat))

/-- Every condition of R448 that no time limit ends holds, and each Course port is in SYNC or past its 100 ms. -/
def readyNow (s : State) : Bool :=
  decide (s.hlp.link = .active) && s.hlp.handoff && decide (s.cpr.boot = .trained) && !s.cpx.held &&
    (decide ((readyMissing s).2.1 = 0) || !((s.cti.ports.take 4).any fun p => p.syncWait))

/-- The elapsed time at which the PON and the partner have succeeded or reached their limits, 30 s and 10 s from bring-up (R448). -/
def readyDue (s : State) : Nat :=
  let m := readyMissing s
  max (if m.1 = 0 then 0 else s.cpr.bringNs + 30000000000) (if m.2.2 = 0 then 0 else s.cpr.bringNs + 10000000000)

/-- The boot mode takes effect; a standby that is already in SHADOW stays there, and a change to SHADOW that waits for its boundary
still comes (R42, R55). -/
def enterBootMode (s : State) : State :=
  if s.cpx.mode = .shadow then s
  else { applyMode (bootMode s) s with cpx.pending := s.cpx.pending, cpx.pendingAt := s.cpx.pendingAt }

/-- MODULE_READY: once each condition has succeeded or reached its limit the module enters its boot mode and begins admission, unless ready
is withheld (R42, R448, R481). -/
def execModuleReady (s : State) : Host.Outcome State Fault Refusal :=
  if s.cpx.ready || !readyNow s then .next s
  else
    let m := readyMissing s
    let s := advanceAon (readyDue s) s
    .next (evtPower 4 [w32 (m.1 + 2 * m.2.1 + 4 * m.2.2)] (enterBootMode { s with cpx.ready := true }))

/-! ### The save on sag (R449-R455, R512, R523) -/

/-- INPUT_SAG: the input stays below 40.0 V for 1 us (R449). -/
def execInputSag (s : State) : Host.Outcome State Fault Refusal :=
  if !s.cpr.powered then .next { s with cpr.inputBack := false }
  else
    let (v, s) := drawBelow 400 s
    .next (saveStart 0 { s with cpr.volts := v, cpr.inputBack := false })

/-- A save is being written (R449). -/
def saveRuns (s : State) : Bool := s.cpr.saving && !s.flash.lostDisarmed && !s.cpr.saveDone && !s.cpr.saveAborted

/-- SAVE_MARKER_WRITTEN: every planned byte is written, then the marker; the bank's voltage there is a measurement (R449, R455). -/
def execSaveMarkerWritten (s : State) : Host.Outcome State Fault Refusal :=
  if !saveRuns s then .next s
  else
    let (v, s) := drawBelow 121 s
    let us := (nowNs s - s.cpr.saveNs) / 1000
    .next (modSave (fun x => { x with
      marker := true, written := x.planned, mask := savedMask x.dir x.planned, volts := 300 + v, durUs := us })
      { s with cpr.saveDone := true, cpr.bankV := 300 + v })

/-- BANK_ABORT_VOLTAGE: the bank reaches 30.0 V: writing stops with no marker, and the converters shut down (R449). -/
def execBankAbortVoltage (s : State) : Host.Outcome State Fault Refusal :=
  if !s.cpr.powered || !s.cpr.saving then .next s
  else if saveRuns s then
    let (n, s) := drawBelow ((s.flash.saves.getD (saveSlotOf (nextSave s - 1)) SaveSlot.reset).planned) s
    let us := (nowNs s - s.cpr.saveNs) / 1000
    .next (powerOff true (modSave (fun x => { x with
      written := n, mask := savedMask x.dir n, volts := 300, durUs := us }) s))
  else .next (powerOff false s)

/-- INPUT_RETURN_HOLD: the input has held for 100 ms since it came back: after the marker the module resets with cause 8, after an
abort with cause 2, and where nothing was written with cause 3 (log 141) (R437, R453). -/
def execInputReturnHold (s : State) : Host.Outcome State Fault Refusal :=
  let held := advanceAon (s.cpr.backNs + 100000000) s
  .next (if !s.cpr.inputBack then s
    else if !s.cpr.powered then powerOn s.cpr.volts 2 held
    else if s.cpr.saveDone then fullReset 8 held
    else if s.flash.lostDisarmed then fullReset 3 held else s)

/-- INPUT_OVERVOLTAGE: above 60.0 V the input switch opens, which is an input below 40.0 V (R512). -/
def execInputOvervoltage (s : State) : Host.Outcome State Fault Refusal :=
  .next (if s.cpr.powered then saveStart 0 { s with cpr.switchOpen := true, cpr.inputBack := false } else { s with cpr.switchOpen := true })

/-- OVERTEMPERATURE_TRIP: at 115 C the input switch opens and the module stays unpowered until input is removed and applied again
(R523). -/
def execOvertemperatureTrip (s : State) : Host.Outcome State Fault Refusal :=
  .next (if s.cpr.powered then saveStart 0 { s with cpr.switchOpen := true, cpr.overtemp := true, cpr.inputBack := false } else s)

/-! ### Resets -/

/-- FATAL_FAULT_RESET: firmware resets the module with cause 6 within 100 ms of a fatal fault; a running save is finished first
(R480, R481). -/
def execFatalFaultReset (s : State) : Host.Outcome State Fault Refusal := .next (if s.cpx.fatal then fatalReset s else s)

/-- SYS_RESET_REQ_WRITE: 0x0000_B007 resets with cause 7; any other value is ignored (R437, R495). -/
def execSysResetReqWrite (value : Word) (s : State) : Host.Outcome State Fault Refusal :=
  .next (if value = 0xB007 then fullReset 7 s else s)

end Sys2Proof.Machine
end

