-- ==== Sys2Proof/Machine/Compose.lean ====
section
/-!
DEFINITION. Ashlar: canvases, layers, image slots, flip groups, latching, composition and hints (08 R205-R231).
-/

namespace Sys2Proof.Machine

/-- A canvas. -/
def modCanvas (k : Nat) (f : Canvas → Canvas) (s : State) : State := { s with lco.canvases := tmod s.lco.canvases k f }

/-- The layers of a canvas whose consumer of a decoder context counts: contexts that its settings name. -/
def layerCtxs (l : Layer) : List Nat :=
  ((layerSets l).filterMap fun ws => if setKind ws = 0 ∧ !setLost ws then some (setSrc ws) else none).eraseDups

/-- Replaces, adds or removes a layer, keeping the counts of consumers taken (R170, R210). -/
def putLayer (k i : Nat) (new : Option Layer) (s : State) : State :=
  let old := (tget s.lco.canvases k).bind fun c => tget c.layers i
  let was := (old.map layerCtxs).getD []
  let now := (new.map layerCtxs).getD []
  let s := (was.filter fun x => !now.contains x).foldl (fun s x => modDec x (fun d => { d with taken := d.taken - 1 }) s) s
  let s := (now.filter fun x => !was.contains x).foldl (fun s x => modDec x (fun d => { d with taken := d.taken + 1 }) s) s
  modCanvas k (fun c => { c with layers := match new with
    | some l => tset c.layers i l
    | none => terase c.layers i }) s

/-! ### Frame times (R206) -/

/-- Frame time of index j in a TSU second, in ns. -/
def frameTime (c : Canvas) (sec j : Nat) : Nat := sec * 1000000000 + c.phaseUs * 1000 + j * 1000000000 / max c.rate 1

/-- The first frame, as second and index, whose deadline (2 ms before it) falls after an instant in ns. -/
def nextFrame (c : Canvas) (ns : Nat) : Nat × Nat :=
  let t := ns + 2000000
  let p := c.phaseUs * 1000
  if t < p then (0, 0)
  else
    let j := (((t - p) % 1000000000 + 1) * c.rate + 999999999) / 1000000000
    let sec := (t - p) / 1000000000
    if c.rate ≤ j then (sec + 1, 0) else (sec, j)

/-- The flip deadline of the canvas's next frame, in ns. -/
def nextDeadline (c : Canvas) : Nat := frameTime c c.sec c.k - 2000000

/-- Moves to the following frame. -/
def stepFrame (c : Canvas) : Canvas := if c.rate ≤ c.k + 1 then { c with sec := c.sec + 1, k := 0 } else { c with k := c.k + 1 }

/-- The deadline at which a change accepted now applies (R222). -/
def applyDeadline (s : State) (c : Canvas) : Nat :=
  let (sec, j) := nextFrame c (nowNs s)
  frameTime c sec j - 2000000

/-! ### Charges and memory (R207, R208) -/

/-- Largest destination area among a layer's settings. -/
def layerArea (l : Layer) : Nat := ((layerSets l).map fun ws => (setDest ws).2.2.1 * (setDest ws).2.2.2).foldl max 0

/-- Charge of a canvas in layer-pixels per second with the size and rate it has: its background and every layer at the largest of the
settings it holds (R207). -/
def chargeNow (c : Canvas) : Nat := (c.w * c.h + (c.layers.map fun l => layerArea l.2).sum) * c.rate

/-- Charge of a canvas: the larger of that in force and that which an accepted CANVAS_SET brings at the next deadline (R207, R222). -/
def canvasCharge (c : Canvas) : Nat := max (chargeNow c) (chargeNow (canvasNext c))

/-- Committed charge of a die. -/
def dieCharge (s : State) (die : Nat) : Nat :=
  ((s.lco.canvases.filter fun c => c.2.die = die).map fun c => canvasCharge c.2).sum

/-- Bytes of a frame's hints (R208, R226). -/
def hintBytes (w h : Nat) : Nat := ((w + 15) / 16) * ((h + 15) / 16) * 8

/-- Working memory of a canvas's picture and hint buffers (R208). -/
def canvasBytes (w h : Nat) (ten hints : Bool) : Nat :=
  3 * pictureBytes w h ten + (if hints then hintBytes w h else 0)

/-! ### Scaling (R213-R215) -/

/-- Effective source width of a crop (R214). -/
def effWidth (cw : Nat) : Nat := if cw ≤ 2048 then cw else (cw + 1) / 2

/-- A destination size to an effective source size lies between 1/8 and 8 (R214). -/
def ratioOk (src dst : Nat) : Bool := decide (src ≤ dst * 8 ∧ dst ≤ src * 8)

/-- The crop in force for a picture of a size: 0 x 0 means the whole picture (R210). -/
def cropOf (ws : LayerSet) (w h : Nat) : Nat × Nat × Nat × Nat :=
  let c := setCrop ws
  if c.2.2.1 = 0 ∧ c.2.2.2 = 0 then (0, 0, w, h) else c

/-- A picture of a size fits a layer: crop inside, ratios in range (R215). -/
def pictureFits (ws : LayerSet) (w h : Nat) : Bool :=
  let c := cropOf ws w h
  let d := setDest ws
  decide (c.1 + c.2.2.1 ≤ w ∧ c.2.1 + c.2.2.2 ≤ h) && ratioOk (effWidth c.2.2.1) d.2.2.1 && ratioOk c.2.2.2 d.2.2.2

/-- Source position of destination index i in 1/64 pixel (R213). -/
def scalePos (src dst i : Nat) : Nat := if (2 * i + 1) * src ≤ dst then 0 else 64 * ((2 * i + 1) * src - dst) / (2 * dst)

/-- Bilinear scaling of a plane to destination position i, j (R213). -/
def bilinear (ws hs wd hd : Nat) (p : Nat → Nat → Nat) (i j : Nat) : Nat :=
  let u := scalePos ws wd i
  let v := scalePos hs hd j
  let x := u / 64
  let fx := u % 64
  let y := v / 64
  let fy := v % 64
  let x1 := min (x + 1) (ws - 1)
  let y1 := min (y + 1) (hs - 1)
  ((64 - fx) * (64 - fy) * p x y + fx * (64 - fy) * p x1 y + (64 - fx) * fy * p x y1 + fx * fy * p x1 y1) / 4096

/-- Horizontal 2:1 decimation of a plane of a width (R214). -/
def decimate (w : Nat) (p : Nat → Nat → Nat) (x y : Nat) : Nat := (p (2 * x) y + p (min (2 * x + 1) (w - 1)) y) / 2

/-- A plane of a crop, scaled to a destination size (R213, R214). -/
def scaled (crop : Nat × Nat × Nat × Nat) (wd hd : Nat) (chroma : Bool) (p : Nat → Nat → Nat) (i j : Nat) : Nat :=
  let q := if chroma then 2 else 1
  let w := crop.2.2.1 / q
  let h := crop.2.2.2 / q
  let src := fun x y => p (crop.1 / q + x) (crop.2.1 / q + y)
  if crop.2.2.1 ≤ 2048 then bilinear w h (wd / q) (hd / q) src i j
  else bilinear ((w + 1) / 2) h (wd / q) (hd / q) (decimate w src) i j

/-! ### Image slots (R212, R230) -/

/-- ARGB to BT.709 limited range (R212). -/
def argbY (r g b : Int) : Nat := ((47 * r + 157 * g + 16 * b) / 256 + 16).toNat

/-- Cb (R212). -/
def argbCb (r g b : Int) : Nat := ((-26 * r - 86 * g + 112 * b) / 256 + 128).toNat

/-- Cr (R212). -/
def argbCr (r g b : Int) : Nat := ((112 * r - 102 * g - 10 * b) / 256 + 128).toNat

/-- A component of a pixel word as a number. -/
def comp (w : Word) (lo : Nat) : Int := (field w lo 8 : Nat)

/-- The floor mean of each 2 x 2 group of a full-size plane (R212). -/
def halve (w h : Nat) (p : List Nat) : List Nat :=
  (List.range (h / 2)).flatMap fun y => (List.range (w / 2)).map fun x =>
    let at_ := fun a b => p.getD (b * w + a) 0
    (at_ (2 * x) (2 * y) + at_ (2 * x + 1) (2 * y) + at_ (2 * x) (2 * y + 1) + at_ (2 * x + 1) (2 * y + 1)) / 4

/-- Converts an image's pixels (R212). -/
def convertImage (m : Image) : Image :=
  let conv := fun (f : Int → Int → Int → Nat) => m.pix.map fun w => f (comp w 16) (comp w 8) (comp w 0)
  let a := m.pix.map fun w => field w 24 8
  { m with
    y := conv argbY, cb := halve m.w m.h (conv argbCb), cr := halve m.w m.h (conv argbCr), alpha := a
    solid := a.all (· = 255), loaded := true, converting := false, pix := [] }

/-- An image slot is shown or named by a layer, as source or placeholder (R230). -/
def imageUsed (s : State) (i : Nat) : Bool :=
  s.lco.canvases.any fun (c : Nat × Canvas) => c.2.layers.any fun (l : Nat × Layer) =>
    ((layerSets l.2).any fun ws => (setKind ws = 1 ∧ setSrc ws = i) ∨ setHolder ws = some i) ||
      decide ((l.2.shown.pic.map fun p => (p.kind, p.src)) = some (1, i))

/-! ### Composition (R211, R216) -/

/-- A layer as it is drawn: rectangle, alphas, its samples by plane (0 Y, 1 Cb, 2 Cr, 3 alpha) at destination positions, and its fill
colour; solid: it shows the fill colour. -/
structure Draw where
  layer : Nat
  x : Nat
  y : Nat
  w : Nat
  h : Nat
  ac : Nat
  perPixel : Bool
  solid : Bool
  sample : Nat → Nat → Nat → Nat
  fill : Nat × Nat × Nat

/-- A sample of one depth in a canvas of another (R212). -/
def depth (canvas10 pic10 : Bool) (v : Nat) : Nat := if canvas10 ∧ !pic10 then v * 4 else if !canvas10 ∧ pic10 then v / 4 else v

/-- A sample of a picture's plane: a decoder's with its concealment and cropping, an image's or a canvas's as held (R149, R161, R209,
R225). -/
def picSample (s : State) (p : LayerPic) (plane x y : Nat) : Nat :=
  let q := if plane = 1 ∨ plane = 2 then p.w / 2 else p.w
  match p.kind with
  | 0 => outSample p.img plane x y
  | 1 =>
    let m := (tget s.lco.images p.src).getD Image.reset
    ([m.y, m.cb, m.cr, m.alpha].getD plane []).getD (y * q + x) 0
  | _ => ([p.planes.1, p.planes.2.1, p.planes.2.2].getD plane []).getD (y * q + x) 0

/-- Whether a layer's alpha varies: per-pixel alpha is enabled and its picture is an image (R209, R211). -/
def usesAlpha (ws : LayerSet) (p : LayerPic) : Bool := bit (setW ws 1) 16 && decide (p.kind = 1)

/-- The picture of a loaded image slot. -/
def imagePic (s : State) (i : Nat) : Option LayerPic :=
  match tget s.lco.images i with
  | some m => if m.loaded then some { LayerPic.reset with kind := 1, src := i, w := m.w, h := m.h } else none
  | none => none

/-- A layer as drawn with a picture or with its fill colour; holder: the picture is its placeholder, which is shown whole and with its
own alpha (R209, log 85). -/
def drawOf (s : State) (c : Canvas) (i : Nat) (ws : LayerSet) (p : Option LayerPic) (holder : Bool) : Draw :=
  let d := setDest ws
  let f := setW ws 7
  let fill := (depth c.ten false (field f 0 8), depth c.ten false (field f 8 8), depth c.ten false (field f 16 8))
  let base : Draw :=
    { layer := i, x := d.1, y := d.2.1, w := d.2.2.1, h := d.2.2.2, ac := field (setW ws 1) 8 8, perPixel := false, solid := true
      sample := fun _ _ _ => 0, fill := fill }
  match p with
  | none => base
  | some p =>
    let crop := if holder then (0, 0, p.w, p.h) else cropOf ws p.w p.h
    { base with
      perPixel := holder || usesAlpha ws p, solid := false
      sample := fun plane x y =>
        let v := scaled crop d.2.2.1 d.2.2.2 (decide (plane = 1 ∨ plane = 2)) (picSample s p plane) x y
        if plane = 3 then v else depth c.ten p.ten v }

/-- A canvas position lies in a drawn layer. -/
def Draw.covers (d : Draw) (x y : Nat) : Bool := decide (d.x ≤ x ∧ x < d.x + d.w ∧ d.y ≤ y ∧ y < d.y + d.h)

/-- A poisoned tile of a layer shows its fill colour (R21). -/
def Draw.filled (d : Draw) (poison : List (Nat × Nat × Nat)) (x y : Nat) : Bool :=
  d.solid || poison.contains (d.layer, x / 16, y / 16)

/-- a of R211 at a luma position. -/
def Draw.alpha (d : Draw) (poison : List (Nat × Nat × Nat)) (x y : Nat) : Nat :=
  let ap := if d.perPixel ∧ !d.filled poison x y then d.sample 3 (x - d.x) (y - d.y) else 255
  ap * (d.ac + d.ac / 128) / 256

/-- Blends a sample (R211). -/
def blend (d s a : Nat) : Nat := ((d : Int) + ((a + a / 128 : Nat) : Int) * ((s : Int) - d) / 256).toNat

/-- A luma sample of a canvas: background, then every layer in rising z (R211). -/
def lumaAt (bg : Nat) (ds : List Draw) (poison : List (Nat × Nat × Nat)) (x y : Nat) : Nat :=
  ds.foldl (fun v d =>
    if d.covers x y then
      blend v (if d.filled poison x y then d.fill.1 else d.sample 0 (x - d.x) (y - d.y)) (d.alpha poison x y)
    else v) bg

/-- A chroma sample of a canvas: the floor mean of the four positions' alphas (R211). -/
def chromaAt (plane bg : Nat) (ds : List Draw) (poison : List (Nat × Nat × Nat)) (i j : Nat) : Nat :=
  let x := 2 * i
  let y := 2 * j
  ds.foldl (fun v d =>
    if d.covers x y then
      let a := (d.alpha poison x y + d.alpha poison (x + 1) y + d.alpha poison x (y + 1) + d.alpha poison (x + 1) (y + 1)) / 4
      let f := if plane = 1 then d.fill.2.1 else d.fill.2.2
      blend v (if d.filled poison x y then f else d.sample plane (i - d.x / 2) (j - d.y / 2)) a
    else v) bg

/-- The planes of a frame. -/
def composePlanes (c : Canvas) (ds : List Draw) (poison : List (Nat × Nat × Nat)) : List Nat × List Nat × List Nat :=
  let plane := fun (w h : Nat) (f : Nat → Nat → Nat) => (List.range h).flatMap fun y => (List.range w).map fun x => f x y
  let bg := fun v => depth c.ten false v
  (plane c.w c.h (lumaAt (bg c.bg.1) ds poison), plane (c.w / 2) (c.h / 2) (chromaAt 1 (bg c.bg.2.1) ds poison),
    plane (c.w / 2) (c.h / 2) (chromaAt 2 (bg c.bg.2.2) ds poison))

/-! ### Hints (R226) -/

/-- Tile tx, ty of a canvas, its part inside: x, y, width, height. -/
def tileRect (c : Canvas) (tx ty : Nat) : Nat × Nat × Nat × Nat := (tx * 16, ty * 16, min 16 (c.w - tx * 16), min 16 (c.h - ty * 16))

/-- A drawn layer covers a rectangle wholly. -/
def Drawn.holds (d : Drawn) (r : Nat × Nat × Nat × Nat) : Bool :=
  decide (d.x ≤ r.1 ∧ r.1 + r.2.2.1 ≤ d.x + d.w ∧ d.y ≤ r.2.1 ∧ r.2.1 + r.2.2.2 ≤ d.y + d.h)

/-- A pixel of a layer in a rectangle is not covered by the occluders above it. -/
def pixelShows (d : Drawn) (above : List Drawn) (r : Nat × Nat × Nat × Nat) : Bool :=
  (List.range r.2.2.2).any fun j => (List.range r.2.2.1).any fun i =>
    let p := (r.1 + i, r.2.1 + j, 1, 1)
    d.holds p && !(above.any fun o => o.occl && o.holds p)

/-- The layers with a visible pixel in a rectangle, topmost first; ds is bottom first. -/
def visibleIn (r : Nat × Nat × Nat × Nat) : List Drawn → List Drawn
  | [] => []
  | d :: above => visibleIn r above ++ (if pixelShows d above r then [d] else [])

/-- The motion of a layer since the previous frame, its size unchanged. -/
def motionOf (prev : List Drawn) (d : Drawn) : Option (Int × Int) :=
  (prev.find? fun o => o.layer = d.layer ∧ o.w = d.w ∧ o.h = d.h).map fun o => ((d.x : Int) - o.x, (d.y : Int) - o.y)

/-- The occluder that alone touches a tile: the topmost visible layer, covering it wholly with nothing else visible. -/
def soleOccluder (ds : List Drawn) (r : Nat × Nat × Nat × Nat) : Option Drawn :=
  match visibleIn r ds with
  | [d] => if d.occl ∧ d.holds r then some d else none
  | _ => none

/-- A hint is exact (R226). -/
def hintExact (prev cur : List Drawn) (r : Nat × Nat × Nat × Nat) (d : Drawn) (m : Int × Int) : Bool :=
  match soleOccluder cur r, soleOccluder prev r with
  | some a, some b =>
    decide (a.layer = d.layer ∧ b.layer = d.layer ∧ a.pic = b.pic ∧ a.crop = b.crop) &&
      !a.bad.contains (r.1 / 16, r.2.1 / 16) && !b.bad.contains (r.1 / 16, r.2.1 / 16) &&
      decide ((b.x : Int) ≤ r.1 - m.1 ∧ (r.1 : Int) + r.2.2.1 - m.1 ≤ b.x + b.w ∧
        (b.y : Int) ≤ r.2.1 - m.2 ∧ (r.2.1 : Int) + r.2.2.2 - m.2 ≤ b.y + b.h)
  | _, _ => false

/-- One hint word (R226); a vector out of range is not written. -/
def hintWord (prev cur : List Drawn) (r : Nat × Nat × Nat × Nat) (x : Drawn × Int × Int) : Word :=
  if 512 < x.2.1.natAbs ∨ 256 < x.2.2.natAbs then 0
  else
    let dx := (-x.2.1) % 2048
    let dy := (-x.2.2) % 1024
    w32 (dx.toNat + dy.toNat * 2048 + b1 (hintExact prev cur r x.1 x.2) * 2 ^ 21 + 2 ^ 22)

/-- The hints of a frame, tile by tile in raster order. -/
def frameHints (c : Canvas) (prev cur : List Drawn) : List Word :=
  (List.range ((c.h + 15) / 16)).flatMap fun ty => (List.range ((c.w + 15) / 16)).flatMap fun tx =>
    let r := tileRect c tx ty
    let ms := ((visibleIn r cur).filterMap fun d => (motionOf prev d).map fun m => (d, m.1, m.2)).take 2
    ((ms.map (hintWord prev cur r)) ++ [0, 0]).take 2

/-! ### Flip deadlines (R218-R223) -/

/-- Number a is newer than b. -/
def newerPic (a : Nat) (b : Option Nat) : Bool :=
  match b with
  | none => true
  | some b => decide (0 < (w32 a - w32 b).toInt)

/-- The newest finished frame of a canvas, as the picture that it offers to layers (R218, R225). -/
def canvasPic (i : Nat) (x : Canvas) : LayerPic :=
  { LayerPic.reset with
    kind := 2, src := i, number := x.frames, w := x.w, h := x.h, ten := x.ten, fenceNs := x.frameNs, planes := x.frame }

/-- The pictures that a layer's source holds before a deadline in full TSU units, oldest first, with their concealed fractions. -/
def sourcePics (s : State) (ws : LayerSet) (d : Nat) : List (LayerPic × Nat) :=
  let i := setSrc ws
  if setLost ws then []
  else match setKind ws with
  | 0 =>
    match tget s.vca.decs i with
    | some x =>
      (x.outs.filter fun o => o.fenceNs < d).map fun o => (outPic i o, o.frac)
    | none => []
  | 1 => (imagePic s i).toList.map fun p => (p, 0)
  | 2 =>
    match tget s.lco.canvases i with
    | some x =>
      if x.frames ≠ 0 ∧ x.frameNs < d then [(canvasPic i x, 0)]
      else []
    | none => []
  | _ => []

/-- New settings apply at a deadline (R222). A new source starts its own judgement of pictures, and the picture shown until its first one
keeps the crop of its own. -/
def applyNext (l : Layer) : Layer :=
  match l.next with
  | none => l
  | some ws =>
    let same := decide (setKind ws = setKind l.set ∧ setSrc ws = setSrc l.set) && decide (l.set ≠ []) && !setLost l.set
    if same then { l with set := ws, next := none, cropSet := if l.cropSet = l.set then ws else l.cropSet }
    else { l with set := ws, next := none, wait := none, seen := none }

/-- The settings of a layer at a deadline: what was accepted before it applies (R222). -/
def applyLayer (l : Layer) : Layer := if l.skip then { l with skip := false } else applyNext l

/-- A layer as a command at an instant finds it: settings whose deadline has come and whose flip has not run yet have applied (R222). -/
def dueLayer (flipDue : Bool) (l : Layer) : Layer :=
  if !flipDue || l.skip then l else if l.gone then { Layer.reset with staged := l.staged } else applyNext l

/-- The flip of a canvas's deadline is due and has not run: what is accepted now waits for the deadline after it (R222). -/
def flipDue (s : State) (c : Canvas) : Bool := decide (nextDeadline c ≤ nowNs s)

/-- The source is not there any more, or refuses its stream (R209). -/
def sourceEnded (s : State) (ws : LayerSet) : Bool :=
  setLost ws || (decide (setKind ws = 0) && decide (((tget s.vca.decs (setSrc ws)).map (·.state)) = some .refused)) ||
    decide (setKind ws = 3)

/-- The pictures fenced before a deadline and not judged yet: of those that the source offered, the ones above the limit are skipped, and those
that a newer one replaces before it is latched are superseded; a layer that has judged none of this source yet may also latch the newest one
that the source held before (R218). A source that has ended offers nothing (R209, R223). -/
def judgePics (s : State) (d : Nat) (l : Layer) : Layer :=
  if sourceEnded s l.set then { l with wait := none, offers := [] }
  else
    let here := l.offers.filter fun p => fromSource p.1 l.set
    let due := here.filter fun p => decide (p.1.fenceNs < d) && newerPic p.1.number l.seen
    let held := if l.seen.isSome then [] else (sourcePics s l.set d).filter fun p => !(due.any fun q => q.1.number = p.1.number)
    let good := fun (ps : List (LayerPic × Nat)) => (ps.filter fun p => p.2 ≤ setLimit l.set).map (·.1)
    let waiting := l.wait.toList ++ good due
    { l with
      offers := here.filter fun p => d ≤ p.1.fenceNs, wait := (waiting.getLast?).or (good held).getLast?
      seen := (((held ++ due).getLast?).map (·.1.number)).or l.seen
      super := inc32 l.super (waiting.length - 1), skipped := inc32 l.skipped (due.filter fun p => setLimit l.set < p.2).length }

/-- Three halves of a source's frame interval have passed since the shown picture's fence, times in full TSU units (R220). -/
def overdue (s : State) (l : Layer) (d : Nat) : Bool :=
  let rate := sourceRate s (decide (setKind l.set = 0)) (setSrc l.set)
  match l.shown.pic with
  | some p => decide (setKind l.set = 0 ∨ setKind l.set = 2) && decide (3 * 65536 * 1000000000 < (d - p.fenceNs) * 2 * rate)
  | none => false

/-- What a layer shows in place of a picture of its source: the placeholder image, or the fill colour where none is loaded (R209). -/
def fallback (s : State) (ws : LayerSet) : Nat := if ((setHolder ws).bind (imagePic s)).isSome then 3 else 4

/-- Latches the waiting picture. -/
def latchPic (l : Layer) : Layer :=
  match l.wait with
  | some p =>
    { l with wait := none, latched := inc32 l.latched, cropSet := l.set, shown := { l.shown with pic := some p, misses := 0, what := 1 } }
  | none => l

/-- A layer at a deadline after the group decisions: latched or not, late or not, and what it shows (R209, R220). -/
def settleLayer (s : State) (d : Nat) (held : Bool) (l0 : Layer) : Layer :=
  if sourceEnded s l0.set then
    { l0 with wait := none, shown := { l0.shown with pic := none, misses := 0, what := if setKind l0.set = 3 then 4 else fallback s l0.set } }
  else
    let latched := !held && l0.wait.isSome
    let l := if latched then latchPic l0 else l0
    let late := !latched && !held && overdue s l d
    let l := if late then
        { l with late := inc32 l.late, shown := { l.shown with misses := min 255 (l.shown.misses + 1) } }
      else l
    let out := l.shown.pic.isNone || (decide (setMisses l.set ≠ 0) && decide (setMisses l.set ≤ l.shown.misses))
    { l with shown := { l.shown with
        what := if out then fallback s l.set else if latched then 1 else 2 } }

/-- The settings that the shown picture is drawn by: those in force, with the crop of its own source (R222). -/
def shownSet (l : Layer) : LayerSet := (l.set.set 2 (setW l.cropSet 3)).set 3 (setW l.cropSet 4)

/-- Judges the fit of the shown picture (R215): whether the layer has just become unfit, and the layer. -/
def fitLayer (l : Layer) : Bool × Layer :=
  match l.shown.pic with
  | some p =>
    let bad := !pictureFits (shownSet l) p.w p.h
    (bad && !l.shown.unfit, { l with shown := { l.shown with unfit := bad, what := if bad ∧ l.shown.what < 3 then 4 else l.shown.what } })
  | none => (false, { l with shown := { l.shown with unfit := false } })

/-- Decides a flip group at a deadline (R221): the group, and whether its members are held. -/
def decideGroup (ls : Tbl Layer) (d g : Nat) (x : FlipGroup) : FlipGroup × Bool :=
  let members := ls.filter fun l => setGroup l.2.set = g
  let ready := members.filter fun l => l.2.wait.isSome
  if ready.isEmpty then (x, false)
  else
    let earliest := (ready.filterMap fun l => l.2.wait.map (·.fenceNs)).foldl min d
    let first := if x.pending then x.first else earliest
    if ready.length = members.length ∨ x.holdMs * 1000000 * 65536 ≤ d - first then ({ x with pending := false, first := first }, false)
    else ({ x with pending := true, first := first, held := inc32 x.held }, true)

/-- A layer is drawn: its picture, placeholder or fill colour (R209, R216). -/
def drawLayer (s : State) (c : Canvas) (poisoned : List (Nat × Nat × Nat)) (i : Nat) (l : Layer) : Draw × Drawn :=
  let ws := shownSet l
  let holder := if l.shown.what = 3 then (setHolder ws).bind (imagePic s) else none
  let p := if l.shown.what = 1 ∨ l.shown.what = 2 then l.shown.pic else holder
  let d := drawOf s c i ws p holder.isSome
  let solidImage := match p with
    | some q => !d.perPixel || ((tget s.lco.images q.src).map (·.solid)).getD false
    | none => true
  (d,
    { layer := i, x := d.x, y := d.y, w := d.w, h := d.h, occl := decide (d.ac = 255) && solidImage
      pic := p.map fun q => [q.kind, q.src, q.number, q.serial, q.fenceNs]
      crop := match p with
        | some q => let c := cropOf ws q.w q.h; [c.1, c.2.1, c.2.2.1, c.2.2.2]
        | none => [d.fill.1, d.fill.2.1, d.fill.2.2]
      bad := (poisoned.filter fun t => t.1 = i).map (·.2) })

/-- The visible layers in rising z. -/
def drawOrder (ls : Tbl Layer) : Tbl Layer :=
  (List.range 64).filterMap fun z => ls.find? fun l => bit (setW l.2.set 1) 17 ∧ setZ l.2.set = z

/-- Settings of CANVAS_SET that were accepted apply (R222). -/
def applyCanvas (now : Nat) (c : Canvas) : Canvas :=
  if c.skip then { c with skip := false }
  else
    let c' := canvasNext c
    if c'.rate = c.rate ∧ c'.phaseUs = c.phaseUs then c'
    else
      let (sec, j) := nextFrame c' now
      { c' with sec := sec, k := j }

/-- The working memory of a canvas is that of its settings in force and of those that wait (R208). -/
def canvasNeeds (c : Canvas) : Nat :=
  max (canvasBytes c.w c.h c.ten c.hints) (canvasBytes (canvasNext c).w (canvasNext c).h (canvasNext c).ten (canvasNext c).hints)

/-- Working memory that a canvas's settings no longer need returns (R208, R222). -/
def settleMemory (k : Nat) (s : State) : State :=
  match tget s.lco.canvases k with
  | none => s
  | some c =>
    modCanvas k (fun c => { c with workBytes := canvasNeeds c })
      { s with mss.workFree := s.mss.workFree + c.workBytes - canvasNeeds c }

/-- Bytes of a raw picture (R270). -/
def rawBytes (c : Canvas) : Nat := 8 + pictureBytes c.w c.h c.ten

/-- The bytes of a raw picture: its size, then Y, Cb and Cr row by row, 8-bit samples or 16-bit ones (R270). -/
def rawString (c : Canvas) (planes : List Nat × List Nat × List Nat) : List Nat :=
  let n := if c.ten then 2 else 1
  leBytes 2 c.w ++ leBytes 2 c.h ++ [0, 0, 0, 0] ++ (planes.1 ++ planes.2.1 ++ planes.2.2).flatMap (leBytes n)

/-- The second destination of a frame at its flip: a picture for the host that a retrain still holds is abandoned and counted, and the new
one needs the credits of the whole frame (R224, R319, R322). -/
def secondDest (k : Nat) (c : Canvas) (planes : List Nat × List Nat × List Nat) (s : State) : State :=
  let drop := modCanvas k (fun c => { c with drops := inc32 c.drops })
  match c.dest with
  | 1 =>
    let conf := field c.param 0 13
    let n := c.nth + 1
    if n < field c.param 16 4 then modCanvas k (fun c => { c with nth := n }) s
    else
      let s := modCanvas k (fun c => { c with nth := 0 }) s
      match tget s.mss.rings conf with
      | some r => if r.closing then drop s else
            let (now, s) := stamp s
            appendRaw conf k (if c.ten then 32 else 0) (rawBytes c) now (rawBytes c / 1000000 + 2) 0 (rawString c planes) s
      | none => drop s
  | 2 =>
    let d : DataFrame :=
      { kind := 2, flags := b1 c.ten, tag := field c.param 0 16, timeNs := nowNs s, len := rawBytes c
        data := rawString c planes }
    let stuck := fun (f : DataFrame) => decide (f.kind = 2 ∧ f.tag = d.tag)
    let s := (s.hlp.frameQueue.filter stuck).foldl (fun s _ => drop s)
      { s with hlp.frameQueue := s.hlp.frameQueue.filter fun f => !stuck f }
    if (s.hlp.link = .active ∨ s.hlp.retraining) ∧ flitsOf (dataFrameBytes d.len) ≤ chanCredit s 5 ∧
        (s.hlp.frameQueue.all fun f => dataChannel f.kind ≠ 5)
    then sendData d s else drop s
  | _ => s

/-- Keeps a layer's new state, with the fault of an entry into the unfit condition (R215). -/
def keepLayer (k i : Nat) (l : Layer) (s : State) : State :=
  let (entered, l) := fitLayer l
  let s := putLayer k i (some l) s
  if entered then fault 0xE101 [w32 k, w32 i] s else s

/-- The layers of a canvas at a deadline: changes apply, pictures are judged, groups decide, layers latch (R218-R223). -/
def flipLayers (k d : Nat) (s : State) : State :=
  match tget s.lco.canvases k with
  | none => s
  | some c =>
    let ends := fun (l : Layer) => l.gone && !l.skip
    let s := (c.layers.filter fun l => ends l.2).foldl (fun s l =>
      putLayer k l.1 (if l.2.staged.isNone then none else some { Layer.reset with staged := l.2.staged }) s) s
    let ls : Tbl Layer := (c.layers.filter fun l => !ends l.2).map fun l => (l.1, applyLayer l.2)
    let s := ls.foldl (fun s l => putLayer k l.1 (some l.2) s) s
    let ls := (ls.filter fun l => l.2.set ≠ []).map fun l => (l.1, judgePics s d l.2)
    let gs := (List.range 17).filterMap fun g =>
      if g = 0 ∨ !(ls.any fun l => setGroup l.2.set = g) then none
      else some (g, decideGroup ls d g ((tget c.groups g).getD FlipGroup.reset))
    let s := modCanvas k (fun c => { c with groups := gs.foldl (fun t g => tset t g.1 g.2.1) c.groups }) s
    let heldG := fun g => gs.any fun x => x.1 = g ∧ x.2.2
    ls.foldl (fun s l => keepLayer k l.1 (settleLayer s d (heldG (setGroup l.2.set)) l.2) s) s

/-- The tiles of a canvas that a drawn layer touches: all, and those that an occluder above it hides (R216). -/
def layerTiles (c : Canvas) (d : Drawn) (above : List Drawn) : Nat × Nat :=
  let ts := ((List.range ((c.h + 15) / 16)).flatMap fun ty => (List.range ((c.w + 15) / 16)).map fun tx => tileRect c tx ty).filter fun r =>
    decide (d.x < r.1 + r.2.2.1 ∧ r.1 < d.x + d.w ∧ d.y < r.2.1 + r.2.2.2 ∧ r.2.1 < d.y + d.h)
  (ts.length, (ts.filter fun r => above.any fun o => o.occl && o.holds r).length)

/-- Bytes of source that Ashlar fetches for a layer: those of its crop, in proportion to the tiles that are not hidden; none for a fill
colour (R212, R216). -/
def fetchBytes (c : Canvas) (l : Layer) (d : Drawn) (above : List Drawn) : Nat :=
  match d.pic, l.shown.pic with
  | some (kind :: _), some p =>
    let (all, hidden) := layerTiles c d above
    let n := pictureBytes (d.crop.getD 2 0) (d.crop.getD 3 0) p.ten + (if kind = 1 then d.crop.getD 2 0 * d.crop.getD 3 0 else 0)
    n * (all - hidden) / max all 1
  | _, _ => 0

/-- The fetches of the layers of a frame, bottom first (R208, R216). -/
def layerFetches (c : Canvas) : List Drawn → Nat
  | [] => 0
  | d :: above => fetchBytes c ((tget c.layers d.layer).getD Layer.reset) d above + layerFetches c above

/-- What the composition of a frame moves, all in class C2: source fetches, the canvas, its hints (R208, R256). -/
def frameTraffic (c : Canvas) (cur : List Drawn) (s : State) : State :=
  engineTraffic .hintBuffer (if c.hints then hintBytes c.w c.h else 0) <|
    engineTraffic .canvasWrite (pictureBytes c.w c.h c.ten) (engineTraffic .ashlarFetch (layerFetches c cur) s)

/-- A canvas's die runs: it is powered and its clock is not gated (R467, R470). -/
def dieOn (s : State) (c : Canvas) : Bool := !domainDown s (18 + c.die) && decide (s.cpr.sleep = 0)

/-- FLIP_DEADLINE: layers latch, composition of the frame starts, its second destination takes it, hints are written (R218-R226). The
poisoned tiles are those whose fetch met a poisoned word (R21). -/
def flipDeadline (k : Nat) (poisoned : List (Nat × Nat × Nat)) (s : State) : State :=
  match tget s.lco.canvases k with
  | none => s
  | some c0 =>
    let d := nextDeadline c0
    let s := settleMemory k (modCanvas k (fun c => applyCanvas d (stepFrame c)) (advanceTo (d * 65536) s))
    if !dieOn s c0 then s
    else
      let s := flipLayers k (d * 65536) s
      match tget s.lco.canvases k with
      | none => s
      | some c =>
        let ds := (drawOrder c.layers).map fun l => drawLayer s c poisoned l.1 l.2
        let planes := composePlanes c (ds.map (·.1)) poisoned
        let cur := ds.map (·.2)
        let s := modCanvas k (fun c => { c with
          composing := c.composing ++ [(nextDeadline c * 65536, d + 2000000, planes)], drawn := cur
          hintsOut := if c.hints then frameHints c c0.drawn cur else [] }) s
        secondDest k c planes (sweepOrphans (frameTraffic c cur s))

/-- FLIP_DEADLINE (R218). -/
def execFlipDeadline (canvas : Nat) (poisoned : List (Nat × Nat × Nat)) (s : State) : Host.Outcome State Fault Refusal :=
  .next (flipDeadline canvas poisoned s)

/-- COMPOSITION_FINISHED: the oldest frame in composition ends; after the canvas's next deadline it is late and counted, and ten late in a
row raise LCO_COMPOSE_LATE (R219). -/
def compositionFinished (k : Nat) (s : State) : State :=
  match tget s.lco.canvases k with
  | none => s
  | some c =>
    match c.composing with
    | [] => s
    | f :: fs =>
      if s.cpr.sleep ≠ 0 then s else
      let late := decide (f.1 ≤ s.tsu.now)
      let row := if late then c.lateRow + 1 else 0
      let s := modCanvas k (fun c => { c with
        composing := fs, frame := f.2.2, frameAt := f.2.1, frameNs := s.tsu.now, frames := c.frames + 1
        late := if late then inc32 c.late else c.late, lateRow := if 10 ≤ row then 0 else row }) s
      let s := offerPic (canvasPic k ((tget s.lco.canvases k).getD c)) 0 s
      if 10 ≤ row then fault 0xE102 [w32 k] s else s

/-- COMPOSITION_FINISHED (R219). -/
def execCompositionFinished (canvas : Nat) (s : State) : Host.Outcome State Fault Refusal := .next (compositionFinished canvas s)

/-! ### CANVAS_SET (R228) -/

/-- Ranges of CANVAS_SET (R205, R228). -/
def canvasBad (c : Cmd) : Bool :=
  let w := field (word c 1) 0 16
  let h := field (word c 1) 16 16
  let r := field (word c 2) 0 6
  decide (w < 16 ∨ 3840 < w ∨ w % 2 ≠ 0 ∨ h < 16 ∨ 2160 < h ∨ h % 2 ≠ 0 ∨ r < 1 ∨ 60 < r) ||
    (decide (field (word c 2) 7 2 = 1) && decide (field (word c 4) 16 4 = 0)) ||
    (!bit (word c 5) 31 && decide (1000000000 / max r 1 < field (word c 5) 0 20 * 1000 + 1000))

/-- An encoder or another canvas's layer uses a canvas (R228). -/
def canvasUsed (s : State) (k : Nat) : Bool :=
  (s.vca.encs.any fun (e : Nat × Enc) => !e.2.fromDec ∧ e.2.src = k) ||
    s.lco.canvases.any fun (c : Nat × Canvas) => c.1 ≠ k && c.2.layers.any fun (l : Nat × Layer) =>
      (layerSets l.2).any fun ws => setKind ws = 2 ∧ setSrc ws = k ∧ !setLost ws

/-- One raw picture in whole segments exceeds half of a conference's ring (R224). -/
def rawTooBig (s : State) (conf bytes : Nat) : Bool :=
  match tget s.mss.rings conf with
  | some r => decide (r.sizeMiB < 2 * ((bytes + segBytes - 1) / segBytes))
  | none => true

/-- The phase of a canvas in us: the one given, or one that the module picks, which is a free value (R228). -/
def canvasPhase (c : Cmd) (s : State) : Nat × State :=
  if bit (word c 5) 31 then drawBelow (1000000000 / max (field (word c 2) 0 6) 1 / 1000) s else (field (word c 5) 0 20, s)

/-- The settings words of a canvas (R228). -/
def canvasWords (c : Cmd) (s : State) : List Word := [word c 1, word c 2, word c 3, word c 4, w32 (canvasPhase c s).1]

/-- The canvas that a set describes. -/
def newCanvas (c : Cmd) (s : State) : Canvas :=
  canvasWith ((tget s.lco.canvases (ctxIndex s.lco.canvases c)).getD Canvas.reset) (canvasWords c s)

/-- A canvas that takes the settings of a set at its next deadline; settings whose deadline has come have applied (R222). -/
def pendCanvas (c : Cmd) (s : State) (x : Canvas) : Canvas :=
  let x := if flipDue s x && !x.skip then { canvasNext x with sec := x.sec, k := x.k } else x
  { x with changes := some (canvasWords c s), skip := flipDue s x }

/-- The die of a canvas: its own, or for a new one that with the lower charge, die 0 where they are equal (R205, log 123). -/
def canvasDie (k : Nat) (s : State) : Nat :=
  match tget s.lco.canvases k with
  | some o => o.die
  | none => if dieCharge s 1 < dieCharge s 0 then 1 else 0

/-- A layer's settings that a new size of its canvas is judged by: those after the next deadline, and those staged (R210, R222). -/
def comingSets (l : Layer) : List LayerSet :=
  (if l.gone then l.staged.toList else latestSet l :: l.staged.toList).filter fun ws => ws ≠ []

/-- A destination reaches beyond a size (R210). -/
def destOutside (w h : Nat) (ws : LayerSet) : Bool :=
  decide (w < (setDest ws).1 + (setDest ws).2.2.1 ∨ h < (setDest ws).2.1 + (setDest ws).2.2.2)

/-- The checks of a set; it is an admission request where it creates a canvas or raises its charge or memory (R49, R205-R208, R222,
R224, R228). -/
def canvasSetChecks (c : Cmd) (s : State) : List (Bool × Status) :=
  let idx := field (word c 0) 0 16
  let k := ctxIndex s.lco.canvases c
  let old := tget s.lco.canvases k
  let base := old.getD Canvas.reset
  let last := canvasNext base
  let new := newCanvas c s
  let pend := pendCanvas c s base
  let conf := field (word c 4) 0 13
  let resized := decide (last.w ≠ new.w ∨ last.h ≠ new.h ∨ last.rate ≠ new.rate ∨ last.ten ≠ new.ten)
  let others := dieCharge { s with lco.canvases := terase s.lco.canvases k } (canvasDie k s)
  let grows := old.isNone || decide (canvasCharge base < canvasCharge pend ∨ base.workBytes < canvasNeeds pend)
  let raw := decide (new.dest = 1) && rawTooBig s conf (rawBytes new)
  [(decide (idx ≠ 0xFFFF ∧ 1023 < idx) || canvasBad c, .badParam), (decide (new.dest = 1) && !confUsed s conf, .badTarget),
   (base.layers.any fun l => (comingSets l.2).any (destOutside new.w new.h), .badParam)] ++
     admitGrowth grows s (fun m => new.ten && decide (effMode s m ≠ .studio))
       (fun m => decide (1023 < k) || (old.isNone && decide (capEncs m < s.lco.canvases.length + 1)) ||
         decide (ashlarBudget (ceiling m) < others + canvasCharge pend) ||
         decide (s.mss.workFree + base.workBytes < canvasNeeds pend)) ++
     [(raw, .noCapacity), (old.isSome && resized && canvasUsed s k, .resourceBusy)]

/-- A canvas set: its working memory is taken; a new one starts at its next frame, another changes at its next deadline (R205, R206, R208,
R222). -/
def placeCanvas (c : Cmd) (s : State) : State :=
  let k := ctxIndex s.lco.canvases c
  let t := (canvasPhase c s).2
  settleMemory k <|
    match tget s.lco.canvases k with
    | some _ => modCanvas k (pendCanvas c s) t
    | none =>
      let new := newCanvas c s
      let (sec, j) := nextFrame new (nowNs t)
      { t with lco.canvases := tset t.lco.canvases k { new with die := canvasDie k s, sec := sec, k := j } }

/-- CANVAS_SET set (R205-R208, R222, R224, R228). -/
def canvasSet (c : Cmd) (s : State) : Res :=
  let k := ctxIndex s.lco.canvases c
  checks (canvasSetChecks c s) (.done [w32 k, w32 (canvasDie k s), w32 (canvasPhase c s).1] (placeCanvas c s))

/-- Deletes a canvas: its encoders enter READY, layers that show it take their placeholders, its consumers and memory return (R225,
R228). -/
def deleteCanvas (k : Nat) (s : State) : State :=
  match tget s.lco.canvases k with
  | none => s
  | some c =>
    let s := c.layers.foldl (fun s l => putLayer k l.1 none s) s
    sweepOrphans <| layersLose 2 k <| encSourceGone false k
      { s with lco.canvases := terase s.lco.canvases k, mss.workFree := s.mss.workFree + c.workBytes }

/-- CANVAS_SET's body (R228). -/
def canvasCmd (c : Cmd) (s : State) : Res :=
  let k := field (word c 0) 0 16
  let bad := (decide (1023 < k), Status.badParam)
  let absent := (!thas s.lco.canvases k, Status.badTarget)
  match field (word c 0) 16 4 with
  | 0 => canvasSet c s
  | 1 => checks [bad, absent] (.done [] (deleteCanvas k s))
  | 2 =>
    let x := (tget s.lco.canvases k).getD Canvas.reset
    checks [bad, absent] (.done [w32 (inc32 x.frames 0), w32 x.late, w32 x.drops, w32 (canvasCharge x / 1000000), w32 x.die] s)
  | _ => .refuse .badParam

/-- CANVAS_SET (R228). -/
def execCanvasSet (c : Cmd) (s : State) : Host.Outcome State Fault Refusal :=
  .next <| serve 0x0601 (fnLens [6, 1, 1] c) c s (canvasCmd c)

/-! ### LAYER_SET (R229) -/

/-- Canvases that a canvas's layers take as sources. -/
def canvasSources (c : Canvas) : List Nat :=
  c.layers.flatMap fun (l : Nat × Layer) =>
    (layerSets l.2).filterMap fun ws => if setKind ws = 2 ∧ !setLost ws then some (setSrc ws) else none

/-- Depth of a canvas chain, counting the final one; beyond the fuel for a cycle (R225). -/
def chainDepth (s : State) : Nat → Nat → Nat
  | 0, _ => 1
  | f + 1, k =>
    match tget s.lco.canvases k with
    | none => 1
    | some c => 1 + ((canvasSources c).map (chainDepth s f)).foldl max 0

/-- The size that a layer's source is checked at: a binding's maximum, an image's or a canvas's size (R214). -/
def sourceSize (s : State) (ws : LayerSet) : Nat × Nat :=
  match setKind ws with
  | 0 => ((tget s.vca.decs (setSrc ws)).map fun d => (d.maxW, d.maxH)).getD (0, 0)
  | 1 => ((tget s.lco.images (setSrc ws)).map fun m => (m.w, m.h)).getD (0, 0)
  | _ => ((tget s.lco.canvases (setSrc ws)).map fun c => ((canvasNext c).w, (canvasNext c).h)).getD (0, 0)

/-- Ranges of LAYER_SET's fields (R210, R229). -/
def layerBad (ws : LayerSet) : Bool :=
  let c := setCrop ws
  let d := setDest ws
  let odd := fun n => decide (n % 2 ≠ 0)
  decide (16 < setGroup ws ∨ 1024 < setLimit ws) || odd c.1 || odd c.2.1 || odd c.2.2.1 || odd c.2.2.2 || odd d.1 || odd d.2.1 ||
    odd d.2.2.1 || odd d.2.2.2 || decide (d.2.2.1 = 0 ∨ d.2.2.2 = 0) || (decide (c.2.2.1 = 0) != decide (c.2.2.2 = 0)) ||
    decide ((setKind ws < 2 ∧ 4095 < setSrc ws) ∨ (setKind ws = 2 ∧ 1023 < setSrc ws))

/-- The source object exists (R210, R529). -/
def layerNoSource (s : State) (ws : LayerSet) : Bool :=
  match setKind ws with
  | 0 => !thas s.vca.decs (setSrc ws)
  | 2 => !thas s.lco.canvases (setSrc ws)
  | _ => false

/-- Relations of a layer with its canvas, its source and the other layers (R210, R225, R229). -/
def layerBreaks (s : State) (k i : Nat) (l : Layer) (ws : LayerSet) : Bool :=
  match tget s.lco.canvases k with
  | none => true
  | some c =>
    let cr := setCrop ws
    let z := sourceSize s ws
    let s' := modCanvas k (fun c => { c with layers := tset c.layers i { l with next := some ws } }) s
    destOutside (canvasNext c).w (canvasNext c).h ws ||
      (c.layers.any fun (x : Nat × Layer) => x.1 ≠ i &&
        (comingSets x.2).any fun y => setZ y = setZ ws) ||
      (match setKind ws with
       | 0 => !(layerCtxs l).contains (setSrc ws) &&
           ((tget s.vca.decs (setSrc ws)).map fun x => x.hidden || decide (x.consumers ≤ x.taken)).getD true
       | 1 => (imagePic s (setSrc ws)).isNone || decide (z.1 < cr.1 + cr.2.2.1 ∨ z.2 < cr.2.1 + cr.2.2.2)
       | 2 => ((tget s.lco.canvases (setSrc ws)).map fun x => decide ((canvasNext x).dest ≠ 3)).getD true ||
           decide (z.1 < cr.1 + cr.2.2.1 ∨ z.2 < cr.2.1 + cr.2.2.2) ||
           (s'.lco.canvases.any fun x => 4 < chainDepth s' 5 x.1)
       | _ => false)

/-- The settings words of a LAYER_SET (R229). -/
def layerSetWords (c : Cmd) : List Word := (c.words.drop 1).take 8

/-- A layer with settings for the next deadline (R222). -/
def pendLayer (flipDue : Bool) (ws : LayerSet) (l : Layer) : Layer :=
  { dueLayer flipDue l with next := some ws, gone := false, skip := flipDue }

/-- A layer that is removed at the next deadline; what is staged for it stays held until a commit (R222, R229). -/
def clearLayer (flipDue : Bool) (l : Layer) : Layer := { dueLayer flipDue l with gone := true, next := none, skip := flipDue }

/-- A layer with new settings: staged until a commit, or for the next deadline (R222, R229). -/
def newLayer (c : Cmd) (flipDue : Bool) (l : Layer) : Layer :=
  if bit (word c 0) 20 then { l with staged := some (layerSetWords c) } else pendLayer flipDue (layerSetWords c) l

/-- The columns of source that a layer reads (R210). -/
def layerCols (c : Cmd) (s : State) : Nat :=
  (cropOf (layerSetWords c) (sourceSize s (layerSetWords c)).1 (sourceSize s (layerSetWords c)).2).2.2.1

/-- The checks of a layer's set (R207, R210, R214, R222, R229). -/
def layerSetChecks (c : Cmd) (s : State) : List (Bool × Status) :=
  let k := field (word c 0) 0 10
  let i := field (word c 0) 10 6
  let ws := layerSetWords c
  let x := (tget s.lco.canvases k).getD Canvas.reset
  let l := (tget x.layers i).getD Layer.reset
  let new := newLayer c (flipDue s x) l
  let z := sourceSize s ws
  let cr := cropOf ws z.1 z.2
  let d := setDest ws
  let src := decide (setKind ws ≠ 3)
  let x' := { x with layers := tset x.layers i new }
  let others := dieCharge { s with lco.canvases := terase s.lco.canvases k } x.die
  ([(layerBad ws, .badParam), (!thas s.lco.canvases k || layerNoSource s ws, .badTarget), (layerBreaks s k i l ws, .badParam),
      (src && decide (4096 < cr.2.2.1), .linebufShort),
      (src && (!ratioOk (effWidth cr.2.2.1) d.2.2.1 || !ratioOk cr.2.2.2 d.2.2.2), .badParam)] ++
     (if canvasCharge x < canvasCharge x' then
        admission s (fun _ => false) (fun m => decide (ashlarBudget (ceiling m) < others + canvasCharge x'))
      else []))

/-- LAYER_SET set (R207, R210, R214, R222, R229). -/
def layerSet (c : Cmd) (s : State) : Res :=
  let k := field (word c 0) 0 10
  let i := field (word c 0) 10 6
  let x := (tget s.lco.canvases k).getD Canvas.reset
  checks (layerSetChecks c s)
    (.done (w32 (b1 (decide (setKind (layerSetWords c) ≠ 3) && decide (2048 < layerCols c s))) ::
        w64 (if bit (word c 0) 20 then 0 else applyDeadline s x))
      (putLayer k i (some (newLayer c (flipDue s x) ((tget x.layers i).getD Layer.reset))) s))

/-- The 6 words of a layer's status (R229). -/
def layerWords (l : Layer) : List Word :=
  let z := (l.shown.pic.map fun p => (p.w, p.h)).getD (0, 0)
  let dec := l.shown.pic.isSome && decide (2048 < (cropOf (shownSet l) z.1 z.2).2.2.1)
  [w32 (l.shown.what + 8 * b1 dec + 16 * b1 l.shown.unfit + 32 * l.shown.misses), w32 l.latched, w32 l.late, w32 l.super, w32 l.skipped,
    w32 (z.1 + z.2 * 65536)]

/-- LAYER_SET's body (R229). -/
def layerCmd (c : Cmd) (s : State) : Res :=
  let k := field (word c 0) 0 10
  let i := field (word c 0) 10 6
  let absent := (!thas s.lco.canvases k, Status.badTarget)
  let x := (tget s.lco.canvases k).getD Canvas.reset
  let l := tget x.layers i
  match field (word c 0) 16 4 with
  | 0 => layerSet c s
  | 1 =>
    checks [absent]
      (.done [] (match l with
        | some l => putLayer k i (some (if bit (word c 0) 20 then { l with staged := some [] } else clearLayer (flipDue s x) l)) s
        | none => s))
  | 2 => checks [absent] (.done (layerWords (l.getD Layer.reset)) s)
  | _ => .refuse .badParam

/-- LAYER_SET (R229). -/
def execLayerSet (c : Cmd) (s : State) : Host.Outcome State Fault Refusal :=
  .next <| serve 0x0602 (fnLens [9, 1, 1] c) c s (layerCmd c)

/-! ### LAYER_IMAGE_LOAD (R230) -/

/-- Frees an image's buffers. -/
def dropImage (i : Nat) (s : State) : State :=
  match tget s.lco.images i with
  | some m => m.bufs.foldl (fun s b => bufRelease b s) { s with lco.images := terase s.lco.images i }
  | none => s

/-- Whether a chunk starts a new image in a slot (R230). -/
def imageFresh (m : Image) : Bool := m.loaded || m.pix.isEmpty

/-- The pixels of an image that a slot already holds. -/
def heldPixels (m : Image) : List Word := if imageFresh m then [] else m.pix

/-- The checks of a chunk of pixels (R230). -/
def imageChunkChecks (i : Nat) (c : Cmd) (s : State) : List (Bool × Status) :=
  let off := (word c 1).toNat
  let w := field (word c 2) 0 16
  let h := field (word c 2) 16 16
  let px := c.words.drop 3
  let m := (tget s.lco.images i).getD Image.reset
  let fresh := imageFresh m
  let total := w * h
  let held := heldPixels m
  [(decide (w < 2 ∨ 8192 < w ∨ w % 2 ≠ 0 ∨ h < 2 ∨ 4096 < h ∨ h % 2 ≠ 0), .badParam),
     (m.converting || imageUsed s i, .resourceBusy),
     (decide (off ≠ 4 * held.length) || (!fresh && decide (w ≠ m.w ∨ h ≠ m.h)) || decide (total < held.length + px.length), .badParam)]

/-- The buffers of an image: taken at its first chunk (R83, R230). -/
def imageBuffers (i : Nat) (c : Cmd) (s : State) : Option (List Nat) × State :=
  let m := (tget s.lco.images i).getD Image.reset
  if imageFresh m then synthBuffers ((field (word c 2) 0 16 * field (word c 2) 16 16 * 5 / 2 + 524287) / 524288) (dropImage i s)
  else (some m.bufs, s)

/-- An image with a further chunk; with its last it is converted (R230). -/
def grownImage (c : Cmd) (m : Image) (bs : List Nat) : Image :=
  let w := field (word c 2) 0 16
  let h := field (word c 2) 16 16
  let img := heldPixels m ++ c.words.drop 3
  { Image.reset with w := w, h := h, pix := img, bufs := bs, converting := decide (img.length = w * h) }

/-- Function 0: a chunk of pixels; the first takes the buffers, the last starts the conversion (R230). -/
def imageChunk (i : Nat) (c : Cmd) (s : State) : Res :=
  checks (imageChunkChecks i c s)
    (match imageBuffers i c s with
     | (none, _) => .refuse .noCapacity
     | (some bs, t) =>
       let t := engineTraffic .imageLoad (5 * (c.words.length - 3) / 2) t
       let new := grownImage c ((tget s.lco.images i).getD Image.reset) bs
       let t := { t with lco.images := tset t.lco.images i new }
       if new.converting then .accepted i t else .done [] t)

/-- LAYER_IMAGE_LOAD's body (R230). -/
def imageCmd (c : Cmd) (s : State) : Res :=
  let i := field (word c 0) 0 12
  let m := (tget s.lco.images i).getD Image.reset
  match field (word c 0) 16 4 with
  | 0 => imageChunk i c s
  | 1 => checks [(m.converting || imageUsed s i, .resourceBusy)] (.done [] (dropImage i s))
  | 2 => .done [w32 (b1 m.loaded + 2 * b1 m.solid), w32 (m.w + m.h * 65536)] s
  | _ => .refuse .badParam

/-- Word counts of LAYER_IMAGE_LOAD (R230). -/
def imageLens (c : Cmd) (k : Nat) : Bool :=
  match field (word c 0) 16 4 with
  | 0 => decide (4 ≤ k ∧ k ≤ 4096)
  | 1 | 2 => k == 1
  | _ => true

/-- LAYER_IMAGE_LOAD (R230). -/
def execLayerImageLoad (c : Cmd) (s : State) : Host.Outcome State Fault Refusal :=
  .next <| serve 0x0603 (imageLens c) c s (imageCmd c)

/-- IMAGE_CONVERSION_DONE: the image is loaded, and EVT_LONG_DONE reports whether it is opaque (R212, R230). -/
def execImageConversionDone (slot : Nat) (s : State) : Host.Outcome State Fault Refusal :=
  match tget s.lco.images slot with
  | none => .next s
  | some m =>
    if !m.converting then .next s
    else
      let m := convertImage m
      .next (endLong 0x0603 slot .ok [w32 (b1 m.solid)] { s with lco.images := tset s.lco.images slot m })

/-! ### FLIP_GROUP_SET (R231) -/

/-- A staged change of a layer applies at the next deadline: its settings, or its removal, which stands as no settings (R222). -/
def commitLayer (flipDue : Bool) (l : Layer) : Layer :=
  match l.staged with
  | none => l
  | some ws => { (if ws = [] then clearLayer flipDue l else pendLayer flipDue ws l) with staged := none }

/-- Commits a canvas's staged changes (R222). -/
def commitStaged (k : Nat) (s : State) : State :=
  match tget s.lco.canvases k with
  | none => s
  | some c => (c.layers.filter fun l => l.2.staged.isSome).foldl (fun s l =>
      putLayer k l.1 (some (commitLayer (flipDue s c) l.2)) s) s

/-- FLIP_GROUP_SET's body (R231). -/
def flipGroupSet (c : Cmd) (s : State) : Res :=
  let k := field (word c 0) 0 10
  let g := field (word c 0) 10 5
  let badG := decide (g < 1 ∨ 16 < g)
  let absent := (!thas s.lco.canvases k, Status.badTarget)
  let x := (tget s.lco.canvases k).getD Canvas.reset
  let grp := (tget x.groups g).getD FlipGroup.reset
  match field (word c 0) 16 4 with
  | 0 =>
    let ms := field (word c 1) 0 16
    checks [(badG || decide (100 < ms), .badParam), absent]
      (.done [] (modCanvas k (fun x => { x with groups := tset x.groups g { grp with holdMs := ms } }) s))
  | 1 => checks [absent] (.done (w64 (applyDeadline s x)) (commitStaged k s))
  | 2 => checks [(badG, .badParam), absent] (.done [w32 (b1 grp.pending), w32 grp.held] s)
  | _ => .refuse .badParam

/-- FLIP_GROUP_SET (R231). -/
def execFlipGroupSet (c : Cmd) (s : State) : Host.Outcome State Fault Refusal :=
  .next <| serve 0x0604 (fnLens [2, 1, 1] c) c s (flipGroupSet c)

end Sys2Proof.Machine
end

