-- ==== Sys2Proof/Machine/System.lean ====
section
/-!
DEFINITION. System, image, configuration and diagnostic commands (13 R341-R348; 02 R52-R56; 16 R403-R407; 20 R485-R487).
-/

namespace Sys2Proof.Machine

/-! ### System opcodes (R341-R344) -/

/-- NOP's body (R341). -/
def nop (c : Cmd) (s : State) : Res := .done c.words s

/-- NOP (R341). -/
def execNop (c : Cmd) (s : State) : Host.Outcome State Fault Refusal := .next <| serve 0x0001 (between 0 4096) c s (nop c)

/-- GET_INFO word 5 [4:0], which SYS_BOOT shows (R341, R495). -/
def bootWord (s : State) : Nat := s.cpx.fwSlot + 4 * s.cpx.cfgSlot + 16 * b1 s.cpr.lastSaved

/-- Seconds since reset (R341, R495). -/
def uptime (s : State) : Nat := (s.cpr.aonNs - s.cpr.resetNs) / 1000000000

/-- The 10 words of GET_INFO; through the bootstrap responder words 4, 6 and 7 read 0 (R321, R341). -/
def infoWords (boot : Bool) (s : State) : List Word :=
  let fw := fun (w : Word) => if boot then 0 else w
  [0x8192, Config.sysRev &&& 0xFFFF, 0x42525354, s.flash.serial, fw s.cpx.fwVersion, w32 (bootWord s),
    fw (if s.cpx.fwSlot = 0 then 0 else (fwOf s s.cpx.fwSlot).seq), fw s.flash.cfgSeq, w32 s.cpx.resetCause, w32 (uptime s)]

/-- GET_INFO (R341). -/
def execGetInfo (c : Cmd) (s : State) : Host.Outcome State Fault Refusal :=
  .next <| serve 0x0002 (exactly 0) c s fun s => .done (infoWords false s) s

/-- Mode of a code (R41). -/
def modeOf (n : Nat) : Mode := [Mode.converse, .assembly, .studio, .frugal, .shadow, .service].getD n .converse

/-- What is committed exceeds a target mode's capacities, or its budgets at that mode's ceilings (R44, R46, R53, R207). -/
def modeOver (m : Mode) (s : State) : Bool :=
  let pol := policyOf m s
  decide (capLegs pol < s.fwe.legs.length ∨ capConfs pol < s.aue.confs.length ∨ capSlots pol < slotsUsed s ∨
      capDecs pol < decsUsed s ∨ capEncs pol < encsUsed s ∨ capEncs pol < s.lco.canvases.length ∨
      ashlarBudget (ceiling pol) < dieCharge s 0 ∨ ashlarBudget (ceiling pol) < dieCharge s 1) ||
    !gougeFits pol (gougeBudget s (ceiling pol)) (decCharges s) (encCharges s)

/-- SET_MODE's body: it takes effect at the first epoch boundary after it is accepted, the next one when it is accepted exactly at a boundary (R52, R53, R342). -/
def setMode (c : Cmd) (s : State) : Res :=
  let n := field (word c 0) 0 8
  let m := modeOf n
  checks
    [(decide (5 < n), .badParam), (decide (n = 4 ∨ s.cpx.mode = .shadow), .modeForbids), (s.cpx.pending.isSome, .resourceBusy)]
    (if m = s.cpx.mode then .done (w64 (nowNs s)) s
     else checks [(modeOver m s, .noCapacity), (decide (m ≠ .studio) && !s.aue.cores.isEmpty, .resourceBusy)]
       (let b := nextBoundaryNs 10000000 s
        .done (w64 b) { s with cpx.pending := some m, cpx.pendingAt := b }))

/-- SET_MODE (R342). -/
def execSetMode (c : Cmd) (s : State) : Host.Outcome State Fault Refusal := .next <| serve 0x0003 (exactly 1) c s (setMode c)

/-- Every power domain of a subsystem is OFF (R342, R467). -/
def subOff (s : State) (sub : Nat) : Bool :=
  decide (12 ≤ sub ∧ sub ≤ 14) && (subDomains sub).all fun d => decide ((domainOf s d).state = .off)

/-- A set of subsystem ids as 16 bits. -/
def subBits (p : Nat → Bool) : Nat := ((List.range 16).map fun i => b1 (p i) * 2 ^ i).sum

/-- The 18 words of GET_STATUS (R342). -/
def statusWords (s : State) : List Word :=
  [w32 (modeCode s.cpx.mode + 8 * ((s.cpx.pending.map modeCode).getD 0) + 64 * b1 s.cpx.pending.isSome +
      128 * b1 (decide (s.tsu.state = .unset)) + 256 * b1 s.mss.locked + 512 * b1 s.hlp.handoff + 1024 * s.cti.twin),
    w32 s.fwe.legs.length, w32 s.aue.confs.length, w32 (slotsUsed s), w32 (decsUsed s), w32 (encsUsed s), w32 s.lco.canvases.length,
    w32 (decCharges s / 1000000), w32 (encCharges s / 1000000), w32 s.cpr.power,
    w32 (levelOf s 1 + 16 * levelOf s 2 + 256 * levelOf s 3 + 4096 * levelOf s 0),
    w32 (subBits (fun i => s.cpr.fencedSubs.contains i) + 65536 * subBits (subOff s))] ++ w64 s.cpx.pendingAt ++
    (s.cpx.queues.take 4).map (·.seqBeforeLoss)

/-- GET_STATUS (R342). -/
def execGetStatus (c : Cmd) (s : State) : Host.Outcome State Fault Refusal :=
  .next <| serve 0x0004 (exactly 0) c s fun s => .done (statusWords s) s

/-- RESET_DOMAIN's body: the target is fenced and the runs behind the fence end; the reset completes at RESET_DOMAIN_READY (R25, R343, R348,
R400). -/
def resetDomain (c : Cmd) (s : State) : Res :=
  let sub := field (word c 0) 0 4
  let inst := field (word c 0) 4 12
  checks
    [(decide (sub ≤ 2) || (decide (inst ≠ 0xFFF) && decide (instGroups sub ≤ inst)), .badParam),
     (s.cpx.resetting.any (fun r => r.1 = sub), .resourceBusy)]
    (let s := { s with cpx.resetting := s.cpx.resetting ++ [(sub, inst)] }
     .accepted (sub * 4096 + inst) (abortFenced sub inst (fencePort sub inst s)))

/-- RESET_DOMAIN (R343). -/
def execResetDomain (c : Cmd) (s : State) : Host.Outcome State Fault Refusal :=
  .next <| serve 0x0005 (exactly 1) c s (resetDomain c)

/-- RESET_DOMAIN_READY: registers and on-chip state are at their reset values, the host's tables are restored, the fence is lifted and
EVT_LONG_DONE follows (R343). -/
def execResetDomainReady (sub inst : Nat) (s : State) : Host.Outcome State Fault Refusal :=
  if !s.cpx.resetting.contains (sub, inst) then .next s
  else
    let s := { s with cpx.resetting := s.cpx.resetting.filter fun r => r ≠ (sub, inst) }
    let s := liftFence sub inst (if inst = 0xFFF then resetSub sub s else resetInst sub inst s)
    .next (endLong 0x0005 (sub * 4096 + inst) .ok [] s)

/-- SUBSCRIBE_EVENTS's body: events that cannot be unsubscribed stay enabled (R334, R344). -/
def subscribe (c : Cmd) (s : State) : Res :=
  let m := field (word c 0) 0 8 ||| 0xE1
  .done [w32 m] { s with cpx.evMask := m, cpx.mirror := bit (word c 0) 8 }

/-- SUBSCRIBE_EVENTS (R344). -/
def execSubscribeEvents (c : Cmd) (s : State) : Host.Outcome State Fault Refusal :=
  .next <| serve 0x0006 (exactly 1) c s (subscribe c)

/-! ### Images (R345) -/

/-- The firmware slot that does not run (R345). -/
def idleFw (s : State) : Nat := if s.cpx.fwSlot = 1 then 2 else 1

/-- IMAGE_WRITE's body (R345, R439). -/
def imageWrite (c : Cmd) (s : State) : Res :=
  let off := (word c 0).toNat
  let total := (word c 1).toNat
  let n := idleFw s
  let f := fwOf s n
  let bytes := (wordsBytes (c.words.drop 2)).take (total - off)
  let old := if off = 0 then [] else f.content
  checks
    [(decide (2 ^ 26 < total ∨ total ≤ off ∨ total + 3 < off + 4 * (c.words.length - 2)), .badParam),
     (decide (off ≠ 0 ∧ (off ≠ f.content.length ∨ total ≠ f.total)), .badParam), (s.cpr.saving, .unavailable),
     (s.flash.commitImage.isSome, .resourceBusy)]
    (.done [] (modFw n (fun f => { f with hdr := f.hdr && decide (off ≠ 0), total := total, content := old ++ bytes }) s))

/-- IMAGE_WRITE (R345). -/
def execImageWrite (c : Cmd) (s : State) : Host.Outcome State Fault Refusal :=
  .next <| serve 0x0101 (between 3 4096) c s (imageWrite c)

/-- IMAGE_COMMIT's body (R50, R345). -/
def imageCommit (c : Cmd) (s : State) : Res :=
  checks
    [(decide (2 ^ 26 < (word c 0).toNat), .badParam), (decide (s.cpx.mode ≠ .service ∧ s.cpx.mode ≠ .shadow), .modeForbids),
     (s.cpr.saving, .unavailable), (s.flash.commitImage.isSome, .resourceBusy)]
    (.accepted 0 { s with flash.commitImage := some ((word c 0).toNat, bit (word c 1) 0) })

/-- IMAGE_COMMIT (R345). -/
def execImageCommit (c : Cmd) (s : State) : Host.Outcome State Fault Refusal :=
  .next <| serve 0x0102 (exactly 2) c s (imageCommit c)

/-- IMAGE_COMMIT_DONE: the length, the read-back CRC and the signature decide; DONE writes the header with the running firmware's
sequence + 1, and with activate the module resets into the new image (R345, R437, R441). -/
def execImageCommitDone (readbackOk : Bool) (s : State) : Host.Outcome State Fault Refusal :=
  match s.flash.commitImage with
  | none => .next s
  | some (len, activate) =>
    let n := idleFw s
    let f := fwOf s n
    let s := { s with flash.commitImage := none }
    let result := if len ≠ f.content.length ∨ len ≠ f.total then 1 else if !readbackOk then 2 else if !imageVerified f.content then 3 else 0
    if s.cpr.saving then .next (endLong 0x0102 0 .unavailable [] s)
    else if result ≠ 0 then .next (endLong 0x0102 0 .ok [w32 result] s)
    else
      let seq := if s.cpx.fwSlot = 0 then 1 else (fwOf s s.cpx.fwSlot).seq + 1
      let s := endLong 0x0102 0 .ok [0] (modFw n (fun f => { f with hdr := true, length := len, seq := seq }) s)
      .next (if activate then fullReset 4 s else s)

/-! ### Configuration (R345, R446, R454) -/

/-- CONFIG_READ's body (R345). -/
def configRead (c : Cmd) (s : State) : Res :=
  let id := field (word c 0) 0 16
  let st := itemStaged s id
  let co := itemCommitted s id
  let v := if bit (word c 0) 16 then co else st
  checks [((itemLen id).isNone, .badParam)] (.done (w32 (id + v.length * 65536 + b1 (decide (st ≠ co)) * 2 ^ 28) :: v) s)

/-- CONFIG_READ (R345). -/
def execConfigRead (c : Cmd) (s : State) : Host.Outcome State Fault Refusal :=
  .next <| serve 0x0103 (exactly 1) c s (configRead c)

/-- CONFIG_WRITE's body: it writes the staged copy (R345, R446, R454). -/
def configWrite (c : Cmd) (s : State) : Res :=
  let id := field (word c 0) 0 16
  let n := field (word c 0) 16 12
  checks
    [((itemLen id).isNone, .badParam), (itemReadOnly id, .locked),
     (decide (itemLen id ≠ some n ∨ c.words.length ≠ n + 1), .badLength), (longOpen 0x0105 s, .resourceBusy)]
    (.done [] { s with flash.staged := tset s.flash.staged id (maskItem id (c.words.drop 1)) })

/-- CONFIG_WRITE (R345). -/
def execConfigWrite (c : Cmd) (s : State) : Host.Outcome State Fault Refusal :=
  .next <| serve 0x0104 (between 1 256) c s (configWrite c)

/-- The slot that CONFIG_COMMIT writes: the invalid one, or else the one with the older sequence (R445). -/
def commitSlot (s : State) : Nat :=
  match laterSlot s.flash.cfgA.hdr s.flash.cfgB.hdr s.flash.cfgA.seq s.flash.cfgB.seq with
  | 1 => 2
  | _ => 1

/-- Its sequence: the newer valid one plus 1, or 1 (R445). -/
def commitSeq (s : State) : Word :=
  match laterSlot s.flash.cfgA.hdr s.flash.cfgB.hdr s.flash.cfgA.seq s.flash.cfgB.seq with
  | 1 => s.flash.cfgA.seq + 1
  | 2 => s.flash.cfgB.seq + 1
  | _ => 1

/-- Changes a configuration slot. -/
def modCfg (n : Nat) (f : CfgSlot → CfgSlot) (s : State) : State :=
  if n = 1 then { s with flash.cfgA := f s.flash.cfgA } else { s with flash.cfgB := f s.flash.cfgB }

/-- CONFIG_COMMIT's body: the items are checked and the slot's header is erased; the write ends at CONFIG_COMMIT_DONE (R345, R429,
R439). -/
def configCommit (s : State) : Res :=
  checks
    [(commitBad s, .badParam), (s.cpr.saving || s.cti.switching.isSome, .unavailable), (longOpen 0x0105 s, .resourceBusy)]
    (.accepted 0 (modCfg (commitSlot s) (fun x => { x with hdr := false }) s))

/-- CONFIG_COMMIT (R345). -/
def execConfigCommit (c : Cmd) (s : State) : Host.Outcome State Fault Refusal :=
  .next <| serve 0x0105 (exactly 0) c s configCommit

/-- Writes the staged items into the slot, header last, and applies those that take effect at commit (R345, R422). The
slot holds every item: 0xA001, unchanged, again seeks a comparator for a port that found none (R389, R479). -/
def commitItems (s : State) : State :=
  let n := commitSlot s
  let seq := commitSeq s
  let new := s.flash.staged
  let all := new.foldl (fun t (i : Nat × List Word) => tset t i.1 i.2) s.flash.running
  let s := modCfg n (fun _ => { hdr := true, seq := seq, items := all })
    { s with flash.running := all, flash.staged := [], flash.cfgSeq := seq, cpx.cfgSlot := n }
  let s := new.foldl (fun s (i : Nat × List Word) => applyAtCommit i.1 i.2 s) s
  let s := if thas new 0xA001 then s else applyAtCommit 0xA001 (itemCommitted s 0xA001) s
  new.foldl (fun s (i : Nat × List Word) => mirror 20 i.1 (seq :: i.2) s) s

/-- CONFIG_COMMIT_DONE: the slot is written and EVT_LONG_DONE carries the new sequence (R345). -/
def execConfigCommitDone (s : State) : Host.Outcome State Fault Refusal :=
  if !longOpen 0x0105 s then .next s
  else if s.cpr.saving then .next (endLong 0x0105 0 .unavailable [] s)
  else
    let s := commitItems s
    .next (endLong 0x0105 0 .ok [s.flash.cfgSeq] s)

/-! ### The trace (R346, R403, R406) -/

/-- TRACE_CTRL's body (R346). -/
def traceCtrl (c : Cmd) (s : State) : Res :=
  let mode := field (word c 1) 0 2
  checks [(decide (mode = 3), .badParam)]
    (.done (w64 (nowNs s))
      { s with
        cpx.traceMask := field (word c 0) 0 16, cpx.traceMode := mode, cpx.trace := if mode = 0 then s.cpx.trace else []
        cpx.traceLost := if mode = 0 then s.cpx.traceLost else 0 })

/-- TRACE_CTRL (R346). -/
def execTraceCtrl (c : Cmd) (s : State) : Host.Outcome State Fault Refusal :=
  .next <| serve 0x0D01 (exactly 2) c s (traceCtrl c)

/-- The 16 bytes of a trace record (R403). -/
def traceWords (r : TraceRec) : List Word :=
  [w32 r.timeNs, w32 (r.timeNs / 2 ^ 32 % 65536 + (r.kind + 16 * r.sub) * 65536 + r.core * 2 ^ 24), w32 r.object,
    w32 (r.flow + r.detail * 65536)]

/-- TRACE_READ's body: the records held from the first one asked for, up to the count (R346, R406). -/
def traceRead (c : Cmd) (s : State) : Res :=
  let n := (word c 1).toNat
  checks [(decide (n < 1 ∨ 1023 < n), .badParam)]
    (.done (w32 s.cpx.trace.length :: w32 s.cpx.traceLost :: ((s.cpx.trace.drop (word c 0).toNat).take n).flatMap traceWords) s)

/-- TRACE_READ (R346). -/
def execTraceRead (c : Cmd) (s : State) : Host.Outcome State Fault Refusal :=
  .next <| serve 0x0D02 (exactly 2) c s (traceRead c)

/-- FAULT_LOG_READ's body (R346, R483, R485). -/
def faultLogRead (c : Cmd) (s : State) : Res :=
  let n := (word c 1).toNat
  checks [(decide (n < 1 ∨ 1000 < n), .badParam)]
    (.done (((s.cpx.faults.drop (word c 0).toNat).take n).flatMap faultWords) s)

/-- FAULT_LOG_READ (R346). -/
def execFaultLogRead (c : Cmd) (s : State) : Host.Outcome State Fault Refusal :=
  .next <| serve 0x0D04 (exactly 2) c s (faultLogRead c)

/-! ### Counter families (R486, R487) -/

/-- Instances of a counter family; none for an unknown family. -/
def familySize (f : Nat) : Option Nat :=
  if f = 0x0000 then some 2 else if f = 0x1000 ∨ f = 0x2000 ∨ f = 0x3000 ∨ f = 0x4001 then some 1
  else if f = 0x3001 ∨ f = 0x7000 then some 8 else if f = 0x4000 then some 6 else if f = 0x6000 then some 16
  else if f = 0x8000 then some 15 else if f = 0xA000 then some 4096 else if f = 0xA001 then some 60
  else if f = 0xB000 then some 272 else if f = 0xC000 then some 256 else if f = 0xD000 then some 32 else none

/-- The family's window, or the instance's group, is fenced, draining or powered off (R40, R486). -/
def familyDown (s : State) (f i : Nat) : Bool :=
  (decide (f / 4096 ≠ 0) && subDown s (f / 4096)) ||
    (if f = 0x4000 then domainDown s (20 + i) else if f = 0x4001 then domainDown s 26
     else if f = 0xC000 then domainDown s (i / 16) else if f = 0xD000 then domainDown s (16 + i / 16) else false)

/-- Busy time of a Gouge core over the last 1 s, in 0.01 % (R486). -/
def gougeBusy (s : State) (i : Nat) : Nat :=
  let now := s.cpr.aonNs
  let g := gougeOf s i
  let from_ := now - 1000000000
  let runs := g.runs ++ (if g.job.isSome then [(g.startNs, now)] else [])
  min 10000 (((runs.map fun (r : Nat × Nat) => r.2 - max r.1 from_).sum) / 100000)

/-- The words of one instance of a family (R486). -/
def familyWords (s : State) (f i : Nat) : List Word :=
  if f = 0x0000 then
    let qs := (s.cpx.queues.drop (4 * i)).take 4
    (qs.map fun q => w32 q.cntAccepted) ++ (qs.map fun q => w32 q.cntRefused) ++ (qs.map fun q => w32 q.cntRepeated) ++
      (qs.map fun q => w32 q.cntDiscarded)
  else if f = 0x1000 then [w32 s.cpr.overruns, w32 s.cpr.drains, w32 s.cpr.stepDowns, i32 (25 * s.cpr.aonTrim)]
  else if f = 0x2000 then s.hlp.counters.map w32
  else if f = 0x3000 then s.ptu.total.map w32
  else if f = 0x3001 then (s.ptu.portTotal.getD i []).map w32
  else if f = 0x4000 then coursePortWords (ctiPort s i)
  else if f = 0x4001 then svcStatus s
  else if f = 0x6000 then memChannel s i
  else if f = 0x7000 then
    let p := poolOf s i
    [w32 p.count, w32 p.free, w32 (leastFree s.cpr.aonNs p), w32 p.exhaust, w32 p.fallbacks, w32 p.reserve]
  else if f = 0x8000 then (s.fwe.portCnt.getD i []).map w32
  else if f = 0xA000 then (List.range 16).flatMap fun k => legRecord s (16 * i + k)
  else if f = 0xA001 then (s.tsh.portStats.getD i QStat.reset).lastWin
  else if f = 0xB000 then loadWords s i
  else if f = 0xC000 then ((tget s.aue.coreCnt i).getD [0, 0, 0, 0]).map w32
  else
    let g := gougeOf s i
    [w32 g.jobs, w32 g.misses, w32 g.wd, w32 (gougeBusy s i)]

/-- Clears what the clear bit clears of an instance (R486, R487). -/
def familyClear (f i : Nat) (s : State) : State :=
  if f = 0x0000 then
    (List.range 4).foldl (fun s k => modQueue (4 * i + k) (fun q =>
      { q with cntAccepted := 0, cntRefused := 0, cntRepeated := 0, cntDiscarded := 0 }) s) s
  else if f = 0x1000 then { s with cpr.overruns := 0, cpr.drains := 0, cpr.stepDowns := 0 }
  else if f = 0x2000 then { s with hlp.counters := s.hlp.counters.map fun _ => 0 }
  else if f = 0x3000 then { s with ptu.total := s.ptu.total.map fun _ => 0 }
  else if f = 0x3001 then { s with ptu.portTotal := s.ptu.portTotal.modify i fun l => l.map fun _ => 0 }
  else if f = 0x4000 then modCtiPort i (fun x => { x with lofs := 0, justs := 0, adopts := 0, contDisc := 0, cellsLost := 0 }) s
  else if f = 0x4001 then { s with cti.svc.counters := s.cti.svc.counters.map fun _ => 0 }
  else if f = 0x6000 then modChan i (fun c => { c with pauses := 0, discards := 0, replays := 0, poisons := 0 }) s
  else if f = 0x7000 then modPool i (fun p => { p with exhaust := 0, fallbacks := 0, reserve := 0 }) s
  else if f = 0x8000 then { s with fwe.portCnt := s.fwe.portCnt.modify i fun l => l.map fun _ => 0 }
  else if f = 0xC000 then { s with aue.coreCnt := terase s.aue.coreCnt i }
  else if f = 0xD000 then modGouge i (fun g => { g with jobs := 0, misses := 0, wd := 0 }) s
  else s

/-- COUNTER_READ's body; windows that have ended are closed first (R346, R486). -/
def counterRead (c : Cmd) (s : State) : Res :=
  let f := field (word c 0) 0 16
  let i := field (word c 0) 16 12
  let s := svcDrain (rollLoads s)
  checks
    [((match familySize f with
        | some n => decide (n ≤ i)
        | none => true), .badParam), (familyDown s f i, .unavailable)]
    (.done (familyWords s f i) (if bit (word c 0) 31 then familyClear f i s else s))

/-- COUNTER_READ (R346, R486). -/
def execCounterRead (c : Cmd) (s : State) : Host.Outcome State Fault Refusal :=
  .next <| serve 0x0D03 (exactly 1) c s (counterRead c)

/-! ### Loopbacks (R346) -/

/-- A loopback target: a Course port, a Quoin lane, the service Ethernet MAC or a DRAM channel. -/
def loopTargetOk (t : Nat) : Bool := decide (t ≤ 6 ∨ (16 ≤ t ∧ t ≤ 31))

/-- LOOPBACK's body (R50, R346). -/
def loopback (c : Cmd) (s : State) : Res :=
  let t := field (word c 0) 0 8
  let ms := (word c 1).toNat
  checks
    [(!loopTargetOk t || decide (ms < 1 ∨ 60000 < ms), .badParam), (decide (s.cpx.mode ≠ .service), .modeForbids),
     (if t ≤ 6 then domainDown s (20 + t) || subDown s 4 else subDown s 6, .unavailable), (s.cpx.loopbacks.contains t, .resourceBusy)]
    (.accepted t { s with
      cpx.loopbacks := s.cpx.loopbacks ++ [t], cpx.loopEnds := s.cpx.loopEnds ++ [(t, s.cpr.aonNs + ms * 1000000)] })

/-- LOOPBACK (R346). -/
def execLoopback (c : Cmd) (s : State) : Host.Outcome State Fault Refusal :=
  .next <| serve 0x0D05 (exactly 2) c s (loopback c)

/-- LOOPBACK_DONE: the duration has passed, with the errors found and the MiB tested (R346). -/
def execLoopbackDone (target errors mib : Nat) (s : State) : Host.Outcome State Fault Refusal :=
  .next (if s.cpx.loopbacks.contains target then
      let s := advanceAon (((s.cpx.loopEnds.find? fun e => e.1 = target).map (·.2)).getD 0) s
      endLong 0x0D05 target .ok [w32 (b1 (decide (errors = 0))), w32 errors, w32 mib]
        { s with
          cpx.loopbacks := s.cpx.loopbacks.filter fun t => t ≠ target, cpx.loopEnds := s.cpx.loopEnds.filter fun e => e.1 ≠ target }
    else s)

end Sys2Proof.Machine
end

