-- ==== Sys2Proof/Machine/Registers.lean ====
section
/-!
DEFINITION. The register map (21 R490-R509), REG_READ and REG_WRITE (13 R346, R347), access outcomes (01 R11-R13, R38-R40) and the
bootstrap responder (12 R321).
-/

namespace Sys2Proof.Machine

/-! ### Reads -/

/-- The three code letters of a subsystem, first in bits [15:8] (R8, R494). -/
def codeLetters (sub : Nat) : Nat :=
  let n := fun (a b c : Char) => a.toNat + 256 * b.toNat + 65536 * c.toNat
  ([n 'C' 'P' 'X', n 'C' 'P' 'R', n 'H' 'L' 'P', n 'P' 'T' 'U', n 'C' 'T' 'I', n 'T' 'S' 'U', n 'M' 'S' 'S', n 'B' 'P' 'M', n 'F' 'W' 'E',
    n 'C' 'P' 'E', n 'T' 'S' 'H', n 'T' 'D' 'S', n 'A' 'U' 'E', n 'V' 'C' 'A', n 'L' 'C' 'O', n 'L' 'G' 'V']).getD sub 0

/-- A word of a window header (R494). -/
def readHeader (s : State) (sub off : Nat) : Word :=
  match off with
  | 0x0 => w32 (sub + 256 * codeLetters sub)
  | 0x4 => Config.blockVersion sub &&& 0xFFFF
  | 0x8 => w32 (instOff s sub)
  | 0xC => w32 (s.cpx.hdrFault.getD sub 0)
  | _ => 0

/-- The SYS window (R495). -/
def readSys (s : State) (off : Nat) : Word :=
  match off with
  | 0x00 => 0x8192
  | 0x04 => Config.sysRev &&& 0xFFFF
  | 0x08 => 0x42525354
  | 0x0C => s.flash.serial
  | 0x10 => w32 (s.cpx.resetCause % 256)
  | 0x18 => w32 (modeCode s.cpx.mode + 8 * ((s.cpx.pending.map modeCode).getD 0) + 64 * b1 s.cpx.pending.isSome + 128 * b1 s.cpx.ready)
  | 0x1C => w32 (uptime s)
  | 0x20 => w32 s.cpx.faultLast
  | 0x24 => w32 s.cpx.faultNum
  | 0x28 => w32 (bootWord s + 32 * b1 s.mss.locked)
  | 0x2C => w32 (min 15 (recentCause6 s).length + 256 * b1 s.cpx.held)
  | _ => if 0x40 ≤ off ∧ off < 0x80 then s.cpx.scratch.getD ((off - 0x40) / 4) 0 else 0

/-- CPX's queue count registers (R496). -/
def readCpx (off : Nat) (s : State) : Word × State :=
  let n := (off - 0x8000) / 16
  let q := queueOf s n
  if off < 0x8000 ∨ 8 ≤ n then (0, s)
  else match off % 16 with
    | 0x0 => (w32 q.waiting.length, s)
    | 0x4 => (if n < 4 then w32 q.events.length else 0, s)
    | 0x8 => if n < 4 then (w32 q.evLost, modQueue n (fun q => { q with evLost := 0 }) s) else (0, s)
    | _ => (w32 q.longOps.length, s)

/-- Bits of a list of flags, first lowest. -/
def flagBits (l : List Bool) : Nat := (l.mapIdx fun i b => b1 b * 2 ^ i).sum

/-- CPR's registers (R497, R498). -/
def readCpr (s : State) (off : Nat) : Word :=
  let r := s.cpr
  match off with
  | 0x100 => w32 (r.cap + 65536 * b1 r.capValid + 131072 * b1 r.armed)
  | 0x104 => w32 r.bankV
  | 0x108 => w32 (r.volts + 65536 * r.power)
  | 0x10C => w32 (field (i32 r.aonTrim) 0 8 + 256 * r.aonRef)
  | 0x110 => w32 (flagBits r.stopped)
  | 0x114 => w32 ((List.range 9).map fun m => (r.cmux.getD m 0 + 2 * b1 (r.stuck.getD m false)) * 4 ^ m).sum
  | 0x118 => w32 (flagBits r.pllLock)
  | 0x11C => w32 (flagBits r.xing)
  | 0x120 => w32 (levelOf s 0 + 16 * levelOf s 1 + 256 * levelOf s 2 + 4096 * levelOf s 3 + 65536 * b1 r.steppedM + 131072 * b1 r.steppedG)
  | 0x124 => w32 (r.sleep + 256 * r.wakeMask)
  | _ =>
    if 0x140 ≤ off ∧ off < 0x160 then r.pllCfg.getD ((off - 0x140) / 4) 0 &&& 0xFFFF
    else if 0x8000 ≤ off ∧ off < 0x8070 then
      let d := domainOf s ((off - 0x8000) / 4)
      w32 (d.state.code + 4 * b1 d.fenced + 8 * b1 d.latched + 16 * d.aborted)
    else 0

/-- HLP's registers (R499); the counters clear as they are read. -/
def readHlp (off : Nat) (s : State) : Word × State :=
  let h := s.hlp
  match off with
  | 0x100 => (w32 (b1 h.handoff + 2 * b1 h.trainReady), s)
  | 0x104 => (w32 (h.link.code + 16 * h.width + 64 * b1 h.nrz + 128 * h.lanes), s)
  | 0x108 => (w32 (h.rxInv + 16 * h.txInv), s)
  | _ =>
    if 0x140 ≤ off ∧ off ≤ 0x160 then
      let i := (off - 0x140) / 4
      (w32 (h.counters.getD i 0), { s with hlp.counters := s.hlp.counters.set i 0 })
    else if 0x8000 ≤ off ∧ off < 0x8018 then (w32 (h.replay.filter fun f => f.chan = (off - 0x8000) / 4).length, s)
    else (0, s)

/-- PTU's registers (R500). -/
def readPtu (s : State) (off : Nat) : Word :=
  match off with
  | 0x100 => ponStatus0 s
  | 0x104 => w32 s.ptu.onuId
  | 0x108 => w32 s.ptu.eqd
  | 0x10C => w32 (activePath s).counter
  | 0x110 => s.ptu.rxPower
  | 0x114 => s.ptu.txPower
  | 0x118 => w32 (s.ptu.keyIdx + 4 * s.ptu.profUse)
  | _ =>
    if 0x8000 ≤ off ∧ off < 0x8080 then
      let p := s.ptu.ports.getD ((off - 0x8000) / 16) PonPort.reset
      match off % 16 with
      | 0x0 => w32 (p.alloc + 65536 * p.xgem)
      | 0x4 => w32 (portCap s (nowNs s) ((off - 0x8000) / 16))
      | _ => 0
    else 0

/-- A Course or Quoin instance of CTI (R501). -/
def readCtiPort (s : State) (p off : Nat) : Word :=
  let x := ctiPort s p
  match off with
  | 0x0 => w32 (x.path.sync.code + 8 * b1 x.rdi + 16 * b1 x.enabled + 32 * x.peer)
  | 0x4 => w32 x.delay
  | 0x8 => i32 x.offset
  | 0xC => w32 x.ptr
  | _ => 0

/-- CTI's registers (R501). -/
def readCti (s : State) (off : Nat) : Word :=
  match off with
  | 0x100 => roleWord s
  | 0x104 => w32 (s.cti.twin + 4 * b1 s.cti.heartbeat + 8 * s.cti.fit)
  | 0x108 => w32 (b1 s.cti.svc.up + 2 * b1 s.cti.svc.fast)
  | _ =>
    if 0x8000 ≤ off ∧ off < 0x8400 then readCtiPort s ((off - 0x8000) / 256) (off % 256)
    else if 0x8400 ≤ off ∧ off < 0x8600 then readCtiPort s (4 + (off - 0x8400) / 256) (off % 256)
    else 0

/-- TSU's registers (R502, R503): a read of the low word latches the others for the requester (R492). -/
def readTsu (who off : Nat) (s : State) : Word × State :=
  match off with
  | 0x100 => ((timeWords s.tsu.now).getD 0 0, latchTime who s)
  | 0x104 => ((timeWords ((latchOf s who).time.getD s.tsu.now)).getD 1 0, s)
  | 0x108 => ((timeWords ((latchOf s who).time.getD s.tsu.now)).getD 2 0, s)
  | 0x110 => (w32 s.tsu.incr, s)
  | 0x114 => (w32 s.tsu.dither, s)
  | 0x118 => (i32 s.tsu.utcOff, s)
  | 0x11C => (w32 (s.tsu.state.code + 4 * s.tsu.source + 16 * s.tsu.syncFn), s)
  | _ =>
    if 0x8000 ≤ off ∧ off < 0x8400 then
      let n := (off - 0x8000) / 16
      let c := cmpOf s n
      let held := ((latchOf s who).cmp.find? fun x => x.1 = n).map (·.2)
      match off % 16 with
      | 0x0 => (w32 c.sec, latchCmp who n s)
      | 0x4 => (w32 (held.getD (cmpHi c)), s)
      | 0x8 => (w32 ((held.map (· / 2 ^ 32)).getD c.ns), s)
      | _ => (w32 (b1 c.armed + 2 * b1 c.fired + 4 * c.owner), s)
    else (0, s)

/-- A protection region's words (R505). The regions do not change after the lock, so a latch of the high word (R492) cannot show. -/
def regionWord (g : Region) (off : Nat) : Word :=
  match off with
  | 0x00 => w32 g.base
  | 0x04 => w32 (g.base / 2 ^ 32)
  | 0x08 => w32 g.limit
  | 0x0C => w32 (g.limit / 2 ^ 32)
  | 0x10 => w32 g.mask
  | 0x14 => w32 (g.mask / 2 ^ 32)
  | 0x18 => w32 (b1 g.rd + 2 * b1 g.wr + 4 * b1 g.on)
  | _ => 0

/-- MSS's registers (R504, R505). -/
def readMss (off : Nat) (s : State) : Word × State :=
  match off with
  | 0x100 => (w32 (s.mss.ageC1 + 256 * s.mss.ageC2 + 65536 * s.mss.ageC3), s)
  | 0x104 => (w32 s.mss.area, s)
  | 0x108 => (w32 (b1 s.mss.locked + 256 * (s.mss.regions.filter fun g => g.on).length), s)
  | _ =>
    if 0x8000 ≤ off ∧ off < 0x8040 then
      let n := (off - 0x8000) / 4
      (w32 (s.mss.fenceDrop.getD n 0), { s with mss.fenceDrop := s.mss.fenceDrop.set n 0 })
    else if 0x8100 ≤ off ∧ off < 0x8300 then
      let n := (off - 0x8100) / 32
      let c := chanOf s n
      match off % 32 with
      | 0x00 => (w32 (b1 c.inService + 2 * b1 c.selfRef + 4 * b1 c.doubled), s)
      | 0x04 => (w32 c.replays, modChan n (fun c => { c with replays := 0 }) s)
      | 0x08 => (w32 c.poisons, modChan n (fun c => { c with poisons := 0 }) s)
      | 0x0C => (w32 c.pauses, s)
      | 0x10 => (w32 c.discards, s)
      | _ => (0, s)
    else if 0x9000 ≤ off ∧ off < 0xB000 then (regionWord (s.mss.regions.getD ((off - 0x9000) / 32) Region.reset) (off % 32), s)
    else (0, s)

/-- TSH's registers (R507). -/
def readTsh (s : State) (off : Nat) : Word :=
  if off = 0x100 then w32 (flagBits (s.tsh.ports.map fun (p : PortShape) => p.paced))
  else if 0x8000 ≤ off ∧ off < 0x81E0 then
    let p := portShape s ((off - 0x8000) / 32)
    match off % 32 with
    | 0x0 => w32 p.bucket.rate
    | 0x4 => w32 p.bucket.burst
    | 0x8 => w32 (p.overhead + 256 * p.cmp + 16384 * b1 p.paced)
    | _ => 0
  else 0

/-- TDS's registers (R508). -/
def readTds (off : Nat) (s : State) : Word × State :=
  match off with
  | 0x100 => (w32 s.cpx.trace.length, s)
  | 0x104 => (w32 s.cpx.traceLost, s)
  | 0x108 => (w32 (s.cpx.traceMask + 65536 * s.cpx.traceMode), s)
  | _ =>
    if 0x8000 ≤ off ∧ off < 0x9100 then
      let s := rollLoads s
      ((loadWords s ((off - 0x8000) / 16)).getD (off % 16 / 4) 0, s)
    else (0, s)

/-- A read of one register by a requester: read-clear fields clear, and an offset that no table lists reads 0 (R11, R40, R493). The
key registers read 0 (R506). -/
def readReg (who addr : Nat) (s : State) : Word × State :=
  let off := addr % 65536
  let sub := windowOf addr
  if sub = 16 then (readSys s off, s)
  else if off < 0x100 then (readHeader s sub off, s)
  else match sub with
    | 0 => readCpx off s
    | 1 => (readCpr s off, s)
    | 2 => readHlp off s
    | 3 => (readPtu s off, s)
    | 4 => (readCti s off, s)
    | 5 => readTsu who off s
    | 6 => readMss off s
    | 10 => (readTsh s off, s)
    | 11 => readTds off s
    | _ => (0, s)

/-! ### Writes -/

/-- A write of an RWL field after the lock: ignored, with fault 0xn FF0 of the owning subsystem carrying the address (R11, R478). -/
def rwlFault (addr : Nat) (s : State) : State := fault (windowOf addr * 4096 + 0xFF0) [w32 addr, 0] s

/-- A write of HLP_LANE_POL: through the bootstrap responder before the lock; it applies from the next LANE_SYNC (R499). -/
def writeLanePol (value : Word) (w : Writer) (s : State) : State :=
  if s.mss.locked then rwlFault 0x20108 s
  else if w = .boot then { s with hlp.rxInv := field value 0 4, hlp.txInv := field value 4 4 }
  else s

/-- HLP_LANE_POL_WRITE (R40, R499). -/
def execHlpLanePolWrite (value : Word) (w : Writer) (s : State) : Host.Outcome State Fault Refusal :=
  .next (regAccess true 0x20108 (writeLanePol value w) s)

/-- A write of CPR_XING_OVERRUN: ones clear their bits (R11, R463, R497). -/
def clearXing (value : Word) (s : State) : State := { s with cpr.xing := s.cpr.xing.mapIdx fun i b => b && !bit value i }

/-- XING_OVERRUN_CLEAR (R40, R497). -/
def execXingOverrunClear (value : Word) (s : State) : Host.Outcome State Fault Refusal :=
  .next (regAccess true 0x1011C (clearXing value) s)

/-- A write of CPR_PLL_CFG_p: RWL; only the boot ROM writes it, so no path of a command sets it (R497). -/
def writePllCfg (addr : Nat) (s : State) : State := if s.mss.locked then rwlFault addr s else s

/-- Sets one word of a key of n words. -/
def keyWord (n i : Nat) (v : Word) (k : Option (List Word)) : Option (List Word) := some ((k.getD (List.replicate n 0)).set i v)

/-- A word that Keystone writes into the key registers; a slot's entry is installed with its last word (R354, R506). -/
def writeKey (off : Nat) (v : Word) (s : State) : State :=
  let i := (off - 0x100) % 16 / 4
  if off = 0x100 then { s with cpe.keyIndex := field v 0 16 }
  else if 0x110 ≤ off ∧ off ≤ 0x13C then
    let s := { s with cpe.keyStage := s.cpe.keyStage.set ((off - 0x110) / 4) v }
    if off = 0x13C then
      let k := s.cpe.keyStage
      let n := s.cpe.keyIndex
      { s with cpe.slots := tset s.cpe.slots n { slotOf s n with key := k.take 8, salt := k.drop 8 } }
    else s
  else if 0x140 ≤ off ∧ off < 0x160 then { s with ptu.ukeys := s.ptu.ukeys.modify ((off - 0x140) / 16) (keyWord 4 i v) }
  else if 0x160 ≤ off ∧ off < 0x180 then { s with ptu.bkeys := s.ptu.bkeys.modify ((off - 0x160) / 16) (keyWord 4 i v) }
  else if 0x180 ≤ off ∧ off < 0x190 then { s with cpe.psk := keyWord 4 i v s.cpe.psk }
  else if 0x190 ≤ off ∧ off < 0x1A0 then { s with cpe.backupKey := keyWord 4 i v s.cpe.backupKey }
  else if 0x1A0 ≤ off ∧ off < 0x1C0 then { s with cpe.twinKek := keyWord 8 ((off - 0x1A0) / 4) v s.cpe.twinKek }
  else s

/-- KEY_REGISTER_WRITE: only Keystone writes a key register; any other path's write sets nothing (R11, R40, R354, R506). -/
def execKeyRegisterWrite (addr value : Word) (w : Writer) (s : State) : Host.Outcome State Fault Refusal :=
  let a := addr.toNat
  .next (if w = .core ∧ a / 65536 = 9 ∧ 0x100 ≤ a % 65536 ∧ a % 4 = 0 then regAccess true a (writeKey (a % 65536) value) s else s)

/-- HLP_CTRL takes writes from the control cores only, and a 1 stays until reset (R499). -/
def writeHlpCtrl (v : Word) (w : Writer) (s : State) : State :=
  if w = .core then
    let s := if bit v 0 then (match execHandoffSet s with | .next t => t | _ => s) else s
    if bit v 1 then (match execTrainReadySet s with | .next t => t | _ => s) else s
  else s

/-- A write of SYS_RESET_REQ: the reset follows the access that asks for it, and its reply (R437, R495). -/
def askReset (v : Word) (s : State) : State := if v = 0xB007 then { s with cpx.resetAsked := true } else s

/-- The reset that a register write asked for. -/
def settleReset (s : State) : State := if s.cpx.resetAsked then fullReset 7 s else s

/-- A write of one register, under its access code: fields that take no write ignore it (R11, R40, R493). -/
def writeReg (addr : Nat) (v : Word) (w : Writer) (s : State) : State :=
  let off := addr % 65536
  match windowOf addr with
  | 16 => if off = 0x14 then askReset v s
      else if 0x40 ≤ off ∧ off < 0x80 then { s with cpx.scratch := s.cpx.scratch.set ((off - 0x40) / 4) v } else s
  | 1 => if off = 0x11C then clearXing v s else if 0x140 ≤ off ∧ off < 0x160 then writePllCfg addr s else s
  | 2 => if off = 0x100 then writeHlpCtrl v w s else if off = 0x108 then writeLanePol v w s else s
  | 5 => if off = 0x110 then writeIncr v s else if off = 0x114 then writeDither v s
      else if 0x8000 ≤ off ∧ off < 0x8400 then
        let n := (off - 0x8000) / 16
        if off % 16 = 0xC then writeCmpCtrl n v w s else writeCmpWord n (off % 16 / 4) v w s
      else s
  | 6 => if off = 0x100 then writeAgeLimit v s
      else if 0x9000 ≤ off ∧ off < 0xB000 then fault 0x6103 [w32 addr] s else s
  | 9 => if w = .core ∧ 0x100 ≤ off then writeKey off v s else s
  | _ => s

/-- The addresses of a range. -/
def rangeAddrs (addr n : Nat) : List Nat := (List.range n).map fun i => addr + 4 * i

/-- The checks of a whole range before any access (R40, R347). -/
def rangeStatus (s : State) (addr n : Nat) : Option Status :=
  match (rangeAddrs addr n).findSome? (accessStatus s) with
  | some st => some st
  | none => if windowOf addr ≠ windowOf (addr + 4 * (n - 1)) then some .badParam else none

/-- Reads a range in ascending order (R347). -/
def readRange (who : Nat) : List Nat → State → List Word × State
  | [], s => ([], s)
  | a :: as, s =>
    let (w, s) := readReg who a s
    let (ws, s) := readRange who as s
    (w :: ws, s)

/-- Writes a range in ascending order (R347). -/
def writeRange (w : Writer) (addr : Nat) : List Word → State → State
  | [], s => s
  | v :: vs, s => writeRange w (addr + 4) vs (writeReg addr v w s)

/-- REG_READ's body (R346, R347). -/
def regRead (c : Cmd) (s : State) : Res :=
  let addr := (word c 0).toNat
  let n := (word c 1).toNat
  checks [(decide (n < 1 ∨ 4096 < n), .badParam)]
    (match rangeStatus s addr n with
      | some st => .refuse st
      | none => match deniedAccess s false (rangeAddrs addr n) with
        | some r => .refuseWith .internalFault (accessFault r s)
        | none =>
          let (ws, s) := readRange (b1 c.backup) (rangeAddrs addr n) s
          .done ws s)

/-- REG_READ (R346, R347). -/
def execRegRead (c : Cmd) (s : State) : Host.Outcome State Fault Refusal := .next <| serve 0x0E01 (exactly 2) c s (regRead c)

/-- A range that touches the key registers (R506). -/
def touchesKeys (addr n : Nat) : Bool := (rangeAddrs addr n).any fun a => decide (0x90100 ≤ a ∧ a ≤ 0x901BF)

/-- REG_WRITE's body (R346, R347, R506). -/
def regWrite (c : Cmd) (s : State) : Res :=
  let addr := (word c 0).toNat
  let n := (word c 1).toNat
  checks [(decide (n < 1 ∨ 4094 < n), .badParam), (decide (c.words.length ≠ n + 2), .badLength)]
    (match rangeStatus s addr n with
      | some st => .refuse st
      | none => match deniedAccess s true (rangeAddrs addr n) with
        | some r => .refuseWith .internalFault (accessFault r s)
        | none => checks [(touchesKeys addr n, .locked)] (.done [] (writeRange .host addr (c.words.drop 2) s)))

/-- REG_WRITE (R346, R347). -/
def execRegWrite (c : Cmd) (s : State) : Host.Outcome State Fault Refusal :=
  .next <| settleReset <| serve 0x0E02 (between 3 4096) c s (regWrite c)

/-- RC_COUNTER_READ: one read of a read-clear counter (R11, R12). -/
def execRcCounterRead (addr : Word) (s : State) : Host.Outcome State Fault Refusal :=
  .next (regAccess false addr.toNat (fun s => (readReg 0 addr.toNat s).2) s)

/-- REGISTER_WRITE_PLAIN: one write of any register, under its access code; a path that a key register excludes sets nothing (R11,
R40). -/
def execRegisterWritePlain (addr value : Word) (w : Writer) (s : State) : Host.Outcome State Fault Refusal :=
  .next (settleReset (regAccess true addr.toNat (writeReg addr.toNat value w) s))

/-! ### The bootstrap responder (R321) -/

/-- A window that the bootstrap responder reaches: SYS, CPR and HLP (R40). -/
def bootWindow (addr : Nat) : Bool := decide (windowOf addr = 16 ∨ windowOf addr = 1 ∨ windowOf addr = 2)

/-- The checks of a range through the bootstrap responder (R40, R347). -/
def bootRange (s : State) (addr n : Nat) : Option Status :=
  if addr % 4 ≠ 0 then some .badParam
  else if (rangeAddrs addr n).any fun a => !bootWindow a then some .badTarget
  else rangeStatus s addr n

/-- The bootstrap responder performs a command: its status, reply words and effect (R321, R347). -/
def bootServe (p : RawPacket) (s : State) : Status × List Word × State :=
  let addr := (p.words.getD 0 0).toNat
  let n := (p.words.getD 1 0).toNat
  if !p.crcOk then (.badCrc, [], s)
  else if !p.lengthOk then (.badLength, [], s)
  else if p.opcode = 0x0001 then (.ok, p.words, s)
  else if p.opcode = 0x0002 then if p.words = [] then (.ok, infoWords true s, s) else (.badLength, [], s)
  else if p.opcode = 0x0E01 then
    if p.words.length ≠ 2 ∨ 11 < n then (.badLength, [], s)
    else if n = 0 then (.badParam, [], s)
    else match bootRange s addr n with
      | some st => (st, [], s)
      | none =>
        let (ws, s) := readRange 0 (rangeAddrs addr n) s
        (.ok, ws, s)
  else if p.opcode = 0x0E02 then
    if 9 < n ∨ p.words.length ≠ n + 2 then (.badLength, [], s)
    else if n = 0 then (.badParam, [], s)
    else match bootRange s addr n with
      | some st => (st, [], s)
      | none => (.ok, [], writeRange .boot addr (p.words.drop 2) s)
  else (.badOpcode, [], s)

/-- BOOT: HLP answers until firmware sets handoff; then with the header and UNAVAILABLE (R313, R321, R348). -/
def execBoot (bytes : List Byte) (s : State) : Host.Outcome State Fault Refusal :=
  if !sidebandOn s || decide (64 < bytes.length) then .next s
  else
    let p := parsePacket bytes
    let (st, ws, s) := if s.hlp.handoff then (Status.unavailable, [], s) else bootServe p s
    .next (settleReset (emit (.boot { opcode := p.opcode, tag := p.tag, status := st, words := ws }) s))

end Sys2Proof.Machine
end

