-- ==== Sys2Proof/Machine/TimeEvents.lean ====
section
/-!
DEFINITION. A step of time reaching every client (15 R378), TIME_STEP (15 R393), and the comparators (15 R379-R382, 19 R476, 21 R503).
-/

namespace Sys2Proof.Machine

/-- A time moved by a step, not below 0. -/
def moved (d : Int) (t : Nat) : Nat := ((t : Int) + d).toNat

/-- A frame's launch time and stamp are moved by the step, in ns (R378). -/
def moveFrame (d : Int) (f : Frame) : Frame := { f with launch := f.launch.map (moved d), stamp := moved d f.stamp }

/-- Every frame that holds a launch time is moved (R378). -/
def moveFrames (d : Int) (s : State) : State :=
  { s with
    tsh.queues := s.tsh.queues.map fun (q : Nat × FrameQ) => (q.1, { q.2 with frames := q.2.frames.map (moveFrame d) })
    tsh.ports := s.tsh.ports.map fun (p : PortShape) => { p with timed := p.timed.map (moveFrame d) } }

/-- An armed comparator's value is moved, fraction included, and its compare words read back the moved value unless they have been
written since it was armed (R378, R503). -/
def moveCmp (d : Int) (c : Cmp) : Cmp :=
  if c.armed then
    let t := moved d c.value
    if c.dirty then { c with value := t }
    else { c with value := t, sec := t / secUnits, ns := t % secUnits / 65536, frac := t % 65536 }
  else c

/-- The 1PPS output is re-aimed at the next whole second of the new time (R378, R381). -/
def aimPps (s : State) : State := if s.tsu.syncFn = 2 then armCmp s.tsu.ppsCmp (nextSecond s) s else s

/-- An output marked to crossfade at the next block (R116, R378). -/
def markFade (o : OutSt) : OutSt := { o with cur := { o.cur with stale := true } }

/-- A mixer after a step: outputs crossfade, frame grids re-anchor at the block that starts next, and what waits for a block keeps its
distance in ns (R378). -/
def moveConf (d : Int) (start : Nat) (x : Conf) : Conf :=
  { x with
    outs := x.outs.map markFade
    mmOuts := x.mmOuts.map markFade
    grids := x.grids.map fun (g : Nat × Nat) => (g.1, start)
    rows := x.rows.map fun (r : Row) => { r with leaving := r.leaving.map (moved d), trimNs := moved d r.trimNs, peakNs := moved d r.peakNs } }

/-- The audio engine after a step: the next block starts at the first block boundary at or after the new time (R378). -/
def moveAudio (d : Int) (s : State) : State :=
  let start := atBoundaryNs 1000000 s
  { s with
    aue.confs := s.aue.confs.map fun (x : Nat × Conf) => (x.1, moveConf d start x.2)
    aue.cores := s.aue.cores.map fun (c : Nat × Core) => (c.1, { c.2 with attachNs := moved d c.2.attachNs, doneNs := moved d c.2.doneNs })
    aue.blockNs := start + 1 }

/-- Canvases: the next frame is the first whose deadline is at or after the new time; composition in progress keeps its time left
(R378). -/
def moveCanvas (dUnits : Int) (now : Nat) (c : Canvas) : Canvas :=
  let n := nextFrame c (now - 1)
  { c with
    sec := n.1, k := n.2, frameNs := moved dUnits c.frameNs
    composing := c.composing.map fun (f : Nat × Nat × List Nat × List Nat × List Nat) => (moved dUnits f.1, f.2)
    layers := c.layers.map fun (l : Nat × Layer) => (l.1, moveLayer dUnits l.2)
    groups := c.groups.map fun (g : Nat × FlipGroup) => (g.1, { g.2 with first := moved dUnits g.2.first }) }
where
  /-- The pictures a layer may latch keep their place relative to the new time. -/
  moveLayer (u : Int) (l : Layer) : Layer :=
    { l with
      wait := l.wait.map fun (p : LayerPic) => { p with fenceNs := moved u p.fenceNs }
      offers := l.offers.map fun (p : LayerPic × Nat) => ({ p.1 with fenceNs := moved u p.1.fenceNs }, p.2) }

/-- A jitter buffer keeps the release times of its packets relative to the new time. -/
def moveJitter (d : Int) (j : Jitter) : Jitter :=
  { j with
    anchorNs := moved d j.anchorNs, moveSince := moved d j.moveSince
    pkts := j.pkts.map fun (p : Nat × RtpPkt) => (moved d p.1, p.2) }

/-- Ages that a stream keeps, which a step neither lengthens nor shortens. -/
def moveStream (d : Int) (x : Stream) : Stream :=
  { x with
    jitter := moveJitter d x.jitter, lastNs := moved d x.lastNs, fbNs := moved d x.fbNs, lastReq := x.lastReq.map (moved d)
    withheldNs := x.withheldNs.map (moved d), backoffNs := moved d x.backoffNs
    layerBytes := x.layerBytes.map fun (b : Nat × Nat × Nat) => (moved d b.1, b.2)
    gaps := x.gaps.map fun (g : Nat × Nat × Nat) => (g.1, moved d g.2.1, g.2.2)
    feedback := x.feedback.map fun (b : Nat × Nat) => (b.1, moved d b.2) }

/-- Ages that a Ledger entry keeps. -/
def moveEntry (d : Int) (e : Entry) : Entry :=
  { e with
    lastSendNs := moved d e.lastSendNs, lastUp := moved d e.lastUp, lastFailNs := moved d e.lastFailNs
    lowSince := e.lowSince.map (moved d), upSince := e.upSince.map fun (u : Nat × Nat) => (u.1, moved d u.2) }

/-- Ages that a leg's governance keeps. -/
def moveGov (d : Int) (g : Gov) : Gov :=
  { g with
    sent := g.sent.map fun (r : SendRec) => { r with sentNs := moved d r.sentNs, repNs := moved d r.repNs }
    lastDec := g.lastDec.map (moved d) }

/-- Ages of the forwarding and governing blocks. -/
def moveForwarding (d : Int) (s : State) : State :=
  { s with
    fwe.streams := s.fwe.streams.map fun (x : Nat × Stream) => (x.1, moveStream d x.2)
    fwe.ledger := s.fwe.ledger.map fun (e : Nat × Entry) => (e.1, moveEntry d e.2)
    lgv.legs := s.lgv.legs.map fun (g : Nat × Gov) => (g.1, moveGov d g.2)
    lgv.epoch := moved d s.lgv.epoch }

/-- Ages of pictures, jobs and threads. -/
def moveJobs (d dUnits : Int) (s : State) : State :=
  { s with
    vca.decs := s.vca.decs.map fun (x : Nat × Dec) => (x.1, moveDec d dUnits x.2)
    vca.encs := s.vca.encs.map fun (x : Nat × Enc) => (x.1,
      { x.2 with
        job := x.2.job.map fun (j : EncJob) => { j with pic := movePic j.pic }, lastKeyReq := x.2.lastKeyReq.map (moved d)
        waitPic := x.2.waitPic.map movePic
        lowH := x.2.lowH.map fun (p : Nat × Nat) => (moved d p.1, p.2) })
    vca.sched := s.vca.sched.map fun (j : VJob) => { j with deadline := j.deadline.map (moved d) }
    vca.jobs := s.vca.jobs.map fun (j : Nat × Job) => (j.1, { j.2 with startNs := moved d j.2.startNs })
    tds.threads := s.tds.threads.map fun (t : Nat × Thread) =>
      (t.1, { t.2 with readyNs := moved d t.2.readyNs, startNs := moved d t.2.startNs }) }
where
  /-- A source picture keeps the time since its arrival. -/
  movePic (p : SrcPic) : SrcPic := { p with relNs := moved d p.relNs }
  /-- Pictures of a decoder keep their arrival, release and fence times relative to the new time. -/
  moveDec (d u : Int) (x : Dec) : Dec :=
    { x with
      asm := x.asm.map fun (p : Pic) => { p with firstNs := moved d p.firstNs, relNs := moved d p.relNs }
      ready := x.ready.map fun (p : Pic) => { p with firstNs := moved d p.firstNs, relNs := moved d p.relNs }
      outs := x.outs.map fun (p : OutPic) => { p with fenceNs := moved u p.fenceNs } }

/-- Ages of cells, of the PON and of time sources. -/
def moveSources (d dUnits : Int) (s : State) : State :=
  { s with
    cti.ports := s.cti.ports.map fun (p : CtiPort) => { p with helloNs := moved d p.helloNs, timeNs := moved d p.timeNs }
    cti.groupNs := moved d s.cti.groupNs
    ptu.ports := s.ptu.ports.map fun (p : PonPort) => { p with granted := p.granted.map fun (g : Nat × Nat) => (moved d g.1, g.2) }
    ptu.frames := s.ptu.frames.map fun (f : Nat × Nat × Nat) => (f.1, f.2.1, moved dUnits f.2.2)
    cpr.saveNs := moved d s.cpr.saveNs
    tsu.heldUpd := s.tsu.heldUpd.map fun (u : Nat × Nat × Nat) => (u.1, u.2.1, moved dUnits u.2.2)
    tsu.lastAccept := s.tsu.lastAccept.map (moved dUnits)
    tsu.ppsTimes := s.tsu.ppsTimes.map (moved dUnits)
    mss.pauseEnd := moved d s.mss.pauseEnd
    mss.chans := s.mss.chans.map fun (c : MemCh) => { c with
      lastSlot := none, openNs := moved d c.openNs, queue := c.queue.map fun (x : HeldReq) => { x with at_ := moved d x.at_ } }
    mss.behind := s.mss.behind.map fun (x : HeldReq) => { x with at_ := moved d x.at_ }
    mss.replays := s.mss.replays.map fun (r : Nat × Replay) => (r.1, { r.2 with launchNs := moved d r.2.launchNs }) }

/-- Judges the updates that waited for the step from UNSET, against the stepped time (R376, R392). -/
def judgeHeld (s : State) : State :=
  let held := s.tsu.heldUpd
  held.foldl (fun s u => judgeUpdate u.1 u.2.1 u.2.2 s) { s with tsu.heldUpd := [] }

/-- The jump of TSU by a step other than 0, and its clients: a publication still to come is made first, and the epoch in progress
closes and is computed (R376, R378). -/
def jump (delta : Int) (s : State) : State :=
  let d := delta.fdiv 65536
  let s := if s.lgv.computing then publishEpoch [] s else s
  let s := if s.lgv.gap then s else closeEpoch s
  let s := if s.lgv.gap || subDown s 15 then s else computeEpoch (nowNs s) s
  let s := setIncrement s.tsu.trim { s with
    tsu.now := moved delta s.tsu.now % tsuRange, tsu.slew := 0, tsu.slewLeft := 0
    tsu.cmps := s.tsu.cmps.map (moveCmp delta), lgv.gap := true }
  let s := moveSources d delta (moveJobs d delta (moveForwarding d (moveAudio d (moveFrames d (aimPps s)))))
  let now := nowNs s
  { s with lco.canvases := s.lco.canvases.map fun (c : Nat × Canvas) => (c.1, moveCanvas delta now c.2) }

/-- What waits for the next epoch boundary waits for the first one on the new time: the pending mode, leg classes and the synthesis
policy (R52, R204, R248, R378). -/
def repend (s : State) : State :=
  let due := epochDue s
  let s := if s.cpx.pending.isSome then { s with cpx.pendingAt := due } else s
  { s with
    lgv.classNew := s.lgv.classNew.map fun (x : Nat × Nat × ClassP) => (x.1, due, x.2.2)
    vca.polNew := s.vca.polNew.map fun (x : Nat × Nat × Nat × Nat) => (due, x.2) }

/-- STEP_APPLY: a waiting step applies at the next audio block boundary: TSU jumps, every client is moved, EVT_TIME_JUMP detail 2 is
raised, the state leaves UNSET, to HOLDOVER when the source has been lost meanwhile, and the reply of its TIME_STEP follows. A step of 0 changes nothing (R373, R376, R378, R393). -/
def execStepApply (s : State) : Host.Outcome State Fault Refusal :=
  match s.tsu.step with
  | none => .next s
  | some r =>
    let s := advanceTo (blockDue s * 65536) s
    let unset := decide (s.tsu.state = .unset)
    let old := binSeconds s
    let s := { s with tsu.step := none }
    let s := if r.delta = 0 then s else repend (jump r.delta s)
    let s := if r.delta = 0 then s else evtTime 2 (w32 r.fn :: ns64 r.delta) s
    let s := if unset then setTimeState (if r.fn = 4 then .tracking else .holdover) s else s
    let s := if r.delta = 0 ∧ !unset then s else pmTimeChange unset (decide (0 < r.delta)) old s
    let s := match r.command with
      | some qi => finishDeferred qi .ok (timeWords s.tsu.now ++ [satNs r.delta]) s
      | none => s
    .next (noSource (judgeHeld s))

/-- Sets the UTC offset: a smaller one is a forward step of UTC for the PM bins, a larger one a backward step (R305, R370). -/
def setUtcOffset (off : Int) (s : State) : State :=
  let was := s.tsu.utcOff
  let old := binSeconds s
  let s := { s with tsu.utcOff := off }
  if off = was ∨ s.tsu.state = .unset then s else pmTimeChange false (decide (off < was)) old s

/-- TIME_STEP: functions 0 to 2 make a step wait for the next block boundary, and their reply follows it; function 3 sets the UTC
offset at once, which counts as a step of UTC for the PM bins (R305, R370, R378, R393). -/
def execTimeStep (c : Cmd) (s : State) : Host.Outcome State Fault Refusal :=
  .next <| serve 0x0903 (exactly 4) c s fun s =>
    let fn := field (word c 0) 0 2
    let d := stepDelta c s
    checks
      [(decide (fn = 1 ∧ 1000000000 ≤ (word c 3).toNat), .badParam),
       (decide (fn = 0 ∧ s.tsu.lastRefused = none), .unavailable),
       (decide (fn ≠ 3) && decide ((s.tsu.now : Int) + d < 0 ∨ (tsuRange : Int) ≤ s.tsu.now + d), .badParam),
       (s.tsu.step.isSome, .resourceBusy)]
      (if fn = 3 then .done (timeWords s.tsu.now ++ [0]) (setUtcOffset (word c 1).toInt s)
       else .deferred
        { s with
          tsu.step := some { delta := d, fn := fn, command := some (qiOf c) }
          tsu.lastRefused := if fn = 0 then none else s.tsu.lastRefused })

/-- The 1PPS comparator has fired: unless the time is UNSET the output rises, and the comparator is armed for the next whole second
(R379, R381). -/
def firePps (n : Nat) (s : State) : State :=
  let s := if s.tsu.state = .unset then s else drivePin 0 true { s with tsu.ppsHigh := true, tsu.ppsRise := s.cpr.aonNs }
  armCmp n (nextSecond s) s

/-- The comparator of the EVT output has fired: the output is driven active (R476). -/
def fireEvt (n : Nat) (s : State) : State :=
  if s.tsu.evtSet ∧ s.tsu.evtOut ∧ s.tsu.evtCmp = n ∧ s.tsu.evtOwner = 1 then
    drivePin 1 (!s.tsu.evtFall) { s with tsu.evtHigh := true, tsu.evtRise := s.cpr.aonNs }
  else s

/-- COMPARATOR_FIRE: TSU reaches an armed comparator's value, or it lies in the past; fired is set and the owner's action starts:
the 1PPS output rises and is aimed at the next second, or EVT is driven active (R379-R382, R476, R503). -/
def execComparatorFire (n : Nat) (s : State) : Host.Outcome State Fault Refusal :=
  let c := cmpOf s n
  if 64 ≤ n ∨ !c.armed then .next s
  else
    let s := modCmp n (fun c => { c with armed := false, fired := true }) (advanceTo c.value s)
    .next (fireEvt n (if s.tsu.syncFn = 2 ∧ s.tsu.ppsCmp = n ∧ c.owner = 1 then firePps n s else s))

end Sys2Proof.Machine
end

