-- ==== Sys2Proof/Machine/Twin.lean ====
section
/-!
DEFINITION. Twin pairs: forming a pair, the heartbeat, mirroring, fitness, the protection switch and dual active (17 R421-R429,
R432, 02 R55, 14 R363-R365, 15 R374).
-/

namespace Sys2Proof.Machine

/-- Whether a MIRROR sequence is at or before another, modulo 2^32 (R422). -/
def mirrorLe (a b : Nat) : Bool := decide ((b + 2 ^ 32 - a) % 2 ^ 32 < 2 ^ 31)

/-- A word of the partner's last HEARTBEAT, counted from word 2 (R423). -/
def hbWord (s : State) (i : Nat) : Word := (s.cti.partnerHb.getD []).getD i 0

/-- The role that the partner last reported (R423). -/
def hbRole (s : State) : Nat := field (hbWord s 0) 0 2

/-- Takes a twin role (R433). -/
def setTwin (role : Nat) (s : State) : State :=
  if s.cti.twin = role then s else evtTwin 1 [w32 s.cti.twin, w32 role] { s with cti.twin := role }

/-! ### Mirrored objects (R422) -/

/-- Object kinds that go with each heartbeat: 200 usage of a slot, 201 egress indices of a leg, 202 TSU offset, 203 R of a leg,
204 state of a leg, 205 state of a Ledger entry; 255 begins a full mirror. -/
def heartbeatKind (kind : Nat) : Bool := decide (200 ≤ kind)

/-- The words that carry a leg's egress SRTP and SRTCP indices (R351, R365). -/
def indexImage (s : State) (leg : Nat) : List Word :=
  (s.cpe.ctxs.filter fun x => x.leg = leg ∧ x.dir = 1).flatMap fun x => [x.ssrc] ++ w64 x.top ++ [w32 x.cTop]

/-- The words that carry a leg's state and its remote address (R61, R63). -/
def legImage (l : Leg) : List Word := [w32 (l.state.code + b1 l.confirmed * 8 + b1 l.raddr.v6 * 16), w32 l.rport] ++ l.raddr.words

/-- The words that carry what a Ledger entry holds beyond its command (R70, R77, R79). -/
def entryImage (e : Entry) : List Word :=
  [w32 (e.source + e.dest * 65536), w32 (e.seqOff.toNat + e.chgSeq.toNat * 65536), w32 (e.lastIn.toNat + e.seqOffOld.toNat * 65536),
    e.tsOff, e.lastTs, w32 (e.rtxSeq + b1 e.started * 65536 + b1 e.contPend * 131072), w32 e.lastInOld.toNat]

/-- The records that go with each heartbeat (R365, R422). -/
def heartbeatRecords (s : State) : List (Nat × Nat × List Word) :=
  (s.cpe.slots.map fun (x : Nat × Slot) => (200, x.1, w32 x.2.pkts :: w64 x.2.bytes)) ++
    (s.fwe.legs.map fun (x : Nat × Leg) => (201, x.1, indexImage s x.1)) ++
    [(202, 0, [i32 s.tsu.lastOff])] ++
    (s.lgv.legs.map fun (x : Nat × Gov) => (203, x.1, [w32 x.2.rate, w32 x.2.aDelay, w32 x.2.aLoss])) ++
    (s.fwe.legs.map fun (x : Nat × Leg) => (204, x.1, legImage x.2)) ++
    (s.fwe.ledger.map fun (x : Nat × Entry) => (205, x.1, entryImage x.2))

/-- Sends the committed configuration as this module runs it, each item with the configuration sequence (R421, R422). -/
def sendConfig (s : State) : State :=
  s.flash.running.foldl (fun s (i : Nat × List Word) => sendMirror 20 i.1 (s.flash.cfgSeq :: i.2) s) s

/-- A full mirror: its beginning, the mode, the configuration and every object (R421, R422). -/
def sendFull (s : State) : State :=
  let s := sendMirror 255 0 [] { s with cti.fullNs := some s.cpr.aonNs }
  let s := sendConfig (sendMirror 3 0 (modeImage (s.cpx.pending.getD s.cpx.mode) s) s)
  s.cti.mirrorHeld.foldl (fun s r => sendMirror r.kind r.index r.image s) s

/-- Starts a full resynchronisation of the standby (R422, R433). -/
def startResync (s : State) : State :=
  evtTwin 10 [] { s with cti.resync := true, cti.mirrorHeld := [], cti.mirrorApplied := 0, cti.mirrorTimes := [] }

/-! ### Fitness (R424) -/

/-- Every MIRROR record known to be sent and not known to be applied is at most 10 ms old (R424). -/
def lagOk (s : State) : Bool := s.cti.mirrorTimes.all fun x => decide (s.cpr.aonNs ≤ x.2 + 10000000)

/-- The five conditions of R424 as a word, the first in bit 0: the active judges its partner, the standby itself. -/
def fitFlags (s : State) : Nat :=
  if !s.cti.paired then 0
  else if s.cti.twin = 2 then
    b1 (decide (s.cpx.mode = .shadow ∧ s.ptu.act = .o5)) + 2 * b1 (decide (s.hlp.link = .active)) + 4 * b1 (!s.cpx.fatal) +
      8 * b1 s.cti.keyAgree + 16 * b1 (lagOk s && !s.cti.resync)
  else
    let w := hbWord s 0
    b1 (decide (hbRole s = 2) && bit w 2) + 2 * b1 (bit w 3) + 4 * b1 (!bit w 4) + 8 * b1 s.cti.keyAgree +
      16 * b1 (lagOk s && decide (hbWord s 2 ≠ 0))

/-- Judges fitness again (R424). -/
def judgeFit (s : State) : State := { s with cti.fit := fitFlags s }

/-! ### Dropping what a standby must not hold (R55, R427) -/

/-- A module that is to be standby gives up its legs, conferences, contexts and canvases without a BYE. -/
def dropObjects (s : State) : State :=
  let s := { s with fwe.legs := s.fwe.legs.map fun (l : Nat × Leg) => (l.1, { l.2 with state := .created }) }
  let s := s.lco.canvases.foldl (fun s (x : Nat × Canvas) => deleteCanvas x.1 s) s
  let s := s.vca.encs.foldl (fun s (x : Nat × Enc) => freeEnc x.1 s) s
  let s := s.vca.decs.foldl (fun s (x : Nat × Dec) => decUnbind x.1 s) s
  let s := s.fwe.legs.foldl (fun s (x : Nat × Leg) => deleteLeg x.1 s) s
  let s := s.aue.confs.foldl (fun s (x : Nat × Conf) => deleteConf x.1 s) s
  { s with cti.mirrorHeld := [] }

/-! ### The switch (R425, R426) -/

/-- The standby takes over: it starts powering Mallet, Gouge and Ashlar, and the mirrored mode takes effect at the first epoch boundary
from here on (R55, R426). -/
def beginTakeover (code : Nat) (s : State) : State :=
  let s := { s with
    cti.switching := some code, cti.taking := true, cti.switchT := nowNs s, cti.ackSeen := false
    cpx.pending := some s.cti.mirroredMode, cpx.pendingAt := nextBoundaryNs 10000000 s }
  computeDomains.foldl (fun s d => powerUp d s) (evtTwin 4 [w32 code] s)

/-- Whether the standby takes over for a trigger code. A save keeps it from it (R425, R429). -/
def mayTake (code : Nat) (s : State) : Bool :=
  let f := fitFlags s
  !s.cpr.saving &&
    (if code = 5 then decide (f % 16 = 15)
     else if code = 4 then decide (s.ptu.act = .o5) && s.cti.heartbeat
     else decide (f = 31))

/-- TAKEOVER reaches the standby, which answers TAKEOVER_ACK, or is unfit; code 4 reaching the active is the request of the standby's
host (R425, R426). -/
def takeover (code : Nat) (s : State) : State :=
  if !s.cti.paired ∨ s.cti.switching.isSome then s
  else if s.cti.twin = 1 then
    if code = 4 then twinTrigger 4 (judgeFit { s with cti.switchForced := true, cti.switchPlanned := true, cti.ackSeen := false }) else s
  else if s.cti.twin = 2 then
    if mayTake code s then beginTakeover code (sendTwin 3 [w32 code] s)
    else evtTwin 6 [w32 (fitFlags s)] (judgeFit s)
  else s

/-- TAKEOVER (R426). -/
def execTakeover (code : Nat) (s : State) : Host.Outcome State Fault Refusal := .next (takeover code s)

/-- TAKEOVER_ACK: the standby is taking over (R426). -/
def execTakeoverAck (s : State) : Host.Outcome State Fault Refusal :=
  .next (if s.cti.twin = 1 ∧ s.cti.switching.isSome ∧ !s.cti.taking then { s with cti.ackSeen := true } else s)

/-- The active keeps the legs when no TAKEOVER_ACK has come 2 ms after T; the standby's host learns of a refusal in the same way
(R425, R426). -/
def switchRefused (s : State) : State :=
  if s.cti.twin = 1 ∧ s.cti.switching.isSome ∧ !s.cti.taking ∧ !s.cti.ackSeen ∧ s.cti.switchT + 2000000 ≤ nowNs s then
    endLong 0x0A04 0 .ok (w32 1 :: w64 s.cti.switchT) { s with cti.switching := none, cti.egressStopped := false }
  else if s.cti.twin = 2 ∧ s.cti.switching.isNone ∧ s.cti.switchT + 10000000 ≤ nowNs s then
    endLong 0x0A04 0 .ok (w32 1 :: w64 s.cti.switchT) s
  else s

/-- HOST_LINK_OUTAGE_TRIGGER: the host link has been out of ACTIVE for 20 ms (R425). -/
def execHostLinkOutageTrigger (s : State) : Host.Outcome State Fault Refusal :=
  .next (if s.hlp.link = .active ∨ s.hlp.outage then s
    else twinTrigger 1 { advanceAon (s.hlp.outNs + 20000000) s with hlp.outage := true })

/-! ### Making the mirrored objects real (R426) -/

/-- The body of a mirrored command. -/
def mirrorBody (op : Nat) : Option (Cmd → State → Res) :=
  match op with
  | 0x0301 => some legCreate
  | 0x0302 => some legModify
  | 0x0303 => some legDelete
  | 0x0304 => some streamAdd
  | 0x0305 => some streamRemove
  | 0x0306 => some subAdd
  | 0x0307 => some subRemove
  | 0x0308 => some confCreate
  | 0x0309 => some confDelete
  | 0x030B => some shaperSet
  | 0x0401 => some mixerSet
  | 0x0402 => some routeSet
  | 0x0403 => some gainSet
  | 0x0404 => some bankSwap
  | 0x0501 => some decoderBind
  | 0x0502 => some encoderSet
  | 0x0601 => some canvasCmd
  | 0x0602 => some layerCmd
  | 0x0604 => some flipGroupSet
  | 0x0701 => some classSet
  | 0x0702 => some govOverride
  | 0x0801 => some keyLoad
  | 0x0802 => some keyRetire
  | _ => none

/-- The state that a body leaves; a body that refuses changes nothing. -/
def Res.after (s : State) : Res → State
  | .done _ s' => s'
  | .accepted _ s' => s'
  | .deferred s' => s'
  | _ => s

/-- A mirrored change of an object happens on the module that takes over. -/
def applyRecord (r : MirrorRec) (s : State) : State :=
  if r.kind = 0x8F then
    if (slotOf s r.index).state = .empty then s else pointTo r.index (putSlot r.index { slotOf s r.index with state := .current } s)
  else match mirrorBody (r.kind / 16 * 256 + r.kind % 16) with
    | some body => (body { words := r.image } s).after s
    | none => s

/-- What SRTP adds on a takeover to each index and each slot's packet count (R365). -/
def takeoverRaise : Nat := 8192

/-- The egress contexts of a leg from their mirrored indices, raised (R365). -/
def indexContexts (leg : Nat) : List Word → List SsrcCtx
  | ssrc :: lo :: hi :: c :: ws =>
    let top := nat64 lo hi + takeoverRaise
    { SsrcCtx.reset with
      leg := leg, dir := 1, ssrc := ssrc, top := top, roc := top / 65536, cTop := (c.toNat + takeoverRaise) % 2 ^ 31 } ::
      indexContexts leg ws
  | _ => []

/-- A leg's mirrored state; a network leg keeps it and its consent timer restarts (R426). -/
def restoreLeg (ws : List Word) (now : Nat) (l : Leg) : Leg :=
  let w := ws.getD 0 0
  let st : LegState := if field w 0 3 = 2 then .active else if field w 0 3 = 3 then .consentLost else .created
  { l with
    state := st, confirmed := bit w 3, consentNs := now, raddr := { v6 := bit w 4, words := ws.drop 2 }, rport := (ws.getD 1 0).toNat }

/-- A Ledger entry's mirrored state, its output numbering raised with the SRTP indices. A source that this module produces itself
numbers its packets anew and is continued as after a change of source (R77, R365). -/
def restoreEntry (own : Bool) (ws : List Word) (e : Entry) : Entry :=
  let h := fun (i k : Nat) => BitVec.ofNat 16 (field (ws.getD i 0) k 16)
  let f := (ws.getD 5 0).toNat
  let pend := own || decide (f / 131072 % 2 = 1)
  let off := if f / 131072 % 2 = 1 then h 2 16 else h 1 0
  let last := if f / 131072 % 2 = 1 then h 6 0 else h 2 0
  { e with
    seqOff := h 1 0 + 8192, chgSeq := h 1 16, lastIn := h 2 0, seqOffOld := off + 8192, lastInOld := last, tsOff := ws.getD 3 0, lastTs := ws.getD 4 0
    rtxSeq := (f + takeoverRaise) % 65536, started := decide (f / 65536 % 2 = 1)
    contPend := pend && decide (f / 65536 % 2 = 1) }

/-- What a heartbeat's records give an object (R365, R422, R426). -/
def applyUse (r : MirrorRec) (s : State) : State :=
  let w := fun i => r.image.getD i 0
  if r.kind = 200 then
    if (slotOf s r.index).state = .empty then s
    else putSlot r.index { slotOf s r.index with pkts := (w 0).toNat, bytes := nat64 (w 1) (w 2) } s
  else if r.kind = 201 then { s with cpe.ctxs := s.cpe.ctxs ++ indexContexts r.index r.image }
  else if r.kind = 203 then
    { s with lgv.legs := tmod s.lgv.legs r.index fun g =>
        { g with rate := (w 0).toNat, aDelay := (w 1).toNat, aLoss := (w 2).toNat } }
  else if r.kind = 204 then modLeg r.index (restoreLeg r.image s.cpr.aonNs) s
  else if r.kind = 205 then
    let src := field (w 0) 0 16
    let own := ((tget s.fwe.streams src).map (·.origin)).getD false
    { s with fwe.ledger := s.fwe.ledger.map fun (x : Nat × Entry) =>
        if x.2.source = src ∧ x.2.dest = field (w 0) 16 14 then (x.1, restoreEntry own r.image x.2) else x }
  else s

/-- The module becomes able to carry the legs: every record it holds is applied in the mode whose capacities the mirrored
mode keeps, and packet counts are raised. No
event is sent for an object that its host did not command here (R365, R426). -/
def materialise (s : State) : State :=
  let mode := s.cpx.mode
  let ready := s.cpx.ready
  let mask := s.cpx.evMask
  let pend := s.cpx.pending
  let s := { s with cpx.mode := effMode s s.cti.mirroredMode, cpx.ready := true, cpx.evMask := 0, cpx.pending := none }
  let s := s.cti.mirrorHeld.foldl (fun s r => applyRecord r s) s
  let s := s.cti.mirrorHeld.foldl (fun s r => applyUse r s) (applyClasses s)
  { s with
    cpx.mode := mode, cpx.ready := ready, cpx.evMask := mask, cpx.pending := pend
    cpe.slots := s.cpe.slots.map fun (x : Nat × Slot) => (x.1, { x.2 with pkts := inc32 x.2.pkts takeoverRaise })
    fwe.streams := s.fwe.streams.map fun (x : Nat × Stream) => (x.1, { x.2 with jitter.quick := true })
    cti.mirrorHeld := s.cti.mirrorHeld.filter fun r => !heartbeatKind r.kind }

/-- SWITCH_POWERED: Mallet, Gouge and Ashlar are powered. The records are applied, indices and counts are raised, the role becomes
active; the mirrored mode has taken effect, or does at the first epoch boundary after takeover began (R55, R365, R426). -/
def execSwitchPowered (s : State) : Host.Outcome State Fault Refusal :=
  if !s.cti.taking ∨ s.cti.twin ≠ 2 ∨ computeDomains.any (fun d => (domainOf s d).state ≠ .on) then .next s
  else
    let s := materialise s
    .next (setTwin 1 { s with
      cti.takeoverNs := nowNs s, cti.egressStopped := true, cti.resync := false, cti.mirrorSent := 0, cti.mirrorTimes := []
      cti.fullNs := none, cti.announce := 3, cti.announceNs := none })

/-- Sends the announcements of every owned address on every port that holds it (R426). -/
def announceAll (s : State) : State :=
  (List.range 64).foldl (fun s i =>
    if (s.fwe.owned.getD i none).isSome then (Config.addressPorts i).foldl (fun s p => emit (.announce p i) s) s else s) s

/-- ADDRESS_ANNOUNCE: step 4 of a switch, repeated at +10 ms and +20 ms (R426). -/
def execAddressAnnounce (s : State) : Host.Outcome State Fault Refusal :=
  if s.cti.announce = 0 ∨ s.cti.twin ≠ 1 then .next s
  else
    let s := match s.cti.announceNs with
      | some t => advanceAon (t + 10000000) s
      | none => s
    .next (announceAll { s with cti.announce := s.cti.announce - 1, cti.announceNs := some s.cpr.aonNs })

/-- The switch is over on this module (R426, R432). -/
def switchOver (s : State) : State :=
  endLong 0x0A04 0 .ok (w32 0 :: w64 s.cti.switchT) <|
    evtTwin 5 [] { s with
      cti.switching := none, cti.taking := false, cti.ackSeen := false, cti.switches := inc32 s.cti.switches }

/-- SWITCH_COMPLETE: the new active resumes egress on every leg. The old active becomes standby after a planned TWIN_SWITCH, and
otherwise takes the failed role (R426, R427). -/
def execSwitchComplete (s : State) : Host.Outcome State Fault Refusal :=
  if s.cti.switching.isNone ∨ s.cti.twin ≠ 1 then .next s
  else if s.cti.taking then .next { switchOver s with cti.egressStopped := false }
  else if !s.cti.ackSeen then .next s
  else
    let planned := s.cti.switchPlanned && decide (s.cti.switching = some 4)
    let s := switchOver s
    .next (if planned then startResync (setTwin 2 (dropObjects s)) else setTwin 3 s)

/-! ### Mirroring on the receiving module (R422) -/

/-- A configuration item of the partner, its reserved bits dropped: one older than this module's configuration is refused as stale (R13,
R14, R339, R422, R433). -/
def configIn (id : Nat) (seq : Word) (ws : List Word) (s : State) : State :=
  if (seq - s.flash.cfgSeq).toInt < 0 then evtTwin 9 [seq, s.flash.cfgSeq] s
  else
    let n := if seq = s.flash.cfgSeq ∧ (s.cpx.cfgSlot = 1 ∨ s.cpx.cfgSlot = 2) then s.cpx.cfgSlot else commitSlot s
    let ws := maskItem id ws
    let all := tset s.flash.running id ws
    let s := modCfg n (fun _ => { hdr := true, seq := seq, items := all })
      { s with flash.running := all, flash.cfgSeq := seq, cpx.cfgSlot := n }
    applyAtCommit id ws s

/-- A record is applied to what the standby holds. Keys are unwrapped inside CPE; one whose check fails is rejected, counted and
reported (R364, R422). -/
def holdRecord (r : MirrorRec) (s : State) : State :=
  let put := fun (x : MirrorRec) => { s with cti.mirrorHeld := s.cti.mirrorHeld ++ [x] }
  if r.kind = 255 then { s with cti.mirrorHeld := [] }
  else if r.kind = 3 then 
    { s with cti.mirroredMode := modeOf (field (r.image.getD 0 0) 0 8), cti.mirroredBase := modeOf (field (r.image.getD 0 0) 8 8) }
  else if r.kind = 20 then configIn r.index (r.image.getD 0 0) (r.image.drop 1) s
  else if r.kind = 0x81 then
    match s.cpe.twinKek.bind fun kek => Config.keyUnwrap kek (r.image.drop 6) with
    | some key => put { r with image := r.image.take 6 ++ key }
    | none => fault 0x9001 [w32 r.index] { s with cpe.unwrapFails := inc32 s.cpe.unwrapFails }
  else if heartbeatKind r.kind then
    { s with cti.mirrorHeld := (s.cti.mirrorHeld.filter fun x => !decide (x.kind = r.kind ∧ x.index = r.index)) ++ [r] }
  else put r

/-- MIRROR: the standby applies records in sequence; a gap starts a full resynchronisation, during which it takes them as they come.
The active takes only the configuration of its partner (R421, R422). -/
def mirrorIn (r : MirrorRec) (s : State) : State :=
  if !s.cti.paired then s
  else if s.cti.twin ≠ 2 then (if r.kind = 20 then holdRecord r s else s)
  else if s.cti.resync ∨ r.seq = (s.cti.mirrorApplied + 1) % 2 ^ 32 then
    { holdRecord r s with cti.mirrorApplied := r.seq, cti.mirrorTimes := s.cti.mirrorTimes.filter fun x => !mirrorLe x.1 r.seq }
  else if mirrorLe r.seq s.cti.mirrorApplied then s
  else startResync s

/-- MIRROR (R422). -/
def execMirror (seq kind index : Nat) (image : List Word) (s : State) : Host.Outcome State Fault Refusal :=
  .next (mirrorIn ⟨seq, kind, index, image⟩ s)

/-- FULL_RESYNCHRONISATION_DONE: the standby's mirror is complete; a standby that holds no legs enters SHADOW at the next epoch
boundary; one that holds legs is judged here only (log 99) (R55, R421, R422). -/
def execFullResynchronisationDone (s : State) : Host.Outcome State Fault Refusal :=
  if s.cti.twin ≠ 2 ∨ !s.cti.resync then .next s
  else
    let s := { s with cti.resync := false }
    .next (judgeFit (if s.cpx.mode = .shadow ∨ !s.fwe.legs.isEmpty then s
      else { s with cpx.pending := some .shadow, cpx.pendingAt := nextBoundaryNs 10000000 s }))

/-! ### The heartbeat (R423) -/

/-- The words of a HEARTBEAT from word 2. Bit 7 is set while TSU is TRACKING on source 0, which is what the partner may use
(R374, R375, R423). -/
def heartbeatWords (s : State) : List Word :=
  [w32 (s.cti.twin + 4 * b1 (decide (s.ptu.act = .o5)) + 8 * b1 (decide (s.hlp.link = .active)) + 16 * b1 s.cpx.fatal +
      32 * b1 s.cpr.saving + 64 * b1 (decide (s.ptu.act = .o6)) + 128 * b1 (decide (s.tsu.state = .tracking ∧ s.tsu.source = 0))),
    w32 s.cti.mirrorSent, w32 (if s.cti.resync then 0 else s.cti.mirrorApplied), s.flash.cfgSeq, twinFingerprint s] ++
    w64 (nowNs s) ++ w64 s.cti.takeoverNs

/-- Sends the heartbeat's datagram to port 47,111 on the service Ethernet: 44 bytes of cell and a 16-byte tag in UDP, IP and Ethernet
(R338, R423, R430). -/
def svcHeartbeat (ws : List Word) (s : State) : State :=
  if !svcOn s then s
  else
    let s := svcDrain s
    if 64 ≤ s.cti.svc.txq.length then svcCount 5 s
    else
      let n := 44 + 16 + 8 + 20 + 18 + 4 * b1 (decide (s.cti.svc.vid ≠ 0))
      emit (.eth 0 ws) (svcPlace { Frame.reset with port := 14, len := n } s)

/-- HEARTBEAT_SEND: every 1 ms, after the active's records of the heartbeat (R365, R422, R423). -/
def execHeartbeatSend (s : State) : Host.Outcome State Fault Refusal :=
  if !s.cti.paired ∧ !s.cti.forming then .next s
  else
    let s := if s.cti.hbSentNs = 0 then s else advanceAon (s.cti.hbSentNs + 1000000) s
    let s := switchRefused { s with cti.hbSentNs := s.cpr.aonNs }
    let s := if s.cti.twin = 1 ∧ s.cti.paired then
        (heartbeatRecords s).foldl (fun s (r : Nat × Nat × List Word) => sendMirror r.1 r.2.1 r.2.2 s) s
      else s
    let ws := heartbeatWords s
    .next (svcHeartbeat ws (sendTwin 0 ws s))

/-- This module gives way to its partner (R428). -/
def yieldNow (s : State) : State :=
  let s := sendTwin 4 (w64 s.cti.takeoverNs) { s with cti.egressStopped := true }
  setTwin 3 (evtTwin 7 [] (fault 0x4004 [] s))

/-- Both modules report active: the one that took over earlier yields; of equal times, the one with the higher serial number
(R428). -/
def dualActive (s : State) : State :=
  let other := nat64 (hbWord s 7) (hbWord s 8)
  if s.cti.paired ∧ s.cti.twin = 1 ∧ hbRole s = 1 ∧ s.cti.switching = none ∧
      (s.cti.takeoverNs < other ∨ (s.cti.takeoverNs = other ∧ s.cti.partner.toNat < s.flash.serial.toNat)) then
    yieldNow s
  else s

/-- The keys' fingerprints are compared. When they come to agree, the active sends a full mirror, for no key has crossed (R363). -/
def compareKeys (s : State) : State :=
  let agree := s.cpe.twinKek.isSome && decide (hbWord s 4 = twinFingerprint s)
  let was := s.cti.keyAgree
  let s := { s with cti.keyAgree := agree }
  if s.cti.paired ∧ was ∧ !agree then evtTwin 8 [] s
  else if s.cti.paired ∧ !was ∧ agree ∧ s.cti.twin = 1 then sendFull s
  else s

/-- Acknowledgements: the active learns what has been applied and sends a full mirror to a standby that has none; the standby learns
what has been sent (R421, R422, R424). -/
def heartbeatAcks (s : State) : State :=
  if s.cti.twin = 1 then
    let applied := (hbWord s 2).toNat
    let s := { s with
      cti.mirrorTimes := if applied = 0 then s.cti.mirrorTimes else s.cti.mirrorTimes.filter fun x => !mirrorLe x.1 applied }
    let due := (s.cti.fullNs.map fun t => decide (t + 2000000000 ≤ s.cpr.aonNs)).getD true
    if hbRole s = 2 ∧ applied = 0 ∧ due then sendFull s else s
  else if s.cti.twin = 2 then
    let sent := (hbWord s 1).toNat
    if mirrorLe sent s.cti.mirrorApplied then s else { s with cti.mirrorTimes := s.cti.mirrorTimes ++ [(sent, s.cpr.aonNs)] }
  else s

/-- Time source 2: qualified while the Quoin heartbeat is up and the partner tracks; one update each second, the partner's time with
the delay of the lane (R374, R423). -/
def heartbeatTime (s : State) : State :=
  let ok := bit (hbWord s 0) 7
  if !ok then (if s.tsu.qualified.getD 2 false then unqualify 2 s else s)
  else
    let s := { s with tsu.qualified := s.tsu.qualified.set 2 true }
    if s.cti.twinTimeNs ≠ 0 ∧ s.cpr.aonNs < s.cti.twinTimeNs + 1000000000 then s
    else
      let lane := if portInSync s 4 then 4 else 5
      let t := nat64 (hbWord s 5) (hbWord s 6) + (ctiPort s lane).delay
      sourceUpdate 2 (t * 65536) s.tsu.now { s with cti.twinTimeNs := max 1 s.cpr.aonNs }

/-- HEARTBEAT of the partner on the Quoin lanes or the service Ethernet (R423). -/
def heartbeat (quoin : Bool) (words : List Word) (s : State) : State :=
  let was := s.cti.heartbeat
  let s := { s with cti.heartbeat := true, cti.hbNs := some s.cpr.aonNs, cti.partnerHb := some (words.drop 2) }
  let s := if quoin then { s with cti.quoinNs := some s.cpr.aonNs } else s
  let s := if was then s else evtTwin 3 [s.cti.partner] s
  let s := dualActive (heartbeatAcks (compareKeys s))
  judgeFit (if quoin then heartbeatTime s else s)

/-- HEARTBEAT (R423): a datagram is also counted by the service Ethernet (R432). -/
def execHeartbeat (quoin : Bool) (words : List Word) (s : State) : Host.Outcome State Fault Refusal :=
  .next <|
    if !s.cti.paired ∧ !s.cti.forming then s
    else if quoin then (if portInSync s 4 || portInSync s 5 then heartbeat true words s else s)
    else if svcOn s then heartbeat false words (svcCount 8 s)
    else s

/-- HEARTBEAT_LOSS: no heartbeat on either path for 10 ms. The partner is lost; a standby fit but for the mirror's lag takes over
(R374, R425, R433). -/
def execHeartbeatLoss (s : State) : Host.Outcome State Fault Refusal :=
  match s.cti.hbNs with
  | none => .next s
  | some t =>
    let s := advanceAon (t + 10000000) s
    let s := evtTwin 2 [s.cti.partner] { s with cti.heartbeat := false, cti.hbNs := none, cti.quoinNs := none }
    let s := if s.tsu.qualified.getD 2 false then unqualify 2 s else s
    .next <|
      if s.cti.paired ∧ s.cti.twin = 2 ∧ s.cti.switching = none then
        if mayTake 5 s then beginTakeover 5 s else evtTwin 6 [w32 (fitFlags s)] (judgeFit s)
      else { s with cti.fit := 0 }

/-- YIELD: the partner has given way and is failed (R427, R428). -/
def execYield (takeoverNs : Nat) (s : State) : Host.Outcome State Fault Refusal :=
  .next (if s.cti.paired then
      let w := w32 ((hbWord s 0).toNat / 4 * 4 + 3)
      judgeFit { s with cti.partnerHb := some ([w] ++ (List.range 6).map (fun i => hbWord s (i + 1)) ++ w64 takeoverNs) }
    else s)

/-! ### Commands (R432) -/

/-- The 6 words of TWIN_PAIR status (R432). -/
def twinStatus (s : State) : List Word :=
  [w32 s.cti.twin, s.cti.partner, w32 s.cti.fit, w32 s.cti.mirrorSent, w32 s.cti.mirrorApplied, w32 s.cti.switches]

/-- The pair is dissolved: a module in SHADOW enters its boot mode (R42, R55). -/
def dissolve (s : State) : State :=
  let s := setTwin 0 { s with
    cti.paired := false, cti.heartbeat := false, cti.hbNs := none, cti.quoinNs := none, cti.partnerHb := none, cti.fit := 0
    cti.keyAgree := false, cti.resync := false, cti.mirrorSent := 0, cti.mirrorApplied := 0, cti.mirrorTimes := []
    cti.mirrorHeld := if s.cti.twin = 2 then [] else s.cti.mirrorHeld, cti.egressStopped := false, cti.fullNs := none }
  let s := if s.tsu.qualified.getD 2 false then unqualify 2 s else s
  if s.cpx.mode = .shadow then { s with cpx.pending := some (bootMode s), cpx.pendingAt := nextBoundaryNs 10000000 s }
  else if s.cpx.pending = some .shadow then { s with cpx.pending := none, cpx.pendingAt := 0 }
  else s

/-- TWIN_PAIR's body: form, dissolve and status (R55, R421, R427, R432). -/
def twinPair (c : Cmd) (s : State) : Res :=
  match field (word c 0) 16 4 with
  | 0 =>
    let prefer := field (word c 2) 0 2
    checks
      [(decide (prefer = 0 ∨ prefer = 3), .badParam),
       (s.cti.forming || s.cti.switching.isSome || (s.cti.paired && decide (s.cti.twin ≠ 3)) ||
          (decide (prefer = 2 ∧ s.cti.twin ≠ 3) && !s.fwe.legs.isEmpty), .resourceBusy)]
      (.accepted 0 (twinForm (word c 1) prefer (if s.cti.twin = 3 then dropObjects s else s)))
  | 1 => checks [(s.cti.forming || s.cti.switching.isSome, .resourceBusy)] (.done [] (if s.cti.paired then dissolve s else s))
  | 2 => .done (twinStatus s) s
  | _ => .refuse .badParam

/-- TWIN_PAIR (R421, R432). -/
def execTwinPair (c : Cmd) (s : State) : Host.Outcome State Fault Refusal :=
  .next <| serve 0x0A03 (fnLens [3, 1, 1] c) c s (twinPair c)

/-- The partner named has been met: its HELLO and its HEARTBEAT match on the Quoin link (R421). -/
def partnerMet (s : State) : Bool :=
  s.cti.heartbeat && ([4, 5].any fun p => ((ctiPort s p).hello.map fun ws => decide (ws.getD 2 0 = s.cti.partner)).getD false)

/-- The roles are settled: the preferred active is active, of equal preferences the lower serial number; the later configuration
crosses, and the standby starts its full mirror (R421). -/
def joinPair (prefer : Nat) (s : State) : State :=
  let active := if s.cti.prefer = prefer then decide (s.flash.serial.toNat < s.cti.partner.toNat) else decide (s.cti.prefer = 1)
  let s := { s with
    cti.forming := false, cti.paired := true, cti.mirrorSent := 0, cti.mirrorApplied := 0, cti.mirrorTimes := [], cti.fullNs := none
    cti.egressStopped := false }
  let s := setTwin (if active then 1 else 2) (compareKeys { s with cti.keyAgree := true })
  let s := if 0 < (s.flash.cfgSeq - hbWord s 3).toInt then sendConfig s else s
  judgeFit (if active then s else startResync s)

/-- PAIRING_DONE: the pair is formed with the partner, whose preferred role is given, or 10 s have passed without it; EVT_LONG_DONE
carries the result and the role (R421, R432). -/
def execPairingDone (prefer : Nat) (s : State) : Host.Outcome State Fault Refusal :=
  if !s.cti.forming then .next s
  else if partnerMet s then
    let s := joinPair prefer s
    .next (endLong 0x0A03 0 .ok [w32 (if s.cti.keyAgree then 0 else 2), w32 s.cti.twin] s)
  else
    let s := advanceAon (s.cti.formNs + 10000000000) { s with cti.forming := false }
    .next (endLong 0x0A03 0 .ok [w32 1, w32 s.cti.twin] s)

/-- TWIN_SWITCH's body: one switch at a time; the switch is taken up once ACCEPTED has been sent (R429, R432). -/
def twinSwitch (c : Cmd) (s : State) : Res :=
  checks [(s.cti.switching.isSome || longOpen 0x0A04 s, .resourceBusy)]
    (.accepted 0 { s with cti.switchAsk := some (bit (word c 0) 0) })

/-- The end of a TWIN_SWITCH that starts no switch (R432). -/
def switchFails (result : Nat) (s : State) : State := endLong 0x0A04 0 .ok (w32 result :: w64 (nowNs s)) s

/-- Takes up a TWIN_SWITCH: the active raises trigger 4; the standby asks the active for it (R425, R432). -/
def settleSwitch (s : State) : State :=
  match s.cti.switchAsk with
  | none => s
  | some forced =>
    let s := judgeFit { s with cti.switchAsk := none, cti.switchForced := forced, cti.switchPlanned := !forced, cti.ackSeen := false }
    if !s.cti.paired ∨ !s.cti.heartbeat ∨ s.cti.twin = 0 ∨ s.cti.twin = 3 then switchFails 2 s
    else if s.cti.twin = 1 then
      let s := twinTrigger 4 s
      if s.cti.switching = none then switchFails 1 s else s
    else if twinFit 4 s then sendTwin 2 [w32 4] { s with cti.switchT := nowNs s }
    else switchFails 1 (evtTwin 6 [w32 s.cti.fit] s)

/-- TWIN_SWITCH (R425, R432). -/
def execTwinSwitch (c : Cmd) (s : State) : Host.Outcome State Fault Refusal :=
  .next <| settleSwitch (serve 0x0A04 (exactly 1) c s (twinSwitch c))

end Sys2Proof.Machine
end

