-- ==== Sys2Proof/Machine/Dispatch.lean ====
section
/-!
DEFINITION. The dispatch: one arm per command of the opcode table, each one direct call of that command's meaning.
-/

namespace Sys2Proof.Machine

/-- The effect of a command on everything but the queue of waiting commands. -/
def exec (i : Instr) (s : State) : Host.Outcome State Fault Refusal :=
  match i with
  | .nop c => Sys2Proof.Machine.execNop c s
  | .getInfo c => Sys2Proof.Machine.execGetInfo c s
  | .setMode c => Sys2Proof.Machine.execSetMode c s
  | .getStatus c => Sys2Proof.Machine.execGetStatus c s
  | .resetDomain c => Sys2Proof.Machine.execResetDomain c s
  | .resetDomainReady sub inst => Sys2Proof.Machine.execResetDomainReady sub inst s
  | .subscribeEvents c => Sys2Proof.Machine.execSubscribeEvents c s
  | .imageWrite c => Sys2Proof.Machine.execImageWrite c s
  | .imageCommit c => Sys2Proof.Machine.execImageCommit c s
  | .imageCommitDone readbackOk => Sys2Proof.Machine.execImageCommitDone readbackOk s
  | .configRead c => Sys2Proof.Machine.execConfigRead c s
  | .configWrite c => Sys2Proof.Machine.execConfigWrite c s
  | .configCommit c => Sys2Proof.Machine.execConfigCommit c s
  | .configCommitDone => Sys2Proof.Machine.execConfigCommitDone s
  | .ponStatus c => Sys2Proof.Machine.execPonStatus c s
  | .ponSetProfile c => Sys2Proof.Machine.execPonSetProfile c s
  | .ponOmciRelay c => Sys2Proof.Machine.execPonOmciRelay c s
  | .ponPmRead c => Sys2Proof.Machine.execPonPmRead c s
  | .ponProtectCtrl c => Sys2Proof.Machine.execPonProtectCtrl c s
  | .legCreate c => Sys2Proof.Machine.execLegCreate c s
  | .legModify c => Sys2Proof.Machine.execLegModify c s
  | .legDelete c => Sys2Proof.Machine.execLegDelete c s
  | .streamAdd c => Sys2Proof.Machine.execStreamAdd c s
  | .streamRemove c => Sys2Proof.Machine.execStreamRemove c s
  | .subAdd c => Sys2Proof.Machine.execSubAdd c s
  | .subRemove c => Sys2Proof.Machine.execSubRemove c s
  | .confCreate c => Sys2Proof.Machine.execConfCreate c s
  | .confDelete c => Sys2Proof.Machine.execConfDelete c s
  | .legStats c => Sys2Proof.Machine.execLegStats c s
  | .shaperSet c => Sys2Proof.Machine.execShaperSet c s
  | .audMixerSet c => Sys2Proof.Machine.execAudMixerSet c s
  | .audRouteSet c => Sys2Proof.Machine.execAudRouteSet c s
  | .audGainSet c => Sys2Proof.Machine.execAudGainSet c s
  | .audBankSwap c => Sys2Proof.Machine.execAudBankSwap c s
  | .audMeterRead c => Sys2Proof.Machine.execAudMeterRead c s
  | .audProgramLoad c => Sys2Proof.Machine.execAudProgramLoad c s
  | .vidDecoderBind c => Sys2Proof.Machine.execVidDecoderBind c s
  | .vidEncoderSet c => Sys2Proof.Machine.execVidEncoderSet c s
  | .vidKeyframe c => Sys2Proof.Machine.execVidKeyframe c s
  | .entryRepairDone entry result => Sys2Proof.Machine.execEntryRepairDone entry result s
  | .vidSynthPolicy c => Sys2Proof.Machine.execVidSynthPolicy c s
  | .vidCoreQuiesce c => Sys2Proof.Machine.execVidCoreQuiesce c s
  | .coreQuiesced core => Sys2Proof.Machine.execCoreQuiesced core s
  | .canvasSet c => Sys2Proof.Machine.execCanvasSet c s
  | .layerSet c => Sys2Proof.Machine.execLayerSet c s
  | .layerImageLoad c => Sys2Proof.Machine.execLayerImageLoad c s
  | .imageConversionDone slot => Sys2Proof.Machine.execImageConversionDone slot s
  | .flipGroupSet c => Sys2Proof.Machine.execFlipGroupSet c s
  | .govClassSet c => Sys2Proof.Machine.execGovClassSet c s
  | .govOverride c => Sys2Proof.Machine.execGovOverride c s
  | .govRead c => Sys2Proof.Machine.execGovRead c s
  | .keyLoad c => Sys2Proof.Machine.execKeyLoad c s
  | .keyRetire c => Sys2Proof.Machine.execKeyRetire c s
  | .keyStatus c => Sys2Proof.Machine.execKeyStatus c s
  | .twinKeyLoad c => Sys2Proof.Machine.execTwinKeyLoad c s
  | .timeRead c => Sys2Proof.Machine.execTimeRead c s
  | .timeSourceSet c => Sys2Proof.Machine.execTimeSourceSet c s
  | .timeStep c => Sys2Proof.Machine.execTimeStep c s
  | .timeThresholdSet c => Sys2Proof.Machine.execTimeThresholdSet c s
  | .clusterRoleSet c => Sys2Proof.Machine.execClusterRoleSet c s
  | .coursePortSet c => Sys2Proof.Machine.execCoursePortSet c s
  | .twinPair c => Sys2Proof.Machine.execTwinPair c s
  | .pairingDone prefer => Sys2Proof.Machine.execPairingDone prefer s
  | .twinSwitch c => Sys2Proof.Machine.execTwinSwitch c s
  | .svcethSet c => Sys2Proof.Machine.execSvcethSet c s
  | .storePolicySet c => Sys2Proof.Machine.execStorePolicySet c s
  | .storeExport c => Sys2Proof.Machine.execStoreExport c s
  | .exportDone n => Sys2Proof.Machine.execExportDone n s
  | .storeReplay c => Sys2Proof.Machine.execStoreReplay c s
  | .replayEnd n reason => Sys2Proof.Machine.execReplayEnd n reason s
  | .memStatus c => Sys2Proof.Machine.execMemStatus c s
  | .powerStateSet c => Sys2Proof.Machine.execPowerStateSet c s
  | .sleepEntered => Sys2Proof.Machine.execSleepEntered s
  | .perfLevelSet c => Sys2Proof.Machine.execPerfLevelSet c s
  | .padRelease c => Sys2Proof.Machine.execPadRelease c s
  | .clockSelect c => Sys2Proof.Machine.execClockSelect c s
  | .resourceClaim c => Sys2Proof.Machine.execResourceClaim c s
  | .traceCtrl c => Sys2Proof.Machine.execTraceCtrl c s
  | .traceRead c => Sys2Proof.Machine.execTraceRead c s
  | .counterRead c => Sys2Proof.Machine.execCounterRead c s
  | .faultLogRead c => Sys2Proof.Machine.execFaultLogRead c s
  | .loopback c => Sys2Proof.Machine.execLoopback c s
  | .loopbackDone target errors mib => Sys2Proof.Machine.execLoopbackDone target errors mib s
  | .regRead c => Sys2Proof.Machine.execRegRead c s
  | .regWrite c => Sys2Proof.Machine.execRegWrite c s
  | .backupAcknowledgement queue code tag seq => Sys2Proof.Machine.execBackupAcknowledgement queue code tag seq s
  | .notACommandDiscard queue => Sys2Proof.Machine.execNotACommandDiscard queue s
  | .backupDatagram source port bytes => Sys2Proof.Machine.execBackupDatagram source port bytes s
  | .backupEventResend => Sys2Proof.Machine.execBackupEventResend s
  | .fatalFaultReset => Sys2Proof.Machine.execFatalFaultReset s
  | .sysResetReqWrite value => Sys2Proof.Machine.execSysResetReqWrite value s
  | .handoffSet => Sys2Proof.Machine.execHandoffSet s
  | .trainReadySet => Sys2Proof.Machine.execTrainReadySet s
  | .hlpLanePolWrite value w => Sys2Proof.Machine.execHlpLanePolWrite value w s
  | .tsuIncrWrite value => Sys2Proof.Machine.execTsuIncrWrite value s
  | .tsuIncrDitherWrite value => Sys2Proof.Machine.execTsuIncrDitherWrite value s
  | .tsuTimeSecRead requester => Sys2Proof.Machine.execTsuTimeSecRead requester s
  | .tsuCmpSecRead requester n => Sys2Proof.Machine.execTsuCmpSecRead requester n s
  | .compareWordsWrite n which value w => Sys2Proof.Machine.execCompareWordsWrite n which value w s
  | .comparatorArmWrite n value w => Sys2Proof.Machine.execComparatorArmWrite n value w s
  | .comparatorFiredClear n value w => Sys2Proof.Machine.execComparatorFiredClear n value w s
  | .xingOverrunClear value => Sys2Proof.Machine.execXingOverrunClear value s
  | .mssAgeLimitWrite value => Sys2Proof.Machine.execMssAgeLimitWrite value s
  | .puRegionWrite addr value => Sys2Proof.Machine.execPuRegionWrite addr value s
  | .keyRegisterWrite addr value w => Sys2Proof.Machine.execKeyRegisterWrite addr value w s
  | .rcCounterRead addr => Sys2Proof.Machine.execRcCounterRead addr s
  | .registerWritePlain addr value w => Sys2Proof.Machine.execRegisterWritePlain addr value w s
  | .fabricRequest r => Sys2Proof.Machine.execFabricRequest r s
  | .fabricFlitArrival link number f => Sys2Proof.Machine.execFabricFlitArrival link number f s
  | .dramRead addr span bad => Sys2Proof.Machine.execDramRead addr span bad s
  | .retrainingPause ch marginOk => Sys2Proof.Machine.execRetrainingPause ch marginOk s
  | .ingressDatagram port d => Sys2Proof.Machine.execIngressDatagram port d s
  | .rtpPacketIngress stream p => Sys2Proof.Machine.execRtpPacketIngress stream p s
  | .cairnAppendTimeout stream number => Sys2Proof.Machine.execCairnAppendTimeout stream number s
  | .bufferRelease pool index => Sys2Proof.Machine.execBufferRelease pool index s
  | .chainWalk w => Sys2Proof.Machine.execChainWalk w s
  | .stunBindingRequest leg r => Sys2Proof.Machine.execStunBindingRequest leg r s
  | .consentResponse leg rttUs valid => Sys2Proof.Machine.execConsentResponse leg rttUs valid s
  | .consentCheckSend leg => Sys2Proof.Machine.execConsentCheckSend leg s
  | .consentExpiry leg => Sys2Proof.Machine.execConsentExpiry leg s
  | .dtlsDatagramIngress leg bytes => Sys2Proof.Machine.execDtlsDatagramIngress leg bytes s
  | .hostDataFrame bytes => Sys2Proof.Machine.execHostDataFrame bytes s
  | .rtcpSrRr leg r => Sys2Proof.Machine.execRtcpSrRr leg r s
  | .rtcpSdes leg cname => Sys2Proof.Machine.execRtcpSdes leg cname s
  | .rtcpBye leg ssrc => Sys2Proof.Machine.execRtcpBye leg ssrc s
  | .genericNack leg ssrc seqs => Sys2Proof.Machine.execGenericNack leg ssrc seqs s
  | .pliFir leg ssrc fir => Sys2Proof.Machine.execPliFir leg ssrc fir s
  | .congestionFeedback leg reports => Sys2Proof.Machine.execCongestionFeedback leg reports s
  | .rtcpOtherType port => Sys2Proof.Machine.execRtcpOtherType port s
  | .flexfecRepairPacket stream recovered => Sys2Proof.Machine.execFlexfecRepairPacket stream recovered s
  | .flexfecRecoveryTimeout stream seq => Sys2Proof.Machine.execFlexfecRecoveryTimeout stream seq s
  | .srSend leg ssrc => Sys2Proof.Machine.execSrSend leg ssrc s
  | .nackSend stream seq => Sys2Proof.Machine.execNackSend stream seq s
  | .feedbackSend stream => Sys2Proof.Machine.execFeedbackSend stream s
  | .portReadyServe port => Sys2Proof.Machine.execPortReadyServe port s
  | .pacedLaunch port => Sys2Proof.Machine.execPacedLaunch port s
  | .launchTimeReached leg service port => Sys2Proof.Machine.execLaunchTimeReached leg service port s
  | .audioBlockBoundary run => Sys2Proof.Machine.execAudioBlockBoundary run s
  | .anchorWindowEnd stream => Sys2Proof.Machine.execAnchorWindowEnd stream s
  | .encodeGroupFrame conf group => Sys2Proof.Machine.execEncodeGroupFrame conf group s
  | .trimZeroCrossing conf row => Sys2Proof.Machine.execTrimZeroCrossing conf row s
  | .plumbEpochBoundary => Sys2Proof.Machine.execPlumbEpochBoundary s
  | .plumbPublication late => Sys2Proof.Machine.execPlumbPublication late s
  | .levelCellSend group => Sys2Proof.Machine.execLevelCellSend group s
  | .selectionCellSend group => Sys2Proof.Machine.execSelectionCellSend group s
  | .clusterSumDeadline group step => Sys2Proof.Machine.execClusterSumDeadline group step s
  | .slotBlockMissed core => Sys2Proof.Machine.execSlotBlockMissed core s
  | .malletNop core => Sys2Proof.Machine.execMalletNop core s
  | .mac core => Sys2Proof.Machine.execMac core s
  | .msu core => Sys2Proof.Machine.execMsu core s
  | .mpy core => Sys2Proof.Machine.execMpy core s
  | .clr core => Sys2Proof.Machine.execClr core s
  | .asra core => Sys2Proof.Machine.execAsra core s
  | .sta core => Sys2Proof.Machine.execSta core s
  | .add core => Sys2Proof.Machine.execAdd core s
  | .sub core => Sys2Proof.Machine.execSub core s
  | .adds core => Sys2Proof.Machine.execAdds core s
  | .subs core => Sys2Proof.Machine.execSubs core s
  | .and core => Sys2Proof.Machine.execAnd core s
  | .or core => Sys2Proof.Machine.execOr core s
  | .xor core => Sys2Proof.Machine.execXor core s
  | .shl core => Sys2Proof.Machine.execShl core s
  | .shr core => Sys2Proof.Machine.execShr core s
  | .asr core => Sys2Proof.Machine.execAsr core s
  | .min core => Sys2Proof.Machine.execMin core s
  | .max core => Sys2Proof.Machine.execMax core s
  | .abs core => Sys2Proof.Machine.execAbs core s
  | .movi core => Sys2Proof.Machine.execMovi core s
  | .mov core => Sys2Proof.Machine.execMov core s
  | .loop core => Sys2Proof.Machine.execLoop core s
  | .br core => Sys2Proof.Machine.execBr core s
  | .call core => Sys2Proof.Machine.execCall core s
  | .ret core => Sys2Proof.Machine.execRet core s
  | .done core => Sys2Proof.Machine.execDone core s
  | .halt core => Sys2Proof.Machine.execHalt core s
  | .illegalInstruction core => Sys2Proof.Machine.execIllegalInstruction core s
  | .assemblyDeadline ctx => Sys2Proof.Machine.execAssemblyDeadline ctx s
  | .decodeJobComplete ctx r => Sys2Proof.Machine.execDecodeJobComplete ctx r s
  | .decodeWatchdog core => Sys2Proof.Machine.execDecodeWatchdog core s
  | .catchUpTimeout ctx => Sys2Proof.Machine.execCatchUpTimeout ctx s
  | .encoderSourcePicture ctx src => Sys2Proof.Machine.execEncoderSourcePicture ctx src s
  | .encodeJobComplete ctx r => Sys2Proof.Machine.execEncodeJobComplete ctx r s
  | .synthCatchUpDone job dec => Sys2Proof.Machine.execSynthCatchUpDone job dec s
  | .synthEncodeDone job r => Sys2Proof.Machine.execSynthEncodeDone job r s
  | .synthNoTime job => Sys2Proof.Machine.execSynthNoTime job s
  | .bridgedLimitExpiry job => Sys2Proof.Machine.execBridgedLimitExpiry job s
  | .flipDeadline canvas poisoned => Sys2Proof.Machine.execFlipDeadline canvas poisoned s
  | .compositionFinished canvas => Sys2Proof.Machine.execCompositionFinished canvas s
  | .psyncCandidate path counter => Sys2Proof.Machine.execPsyncCandidate path counter s
  | .expectedFramePosition path f => Sys2Proof.Machine.execExpectedFramePosition path f s
  | .xgemFrame f => Sys2Proof.Machine.execXgemFrame f s
  | .burstProfile p => Sys2Proof.Machine.execBurstProfile p s
  | .assignOnuId p => Sys2Proof.Machine.execAssignOnuId p s
  | .rangingTime p => Sys2Proof.Machine.execRangingTime p s
  | .deactivateOnuId p => Sys2Proof.Machine.execDeactivateOnuId p s
  | .disableSerialNumber p => Sys2Proof.Machine.execDisableSerialNumber p s
  | .requestRegistration p => Sys2Proof.Machine.execRequestRegistration p s
  | .assignAllocId p => Sys2Proof.Machine.execAssignAllocId p s
  | .keyControl p => Sys2Proof.Machine.execKeyControl p s
  | .sleepAllow p => Sys2Proof.Machine.execSleepAllow p s
  | .changePowerLevel p => Sys2Proof.Machine.execChangePowerLevel p s
  | .powerConsumptionInquire p => Sys2Proof.Machine.execPowerConsumptionInquire p s
  | .refusedPloam p => Sys2Proof.Machine.execRefusedPloam p s
  | .bwmapGrant g => Sys2Proof.Machine.execBwmapGrant g s
  | .upstreamBurst port => Sys2Proof.Machine.execUpstreamBurst port s
  | .transmitMonitorTrip => Sys2Proof.Machine.execTransmitMonitorTrip s
  | .omciMessage m => Sys2Proof.Machine.execOmciMessage m s
  | .omciRelayTimeout tid => Sys2Proof.Machine.execOmciRelayTimeout tid s
  | .timeOfDayPair n sec ns => Sys2Proof.Machine.execTimeOfDayPair n sec ns s
  | .to1Expiry => Sys2Proof.Machine.execTo1Expiry s
  | .to2Expiry => Sys2Proof.Machine.execTo2Expiry s
  | .protectionTimerExpiry => Sys2Proof.Machine.execProtectionTimerExpiry s
  | .rateNoCandidateTimeout => Sys2Proof.Machine.execRateNoCandidateTimeout s
  | .iHoldExpiry => Sys2Proof.Machine.execIHoldExpiry s
  | .watchPeekTick wake => Sys2Proof.Machine.execWatchPeekTick wake s
  | .iLowpowerExpiry => Sys2Proof.Machine.execILowpowerExpiry s
  | .iAwareExpiry => Sys2Proof.Machine.execIAwareExpiry s
  | .pmBinBoundary day => Sys2Proof.Machine.execPmBinBoundary day s
  | .poll => Sys2Proof.Machine.execPoll s
  | .powerLoss => Sys2Proof.Machine.execPowerLoss s
  | .train payload => Sys2Proof.Machine.execTrain payload s
  | .boot bytes => Sys2Proof.Machine.execBoot bytes s
  | .wakePattern => Sys2Proof.Machine.execWakePattern s
  | .sidebandCrcFail => Sys2Proof.Machine.execSidebandCrcFail s
  | .laneSymbolLock mask => Sys2Proof.Machine.execLaneSymbolLock mask s
  | .laneSyncTimeout => Sys2Proof.Machine.execLaneSyncTimeout s
  | .equalizeDone good => Sys2Proof.Machine.execEqualizeDone good s
  | .fecAlignmentLock ok => Sys2Proof.Machine.execFecAlignmentLock ok s
  | .creditInit credits => Sys2Proof.Machine.execCreditInit credits s
  | .flitReceived f => Sys2Proof.Machine.execFlitReceived f s
  | .flitNak seq => Sys2Proof.Machine.execFlitNak seq s
  | .creditReturn ch n => Sys2Proof.Machine.execCreditReturn ch n s
  | .linkRetrain => Sys2Proof.Machine.execLinkRetrain s
  | .retrainFailed => Sys2Proof.Machine.execRetrainFailed s
  | .sofMark cycles => Sys2Proof.Machine.execSofMark cycles s
  | .sofMiss => Sys2Proof.Machine.execSofMiss s
  | .aonTrimWindow count => Sys2Proof.Machine.execAonTrimWindow count s
  | .keyDelayedRetire slot => Sys2Proof.Machine.execKeyDelayedRetire slot s
  | .timeSourceUpdate source tSrc tCap => Sys2Proof.Machine.execTimeSourceUpdate source tSrc tCap s
  | .stepApply => Sys2Proof.Machine.execStepApply s
  | .sourceQualificationLoss source => Sys2Proof.Machine.execSourceQualificationLoss source s
  | .ppsInputPulse => Sys2Proof.Machine.execPpsInputPulse s
  | .comparatorFire n => Sys2Proof.Machine.execComparatorFire n s
  | .evtInputEdge => Sys2Proof.Machine.execEvtInputEdge s
  | .threadPost n d => Sys2Proof.Machine.execThreadPost n d s
  | .coreFreeDispatch core => Sys2Proof.Machine.execCoreFreeDispatch core s
  | .threadComplete core => Sys2Proof.Machine.execThreadComplete core s
  | .threadYield core => Sys2Proof.Machine.execThreadYield core s
  | .threadBlock core => Sys2Proof.Machine.execThreadBlock core s
  | .runBudgetOverrun core => Sys2Proof.Machine.execRunBudgetOverrun core s
  | .courseFrame port f => Sys2Proof.Machine.execCourseFrame port f s
  | .containerReceived port c => Sys2Proof.Machine.execContainerReceived port c s
  | .audioCell port c => Sys2Proof.Machine.execAudioCell port c s
  | .ipPacketCell port d => Sys2Proof.Machine.execIpPacketCell port d s
  | .hello port words => Sys2Proof.Machine.execHello port words s
  | .timeCell port words => Sys2Proof.Machine.execTimeCell port words s
  | .groupCell port words => Sys2Proof.Machine.execGroupCell port words s
  | .helloSend port => Sys2Proof.Machine.execHelloSend port s
  | .timeCellSend port => Sys2Proof.Machine.execTimeCellSend port s
  | .groupCellSend => Sys2Proof.Machine.execGroupCellSend s
  | .managerPathLost => Sys2Proof.Machine.execManagerPathLost s
  | .heartbeat quoin words => Sys2Proof.Machine.execHeartbeat quoin words s
  | .heartbeatSend => Sys2Proof.Machine.execHeartbeatSend s
  | .heartbeatLoss => Sys2Proof.Machine.execHeartbeatLoss s
  | .mirror seq kind index image => Sys2Proof.Machine.execMirror seq kind index image s
  | .takeover code => Sys2Proof.Machine.execTakeover code s
  | .takeoverAck => Sys2Proof.Machine.execTakeoverAck s
  | .yield takeoverNs => Sys2Proof.Machine.execYield takeoverNs s
  | .hostLinkOutageTrigger => Sys2Proof.Machine.execHostLinkOutageTrigger s
  | .switchPowered => Sys2Proof.Machine.execSwitchPowered s
  | .addressAnnounce => Sys2Proof.Machine.execAddressAnnounce s
  | .switchComplete => Sys2Proof.Machine.execSwitchComplete s
  | .serviceEthernetFrame f => Sys2Proof.Machine.execServiceEthernetFrame f s
  | .collision late => Sys2Proof.Machine.execCollision late s
  | .speedPolicyTimer util => Sys2Proof.Machine.execSpeedPolicyTimer util s
  | .transceiverHotPlug port inserted mw => Sys2Proof.Machine.execTransceiverHotPlug port inserted mw s
  | .inputPowerApplied dv => Sys2Proof.Machine.execInputPowerApplied dv s
  | .bankCharged tUs => Sys2Proof.Machine.execBankCharged tUs s
  | .holdupChargeTimeout => Sys2Proof.Machine.execHoldupChargeTimeout s
  | .crystalStable => Sys2Proof.Machine.execCrystalStable s
  | .crystalTimeout => Sys2Proof.Machine.execCrystalTimeout s
  | .bootRomHandoff => Sys2Proof.Machine.execBootRomHandoff s
  | .bootWatchdog => Sys2Proof.Machine.execBootWatchdog s
  | .configurationChosen => Sys2Proof.Machine.execConfigurationChosen s
  | .dramTrained mask => Sys2Proof.Machine.execDramTrained mask s
  | .moduleReady => Sys2Proof.Machine.execModuleReady s
  | .inputSag => Sys2Proof.Machine.execInputSag s
  | .saveMarkerWritten => Sys2Proof.Machine.execSaveMarkerWritten s
  | .bankAbortVoltage => Sys2Proof.Machine.execBankAbortVoltage s
  | .inputReturnHold => Sys2Proof.Machine.execInputReturnHold s
  | .inputOvervoltage => Sys2Proof.Machine.execInputOvervoltage s
  | .overtemperatureTrip => Sys2Proof.Machine.execOvertemperatureTrip s
  | .powerWindow dw => Sys2Proof.Machine.execPowerWindow dw s
  | .admissionResume => Sys2Proof.Machine.execAdmissionResume s
  | .levelChangeComplete group => Sys2Proof.Machine.execLevelChangeComplete group s
  | .clockInputStopped input => Sys2Proof.Machine.execClockInputStopped input s
  | .switchStuckTimeout mux => Sys2Proof.Machine.execSwitchStuckTimeout mux s
  | .pllUnlock p => Sys2Proof.Machine.execPllUnlock p s
  | .ponClockReturn => Sys2Proof.Machine.execPonClockReturn s
  | .drainEnd domain outstanding => Sys2Proof.Machine.execDrainEnd domain outstanding s
  | .domainPowered domain => Sys2Proof.Machine.execDomainPowered domain s
  | .handshakeOverrun src dst => Sys2Proof.Machine.execHandshakeOverrun src dst s
  | .entryWindowEnd => Sys2Proof.Machine.execEntryWindowEnd s
  | .wakeEvent source => Sys2Proof.Machine.execWakeEvent source s
  | .wakeComplete => Sys2Proof.Machine.execWakeComplete s
  | .exportRecordSend n => Sys2Proof.Machine.execExportRecordSend n s
  | .replayRecordSend n => Sys2Proof.Machine.execReplayRecordSend n s
  | .sidebandProtocolStart => Sys2Proof.Machine.execSidebandProtocolStart s
  | .courseSyncTimeout port => Sys2Proof.Machine.execCourseSyncTimeout port s
  | .fullResynchronisationDone => Sys2Proof.Machine.execFullResynchronisationDone s
  | .serviceEthernetLinkChange up fast => Sys2Proof.Machine.execServiceEthernetLinkChange up fast s
  | .frameBecomesEligible port => Sys2Proof.Machine.execFrameBecomesEligible port s
  | .pulseWidthExpiry which => Sys2Proof.Machine.execPulseWidthExpiry which s

end Sys2Proof.Machine
end

