-- ==== Sys2Proof/Safety.lean ====
section
/-!
DEFINITION. What counts as a safe step: one that answers a next state. How a host command completes: with OK and its effect, with
ACCEPTED and a long operation outstanding, or with its reply still to come; and how it is refused.
What a reply alone can touch.
-/

namespace Sys2Proof

/-- A step is safe when it answers a next state, neither a fault nor a refusal. -/
def SafeStep (s : Machine.State) : Prop := ∃ t, Machine.step s = .next t

open Machine

/-- Whenever the command starts at once and cond holds of it and of the state it begins in, it answers OK with the words ws after the
effect eff. -/
def CompletesOk (mk : Cmd → Instr) (op : Nat) (lens : Nat → Bool) (cond : Cmd → State → Prop) (ws : Cmd → State → List Word)
    (eff : Cmd → State → State) : Prop :=
  ∀ c s, startsNow op lens c s = true → cond c (begun c s) →
    exec (mk c) s = .next (answered op c (ws c (begun c s)) (eff c (begun c s)))

/-- The same for a command whose parameter count depends on the command. -/
def CompletesOkBy (mk : Cmd → Instr) (op : Nat) (lens : Cmd → Nat → Bool) (cond : Cmd → State → Prop)
    (ws : Cmd → State → List Word) (eff : Cmd → State → State) : Prop :=
  ∀ c s, startsNow op (lens c) c s = true → cond c (begun c s) →
    exec (mk c) s = .next (answered op c (ws c (begun c s)) (eff c (begun c s)))

/-- Whenever the command starts at once, cond holds and fewer than 64 long operations are outstanding on its queue, it answers ACCEPTED
after the effect eff, with the long operation outstanding on the object key. -/
def CompletesLong (mk : Cmd → Instr) (op : Nat) (lens : Nat → Bool) (cond : Cmd → State → Prop) (key : Cmd → State → Nat)
    (eff : Cmd → State → State) : Prop :=
  ∀ c s, startsNow op lens c s = true → cond c (begun c s) → (queueOf (begun c s) (qiOf c)).longOps.length < 64 →
    exec (mk c) s = .next (answeredLong op c (key c (begun c s)) (eff c (begun c s)))

/-- Whenever the command starts at once and cond holds, its effect is eff and it stays in service until a later event sends its reply. -/
def CompletesLater (mk : Cmd → Instr) (op : Nat) (lens : Nat → Bool) (cond : Cmd → State → Prop) (eff : Cmd → State → State) : Prop :=
  ∀ c s, startsNow op lens c s = true → cond c (begun c s) →
    exec (mk c) s = .next (answeredLater op c (eff c (begun c s)))

/-- Whenever the command starts at once and cond holds, it is refused with a status and nothing else happens. -/
def Refuses (mk : Cmd → Instr) (op : Nat) (lens : Nat → Bool) (cond : Cmd → State → Prop) (st : Status) : Prop :=
  ∀ c s, startsNow op lens c s = true → cond c (begun c s) → exec (mk c) s = .next (finish c op st [] (begun c s))

/-- An access to a register is let through: its window and its instance group are up, and the protection unit refuses it not (R40). -/
def Reaches (write : Bool) (addr : Nat) (s : State) : Prop := accessStatus s addr = none ∧ deniedAccess s write [addr] = none

/-- A signal core stands running at an instruction word w of an opcode, not waiting at done and not clock-gated by a sleep state (R128,
R470). -/
def CoreAt (core op : Nat) (s : State) (x : Core) (w : BitVec 64) : Prop :=
  tget s.aue.cores core = some x ∧ x.state = .running ∧ x.waiting = false ∧ s.cpr.sleep = 0 ∧ x.pc < 4096 ∧ w = (tget x.prog x.pc).getD 0 ∧ opOf w = op

/-- Wherever a core stands at an instruction of the opcode, cond holds, and its move slots are permitted, the instruction retires with
out's result and the moves of its slots. -/
def CoreCompletes (mk : Nat → Instr) (op : Nat) (moves : Bool) (cond : BitVec 64 → Core → Prop)
    (out : BitVec 64 → Core → State → OpOut) : Prop :=
  ∀ core s x w o, CoreAt core op s x w → cond w { x with pc := x.pc + 1 } →
    afterMoves moves w x (out w { x with pc := x.pc + 1 } s) = .ok o → exec (mk core) s = .next (retire core x o)

/-- t differs from s in no other part than those that a reply or an event on its way out touches: the control complex, the host link, the
twin and service Ethernet, the outputs, and the count of free values drawn. -/
def Machine.SendsOnly (s t : State) : Prop :=
  t = { s with cpx := t.cpx, hlp := t.hlp, cti := t.cti, out := t.out, free := t.free }

end Sys2Proof
end

