-- ==== Sys2Proof/Certificates/Slice0/Obligations.lean ====
section
/-! DEFINITION. The statements for the provers. -/

open Sys2Proof Sys2Proof.Machine

/-- NOP, GET_INFO, SET_MODE, GET_STATUS, RESET_DOMAIN, RESET_DOMAIN_READY and SUBSCRIBE_EVENTS complete with their effects. A command that
starts at once is answered. NOP returns its own words, GET_INFO and GET_STATUS the words of the tables of R341 and R342 and change
nothing. SET_MODE to the mode in force changes nothing and returns the time; to another mode that fits what is committed, with no change
pending and, unless it is STUDIO, no customer core claimed, it leaves the mode pending for the first epoch boundary after now and returns
that boundary. RESET_DOMAIN of a subsystem (instance 0xFFF) or of an instance group marks the target as resetting, fences its port and
ends the runs of a fenced Mallet cluster; it is ACCEPTED and outstanding on the target. RESET_DOMAIN_READY of a resetting target resets
it, lifts the fence (a group's only while its power domain is ON) and ends the operation OK. SUBSCRIBE_EVENTS sets the mask with bits 0,
5, 6 and 7 always set. The rows: NOP, GET_INFO, SET_MODE, GET_STATUS, RESET_DOMAIN, RESET_DOMAIN_READY, SUBSCRIBE_EVENTS. -/
def Obligations.SystemCommandsComplete : Prop :=
  CompletesOk .nop 0x0001 (between 0 4096) (fun _ _ => True) (fun c _ => c.words) (fun _ b => b) ∧
  CompletesOk .getInfo 0x0002 (exactly 0) (fun _ _ => True) (fun _ b => infoWords false b) (fun _ b => b) ∧
  CompletesOk .setMode 0x0003 (exactly 1)
    (fun c b => field (word c 0) 0 8 ≤ 5 ∧ field (word c 0) 0 8 ≠ 4 ∧ b.cpx.mode ≠ .shadow ∧ b.cpx.pending = none ∧
      modeOf (field (word c 0) 0 8) = b.cpx.mode)
    (fun _ b => w64 (nowNs b)) (fun _ b => b) ∧
  CompletesOk .setMode 0x0003 (exactly 1)
    (fun c b => field (word c 0) 0 8 ≤ 5 ∧ field (word c 0) 0 8 ≠ 4 ∧ b.cpx.mode ≠ .shadow ∧ b.cpx.pending = none ∧
      modeOf (field (word c 0) 0 8) ≠ b.cpx.mode ∧ modeOver (modeOf (field (word c 0) 0 8)) b = false ∧
      (modeOf (field (word c 0) 0 8) = .studio ∨ b.aue.cores = []))
    (fun _ b => w64 (nextBoundaryNs 10000000 b))
    (fun c b => { b with cpx.pending := some (modeOf (field (word c 0) 0 8)), cpx.pendingAt := nextBoundaryNs 10000000 b }) ∧
  CompletesOk .getStatus 0x0004 (exactly 0) (fun _ _ => True) (fun _ b => statusWords b) (fun _ b => b) ∧
  CompletesLong .resetDomain 0x0005 (exactly 1)
    (fun c b => 3 ≤ field (word c 0) 0 4 ∧ (field (word c 0) 4 12 = 0xFFF ∨ field (word c 0) 4 12 < instGroups (field (word c 0) 0 4)) ∧
      ∀ r ∈ b.cpx.resetting, r.1 ≠ field (word c 0) 0 4)
    (fun c _ => field (word c 0) 0 4 * 4096 + field (word c 0) 4 12)
    (fun c b => abortFenced (field (word c 0) 0 4) (field (word c 0) 4 12)
      (fencePort (field (word c 0) 0 4) (field (word c 0) 4 12)
        { b with cpx.resetting := b.cpx.resetting ++ [(field (word c 0) 0 4, field (word c 0) 4 12)] })) ∧
  (∀ (sub : Nat) (s : State), (sub, 0xFFF) ∈ s.cpx.resetting →
    exec (.resetDomainReady sub 0xFFF) s = .next (endLong 0x0005 (sub * 4096 + 0xFFF) .ok []
      (liftFence sub 0xFFF (resetSub sub { s with cpx.resetting := s.cpx.resetting.filter fun r => r ≠ (sub, 0xFFF) })))) ∧
  (∀ (sub inst : Nat) (s : State), (sub, inst) ∈ s.cpx.resetting → inst ≠ 0xFFF →
    exec (.resetDomainReady sub inst) s = .next (endLong 0x0005 (sub * 4096 + inst) .ok []
      (liftFence sub inst (resetInst sub inst { s with cpx.resetting := s.cpx.resetting.filter fun r => r ≠ (sub, inst) })))) ∧
  CompletesOk .subscribeEvents 0x0006 (exactly 1) (fun _ _ => True)
    (fun c _ => [w32 (field (word c 0) 0 8 ||| 0xE1)])
    (fun c b => { b with cpx.evMask := field (word c 0) 0 8 ||| 0xE1, cpx.mirror := bit (word c 0) 8 })

/-- IMAGE_WRITE, IMAGE_COMMIT, IMAGE_COMMIT_DONE, CONFIG_READ, CONFIG_WRITE, CONFIG_COMMIT and CONFIG_COMMIT_DONE complete with their
effects. IMAGE_WRITE of the first bytes of an image, or of the bytes that follow those already staged, adds them to the idle slot.
IMAGE_COMMIT in SERVICE or SHADOW records the commit and is ACCEPTED. IMAGE_COMMIT_DONE of an image of the stated length whose read-back
and signature are good writes the slot's header with the running sequence plus 1 and ends OK with result 0, and with activate the module
then resets with cause 4; else it ends OK with the first of results 1 length, 2 read-back and 3 signature that holds, and leaves the
header. CONFIG_READ returns the item's header and value. CONFIG_WRITE of a writable item with its exact length, with no commit running,
changes the staged copy alone, reserved bits as 0. CONFIG_COMMIT of items that pass their checks erases the header of the slot it will
write and is ACCEPTED; CONFIG_COMMIT_DONE writes the items and ends OK with the new sequence. The rows: IMAGE_WRITE, IMAGE_COMMIT,
IMAGE_COMMIT_DONE, CONFIG_READ, CONFIG_WRITE, CONFIG_COMMIT, CONFIG_COMMIT_DONE. -/
def Obligations.ImageAndConfigComplete : Prop :=
  CompletesOk .imageWrite 0x0101 (between 3 4096)
    (fun c b => (word c 1).toNat ≤ 2 ^ 26 ∧ (word c 0).toNat = 0 ∧ 0 < (word c 1).toNat ∧
      4 * (c.words.length - 2) ≤ (word c 1).toNat + 3 ∧ b.cpr.saving = false ∧ b.flash.commitImage = none)
    (fun _ _ => [])
    (fun c b => modFw (idleFw b) (fun f => { f with
      hdr := false, total := (word c 1).toNat, content := (wordsBytes (c.words.drop 2)).take (word c 1).toNat }) b) ∧
  CompletesOk .imageWrite 0x0101 (between 3 4096)
    (fun c b => (word c 1).toNat ≤ 2 ^ 26 ∧ 0 < (word c 0).toNat ∧ (word c 0).toNat < (word c 1).toNat ∧
      (word c 0).toNat + 4 * (c.words.length - 2) ≤ (word c 1).toNat + 3 ∧
      (word c 0).toNat = (fwOf b (idleFw b)).content.length ∧ (word c 1).toNat = (fwOf b (idleFw b)).total ∧
      b.cpr.saving = false ∧ b.flash.commitImage = none)
    (fun _ _ => [])
    (fun c b => modFw (idleFw b) (fun f => { f with
      total := (word c 1).toNat
      content := (fwOf b (idleFw b)).content ++ (wordsBytes (c.words.drop 2)).take ((word c 1).toNat - (word c 0).toNat) }) b) ∧
  CompletesLong .imageCommit 0x0102 (exactly 2)
    (fun c b => (word c 0).toNat ≤ 2 ^ 26 ∧ (b.cpx.mode = .service ∨ b.cpx.mode = .shadow) ∧ b.cpr.saving = false ∧
      b.flash.commitImage = none)
    (fun _ _ => 0) (fun c b => { b with flash.commitImage := some ((word c 0).toNat, bit (word c 1) 0) }) ∧
  (∀ (len : Nat) (act : Bool) (s t : State), s.flash.commitImage = some (len, act) → s.cpr.saving = false →
    len = (fwOf s (idleFw s)).content.length → len = (fwOf s (idleFw s)).total →
    imageVerified (fwOf s (idleFw s)).content = true →
    t = endLong 0x0102 0 .ok [0] (modFw (idleFw s)
      (fun f => { f with
        hdr := true, length := len, seq := if s.cpx.fwSlot = 0 then 1 else (fwOf s s.cpx.fwSlot).seq + 1 })
      { s with flash.commitImage := none }) →
    exec (.imageCommitDone true) s = .next (if act then fullReset 4 t else t)) ∧
  (∀ (len r : Nat) (act ok : Bool) (s : State), s.flash.commitImage = some (len, act) → s.cpr.saving = false →
    r = (if len ≠ (fwOf s (idleFw s)).content.length ∨ len ≠ (fwOf s (idleFw s)).total then 1 else if ok = false then 2
      else if imageVerified (fwOf s (idleFw s)).content = false then 3 else 0) → r ≠ 0 →
    exec (.imageCommitDone ok) s = .next (endLong 0x0102 0 .ok [w32 r] { s with flash.commitImage := none })) ∧
  CompletesOk .configRead 0x0103 (exactly 1) (fun c _ => (itemLen (field (word c 0) 0 16)).isSome)
    (fun c b => w32 (field (word c 0) 0 16 +
        (if bit (word c 0) 16 then itemCommitted b (field (word c 0) 0 16) else itemStaged b (field (word c 0) 0 16)).length * 65536 +
        b1 (decide (itemStaged b (field (word c 0) 0 16) ≠ itemCommitted b (field (word c 0) 0 16))) * 2 ^ 28) ::
      (if bit (word c 0) 16 then itemCommitted b (field (word c 0) 0 16) else itemStaged b (field (word c 0) 0 16)))
    (fun _ b => b) ∧
  CompletesOk .configWrite 0x0104 (between 1 256)
    (fun c b => itemReadOnly (field (word c 0) 0 16) = false ∧
      itemLen (field (word c 0) 0 16) = some (field (word c 0) 16 12) ∧ c.words.length = field (word c 0) 16 12 + 1 ∧
      longOpen 0x0105 b = false)
    (fun _ _ => []) (fun c b => { b with flash.staged := tset b.flash.staged (field (word c 0) 0 16) (maskItem (field (word c 0) 0 16) (c.words.drop 1)) }) ∧
  CompletesLong .configCommit 0x0105 (exactly 0)
    (fun _ b => commitBad b = false ∧ b.cpr.saving = false ∧ b.cti.switching = none ∧ longOpen 0x0105 b = false)
    (fun _ _ => 0) (fun _ b => modCfg (commitSlot b) (fun x => { x with hdr := false }) b) ∧
  (∀ s : State, longOpen 0x0105 s = true → s.cpr.saving = false →
    exec .configCommitDone s = .next (endLong 0x0105 0 .ok [(commitItems s).flash.cfgSeq] (commitItems s)))

/-- TRACE_CTRL, TRACE_READ, COUNTER_READ, FAULT_LOG_READ, LOOPBACK and LOOPBACK_DONE complete with their effects. TRACE_CTRL sets the mask
and mode and empties the trace unless the mode is 0. TRACE_READ and FAULT_LOG_READ return the records held from the first one asked for,
up to the count, and change nothing. COUNTER_READ of an instance of a family that is in service returns the family's words, having drained
the service Ethernet and closed ended load windows, and clears them with bit 31. LOOPBACK in SERVICE of a target in service that is not
looped is ACCEPTED and takes the target into loopback for its duration; LOOPBACK_DONE, at that end, ends it with its result. The rows:
TRACE_CTRL, TRACE_READ, COUNTER_READ, FAULT_LOG_READ, LOOPBACK, LOOPBACK_DONE. -/
def Obligations.DiagnosticsComplete : Prop :=
  CompletesOk .traceCtrl 0x0D01 (exactly 2) (fun c _ => field (word c 1) 0 2 ≠ 3) (fun _ b => w64 (nowNs b))
    (fun c b => { b with
      cpx.traceMask := field (word c 0) 0 16, cpx.traceMode := field (word c 1) 0 2
      cpx.trace := if field (word c 1) 0 2 = 0 then b.cpx.trace else []
      cpx.traceLost := if field (word c 1) 0 2 = 0 then b.cpx.traceLost else 0 }) ∧
  CompletesOk .traceRead 0x0D02 (exactly 2) (fun c _ => 1 ≤ (word c 1).toNat ∧ (word c 1).toNat ≤ 1023)
    (fun c b => w32 b.cpx.trace.length :: w32 b.cpx.traceLost ::
      ((b.cpx.trace.drop (word c 0).toNat).take (word c 1).toNat).flatMap traceWords)
    (fun _ b => b) ∧
  CompletesOk .counterRead 0x0D03 (exactly 1)
    (fun c b => (∃ n, familySize (field (word c 0) 0 16) = some n ∧ field (word c 0) 16 12 < n) ∧
      familyDown (svcDrain (rollLoads b)) (field (word c 0) 0 16) (field (word c 0) 16 12) = false)
    (fun c b => familyWords (svcDrain (rollLoads b)) (field (word c 0) 0 16) (field (word c 0) 16 12))
    (fun c b => if bit (word c 0) 31 then familyClear (field (word c 0) 0 16) (field (word c 0) 16 12) (svcDrain (rollLoads b))
      else svcDrain (rollLoads b)) ∧
  CompletesOk .faultLogRead 0x0D04 (exactly 2) (fun c _ => 1 ≤ (word c 1).toNat ∧ (word c 1).toNat ≤ 1000)
    (fun c b => ((b.cpx.faults.drop (word c 0).toNat).take (word c 1).toNat).flatMap faultWords) (fun _ b => b) ∧
  CompletesLong .loopback 0x0D05 (exactly 2)
    (fun c b => loopTargetOk (field (word c 0) 0 8) = true ∧ 1 ≤ (word c 1).toNat ∧ (word c 1).toNat ≤ 60000 ∧
      b.cpx.mode = .service ∧ field (word c 0) 0 8 ∉ b.cpx.loopbacks ∧
      (if field (word c 0) 0 8 ≤ 6 then domainDown b (20 + field (word c 0) 0 8) = false ∧ subDown b 4 = false else subDown b 6 = false))
    (fun c _ => field (word c 0) 0 8)
    (fun c b => { b with
      cpx.loopbacks := b.cpx.loopbacks ++ [field (word c 0) 0 8]
      cpx.loopEnds := b.cpx.loopEnds ++ [(field (word c 0) 0 8, b.cpr.aonNs + (word c 1).toNat * 1000000)] }) ∧
  (∀ (target errors mib t : Nat) (s a : State), target ∈ s.cpx.loopbacks →
    (s.cpx.loopEnds.find? fun e => e.1 = target) = some (target, t) → a = advanceAon t s →
    exec (.loopbackDone target errors mib) s = .next (endLong 0x0D05 target .ok
      [w32 (b1 (decide (errors = 0))), w32 errors, w32 mib]
      { a with
        cpx.loopbacks := a.cpx.loopbacks.filter fun t => t ≠ target
        cpx.loopEnds := a.cpx.loopEnds.filter fun e => e.1 ≠ target }))

/-- TIME_READ, TIME_SOURCE_SET, TIME_STEP and TIME_THRESHOLD_SET complete with their effects. TIME_READ returns the time and the nine
words of R393 and changes nothing. TIME_SOURCE_SET in range sets the priority list and the SYNC function, where a function other than 0
needs the host's claim of SYNC and function 2 also a claimed comparator. TIME_THRESHOLD_SET in range sets the jump and late thresholds
alone. TIME_STEP function 3 sets the UTC offset at once and, where it changes and the time is set, that is a step of UTC for the
performance bins. Functions 0 to 2, with no step waiting and a result inside the time's range, leave the step waiting and the command in
service; function 0 consumes the last refused update. The rows: TIME_READ, TIME_SOURCE_SET, TIME_THRESHOLD_SET, TIME_STEP. -/
def Obligations.TimeCommandsComplete : Prop :=
  CompletesOk .timeRead 0x0901 (exactly 0) (fun _ _ => True)
    (fun _ b => timeWords b.tsu.now ++
      [w32 (b.tsu.state.code + b.tsu.source * 4 + b.tsu.syncFn * 16), i32 b.tsu.utcOff, satNs b.tsu.lastOff,
        w32 b.tsu.incr, w32 b.tsu.accepted, w32 b.tsu.refused])
    (fun _ b => b) ∧
  CompletesOk .timeSourceSet 0x0902 (exactly 2)
    (fun c b => timeSourceBad (word c 0) (word c 1) = false ∧ (field (word c 1) 0 2 = 0 ∨ b.tsu.syncOwner = 1) ∧
      (field (word c 1) 0 2 ≠ 2 ∨ (cmpOf b (field (word c 1) 8 6)).owner = 1))
    (fun _ _ => [])
    (fun c b => setSyncFn (field (word c 1) 0 2) (field (word c 1) 8 6)
      (noSource { b with tsu.prio := [field (word c 0) 0 4, field (word c 0) 4 4, field (word c 0) 8 4] })) ∧
  CompletesOk .timeThresholdSet 0x0904 (exactly 2)
    (fun c _ => 100 ≤ (word c 0).toNat ∧ (word c 0).toNat ≤ 1000000000 ∧ 1 ≤ (word c 1).toNat ∧ (word c 1).toNat ≤ 1000000)
    (fun _ _ => []) (fun c b => { b with tsu.jump := (word c 0).toNat, tsu.late := (word c 1).toNat }) ∧
  CompletesOk .timeStep 0x0903 (exactly 4) (fun c b => field (word c 0) 0 2 = 3 ∧ b.tsu.step = none)
    (fun _ b => timeWords b.tsu.now ++ [0])
    (fun c b => if (word c 1).toInt = b.tsu.utcOff ∨ b.tsu.state = .unset then { b with tsu.utcOff := (word c 1).toInt }
      else pmTimeChange false (decide ((word c 1).toInt < b.tsu.utcOff)) (binSeconds b) { b with tsu.utcOff := (word c 1).toInt }) ∧
  CompletesLater .timeStep 0x0903 (exactly 4)
    (fun c b => (field (word c 0) 0 2 = 1 → (word c 3).toNat < 1000000000) ∧ field (word c 0) 0 2 ≠ 3 ∧
      (field (word c 0) 0 2 = 0 → b.tsu.lastRefused.isSome) ∧ b.tsu.step = none ∧
      0 ≤ (b.tsu.now : Int) + stepDelta c b ∧ (b.tsu.now : Int) + stepDelta c b < tsuRange)
    (fun c b => { b with
      tsu.step := some { delta := stepDelta c b, fn := field (word c 0) 0 2, command := some (qiOf c) }
      tsu.lastRefused := if field (word c 0) 0 2 = 0 then none else b.tsu.lastRefused })

/-- Updates of time sources, pulses, edges, steps and comparators have their effects. A TIME_SOURCE_UPDATE of the best qualified source is
judged, and of any other source counted and ignored; a qualified source not seen for its time is unqualified. A 1PPS input pulse on a SYNC
set up as input is captured and gives an update of source 1 with the nearest whole second; one half a second away is counted and
discarded. An edge on EVT claimed and set up as input is captured, counted and offered as wake source 5. The pulse width's end, 1 ms after
the rise on SYNC and the set width after it on EVT, returns a high output to rest. STEP_APPLY of a waiting step of 0, outside UNSET, takes
the step away at the next block boundary, sends its reply and judges the updates held, moving nothing, and without a qualified source goes
to hold-over; of another step, outside UNSET, it moves the time and every client, raises EVT_TIME_JUMP detail 2, marks the bins, does the
same. COMPARATOR_FIRE of an armed comparator that serves neither output sets fired and disarms it at its value; the 1PPS comparator of a
set time drives SYNC high and is armed for the next whole second. The rows: TIME_SOURCE_UPDATE, SOURCE_QUALIFICATION_LOSS,
PPS_INPUT_PULSE, EVT_INPUT_EDGE, PULSE_WIDTH_EXPIRY, STEP_APPLY, COMPARATOR_FIRE. -/
def Obligations.TimeEventsComplete : Prop :=
  (∀ (src tSrc tCap : Nat) (s : State), s.tsu.qualified.getD src false = true → bestSource s = src →
    exec (.timeSourceUpdate src tSrc tCap) s = .next (judgeUpdate src tSrc tCap (setSource src s))) ∧
  (∀ (src tSrc tCap : Nat) (s : State), ¬ (s.tsu.qualified.getD src false = true ∧ bestSource s = src) →
    exec (.timeSourceUpdate src tSrc tCap) s = .next { s with tsu.ignored := inc32 s.tsu.ignored }) ∧
  (∀ (src : Nat) (s : State), s.tsu.qualified.getD src false = true →
    exec (.sourceQualificationLoss src) s = .next (noSource { advanceAon (sourceEnd src s) s with
      tsu.qualified := (advanceAon (sourceEnd src s) s).tsu.qualified.set src false })) ∧
  (∀ s : State, s.tsu.syncFn = 1 → (capture s).1 % secUnits * 2 = secUnits →
    exec .ppsInputPulse s = .next { (capture s).2 with tsu.ppsBad := (capture s).2.tsu.ppsBad + 1 }) ∧
  (∀ s : State, s.tsu.syncFn = 1 → (capture s).1 % secUnits * 2 < secUnits → s.tsu.state ≠ .unset →
    ((capture s).1 :: s.tsu.ppsTimes).length = 5 → secondsApart ((capture s).1 :: s.tsu.ppsTimes) = true →
    exec .ppsInputPulse s = .next (sourceUpdate 1 ((capture s).1 - (capture s).1 % secUnits) (capture s).1
      { (capture s).2 with
        tsu.ppsTimes := (capture s).1 :: s.tsu.ppsTimes
        tsu.seenNs := s.tsu.seenNs.set 1 s.cpr.aonNs
        tsu.qualified := (capture s).2.tsu.qualified.set 1 true })) ∧
  (∀ s : State, s.tsu.evtOwner = 1 → s.tsu.evtSet = true → s.tsu.evtOut = false →
    exec .evtInputEdge s = .next (wakeSource 5 { (capture s).2 with
      tsu.evtEdges := ((capture s).2.tsu.evtEdges + 1) % 2 ^ 32, tsu.evtLast := (capture s).1 / 65536 })) ∧
  (∀ s : State, s.tsu.ppsHigh = true →
    exec (.pulseWidthExpiry 0) s = .next (drivePin 0 false { advanceAon (s.tsu.ppsRise + 1000000) s with tsu.ppsHigh := false })) ∧
  (∀ s : State, s.tsu.evtHigh = true →
    exec (.pulseWidthExpiry 1) s =
      .next (drivePin 1 s.tsu.evtFall { advanceAon (s.tsu.evtRise + s.tsu.evtWidth * 1000) s with tsu.evtHigh := false })) ∧
  (∀ (s a : State) (fn qi : Nat), a = advanceTo (blockDue s * 65536) s → s.tsu.step = some ⟨0, fn, some qi⟩ →
    a.tsu.state ≠ .unset →
    exec .stepApply s = .next (noSource <| judgeHeld (finishDeferred qi .ok (timeWords a.tsu.now ++ [satNs 0]) { a with tsu.step := none }))) ∧
  (∀ (s a m : State) (d : Int) (fn : Nat), a = advanceTo (blockDue s * 65536) s → s.tsu.step = some ⟨d, fn, none⟩ → d ≠ 0 →
    a.tsu.state ≠ .unset → m = evtTime 2 (w32 fn :: ns64 d) (repend (jump d { a with tsu.step := none })) →
    exec .stepApply s = .next (noSource (judgeHeld (pmTimeChange false (decide (0 < d)) (binSeconds a) m)))) ∧
  (∀ (n : Nat) (s a : State), n < 64 → (cmpOf s n).armed = true →
    a = modCmp n (fun c => { c with armed := false, fired := true }) (advanceTo (cmpOf s n).value s) →
    (a.tsu.syncFn ≠ 2 ∨ a.tsu.ppsCmp ≠ n) → (a.tsu.evtSet = false ∨ a.tsu.evtOut = false ∨ a.tsu.evtCmp ≠ n) →
    exec (.comparatorFire n) s = .next a) ∧
  (∀ (n : Nat) (s a p : State), n < 64 → (cmpOf s n).armed = true → (cmpOf s n).owner = 1 →
    a = modCmp n (fun c => { c with armed := false, fired := true }) (advanceTo (cmpOf s n).value s) →
    a.tsu.syncFn = 2 → a.tsu.ppsCmp = n → a.tsu.state ≠ .unset → p = drivePin 0 true { a with tsu.ppsHigh := true, tsu.ppsRise := a.cpr.aonNs } →
    exec (.comparatorFire n) s = .next (fireEvt n (armCmp n (nextSecond p) p)))

/-- The TSU register commands complete with their effects wherever the access is let through, and change nothing while the TSU is down. A
write of TSU_INCR stores the value clamped to 0x0001_FFE6 to 0x0002_001A and ends a slew; TSU_INCR_DITHER stores the low 16 bits. A read
of TSU_TIME_SEC, or of a comparator's low word, latches the other words for its requester alone. A compare word and the control word of a
comparator take the writes of their owner; a write of one who does not own it changes nothing. Writing 1 to bit 0 of the control arms the
comparator with its words, writing 0 disarms it, and bit 1 clears fired. The rows: TSU_INCR_WRITE, TSU_INCR_DITHER_WRITE,
TSU_TIME_SEC_READ, TSU_CMP_SEC_READ, COMPARE_WORDS_WRITE, COMPARATOR_ARM_WRITE, COMPARATOR_FIRED_CLEAR. -/
def Obligations.TimeRegistersComplete : Prop :=
  (∀ (v : Word) (s : State), Reaches true 0x50110 s → exec (.tsuIncrWrite v) s =
    .next { s with tsu.incr := max 0x1FFE6 (min 0x2001A v.toNat), tsu.slew := 0, tsu.slewLeft := 0 }) ∧
  (∀ (v : Word) (s : State), Reaches true 0x50114 s → exec (.tsuIncrDitherWrite v) s = .next { s with tsu.dither := v.toNat % 65536 }) ∧
  (∀ (who : Nat) (s : State), Reaches false 0x50100 s → exec (.tsuTimeSecRead who) s =
    .next { s with tsu.latches := (s.tsu.latches.filter fun l => l.who ≠ (latchOf s who).who) ++
      [{ latchOf s who with time := some s.tsu.now }] }) ∧
  (∀ (who n : Nat) (s : State), n < 64 → Reaches false (cmpAddr n 0) s → exec (.tsuCmpSecRead who n) s =
    .next { s with tsu.latches := (s.tsu.latches.filter fun l => l.who ≠ (latchOf s who).who) ++
      [{ latchOf s who with
        cmp := ((latchOf s who).cmp.filter fun x => x.1 ≠ n) ++ [(n, cmpHi (cmpOf s n) + (cmpOf s n).ns * 2 ^ 32)] }] }) ∧
  (∀ (n which : Nat) (v : Word) (w : Writer) (s : State), n < 64 → which < 3 → ownsCmp (cmpOf s n) w = true →
    Reaches true (cmpAddr n which) s →
    exec (.compareWordsWrite n which v w) s = .next { s with tsu.cmps := s.tsu.cmps.modify n fun c =>
      { c with
        dirty := c.dirty || c.armed
        sec := if which = 0 then c.sec / 2 ^ 32 * 2 ^ 32 + v.toNat
          else if which = 1 then c.sec % 2 ^ 32 + v.toNat % 65536 * 2 ^ 32 else c.sec
        frac := if which = 1 then v.toNat / 65536 else c.frac
        ns := if which = 2 then v.toNat else c.ns } }) ∧
  (∀ (n which : Nat) (v : Word) (w : Writer) (s : State), ownsCmp (cmpOf s n) w = false →
    (Reaches true (cmpAddr n which) s → exec (.compareWordsWrite n which v w) s = .next s) ∧
    (Reaches true (cmpAddr n 3) s → exec (.comparatorArmWrite n v w) s = .next s ∧ exec (.comparatorFiredClear n v w) s = .next s)) ∧
  (∀ (n which : Nat) (v : Word) (w : Writer) (s : State), subDown s 5 = true → n < 64 → which < 3 →
    exec (.tsuIncrWrite v) s = .next s ∧ exec (.tsuIncrDitherWrite v) s = .next s ∧ exec (.compareWordsWrite n which v w) s = .next s ∧
      exec (.comparatorArmWrite n v w) s = .next s ∧ exec (.comparatorFiredClear n v w) s = .next s) ∧
  (∀ (n : Nat) (v : Word) (w : Writer) (s : State), n < 64 → ownsCmp (cmpOf s n) w = true → v.getLsbD 0 = true →
    Reaches true (cmpAddr n 3) s →
    exec (.comparatorArmWrite n v w) s = .next { s with tsu.cmps := s.tsu.cmps.modify n fun c =>
      { c with armed := true, value := cmpValue c, dirty := false, fired := c.fired && !v.getLsbD 1 } }) ∧
  (∀ (n : Nat) (v : Word) (w : Writer) (s : State), n < 64 → ownsCmp (cmpOf s n) w = true → v.getLsbD 0 = false →
    Reaches true (cmpAddr n 3) s →
    exec (.comparatorArmWrite n v w) s = .next { s with tsu.cmps := s.tsu.cmps.modify n fun c =>
      { c with armed := false, fired := c.fired && !v.getLsbD 1 } }) ∧
  (∀ (n : Nat) (v : Word) (w : Writer) (s : State), n < 64 → ownsCmp (cmpOf s n) w = true → v.getLsbD 1 = true →
    v.getLsbD 0 = false → Reaches true (cmpAddr n 3) s →
    exec (.comparatorFiredClear n v w) s = .next { s with tsu.cmps := s.tsu.cmps.modify n fun c =>
      { c with armed := false, fired := false } })

/-- REG_READ, REG_WRITE and each single register command complete with their effects. The single register commands are XING_OVERRUN_CLEAR,
HLP_LANE_POL_WRITE, KEY_REGISTER_WRITE, RC_COUNTER_READ, REGISTER_WRITE_PLAIN and SYS_RESET_REQ_WRITE. REG_READ of 1 to 4,096 words whose
addresses all pass the checks of R40 and which the protection unit refuses nowhere reads the range in ascending order. REG_WRITE of 1 to
4,094 words that match its count, whose addresses pass, are refused nowhere and touch no key register, writes them in ascending order; a
reset the write asks for follows its reply. XING_OVERRUN_CLEAR clears the bits written 1. HLP_LANE_POL is written through the bootstrap
responder before the lock only; after the lock the write is ignored with fault 0x2FF0. A key register takes the control cores' writes
alone. RC_COUNTER_READ performs one read and REGISTER_WRITE_PLAIN one write of a register that the access reaches. In a window that is
down nothing is read or written. SYS_RESET_REQ written 0xB007 gives the full reset with cause 7; any other value changes nothing. The
rows: REG_READ, REG_WRITE, XING_OVERRUN_CLEAR, HLP_LANE_POL_WRITE, KEY_REGISTER_WRITE, RC_COUNTER_READ, REGISTER_WRITE_PLAIN,
SYS_RESET_REQ_WRITE. -/
def Obligations.RegisterCommandsComplete : Prop :=
  CompletesOk .regRead 0x0E01 (exactly 2)
    (fun c b => 1 ≤ (word c 1).toNat ∧ (word c 1).toNat ≤ 4096 ∧ rangeStatus b (word c 0).toNat (word c 1).toNat = none ∧
      deniedAccess b false (rangeAddrs (word c 0).toNat (word c 1).toNat) = none)
    (fun c b => (readRange (b1 c.backup) (rangeAddrs (word c 0).toNat (word c 1).toNat) b).1)
    (fun c b => (readRange (b1 c.backup) (rangeAddrs (word c 0).toNat (word c 1).toNat) b).2) ∧
  (∀ (c : Cmd) (s : State), startsNow 0x0E02 (between 3 4096) c s = true → 1 ≤ (word c 1).toNat →
    c.words.length = (word c 1).toNat + 2 → rangeStatus (begun c s) (word c 0).toNat (word c 1).toNat = none →
    deniedAccess (begun c s) true (rangeAddrs (word c 0).toNat (word c 1).toNat) = none →
    touchesKeys (word c 0).toNat (word c 1).toNat = false →
    exec (.regWrite c) s = .next (settleReset (answered 0x0E02 c []
      (writeRange .host (word c 0).toNat (c.words.drop 2) (begun c s))))) ∧
  (∀ (v : Word) (s : State), Reaches true 0x1011C s → exec (.xingOverrunClear v) s =
    .next { s with cpr.xing := s.cpr.xing.mapIdx fun i b => b && !v.getLsbD i }) ∧
  (∀ (v : Word) (s : State), Reaches true 0x20108 s → s.mss.locked = false →
    exec (.hlpLanePolWrite v .boot) s = .next { s with hlp.rxInv := v.toNat % 16, hlp.txInv := v.toNat / 16 % 16 }) ∧
  (∀ (v : Word) (w : Writer) (s : State), Reaches true 0x20108 s → s.mss.locked = true →
    exec (.hlpLanePolWrite v w) s = .next (fault 0x2FF0 [w32 0x20108, 0] s)) ∧
  (∀ (addr v : Word) (s : State), 0x90100 ≤ addr.toNat → addr.toNat < 0xA0000 → addr.toNat % 4 = 0 → Reaches true addr.toNat s →
    exec (.keyRegisterWrite addr v .core) s = .next (writeKey (addr.toNat - 0x90000) v s)) ∧
  (∀ (addr v : Word) (w : Writer) (s : State), w ≠ .core → exec (.keyRegisterWrite addr v w) s = .next s) ∧
  (∀ (addr : Word) (s : State), Reaches false addr.toNat s →
    exec (.rcCounterRead addr) s = .next (readReg 0 addr.toNat s).2) ∧
  (∀ (addr v : Word) (w : Writer) (s : State), Reaches true addr.toNat s →
    exec (.registerWritePlain addr v w) s = .next (settleReset (writeReg addr.toNat v w s))) ∧
  (∀ (addr v : Word) (w : Writer) (s : State), subDown s (addr.toNat / 65536) = true → addr.toNat / 65536 < 16 → addr.toNat % 4 = 0 →
    addr.toNat / 65536 ≠ 1 →
    exec (.rcCounterRead addr) s = .next s ∧ exec (.registerWritePlain addr v w) s = .next (settleReset s) ∧
      exec (.keyRegisterWrite addr v w) s = .next s) ∧
  (∀ s : State, exec (.sysResetReqWrite 0xB007) s = .next (fullReset 7 s)) ∧
  (∀ (v : Word) (s : State), v ≠ 0xB007 → exec (.sysResetReqWrite v) s = .next s)

/-- PON_STATUS, PON_SET_PROFILE, PON_OMCI_RELAY, PON_PM_READ and PON_PROTECT_CTRL complete with their effects. PON_STATUS returns the
words of R308 and changes nothing. PON_SET_PROFILE function 0 stores the profile as running and staged, and with the restart bit, in
SERVICE outside a save, enters O1; function 1 returns the profile. PON_OMCI_RELAY sets the delegated classes (none of them implemented),
sends the host's answer of 48 to 1,980 bytes to a message that waits, or reads the classes. PON_PM_READ of a bin that exists, module-wide
or of one of the eight ports, brings the running seconds up to date and returns the bin's header and counters. PON_PROTECT_CTRL arms,
disarms or reads the protection trigger. The rows: PON_STATUS, PON_SET_PROFILE, PON_OMCI_RELAY, PON_PM_READ, PON_PROTECT_CTRL. -/
def Obligations.PonCommandsComplete : Prop :=
  CompletesOk .ponStatus 0x0201 (exactly 1) (fun _ _ => True)
    (fun _ b => [ponStatus0 b, w32 b.ptu.onuId, w32 b.ptu.eqd, w32 (activePath b).counter, b.ptu.rxPower, b.ptu.txPower,
        w32 (b.ptu.keyIdx + b.ptu.profUse * 4)] ++
      (b.ptu.ports.map fun p => w32 (p.alloc + p.xgem * 65536)) ++ [i32 b.ptu.lastTodOff])
    (fun _ b => b) ∧
  CompletesOkBy .ponSetProfile 0x0202 (fnLens [13, 1]) (fun c _ => field (word c 0) 16 4 = 1)
    (fun _ b => profileWords b.ptu.profile) (fun _ b => b) ∧
  CompletesOkBy .ponSetProfile 0x0202 (fnLens [13, 1])
    (fun c _ => field (word c 0) 16 4 = 0 ∧ field (word c 1) 0 2 ≠ 3 ∧ bit (word c 1) 3 = false)
    (fun _ _ => []) (fun c b => setProfile (c.words.drop 1) b) ∧
  CompletesOkBy .ponSetProfile 0x0202 (fnLens [13, 1])
    (fun c b => field (word c 0) 16 4 = 0 ∧ field (word c 1) 0 2 ≠ 3 ∧ bit (word c 1) 3 = true ∧ b.cpx.mode = .service ∧
      b.cpr.saving = false)
    (fun _ _ => []) (fun c b => enterO1 (setProfile (c.words.drop 1) b)) ∧
  CompletesOkBy .ponOmciRelay 0x0203 relayLens
    (fun c _ => field (word c 0) 16 4 = 0 ∧ ∀ k ∈ delegatedOf ((c.words.drop 1).take 8), k ≠ 0 → k ∉ omciClasses)
    (fun _ _ => []) (fun c b => { b with ptu.delegated := delegatedOf ((c.words.drop 1).take 8) }) ∧
  CompletesOkBy .ponOmciRelay 0x0203 relayLens
    (fun c b => field (word c 0) 16 4 = 1 ∧ 48 ≤ field (word c 1) 0 16 ∧ field (word c 1) 0 16 ≤ 1980 ∧
      ∃ r ∈ b.ptu.relays, r.trans = field (word c 2) 0 8 * 256 + field (word c 2) 8 8)
    (fun _ _ => [])
    (fun c b => sendOmci (field (word c 2) 0 8 * 256 + field (word c 2) 8 8) (c.words.drop 2)
      { b with ptu.relays := b.ptu.relays.filter fun r => r.trans ≠ field (word c 2) 0 8 * 256 + field (word c 2) 8 8 }) ∧
  CompletesOkBy .ponOmciRelay 0x0203 relayLens (fun c _ => field (word c 0) 16 4 = 2)
    (fun _ b => (List.range 8).map fun i => w32 (b.ptu.delegated.getD (2 * i) 0 + b.ptu.delegated.getD (2 * i + 1) 0 * 65536))
    (fun _ b => b) ∧
  (∀ (c : Cmd) (s b : State) (x : PmBin), startsNow 0x0204 (exactly 1) c s = true → b = accruePon (begun c s) →
    binOf b (field (word c 0) 24 8) = some x → (bit (word c 0) 0 = true → field (word c 0) 20 4 < 8) →
    exec (.ponPmRead c) s = .next (answered 0x0204 c
      ([w32 x.start, w32 (x.start / 2 ^ 32 % 65536 + b1 x.valid * 65536 + b1 x.part * 2 ^ 17 + b1 x.suspect * 2 ^ 18 +
          b1 x.unaligned * 2 ^ 19),
        w32 (if field (word c 0) 24 8 = 0 ∨ field (word c 0) 24 8 = 64 then (binSeconds b - x.opened).toNat else x.elapsed)] ++
        (if bit (word c 0) 0 then x.ports.getD (field (word c 0) 20 4) [] else x.counters).map w32) b)) ∧
  CompletesOk .ponProtectCtrl 0x0205 (exactly 1) (fun c _ => field (word c 0) 16 4 = 0)
    (fun _ _ => []) (fun _ b => { b with ptu.armed := true }) ∧
  CompletesOk .ponProtectCtrl 0x0205 (exactly 1) (fun c _ => field (word c 0) 16 4 = 1)
    (fun _ _ => []) (fun _ b => { b with ptu.armed := false }) ∧
  CompletesOk .ponProtectCtrl 0x0205 (exactly 1) (fun c _ => field (word c 0) 16 4 = 2)
    (fun _ b => [w32 (b1 b.ptu.armed + 2 * b1 (activePath b).lods), w32 b.ptu.triggers] ++ w64 b.ptu.lastTrigNs) (fun _ b => b)

/-- Downstream synchronisation: candidates are confirmed twice, SYNC bears three misses in a row, the fourth declares LODS. On an enabled
path: a candidate in HUNT is held for confirmation; a frame with an exact PSync, a good or corrected HEC and the next counter confirms it,
the second confirmation gives SYNC and delivers the frame, and any other frame returns to HUNT. In SYNC or SYNC_MISS a frame with more
than 2 PSync errors or a bad HEC is a miss, counted; after fewer than 3 in a row the path stays usable in SYNC_MISS, and the next one
declares LODS; a good frame ends the misses, is delivered and its start captured; a counter whose HEC passes is adopted, any other
position takes the next number. Corrected and failed HECs are counted. An enabled 50G-PON path with no confirmed candidate for 1 s lets
the XGS-PON path be chosen. An XGEM frame with an uncorrectable header loses the rest of the PHY frame and breaks the fragment sequences,
whose later pieces are discarded; one whose key is not held is counted and discarded with its sequence; a frame's last piece of at most
2,000 bytes with a datagram is classified. PON_CLOCK_RETURN in SYNC gives the tick back to the PON clock. The rows: PSYNC_CANDIDATE,
EXPECTED_FRAME_POSITION, RATE_NO_CANDIDATE_TIMEOUT, XGEM_FRAME, PON_CLOCK_RETURN. -/
def Obligations.PonSynchronisationComplete : Prop :=
  (∀ (path counter : Nat) (s : State), path < 2 → (pathOf s path).enabled = true → (pathOf s path).sync = .hunt →
    exec (.psyncCandidate path counter) s = .next (modPath path (fun p => { p with sync := .confirm1, counter := counter }) s)) ∧
  (∀ (path : Nat) (f : PhyFrame) (s c d : State), path < 2 → (pathOf s path).enabled = true → (pathOf s path).sync = .confirm1 →
    f.psyncErrors = 0 → f.hec ≤ 1 → f.counter = ((pathOf s path).counter + frameStep s) % 2 ^ 51 →
    c = (if f.hec = 1 then ponCount 4 1 s else s) →
    d = (if path = 0 then { c with ptu.noCand50 := false, ptu.confNs := c.cpr.aonNs } else c) →
    exec (.expectedFramePosition path f) s = .next (modPath path (fun p => { p with sync := .confirm2, counter := f.counter }) d)) ∧
  (∀ (path : Nat) (f : PhyFrame) (s c d : State), path < 2 → (pathOf s path).enabled = true → (pathOf s path).sync = .confirm2 →
    f.psyncErrors = 0 → f.hec ≤ 1 → f.counter = ((pathOf s path).counter + frameStep s) % 2 ^ 51 →
    c = (if f.hec = 1 then ponCount 4 1 s else s) →
    d = (if path = 0 then { c with ptu.noCand50 := false, ptu.confNs := c.cpr.aonNs } else c) →
    exec (.expectedFramePosition path f) s =
      .next (frameCaptured path f <| frameDelivered path f (syncGained path (modPath path (fun p => { p with counter := f.counter }) d)))) ∧
  (∀ (path : Nat) (f : PhyFrame) (s c : State), path < 2 → (pathOf s path).enabled = true →
    ((pathOf s path).sync = .confirm1 ∨ (pathOf s path).sync = .confirm2) →
    (f.psyncErrors ≠ 0 ∨ 1 < f.hec ∨ f.counter ≠ ((pathOf s path).counter + frameStep s) % 2 ^ 51) →
    c = (if f.hec = 1 then ponCount 4 1 s else if f.hec = 2 then ponCount 5 1 s else s) →
    exec (.expectedFramePosition path f) s = .next (modPath path (fun p => { p with sync := .hunt }) c)) ∧
  (∀ (path : Nat) (f : PhyFrame) (s c : State), path < 2 → (pathOf s path).enabled = true → inSync (pathOf s path) = true →
    (2 < f.psyncErrors ∨ f.hec = 2) →
    c = adoptCounter path (((pathOf s path).counter + frameStep s) % 2 ^ 51) f
      (if f.hec = 1 then ponCount 4 1 s else if f.hec = 2 then ponCount 5 1 s else s) →
    ((pathOf s path).misses < 3 → exec (.expectedFramePosition path f) s = .next (frameDelivered path f (modPath path (fun p =>
      { p with sync := .syncMiss, misses := p.misses + 1 }) (ponCount 1 1 c)))) ∧
    (3 ≤ (pathOf s path).misses → exec (.expectedFramePosition path f) s = .next (lodsDeclared path (ponCount 1 1 c)))) ∧
  (∀ (path : Nat) (f : PhyFrame) (s c : State), path < 2 → (pathOf s path).enabled = true → inSync (pathOf s path) = true →
    f.psyncErrors ≤ 2 → f.hec ≤ 1 →
    c = adoptCounter path (((pathOf s path).counter + frameStep s) % 2 ^ 51) f (if f.hec = 1 then ponCount 4 1 s else s) →
    exec (.expectedFramePosition path f) s = .next (frameCaptured path f <| frameDelivered path f (modPath path (fun p =>
      { p with sync := .sync, misses := 0 }) (ponCount 0 1 c)))) ∧
  (∀ s a : State, s.ptu.p50.enabled = true → inSync s.ptu.p50 = false → a = advanceAon (s.ptu.confNs + 1000000000) s →
    exec .rateNoCandidateTimeout s = .next (leaveO1 { a with ptu.noCand50 := true })) ∧
  (∀ (f : Xgem) (s : State), inSync (activePath s) = true → s.ptu.wordLost = false → f.hecBad = true →
    exec (.xgemFrame f) s = .next (breakFrags { ponCount 12 f.lostWords (ponCount 11 1 s) with ptu.wordLost := true })) ∧
  (∀ (f : Xgem) (s : State), inSync (activePath s) = true → s.ptu.wordLost = false → f.hecBad = false →
    s.ptu.uniPorts.contains f.portId = true → s.ptu.broken.contains f.portId = true → f.last = true →
    exec (.xgemFrame f) s = .next { s with ptu.broken := s.ptu.broken.filter fun p => p ≠ f.portId }) ∧
  (∀ (f : Xgem) (s : State), inSync (activePath s) = true → s.ptu.wordLost = false → f.hecBad = false →
    s.ptu.uniPorts.contains f.portId = true → s.ptu.broken.contains f.portId = false → xgemKeyOk f s = false →
    exec (.xgemFrame f) s = .next (breakFrag f (ponCount 13 1 s))) ∧
  (∀ (f : Xgem) (d : Datagram) (s t : State), inSync (activePath s) = true → s.ptu.wordLost = false → f.hecBad = false →
    s.ptu.uniPorts.contains f.portId = true → s.ptu.broken.contains f.portId = false → xgemKeyOk f s = true → f.last = true →
    f.ownMac = false → f.d = some d → s.ptu.frag = [] → f.bytes ≤ 2000 →
    t = { ponCount 26 f.bytes (ponCount 25 1 s) with ptu.frag := [] } →
    exec (.xgemFrame f) s = .next (classify (ponPortOf t f.portId) d t)) ∧
  (∀ s : State, inSync (activePath s) = true →
    exec .ponClockReturn s = .next { s with
      cpr.stopped := s.cpr.stopped.set 14 false, cpr.cmux := s.cpr.cmux.set 7 0, tsu.ponRef := true })

/-- Each PLOAM message that the module takes has its effect; one that it does not take changes nothing, and one that fails its MIC is
counted alone. Where t is the state in which the message is taken (counted; taken in SYNC when addressed to the module) and its MIC is
good: BURST_PROFILE of an index below 4 and of a supported rate is stored for BWmaps of later frames, and may end O1; ASSIGN_ONU_ID with
the module's serial in O2-3 sets the ONU-ID and enters O4; RANGING_TIME in O4 enters O5, in O5 adjusts the delay; DEACTIVATE_ONU_ID
outside O7 enters O1, also while the 4 ms after a loss of sync run; DISABLE_SERIAL_NUMBER enters O7 and enable leaves it;
REQUEST_REGISTRATION in O5 is answered; ASSIGN_ALLOC_ID in O5 adds or removes the Alloc-ID with an acknowledgement; KEY_CONTROL in O5
generates, switches or retires a key; SLEEP_ALLOW ON permits sleep and OFF wakes; CHANGE_POWER_LEVEL is taken and acknowledged;
POWER_CONSUMPTION_INQUIRE is answered with the power; a refused message is acknowledged with parameter error when an answer is asked. The
rows: BURST_PROFILE, ASSIGN_ONU_ID, RANGING_TIME, KEY_CONTROL, DEACTIVATE_ONU_ID, DISABLE_SERIAL_NUMBER, REQUEST_REGISTRATION,
ASSIGN_ALLOC_ID, SLEEP_ALLOW, CHANGE_POWER_LEVEL, POWER_CONSUMPTION_INQUIRE, REFUSED_PLOAM. -/
def Obligations.PonPloamComplete : Prop :=
  (∀ (p : Ploam) (s : State), takePloam false p s = none → exec (.burstProfile p) s = .next s ∧ exec (.assignOnuId p) s = .next s ∧
    exec (.rangingTime p) s = .next s ∧ exec (.keyControl p) s = .next s) ∧
  (∀ (p : Ploam) (s t : State), takePloam false p s = some t → p.micBad = true →
    exec (.burstProfile p) s = .next (ponCount 14 1 s) ∧ exec (.assignOnuId p) s = .next (ponCount 14 1 s) ∧
    exec (.keyControl p) s = .next (ponCount 14 1 s)) ∧
  (∀ (p : Ploam) (s t : State), takePloam s.ptu.prot p s = some t → p.micBad = false → t.ptu.act ≠ .o7 →
    exec (.deactivateOnuId p) s = .next (enterO1 t)) ∧
  (∀ (p : Ploam) (s t : State), takePloam false p s = some t → p.micBad = false →
    (p.value < 4 → 1 ≤ p.rate → p.rate ≤ 3 → exec (.burstProfile p) s = .next (leaveO1 { t with
      ptu.profLearned := true
      ptu.profiles := t.ptu.profiles.filter (fun y => y.rate ≠ p.rate ∨ y.index ≠ p.value) ++
        [{ Profile.reset with
          rate := p.rate, index := p.value, preamble := p.preamble, delimiter := p.delimiter, fec := p.fec
          fromFrame := t.ptu.frameNo + 1 }] })) ∧
    (t.ptu.act = .o23 → p.serial = some (ownSerial t) → exec (.assignOnuId p) s =
      .next (setAct .o4 { t with ptu.onuId := p.value % 65536, ptu.defAlloc := true })) ∧
    (t.ptu.act = .o4 → exec (.rangingTime p) s = .next (setAct .o5 (setSleep .awakeHeld (sendPloam 3 [w32 0]
      { t with ptu.eqd := p.value % 2 ^ 32, ptu.to1 := false })))) ∧
    (t.ptu.act = .o5 → exec (.rangingTime p) s = .next (sendPloam 3 [w32 0] { t with ptu.eqd := p.value % 2 ^ 32 })) ∧
    (p.option = 0 → p.serial = some (ownSerial t) → t.ptu.act ≠ .o7 → t.ptu.act ≠ .o1 →
      exec (.disableSerialNumber p) s = .next (fault 0x3002 [] (setAct .o7
        { setSleep .awakeHeld t with ptu.to1 := false, ptu.to2 := false, ptu.prot := false }))) ∧
    (p.option ≠ 0 → t.ptu.act = .o7 → (p.serial = some (ownSerial t) ∨ p.serial = none) →
      exec (.disableSerialNumber p) s = .next (enterO1 t)) ∧
    (t.ptu.act = .o5 → exec (.requestRegistration p) s = .next (sendPloam 1 t.ptu.regInUse t)) ∧
    (t.ptu.act = .o5 → p.option = 1 → exec (.assignAllocId p) s = .next (sendPloam 3 [w32 0]
      { t with ptu.allocs := t.ptu.allocs.filter (fun a => a ≠ p.value % 65536) ++ [p.value % 65536] })) ∧
    (t.ptu.act = .o5 → p.option ≠ 1 → exec (.assignAllocId p) s = .next (sendPloam 3 [w32 0]
      { t with
        ptu.allocs := t.ptu.allocs.filter fun a => a ≠ p.value % 65536
        ptu.ports := t.ptu.ports.map (dropAlloc (p.value % 65536)) })) ∧
    (t.ptu.act = .o5 → 1 ≤ p.value → p.value ≤ 2 → p.option = 0 →
      exec (.keyControl p) s = .next (sendPloam 2
        (w32 p.value :: Config.keyWrap (Config.ponKek t.ptu.regInUse t.cpe.psk) (drawKey t).1)
        { (drawKey t).2 with ptu.ukeys := t.ptu.ukeys.set (p.value - 1) (some (drawKey t).1) })) ∧
    (t.ptu.act = .o5 → 1 ≤ p.value → p.value ≤ 2 → p.option = 1 → t.ptu.keyIdx ≠ p.value →
      exec (.keyControl p) s = .next (evtPon 7 [w32 p.value] { t with ptu.keyIdx := p.value })) ∧
    (t.ptu.act = .o5 → 1 ≤ p.value → p.value ≤ 2 → 2 ≤ p.option →
      exec (.keyControl p) s = .next { t with ptu.ukeys := t.ptu.ukeys.set (p.value - 1) none }) ∧
    (p.answer = false → p.option = 1 → exec (.sleepAllow p) s = .next (ponTrySleep { t with ptu.sleepAllow := true })) ∧
    (p.answer = false → p.option ≠ 1 →
      exec (.sleepAllow p) s = .next (wakeSource 3 (ponWake false { t with ptu.sleepAllow := false }))) ∧
    exec (.changePowerLevel p) s = .next (sendPloam 3 [w32 0] { t with ptu.powerLevel := p.value }) ∧
    exec (.powerConsumptionInquire p) s = .next (sendPloam 5 [w32 t.cpr.power] t) ∧
    (p.answer = true → exec (.refusedPloam p) s = .next (sendPloam 3 [w32 1] t)))

/-- Grants are counted and answered, bursts leave at their instants, and the activation timers have their effects. A grant with a bad
entry, or naming a profile not held, is counted and ignored. A serial-number grant in O2-3 is answered with the serial number and a free
random delay, a ranging grant in O4 with Registration, both in the profile of the burst's first grant, and a data grant in O5 to a bound
Alloc-ID waits at its port, counted there; one to the default allocation waits there. UPSTREAM_BURST in O5 with the laser on sends, at its
due time, the burst of the port's first grant, or of the default Alloc-ID. The transmit monitor's trip turns the laser off until reset and
raises fatal fault 0x3003. TO1, 10 s after O2-3 was entered, in O2-3 or O4, and TO2, after 100 ms in O6, enter O1. The rows: BWMAP_GRANT,
UPSTREAM_BURST, TRANSMIT_MONITOR_TRIP, TO1_EXPIRY, TO2_EXPIRY. -/
def Obligations.PonUpstreamComplete : Prop :=
  (∀ (g : Grant) (s : State), inSync (activePath s) = true → s.ptu.rate ≠ 0 → (g.bad = true ∨ profileUsable s g.profile = false) →
    exec (.bwmapGrant g) s = .next (ponCount 17 1 (ponCount 18 1 s))) ∧
  (∀ (g : Grant) (s b : State), inSync (activePath s) = true → s.ptu.rate ≠ 0 → g.bad = false → profileUsable s g.profile = true →
    g.kind = 1 → b = noteBurst g s → s.ptu.act = .o23 → s.ptu.laser = true →
    exec (.bwmapGrant g) s = .next (emitPloam 0 [0x42525354, s.flash.serial, w32 (draw b).1.toNat]
      (ponCount 18 1 { b with ptu.profUse := b.ptu.burstProf, free := b.free + 1 }))) ∧
  (∀ (g : Grant) (s b : State), inSync (activePath s) = true → s.ptu.rate ≠ 0 → g.bad = false → profileUsable s g.profile = true →
    g.kind = 2 → b = noteBurst g s → s.ptu.act = .o4 → s.ptu.laser = true →
    exec (.bwmapGrant g) s = .next (emitPloam 1 s.ptu.regInUse (ponCount 18 1 { b with ptu.profUse := b.ptu.burstProf }))) ∧
  (∀ (g : Grant) (i : Nat) (s t : State), inSync (activePath s) = true → s.ptu.rate ≠ 0 → g.bad = false →
    profileUsable s g.profile = true → g.kind ≠ 1 → g.kind ≠ 2 → s.ptu.act = .o5 → s.ptu.laser = true → grantPort s g.alloc = some i →
    t = ponPortCount i 1 g.bytes (ponPortCount i 0 1 (ponCount 19 g.bytes (ponCount 18 1 (noteBurst g s)))) →
    exec (.bwmapGrant g) s = .next { t with ptu.ports := t.ptu.ports.modify i fun p =>
      { p with
        grants := p.grants ++ [ponGrant g t]
        granted := p.granted.filter (fun x => nowNs t < x.1 + 2000000000) ++ [(nowNs t, g.bytes)] } }) ∧
  (∀ (g : Grant) (s b : State), inSync (activePath s) = true → s.ptu.rate ≠ 0 → g.bad = false →
    profileUsable s g.profile = true → g.kind ≠ 1 → g.kind ≠ 2 → s.ptu.act = .o5 → s.ptu.laser = true → grantPort s g.alloc = none →
    s.ptu.defAlloc = true → g.alloc = s.ptu.onuId → b = noteBurst g s →
    exec (.bwmapGrant g) s = .next (ponCount 19 g.bytes (ponCount 18 1
      { b with ptu.defGrants := b.ptu.defGrants ++ [ponGrant g b] }))) ∧
  (∀ (port : Nat) (g : PonGrant) (rest : List PonGrant) (s a : State), s.ptu.act = .o5 → s.ptu.laser = true → port < 8 →
    (s.ptu.ports.getD port PonPort.reset).grants = g :: rest → a = advanceAon g.dueNs s →
    exec (.upstreamBurst port) s =
      .next (portBurst port g { a with free := a.free + 1, ptu.txPower := (draw a).1.truncate 32 })) ∧
  (∀ (g : PonGrant) (gs : List PonGrant) (s a : State), s.ptu.act = .o5 → s.ptu.laser = true → s.ptu.defGrants = g :: gs →
    a = advanceAon g.dueNs s →
    exec (.upstreamBurst 8) s = .next (defBurst g { a with free := a.free + 1, ptu.txPower := (draw a).1.truncate 32 })) ∧
  (∀ s : State, s.ptu.txOff = false → exec .transmitMonitorTrip s =
    .next (raiseFault 0x3003 [] true (evtPon 8 [] (ponCount 22 1 { s with ptu.txOff := true, ptu.laser := false })))) ∧
  (∀ s : State, s.ptu.to1 = true → (s.ptu.act = .o23 ∨ s.ptu.act = .o4) →
    exec .to1Expiry s = .next (enterO1 (advanceAon (s.ptu.to1Ns + 10000000000) s))) ∧
  (∀ s : State, s.ptu.to2 = true → s.ptu.act = .o6 → exec .to2Expiry s = .next (enterO1 (advanceAon (s.ptu.to2Ns + 100000000) s)))

/-- OMCI, time of day, watchful sleep, the protection trigger and the performance bins have their effects. In O5 an OMCI message of a
delegated class goes to the host and waits for its answer, one of an implemented class is performed, and any other is answered unknown
managed entity; a relayed message unanswered for 2 s is answered device busy. A time-of-day pair of a frame still to come waits for it, of
a frame received passes to the time base, and of another is counted and discarded. I_HOLD ends AWAKE_HELD in O5 after its time, the
WATCH_PEEK tick without a wake returns to WATCH, I_LOWPOWER enters AWARE and I_AWARE returns to WATCH after theirs. After 4 ms of LODS the
protection trigger is counted and, when armed on the active module of a pair, raised. PM_BIN_BOUNDARY closes the bin at its boundary and
opens the next at the same instant. The rows: OMCI_MESSAGE, OMCI_RELAY_TIMEOUT, TIME_OF_DAY_PAIR, I_HOLD_EXPIRY, WATCH_PEEK_TICK,
I_LOWPOWER_EXPIRY, I_AWARE_EXPIRY, PROTECTION_TIMER_EXPIRY, PM_BIN_BOUNDARY. -/
def Obligations.PonServicesComplete : Prop :=
  (∀ (m : Omci) (s : State), s.ptu.act = .o5 → m.cls ≠ 0 → s.ptu.delegated.contains m.cls = true →
    exec (.omciMessage m) s = .next (evtPon 6 m.wire
      { s with ptu.relays := s.ptu.relays ++ [{ trans := m.trans, cls := m.cls, startNs := s.cpr.aonNs }] })) ∧
  (∀ (m : Omci) (s : State), s.ptu.act = .o5 → s.ptu.delegated.contains m.cls = false → omciClasses.contains m.cls = true →
    exec (.omciMessage m) s = .next (omciPerform m s)) ∧
  (∀ (m : Omci) (s : State), s.ptu.act = .o5 → s.ptu.delegated.contains m.cls = false → omciClasses.contains m.cls = false →
    exec (.omciMessage m) s = .next (omciAnswer m 4 [] s)) ∧
  (∀ (trans : Nat) (r : Relay) (s a : State), (s.ptu.relays.find? fun r => r.trans = trans) = some r →
    a = advanceAon (r.startNs + 2000000000) s →
    exec (.omciRelayTimeout trans) s =
      .next (sendOmci trans [6] { a with ptu.relays := a.ptu.relays.filter fun r => r.trans ≠ trans })) ∧
  (∀ (n sec ns : Nat) (fr : Nat) (s : State), s.ptu.act = .o5 → ns < 1000000000 →
    nearestFrame (activePath s).counter n = (fr : Int) → (activePath s).counter < fr → fr < (activePath s).counter + 80000 →
    exec (.timeOfDayPair n sec ns) s =
      .next { s with ptu.todWait := s.ptu.todWait ++ [(fr, sec * secUnits + ns * 65536)] }) ∧
  (∀ (n sec ns fr path cap : Nat) (s : State), s.ptu.act = .o5 → ns < 1000000000 →
    nearestFrame (activePath s).counter n = (fr : Int) → fr ≤ (activePath s).counter → (activePath s).counter ≤ fr + 8000 →
    s.ptu.frames.find? (fun x => rateOf x.1 = s.ptu.rate ∧ x.2.1 = fr) = some (path, fr, cap) →
    exec (.timeOfDayPair n sec ns) s = .next (passTod (sec * secUnits + ns * 65536) cap s)) ∧
  (∀ (n sec ns fr : Nat) (s : State), s.ptu.act = .o5 → ns < 1000000000 →
    nearestFrame (activePath s).counter n = (fr : Int) → fr ≤ (activePath s).counter →
    s.ptu.frames.find? (fun x => rateOf x.1 = s.ptu.rate ∧ x.2.1 = fr) = none →
    exec (.timeOfDayPair n sec ns) s = .next (ponCount 24 1 s)) ∧
  (∀ s : State, s.ptu.act = .o5 → s.ptu.sleepSt = .awakeHeld → exec .iHoldExpiry s = .next (ponTrySleep (setSleep .awakeFree (sleepTimer s.ptu.iHold s)))) ∧
  (∀ s a p : State, s.ptu.sleepSt = .watch → a = advanceAon (s.ptu.peekNs + 1000000) s →
    p = setSleep .watchPeek { a with ptu.peekNs := a.cpr.aonNs } →
    exec (.watchPeekTick 0) s = .next (setSleep .watch p) ∧ exec (.watchPeekTick 1) s = .next (wakeSource 3 (ponWake false p)) ∧
    exec (.watchPeekTick 2) s = .next (wakeSource 3 (ponWake false { p with ptu.sleepAllow := false })) ∧
    exec .iLowpowerExpiry s = .next (setSleep .aware (sleepTimer s.ptu.iLow s))) ∧
  (∀ s : State, s.ptu.sleepSt = .aware → exec .iAwareExpiry s = .next (setSleep .watch (sleepTimer s.ptu.iAware s))) ∧
  (∀ s a f : State, s.ptu.prot = true → (activePath s).lods = true → s.ptu.protFired = false →
    a = advanceAon (s.ptu.protNs + 4000000) s →
    f = evtPon 4 [] { a with
      ptu.prot := false, ptu.protFired := true, ptu.triggers := inc32 a.ptu.triggers, ptu.lastTrigNs := nowNs a } →
    (f.ptu.armed = false ∨ f.cti.twin ≠ 1 ∨ f.cti.paired = false →
      exec .protectionTimerExpiry s = .next { f with ptu.trigCount := inc32 f.ptu.trigCount }) ∧
    (f.ptu.armed = true → f.cti.twin = 1 → f.cti.paired = true → exec .protectionTimerExpiry s = .next (twinTrigger 0 f))) ∧
  (∀ s a : State, a = accruePon (advanceTo (binBoundary s.ptu.cur15 s) s) →
    exec (.pmBinBoundary false) s = .next (close15 false false false s.ptu.cur15.until_ s.ptu.cur15.until_ a)) ∧
  (∀ s a : State, a = accruePon (advanceTo (binBoundary s.ptu.curDay s) s) →
    exec (.pmBinBoundary true) s = .next (closeDay false false false s.ptu.curDay.until_ s.ptu.curDay.until_ a))

/-- The commands of legs, streams, conferences, statistics and shaper nodes complete with their effects. When none of its checks fails, in
the order of R88, R49 and R529: LEG_CREATE enters the leg it describes in CREATED at the index named or the lowest free one and returns
the index; LEG_MODIFY applies the flagged fields and STREAM_ADD enters the stream, each in the flow of its leg, after the chain walks that
wait (R86); CONF_CREATE enters the conference with its default ring buffer and returns its index. LEG_DELETE, STREAM_REMOVE and
CONF_DELETE of an object that exists tear it down. LEG_STATS returns the leg's 16 words, or for a FREE leg its state and an RTT of
0xFFFF_FFFF, and clears the counters but the RTT with bit 31. SHAPER_SET sets a leg node, a port's service bucket, or a port's bucket and
overhead. The rows: LEG_CREATE, LEG_MODIFY, LEG_DELETE, STREAM_ADD, STREAM_REMOVE, CONF_CREATE, CONF_DELETE, LEG_STATS, SHAPER_SET. -/
def Obligations.LegCommandsComplete : Prop :=
  CompletesOk .legCreate 0x0301 (exactly 28) (fun c b => firstFail (legCreateChecks c b) = none)
    (fun c b => [w32 (pickIndex b.fwe.legs (field (word c 0) 0 16))])
    (fun c b => legCheck (pickIndex b.fwe.legs (field (word c 0) 0 16)) (addLeg (pickIndex b.fwe.legs (field (word c 0) 0 16))
      { createdLeg c with
        state := .created, confirmed := !(createdLeg c).ice, slot := needsSlot (createdLeg c)
        lufrag := if (createdLeg c).ice then (createdLeg c).lufrag else []
        rufrag := if (createdLeg c).ice then (createdLeg c).rufrag else []
        lpwd := if (createdLeg c).ice then (createdLeg c).lpwd else [] } b)) ∧
  CompletesOk .legModify 0x0302 (exactly 30) (fun c b => firstFail (legModifyChecks c b) = none) (fun _ _ => [])
    (fun c b => modifyLeg (field (word c 0) 0 14) (word c 1).toNat
      (legOfWords (c.words.drop 2) ((tget b.fwe.legs (field (word c 0) 0 14)).getD Leg.reset).ipv6) (inFlow (field (word c 0) 0 14) b)) ∧
  CompletesOk .legDelete 0x0303 (exactly 1) (fun c b => thas b.fwe.legs (field (word c 0) 0 14) = true) (fun _ _ => [])
    (fun c b => deleteLeg (field (word c 0) 0 14) b) ∧
  CompletesOk .streamAdd 0x0304 (exactly 5) (fun c b => firstFail (streamAddChecks c b) = none) (fun _ _ => [])
    (fun c b => { inFlow (field (word c 0) 0 16 / 4) b with
      fwe.streams := tset (inFlow (field (word c 0) 0 16 / 4) b).fwe.streams (field (word c 0) 0 16) (streamOfWords c) }) ∧
  CompletesOk .streamRemove 0x0305 (exactly 1) (fun c b => thas b.fwe.streams (field (word c 0) 0 16) = true) (fun _ _ => [])
    (fun c b => removeStream (field (word c 0) 0 16) (inFlow (field (word c 0) 0 16 / 4) b)) ∧
  CompletesOk .confCreate 0x0308 (exactly 2) (fun c b => firstFail (confCreateChecks c b) = none)
    (fun c b => [w32 (pickIndex b.aue.confs (field (word c 0) 0 16))])
    (fun c b => defaultRing (pickIndex b.aue.confs (field (word c 0) 0 16))
      { b with aue.confs := tset b.aue.confs (pickIndex b.aue.confs (field (word c 0) 0 16)) (createdConf c b) }) ∧
  CompletesOk .confDelete 0x0309 (exactly 1) (fun c b => thas b.aue.confs (field (word c 0) 0 13) = true) (fun _ _ => [])
    (fun c b => deleteConf (field (word c 0) 0 13) b) ∧
  CompletesOk .legStats 0x030A (exactly 1) (fun c b => thas b.fwe.legs (field (word c 0) 0 14) = true ∧ bit (word c 0) 31 = false)
    (fun c b => legStatsWords b (field (word c 0) 0 14)) (fun _ b => b) ∧
  CompletesOk .legStats 0x030A (exactly 1) (fun c b => tget b.fwe.legs (field (word c 0) 0 14) = none ∧ bit (word c 0) 31 = false)
    (fun _ _ => List.replicate 15 0 ++ [0xFFFFFFFF]) (fun _ b => b) ∧
  CompletesOk .legStats 0x030A (exactly 1) (fun c _ => bit (word c 0) 31 = true)
    (fun c b => legStatsWords b (field (word c 0) 0 14))
    (fun c b => modLeg (field (word c 0) 0 14) (fun l => { l with stats := { LegStats.reset with rttUs := l.stats.rttUs } }) b) ∧
  CompletesOk .shaperSet 0x030B (exactly 4)
    (fun c b => field (word c 0) 0 2 = 0 ∧ (word c 1).toNat ≠ 0 ∧ field (word c 3) 8 8 ≠ 0 ∧
      thas b.fwe.legs (field (word c 0) 16 14) = true)
    (fun _ _ => []) (fun c b => shapeLeg (field (word c 0) 16 14) c b) ∧
  CompletesOk .shaperSet 0x030B (exactly 4) (fun c _ => field (word c 0) 0 2 = 1 ∧ field (word c 0) 16 14 ≤ 14) (fun _ _ => [])
    (fun c b => modPort (field (word c 0) 16 14) (fun p => { p with
      services := p.services.modify (field (word c 0) 2 2) fun x => bucketSet x (word c 1).toNat (word c 2).toNat b.cpr.aonNs }) b) ∧
  CompletesOk .shaperSet 0x030B (exactly 4) (fun c _ => field (word c 0) 0 2 = 2 ∧ field (word c 0) 16 14 ≤ 14) (fun _ _ => [])
    (fun c b => modPort (field (word c 0) 16 14) (fun p => { p with
      bucket := bucketSet p.bucket (word c 1).toNat (word c 2).toNat b.cpr.aonNs, overhead := field (word c 3) 0 8 }) b)

/-- SUB_ADD and SUB_REMOVE complete with their effects on the chain. Both act in the flow of their destination leg, after the chain walks
that wait (R86): f is the state then. When none of its checks fails and the source's chain is sound, SUB_ADD of a pairing not in the chain
links a new entry at the chain's head, at the lowest free index, with the SSRC given or one the module picks; of a pairing in the chain it
changes that entry's settings in place; with replace it moves the entry of the old source to the new source's chain, inactive until a
switch point, with its continuity pending; each returns the entry's index. SUB_REMOVE of an entry that exists ends its repair, begun or
only asked for, and unlinks it. The rows: SUB_ADD, SUB_REMOVE. -/
def Obligations.SubscriptionCommandsComplete : Prop :=
  (∀ (c : Cmd) (s f : State), startsNow 0x0306 (exactly 4) c s = true → firstFail (subAddChecks c (begun c s)) = none →
    f = inFlow (field (word c 0) 16 14) (begun c s) → (chainOf f (field (word c 0) 0 16)).2 = false → bit (word c 1) 16 = false →
    findPair f (field (word c 0) 0 16) (field (word c 0) 16 14) (subPort c f) = none → word c 3 ≠ 0 →
    exec (.subAdd c) s = .next (answered 0x0306 c [w32 (tfree f.fwe.ledger 0)] (linkEntry (tfree f.fwe.ledger 0)
      (subNew c (subPort c f) (decide (((tget f.fwe.legs (field (word c 0) 16 14)).getD Leg.reset).kind = .tree)) (word c 3) f) f))) ∧
  (∀ (c : Cmd) (s f p : State) (ssrc : Word), startsNow 0x0306 (exactly 4) c s = true →
    firstFail (subAddChecks c (begun c s)) = none →
    f = inFlow (field (word c 0) 16 14) (begun c s) → (chainOf f (field (word c 0) 0 16)).2 = false → bit (word c 1) 16 = false →
    findPair f (field (word c 0) 0 16) (field (word c 0) 16 14) (subPort c f) = none → word c 3 = 0 →
    (ssrc, p) = pickSsrc (field (word c 0) 16 14) f →
    exec (.subAdd c) s = .next (answered 0x0306 c [w32 (tfree f.fwe.ledger 0)] (linkEntry (tfree f.fwe.ledger 0)
      (subNew c (subPort c f) (decide (((tget f.fwe.legs (field (word c 0) 16 14)).getD Leg.reset).kind = .tree)) ssrc p) p))) ∧
  (∀ (c : Cmd) (s f : State) (k : Nat), startsNow 0x0306 (exactly 4) c s = true → firstFail (subAddChecks c (begun c s)) = none →
    f = inFlow (field (word c 0) 16 14) (begun c s) → (chainOf f (field (word c 0) 0 16)).2 = false → bit (word c 1) 16 = false →
    findPair f (field (word c 0) 0 16) (field (word c 0) 16 14) (subPort c f) = some k →
    exec (.subAdd c) s = .next (answered 0x0306 c [w32 k] (modEntry k (subSettings c) f))) ∧
  (∀ (c : Cmd) (s f : State) (k : Nat) (e : Entry), startsNow 0x0306 (exactly 4) c s = true →
    firstFail (subAddChecks c (begun c s)) = none →
    f = inFlow (field (word c 0) 16 14) (begun c s) → (chainOf f (field (word c 0) 0 16)).2 = false → bit (word c 1) 16 = true →
    findPair f (field (word c 3) 0 16) (field (word c 0) 16 14) (subPort c f) = some k → tget f.fwe.ledger k = some e →
    exec (.subAdd c) s = .next (answered 0x0306 c [w32 k] (linkEntry k
      { subSettings c e with
        source := field (word c 0) 0 16, ptOut := field (word c 2) 0 7, active := 0, awaiting := true, awaitNs := f.cpr.aonNs
        contPend := true, seqOffOld := e.seqOff, lastInOld := e.lastIn, repair := none, repairQ := [], synth := [] }
      (unlinkEntry k (endEntryRepair k 6 f))))) ∧
  (∀ (c : Cmd) (s : State) (e : Entry), startsNow 0x0307 (exactly 1) c s = true →
    tget (begun c s).fwe.ledger (field (word c 0) 0 19) = some e →
    exec (.subRemove c) s = .next (answered 0x0307 c [] (removeEntry (field (word c 0) 0 19)
      (inFlow e.dest (begun c s)))))

/-- Datagrams are classified by 5-tuple and first bytes, and STUN, consent and DTLS have their effects. A datagram of no leg is dropped
and counted at its port; an RTP packet of an SSRC the leg does not know is dropped and reported; another first byte is counted; STUN,
DTLS, RTCP and known RTP go on. A cell of a Course port with an IP packet is classified as an arrival on port 9 plus the port, on a module
that does not relay. A DTLS datagram of a network leg goes to the host as a data frame of kind 0 with its arrival time; a host data frame
on the active link is taken. A STUN binding request that finds a buffer, with the leg's credentials, is answered, and with USE-CANDIDATE
confirms the path, taking the peer's pair where it differs with EVT_LEG detail 5; one with other credentials is ignored and counted. A
consent check is sent when it is due, and the next is due 4 s and a free value of at most 2 s later; a valid response renews consent,
gives its round-trip time and makes the leg ACTIVE; 30 s without one makes it CONSENT_LOST, flushes it and raises EVT_LEG detail 2. The
rows: INGRESS_DATAGRAM, IP_PACKET_CELL, DTLS_DATAGRAM_INGRESS, HOST_DATA_FRAME, STUN_BINDING_REQUEST, CONSENT_CHECK_SEND,
CONSENT_RESPONSE, CONSENT_EXPIRY. -/
def Obligations.IngressCompletes : Prop :=
  (∀ (port : Nat) (d : Datagram) (s : State), legOfTuple s d = none → 3 < d.first →
    exec (.ingressDatagram port d) s = .next { s with fwe.portCnt := s.fwe.portCnt.modify port fun l => l.modify 0 fun n => inc32 n }) ∧
  (∀ (port leg : Nat) (l : Leg) (d : Datagram) (s : State), legOfTuple s d = some (leg, l) →
    (d.first ≤ 3 ∨ (20 ≤ d.first ∧ d.first ≤ 63) ∨
      (128 ≤ d.first ∧ d.first ≤ 191 ∧ ((192 ≤ d.second ∧ d.second ≤ 223) ∨ (knownSsrcs s leg).contains d.ssrc = true))) →
    exec (.ingressDatagram port d) s = .next s) ∧
  (∀ (port leg : Nat) (l : Leg) (d : Datagram) (s : State), legOfTuple s d = some (leg, l) → 128 ≤ d.first → d.first ≤ 191 →
    (d.second < 192 ∨ 223 < d.second) → (knownSsrcs s leg).contains d.ssrc = false →
    exec (.ingressDatagram port d) s = .next (unknownSsrc leg d.ssrc s)) ∧
  (∀ (port leg : Nat) (l : Leg) (d : Datagram) (s : State), legOfTuple s d = some (leg, l) →
    ((4 ≤ d.first ∧ d.first ≤ 19) ∨ (64 ≤ d.first ∧ d.first ≤ 127) ∨ 192 ≤ d.first) →
    exec (.ingressDatagram port d) s = .next { s with fwe.portCnt := s.fwe.portCnt.modify port fun l => l.modify 1 fun n => inc32 n }) ∧
  (∀ (port : Nat) (d : Datagram) (s : State), port < 4 → relays s = false →
    exec (.ipPacketCell port d) s = exec (.ingressDatagram (9 + port) d) s) ∧
  (∀ (leg b : Nat) (l : Leg) (bytes : List Byte) (s t : State), tget s.fwe.legs leg = some l → l.kind = .network →
    bufAlloc bytes.length true 4 1 s = (some b, t) →
    exec (.dtlsDatagramIngress leg bytes) s = .next (bufRelease b (sendData
      { kind := 0, tag := leg, timeNs := (stamp t).1, len := bytes.length, data := bytes.map (·.toNat) } (stamp t).2))) ∧
  (∀ (bytes : List Byte) (s : State), s.hlp.link = .active → exec (.hostDataFrame bytes) s = .next (hostFrame bytes s)) ∧
  (∀ (leg b : Nat) (l : Leg) (r : StunReq) (s t : State), tget s.fwe.legs leg = some l → l.kind = .network → l.ice = true →
    bufAlloc (stunBytes l true) true 4 1 s = (some b, t) →
    (r.user ≠ l.rufrag ∨ r.password ≠ l.lpwd → exec (.stunBindingRequest leg r) s =
      .next (bufRelease b (modLeg leg (fun l => { l with stunIgnored := l.stunIgnored + 1 }) t))) ∧
    (r.user = l.rufrag → r.password = l.lpwd → r.nominate = false →
      exec (.stunBindingRequest leg r) s = .next (bufRelease b (sendPlain leg .stun (stunBytes l false) [] t))) ∧
    (r.user = l.rufrag → r.password = l.lpwd → r.nominate = true → r.raddr = l.raddr → r.rport = l.rport →
      exec (.stunBindingRequest leg r) s = .next (bufRelease b (legCheck leg (modLeg leg (fun l => { l with confirmed := true })
        (sendPlain leg .stun (stunBytes l false) [] t))))) ∧
    (r.user = l.rufrag → r.password = l.lpwd → r.nominate = true → r.raddr ≠ l.raddr ∨ r.rport ≠ l.rport →
      exec (.stunBindingRequest leg r) s = .next (bufRelease b (legCheck leg (evtLeg 5 leg []
        (modLeg leg (fun l => { l with raddr := r.raddr, rport := r.rport }) (inFlow leg
          (modLeg leg (fun l => { l with confirmed := true }) (sendPlain leg .stun (stunBytes l false) [] t)))))))) ) ∧
  (∀ (leg t : Nat) (l : Leg) (s a d : State) (w : Nat), tget s.fwe.legs leg = some l → consentLeg l = true →
    l.consentDue = some t → a = advanceAon t s → drawBelow 2000000001 a = (w, d) →
    exec (.consentCheckSend leg) s = .next (sendPlain leg .stun (stunBytes l true) []
      (modLeg leg (fun l => { l with consentTx := l.consentTx + 1, consentDue := some (d.cpr.aonNs + 4000000000 + w) }) d))) ∧
  (∀ (leg b rttUs : Nat) (l : Leg) (s t : State), tget s.fwe.legs leg = some l → consentLeg l = true →
    bufAlloc (stunBytes l false) true 4 1 s = (some b, t) →
    exec (.consentResponse leg rttUs true) s = .next (bufRelease b (setLegState leg .active (measureLeg leg (none, some rttUs)
      (modLeg leg (fun l => { l with consentNs := t.cpr.aonNs, stats.rttUs := min rttUs 0xFFFFFFFE }) t))))) ∧
  (∀ (leg : Nat) (l : Leg) (s : State), tget s.fwe.legs leg = some l → consentLeg l = true → l.state = .active →
    exec (.consentExpiry leg) s = .next (evtLeg 2 leg [] (flushLeg leg (fun _ => true) (setLegState leg .consentLost
      (advanceAon (l.consentNs + 30000000000) s)))))

/-- RTP, FlexFEC, walks, releases and replays have their effects. Each is an item of its leg's flow, after the chain walks that wait (f is
the state then). An RTP packet of a REMOTE stream, given a buffer and authenticated, is counted on its leg, its sequence number and
arrival noted, and goes on as media, a retransmission as the packet it carries; one of the stream's FlexFEC SSRC ends there. One that
finds no buffer, is poisoned, or comes on a leg still CREATED, is dropped and counted; one that fails authentication is dropped with its
buffer released. A FlexFEC repair packet's recovered packet that fills a gap goes on as media, and one that fills none changes nothing; a
packet still missing 20 ms after its gap was seen is counted lost. A NACK naming the packet is sent 5 ms after a gap is seen, at most
twice; RFC 8888 feedback is sent for the arrivals noted; the oldest packet of a leg waiting for its walk is walked; a buffer reference is
released; a running replay's next record is sent at its time. The rows: RTP_PACKET_INGRESS, FLEXFEC_REPAIR_PACKET,
FLEXFEC_RECOVERY_TIMEOUT, NACK_SEND, FEEDBACK_SEND, CHAIN_WALK, BUFFER_RELEASE, REPLAY_RECORD_SEND. -/
def Obligations.RtpPathCompletes : Prop :=
  (∀ (st : Nat) (x : Stream) (l : Leg) (p : RtpPkt) (s f b a c d : State) (k now : Nat), f = inFlow (st / 4) s →
    tget f.fwe.streams st = some x → tget f.fwe.legs (st / 4) = some l → x.origin = false → l.kind = .network → l.state = .active →
    subDown f 8 = false → bufAlloc p.bytes (isAudio x.codec) 4 1 f = (some k, b) → p.poisoned = false →
    ingressAuth (st / 4) p.ssrc p.seq.toNat false p.mki p.prot p.bytes b = (true, a) →
    c = modLeg (st / 4) (fun l => { l with
      stats.inPkts := inc64 l.stats.inPkts, stats.inBytes := inc64 l.stats.inBytes p.bytes }) a → stamp c = (now, d) →
    (x.fecPt ≠ 0 → p.ssrc = x.fecSsrc → exec (.rtpPacketIngress st p) s = .next (bufRelease k c)) ∧
    (x.fecPt = 0 ∨ p.ssrc ≠ x.fecSsrc → x.rtxPt = 0 ∨ p.ssrc ≠ x.rtxSsrc →
      exec (.rtpPacketIngress st p) s = .next (mediaArrive st x p (some k) (noteFeedback st l p.seq now (modStream st
        (fun y => { noteSeq p.seq now y with rx := noteRx p.seq p.ts now (clockRate x.codec) (noteSeq p.seq now y).rx }) d)))) ∧
    (x.fecPt = 0 ∨ p.ssrc ≠ x.fecSsrc → x.rtxPt ≠ 0 → p.ssrc = x.rtxSsrc →
      exec (.rtpPacketIngress st p) s = .next (mediaArrive st x { p with ssrc := x.ssrc, seq := p.osn, pt := x.pt } (some k)
        (noteFeedback st l p.osn now (modStream st (noteSeq p.osn now) d))))) ∧
  (∀ (st : Nat) (x : Stream) (l : Leg) (p : RtpPkt) (s f b a : State) (k : Nat), f = inFlow (st / 4) s →
    tget f.fwe.streams st = some x → tget f.fwe.legs (st / 4) = some l → x.origin = false → l.kind = .network → l.state = .active →
    subDown f 8 = false → bufAlloc p.bytes (isAudio x.codec) 4 1 f = (some k, b) →
    (p.poisoned = true → exec (.rtpPacketIngress st p) s = .next (bufRelease k (legDrops (st / 4) 1 b))) ∧
    (p.poisoned = false → ingressAuth (st / 4) p.ssrc p.seq.toNat false p.mki p.prot p.bytes b = (false, a) →
      exec (.rtpPacketIngress st p) s = .next (bufRelease k a))) ∧
  (∀ (st : Nat) (x : Stream) (l : Leg) (p : RtpPkt) (s f b : State), f = inFlow (st / 4) s → tget f.fwe.streams st = some x →
    tget f.fwe.legs (st / 4) = some l → x.origin = false → l.kind = .network →
    (l.state = .created → exec (.rtpPacketIngress st p) s = .next (legDrops (st / 4) 1 f)) ∧
    (l.state = .active → subDown f 8 = false → bufAlloc p.bytes (isAudio x.codec) 4 1 f = (none, b) →
      exec (.rtpPacketIngress st p) s = .next (legDrops (st / 4) 1 b))) ∧
  (∀ (st : Nat) (x y : Stream) (l : Leg) (p : RtpPkt) (s f b : State) (k : Nat), tget s.fwe.streams st = some x →
    tget s.fwe.legs (st / 4) = some l → x.fecPt ≠ 0 → x.origin = false → l.state = .active → subDown s 8 = false →
    f = inFlow (st / 4) s → tget f.fwe.streams st = some y →
    ((y.gaps.any fun g => g.1 = p.seq.toNat) = false → exec (.flexfecRepairPacket st [p]) s = .next f) ∧
    ((y.gaps.any fun g => g.1 = p.seq.toNat) = true → p.poisoned = false → bufAlloc p.bytes (isAudio x.codec) 4 1 f = (some k, b) →
      exec (.flexfecRepairPacket st [p]) s = .next (mediaArrive st x { p with ssrc := x.ssrc, pt := x.pt, recovered := true } (some k)
        (modStream st (fun y => { y with
          gaps := y.gaps.filter fun g => g.1 ≠ p.seq.toNat, recovered := y.recovered + 1 }) b)))) ∧
  (∀ (st seq t n : Nat) (x : Stream) (s : State), tget s.fwe.streams st = some x → x.fecPt ≠ 0 → gapOf s st seq = some (t, n) →
    exec (.flexfecRecoveryTimeout st seq) s = .next (modStream st (fun x => { x with
      gaps := x.gaps.filter (fun g => g.1 ≠ seq), lostPkts := x.lostPkts + 1 }) (advanceTo ((t + 20000000) * 65536) s))) ∧
  (∀ (st seq t n : Nat) (x : Stream) (s : State), tget s.fwe.streams st = some x → gapOf s st seq = some (t, n) → n < 2 →
    exec (.nackSend st seq) s = .next (sendRtcp (st / 4) x.ssrc (.nack x.ssrc seq) (modStream st (fun x => { x with
      gaps := x.gaps.map fun g => if g.1 = seq then (g.1, g.2.1, g.2.2 + 1) else g }) (advanceTo ((t + 5000000) * 65536) s)))) ∧
  (∀ (st seq t n : Nat) (s : State), gapOf s st seq = some (t, n) → 2 ≤ n → exec (.nackSend st seq) s = .next s) ∧
  (∀ (st : Nat) (x : Stream) (l : Leg) (s a : State), tget s.fwe.streams st = some x → tget s.fwe.legs (st / 4) = some l →
    l.feedback = true → x.origin = false → a = (if x.fbNs = 0 then s else advanceTo ((x.fbNs + 20000000) * 65536) s) →
    exec (.feedbackSend st) s = .next (sendRtcp (st / 4) x.ssrc (.feedback x.ssrc (nowNs a) x.feedback)
      (modStream st (fun x => { x with feedback := [], fbNs := nowNs a }) a))) ∧
  (∀ (st i : Nat) (w : WalkItem) (poisoned : List Nat) (s : State), oldestWalk s (st / 4) = some (i, w) → w.stream = st →
    exec (.chainWalk ⟨st, poisoned⟩) s = .next (walkChain w poisoned { s with fwe.walkQ := s.fwe.walkQ.eraseIdx i })) ∧
  (∀ (pool index : Nat) (s : State), pool < 8 → index < (poolOf s pool).count →
    (((tget s.bpm.bufs (bufKey pool index)).bind (·.reader)).isSome = true →
      exec (.bufferRelease pool index) s = .next (bufRelease (bufKey pool index)
        { s with bpm.bufs := tmod s.bpm.bufs (bufKey pool index) fun b => { b with reader := none } })) ∧
    (((tget s.bpm.bufs (bufKey pool index)).bind (·.reader)).isSome = false →
      exec (.bufferRelease pool index) s = .next (bufRelease (bufKey pool index) (appendDone (bufKey pool index) s)))) ∧
  (∀ (n first t : Nat) (r : Replay) (g : Ring) (x : CairnRec) (p : RtpPkt) (y : Stream) (s a : State),
    tget s.mss.replays n = some r → r.firstNs = some first → r.running = true → 0 < r.sent → tget s.mss.rings r.conf = some g →
    g.recs.find? (replayOwes r) = some x → r.lost = false → x.pkt = some p → tget s.fwe.streams r.target = some y →
    t = r.launchNs + (x.timeNs - first) → a = engineTraffic .cairnRead (recBytes x.length) (advanceTo (t * 65536) s) →
    exec (.replayRecordSend n) s = .next (forkLocal r.target
      { p with
        ssrc := y.ssrc, pt := y.pt, seq := p.seq + r.firstSeq.setWidth 16, ts := p.ts + r.tsOff, launch := some t }
      (modStream r.target (fun y => { y with txSeq := w32 ((p.seq + r.firstSeq.setWidth 16 + 1).toNat) })
        { a with
          mss.replays := tset a.mss.replays n
            { r with next := x.number + 1, sent := inc32 r.sent, firstSeq := (r.firstSeq.setWidth 16).setWidth 32 } })))

/-- The RTCP messages of a network leg past CREATED, each read in a buffer of its own, have their effects. RTCP_SR_RR gives Plumb, for
each block on an SSRC sent to the leg, its jitter at the stream's clock rate, fraction lost and round-trip sample; RTCP_SDES sets the
CNAME; RTCP_BYE raises EVT_LEG detail 4; each sequence number of GENERIC_NACK is counted and answered from the window or counted as
discarded; PLI_FIR is a refresh need of the entries that send the SSRC; CONGESTION_FEEDBACK marks the send records its reports cover.
RTCP_OTHER_TYPE is counted at its port. On a leg in CREATED each is dropped and counted, and so is one that finds no buffer. SR_SEND sends
a sender report of an SSRC sent to the leg, with a report block for each stream received on it, when it is due; the next is due 0.5 s and
a free value of at most 1 s later. The rows: RTCP_SR_RR, RTCP_SDES, RTCP_BYE, GENERIC_NACK, PLI_FIR, CONGESTION_FEEDBACK, RTCP_OTHER_TYPE,
SR_SEND. -/
def Obligations.RtcpCompletes : Prop :=
  (∀ (leg : Nat) (l : Leg) (s : State), tget s.fwe.legs leg = some l → l.kind = .network → l.state ≠ .created → l.state ≠ .deleting →
    (∀ (r : RtcpReport) (k : ReportBlock) (i b now : Nat) (e : Entry) (t u : State),
      bufAlloc (8 + (if r.ntpMid.isSome then 20 else 0) + 24) true 4 1 s = (some b, t) → stamp t = (now, u) → r.blocks = [k] →
      ((entriesTo (noteSr leg r now u) leg).find? fun e => e.2.ssrcOut = k.ssrc) = some (i, e) → exec (.rtcpSrRr leg r) s =
      .next (bufRelease b (measureLeg leg (some (k.jitter * 1000000 / clockRate (codecOf (noteSr leg r now u) e.source),
        k.fractionLost * 4), blockRtt now k) (noteSr leg r now u)))) ∧
    (∀ (r : RtcpReport) (b now : Nat) (t u : State), bufAlloc (reportBytes r) true 4 1 s = (some b, t) → stamp t = (now, u) →
      exec (.rtcpSrRr leg r) s = .next (bufRelease b (r.blocks.foldl (takeBlock leg now) (noteSr leg r now u)))) ∧
    (∀ (cname : List Byte) (b : Nat) (t : State), bufAlloc (sdesBytes cname) true 4 1 s = (some b, t) →
      exec (.rtcpSdes leg cname) s = .next (bufRelease b (modLeg leg (fun l => { l with cname := cname }) t))) ∧
    (∀ (ssrc : Word) (b : Nat) (t : State), bufAlloc 8 true 4 1 s = (some b, t) →
      exec (.rtcpBye leg ssrc) s = .next (bufRelease b (evtLeg 4 leg [ssrc] t))) ∧
    (∀ (ssrc : Word) (q b : Nat) (t : State), bufAlloc 16 true 4 1 s = (some b, t) →
      ((entriesTo (inFlow leg t) leg).find? fun e => e.2.ssrcOut = ssrc) = none →
      exec (.genericNack leg ssrc [q]) s = .next (bufRelease b
        (modLeg leg (fun l => { l with stats.nacksDrop := inc32 l.stats.nacksDrop })
          (modLeg leg (fun l => { l with stats.nacksIn := inc32 l.stats.nacksIn }) (inFlow leg t))))) ∧
    (∀ (ssrc : Word) (q i b : Nat) (n : RtpPkt × Option Nat × Word) (e : Entry) (t c : State), bufAlloc 16 true 4 1 s = (some b, t) →
      c = modLeg leg (fun l => { l with stats.nacksIn := inc32 l.stats.nacksIn }) (inFlow leg t) →
      ((entriesTo (inFlow leg t) leg).find? fun e => e.2.ssrcOut = ssrc) = some (i, e) → nackPacket c e q = some n → l.state = .active →
      exec (.genericNack leg ssrc [q]) s = .next (bufRelease b (retransmit i e l q n c))) ∧
    (∀ (ssrc : Word) (fir : Bool) (b : Nat) (t : State), bufAlloc 12 true 4 1 s = (some b, t) → exec (.pliFir leg ssrc fir) s =
      .next (bufRelease b (((entriesTo t leg).filter fun e => e.2.ssrcOut = ssrc).foldl (fun s e => noteNeed e.1 0 s) t))) ∧
    (∀ (rs : List FbReport) (b : Nat) (t : State), bufAlloc (20 + 4 * rs.length) true 4 1 s = (some b, t) →
      exec (.congestionFeedback leg rs) s =
        .next (bufRelease b (modGov leg (fun g => rs.foldl (fun g r => takeReport (nowNs t) r g) g) t))) ∧
    (∀ (ssrc : Word) (t : State), bufAlloc 8 true 4 1 s = (none, t) → exec (.rtcpBye leg ssrc) s = .next (legDrops leg 1 t))) ∧
  (∀ (leg : Nat) (l : Leg) (s : State), tget s.fwe.legs leg = some l → l.kind = .network → l.state = .created →
    (∀ r : RtcpReport, exec (.rtcpSrRr leg r) s = .next (legDrops leg 1 s)) ∧
    (∀ ssrc : Word, exec (.rtcpBye leg ssrc) s = .next (legDrops leg 1 s))) ∧
  (∀ (port : Nat) (s : State), exec (.rtcpOtherType port) s =
    .next { s with fwe.portCnt := s.fwe.portCnt.modify port fun l => l.modify 2 fun n => inc32 n }) ∧
  (∀ (leg i w t : Nat) (ssrc : Word) (e : Entry) (own : List (Nat × Stream)) (s a d : State),
    ((entriesTo s leg).find? fun e => e.2.ssrcOut = ssrc) = some (i, e) → e.srDue = some t → a = advanceTo (t * 65536) s →
    drawBelow 1000000001 a = (w, d) → own = (d.fwe.streams.filter fun x => x.1 / 4 = leg ∧ x.2.origin = false) →
    exec (.srSend leg ssrc) s = .next (sendRtcp leg ssrc
      (.sr (nowNs d) (e.lastTs + w32 (((nowNs d - e.lastSendNs) * clockRate (codecOf d e.source)) / 1000000000)) e.outPkts e.outBytes
        (own.map fun x => reportBlock (nowNs d) x.2) (((tget d.fwe.legs leg).map fun l => l.cnameTx).getD []))
      (own.foldl (fun s x => modStream x.1 reported s) (modEntry i (fun e => { e with srDue := some (nowNs d + 500000000 + w) }) d))))

/-- Port service, eligible frames, paced launches and launch times have their effects. While egress is stopped no port is served. Else a
ready port below 15 is served: a paced port stamps its next frame, an unpaced port with frames left in its timed queue launches the first,
or drops it when it is late. When the first waiting head frame of an unpaced port becomes eligible, time passes to that instant and the
port is served. The comparator of a paced port launches the head of its timed queue at its stamp, or drops it when late, and is armed for
the next one. A head frame whose launch time is reached on an unpaced port is dropped when late, and launched at the debit of its buckets
when they allow it. The rows: PORT_READY_SERVE, FRAME_BECOMES_ELIGIBLE, PACED_LAUNCH, LAUNCH_TIME_REACHED. -/
def Obligations.ShaperCompletes : Prop :=
  (∀ (port : Nat) (s : State), s.cti.egressStopped = true → exec (.portReadyServe port) s = .next s) ∧
  (∀ (port : Nat) (s : State), port < 15 → (portShape s port).paced = true → s.cti.egressStopped = false →
    exec (.portReadyServe port) s = .next (serveStamp port s)) ∧
  (∀ (port : Nat) (f g : Frame) (fs : List Frame) (s t : State), port < 15 → (portShape s port).paced = false → s.cti.egressStopped = false →
    (portShape s port).timed = f :: g :: fs → t = modPort port (fun x => { x with timed := g :: fs }) s →
    exec (.portReadyServe port) s = .next (if isLate t f then dropLate f t else launchFrame f t)) ∧
  (∀ (port e : Nat) (s : State), port < 15 → (portShape s port).paced = false →
    (((List.range 4).flatMap fun v => portHeads s port v).filterMap fun h => eligibleAt s h.2.1).min? = some e →
    exec (.frameBecomesEligible port) s = .next (servePort port (advanceAon e s))) ∧
  (∀ (port : Nat) (f : Frame) (fs : List Frame) (s t : State), port < 15 → (portShape s port).paced = true →
    s.cti.egressStopped = false → (portShape s port).timed = f :: fs →
    t = modCmp (portShape s port).cmp (fun c => { c with armed := false, fired := true })
      (modPort port (fun x => { x with timed := fs }) (advanceTo (f.stamp * 65536) s)) →
    exec (.pacedLaunch port) s = .next (armPort port (if isLate t f then dropLate f t else launchFrame f t))) ∧
  (∀ (leg service port l : Nat) (f : Frame) (fs : List Frame) (s a : State), port < 15 → service < 4 →
    (portShape s port).paced = false → s.cti.egressStopped = false → (frameQ s (qKey leg service port)).frames = f :: fs →
    f.launch = some l → a = advanceTo (l * 65536) s → isLate a f = true →
    exec (.launchTimeReached leg service port) s = .next (dropLate f (takeHead f a))) ∧
  (∀ (leg service port l v : Nat) (f : Frame) (fs : List Frame) (s a : State), port < 15 → service < 4 →
    (portShape s port).paced = false → s.cti.egressStopped = false → (frameQ s (qKey leg service port)).frames = f :: fs →
    f.launch = some l → a = advanceTo (l * 65536) s → isLate a f = false → (eligibleAt a f).any (fun e => e ≤ a.cpr.aonNs) = true →
    v = (f.len - (frameQ a (qKey leg service port)).deficit + (legShape a leg).weight * 256 - 1) / ((legShape a leg).weight * 256) →
    ∃ t, exec (.launchTimeReached leg service port) s = .next (launchFrame f (debitPath f t.cpr.aonNs (takeHead f t))) ∧
      t = putQ (qKey leg service port) (frameQ a (qKey leg service port)).frames
        ((frameQ a (qKey leg service port)).deficit + v * (legShape a leg).weight * 256) a)

/-- The epoch boundary, the publication and the governor's commands complete with their effects. At an epoch boundary decisions not yet
published are published, the epoch in progress closes, waiting policies, classes and mode take effect, the computation over it starts as
of the boundary, and what arrived at the boundary counts in the new epoch; with no epoch in progress, or Plumb down, nothing is computed.
A computation in progress is published 10 ms after its boundary. GOV_CLASS_SET in range leaves the class's parameters, or the defaults,
waiting for the next boundary, or reads them. GOV_OVERRIDE leaves the pin or the release of an encoder's target, or a leg's pin, cap,
freeze or release, waiting for the next publication. GOV_READ returns a leg's, encoder's or port's words. The rows: PLUMB_EPOCH_BOUNDARY,
PLUMB_PUBLICATION, GOV_CLASS_SET, GOV_OVERRIDE, GOV_READ. -/
def Obligations.GovernorCompletes : Prop :=
  (∀ s a p o c : State, a = settleChannels (advanceTo (epochDue s * 65536) s) →
    p = (if a.lgv.computing = true ∧ a.lgv.epoch < epochDue s then publishEpoch [] a else a) → o = openEpoch (endEpoch p) →
    ((a.lgv.gap = false ∧ subDown a 15 = false ∧ c = computeEpoch (epochDue s) o) ∨
      ((a.lgv.gap = true ∨ subDown a 15 = true) ∧ c = o)) →
    exec .plumbEpochBoundary s = .next (takeLater { c with lgv.gap := false, lgv.boundNs := epochDue s })) ∧
  (∀ (late : List Nat) (s : State), s.lgv.computing = true →
    exec (.plumbPublication late) s = .next (publishEpoch late (advanceTo ((s.lgv.epoch + 10000000) * 65536) s))) ∧
  CompletesOkBy .govClassSet 0x0701 (fnLens [7, 1, 1]) (fun c _ => field (word c 0) 16 4 = 0 ∧ classBad (classOfWords c) = false)
    (fun _ _ => [])
    (fun c b => { b with
      lgv.classNew := (b.lgv.classNew.filter fun y => y.1 ≠ field (word c 0) 0 3 ∨ y.2.1 < nextBoundaryNs 10000000 b) ++
        [(field (word c 0) 0 3, nextBoundaryNs 10000000 b, classOfWords c)] }) ∧
  CompletesOkBy .govClassSet 0x0701 (fnLens [7, 1, 1]) (fun c _ => field (word c 0) 16 4 = 1)
    (fun c b => classWords (((b.lgv.classNew.reverse.find? fun y => y.1 = field (word c 0) 0 3).map (·.2.2)).getD
      (classOf b (field (word c 0) 0 3))))
    (fun _ b => b) ∧
  CompletesOkBy .govClassSet 0x0701 (fnLens [7, 1, 1]) (fun c _ => field (word c 0) 16 4 = 2) (fun _ _ => [])
    (fun c b => { b with
      lgv.classNew := (b.lgv.classNew.filter fun y => y.1 ≠ field (word c 0) 0 3 ∨ y.2.1 < nextBoundaryNs 10000000 b) ++
        [(field (word c 0) 0 3, nextBoundaryNs 10000000 b, ClassP.reset)] }) ∧
  CompletesOk .govOverride 0x0702 (exactly 2)
    (fun c b => field (word c 0) 16 4 = 4 ∧ thas b.vca.encs (field (word c 0) 0 10) = true) (fun _ _ => [])
    (fun c b => modEnc (field (word c 0) 0 10) (fun e => { e with ovNew := e.ovNew ++ [(4, (word c 1).toNat)] }) b) ∧
  CompletesOk .govOverride 0x0702 (exactly 2)
    (fun c b => field (word c 0) 16 4 = 5 ∧ thas b.vca.encs (field (word c 0) 0 10) = true) (fun _ _ => [])
    (fun c b => modEnc (field (word c 0) 0 10) (fun e => { e with ovNew := e.ovNew ++ [(5, 0)] }) b) ∧
  CompletesOk .govOverride 0x0702 (exactly 2)
    (fun c b => field (word c 0) 16 4 ≤ 3 ∧ (∃ l, tget b.fwe.legs (field (word c 0) 0 14) = some l ∧ l.kind ≠ .producer ∧
        (field (word c 0) 16 4 = 2 → l.kind = .network → l.state ≠ .created)))
    (fun _ _ => [])
    (fun c b => modGov (field (word c 0) 0 14) (fun g => { g with
      ovNew := g.ovNew ++ [(field (word c 0) 16 4, if field (word c 0) 16 4 ≤ 1 then (word c 1).toNat else 0)] }) b) ∧
  (∀ (c : Cmd) (s b : State) (l : Leg), startsNow 0x0703 (exactly 1) c s = true → b = begun c s → field (word c 0) 16 4 = 0 →
    tget b.fwe.legs (field (word c 0) 0 14) = some l → l.kind ≠ .producer →
    exec (.govRead c) s = .next (answered 0x0703 c
      (govLegWords l.cls ((tget b.lgv.legs (field (word c 0) 0 14)).getD Gov.reset)) b)) ∧
  (∀ (c : Cmd) (s b : State) (e : Enc), startsNow 0x0703 (exactly 1) c s = true → b = begun c s → field (word c 0) 16 4 = 1 →
    tget b.vca.encs (field (word c 0) 0 14) = some e →
    exec (.govRead c) s = .next (answered 0x0703 c [w32 (targetOf e), w32 e.legs, w32 (b1 e.pinned.isSome)] b)) ∧
  (∀ (c : Cmd) (s b : State) (on : Tbl Gov), startsNow 0x0703 (exactly 1) c s = true → b = begun c s →
    field (word c 0) 16 4 = 2 → field (word c 0) 0 14 ≤ 7 →
    on = b.lgv.legs.filter (fun g => ((tget b.fwe.legs g.1).map fun l => decide (l.port = field (word c 0) 0 14)).getD false) →
    exec (.govRead c) s = .next (answered 0x0703 c
      [w32 (portCap b (nowNs b) (field (word c 0) 0 14)), w32 ((on.map fun g => g.2.rate).sum),
        w32 ((on.filterMap fun g => g.2.pin).sum), w32 on.length] b))

/-- The key commands and the delayed retirement of a key complete with their effects; a change of a slot is an item of its leg's flow.
KEY_LOAD of an SRTP key that passes every check of R360 installs the slot and returns its fingerprint; of class 1 or 2 it keeps the image
key or the backup key outside SHADOW. KEY_RETIRE of a filled slot zeroes it, and of an EMPTY slot answers OK (R529). KEY_STATUS returns
ten words and changes nothing. TWIN_KEY_LOAD keeps the key, returns its fingerprint and compares it with the partner's. One second after
the pointer has left a slot the slot is retired, unless the pointer is back on it. The rows: KEY_LOAD, KEY_RETIRE, KEY_STATUS,
TWIN_KEY_LOAD, KEY_DELAYED_RETIRE. -/
def Obligations.KeyCommandsComplete : Prop :=
  (∀ (c : Cmd) (s b : State) (leg : Leg) (y : Slot), startsNow 0x0801 (exactly 18) c s = true → b = begun c s →
    field (word c 0) 28 4 = 0 → keyLoadBad c = false → tget b.fwe.legs (field (word c 0) 0 16 / 4) = some leg →
    leg.kind ≠ .producer → ¬ (leg.kind = .tree ∧ field (word c 0) 0 16 / 2 % 2 = 0) →
    y = slotOf b (otherSlot (field (word c 0) 0 16)) →
    (y.state = .empty ∨ (y.mkiLen = (keyLoadSlot c).mkiLen ∧ (y.mkiLen = 0 ∨ y.mki ≠ (keyLoadSlot c).mki))) →
    b.cpx.mode ≠ .shadow → (slotOf b (field (word c 0) 0 16)).state ≠ .current →
    (slotOf b (field (word c 0) 0 16)).state ≠ .locked →
    exec (.keyLoad c) s = .next (answered 0x0801 c [(keyLoadSlot c).fp] (installKey (field (word c 0) 0 16) (keyLoadSlot c)
      (inFlow (field (word c 0) 0 16 / 4) b)))) ∧
  CompletesOk .keyLoad 0x0801 (exactly 18) (fun c b => field (word c 0) 28 4 = 1 ∧ b.cpx.mode ≠ .shadow)
    (fun c _ => [fingerprint 0xFF (wordsBytes ((c.words.drop 6).take 4)) []])
    (fun c b => { b with cpe.psk := some ((c.words.drop 6).take 4) }) ∧
  CompletesOk .keyLoad 0x0801 (exactly 18) (fun c b => field (word c 0) 28 4 = 2 ∧ b.cpx.mode ≠ .shadow)
    (fun c _ => [fingerprint 0xFF (wordsBytes ((c.words.drop 6).take 4)) []])
    (fun c b => { b with cpe.backupKey := some ((c.words.drop 6).take 4) }) ∧
  CompletesOk .keyRetire 0x0802 (exactly 1) (fun c b => (slotOf b (field (word c 0) 0 16)).state = .empty) (fun _ _ => []) (fun _ b => b) ∧
  CompletesOk .keyRetire 0x0802 (exactly 1) (fun c b => (slotOf b (field (word c 0) 0 16)).state ≠ .empty) (fun _ _ => [])
    (fun c b => if (slotOf (inFlow (field (word c 0) 0 16 / 4) b) (field (word c 0) 0 16)).state = .empty
      then inFlow (field (word c 0) 0 16 / 4) b
      else keyChanged (field (word c 0) 0 16 / 4)
        (putSlot (field (word c 0) 0 16) Slot.reset (inFlow (field (word c 0) 0 16 / 4) b))) ∧
  CompletesOk .keyStatus 0x0803 (exactly 1) (fun c b => thas b.fwe.legs (field (word c 0) 0 16 / 4) = true)
    (fun c b => keyStatusWords b (field (word c 0) 0 16)) (fun _ b => b) ∧
  (∀ (c : Cmd) (s b t : State) (agree : Bool), startsNow 0x0804 (exactly 8) c s = true → b = begun c s →
    agree = ((b.cti.partnerHb.map fun h => decide (h.getD 4 0 = fingerprint 0xFF (wordsBytes c.words) [])).getD false) →
    t = { b with cpe.twinKek := some c.words, cti.keyAgree := agree } →
    exec (.twinKeyLoad c) s = .next (answered 0x0804 c [fingerprint 0xFF (wordsBytes c.words) []]
      (if t.cti.paired ∧ t.cti.partnerHb.isSome ∧ !agree then evtTwin 8 [] t else t))) ∧
  (∀ (n t : Nat) (s a : State), (slotOf s n).retireNs = some t → a = advanceAon t s →
    exec (.keyDelayedRetire n) s = .next (if ptrSlot a (n / 4) (n / 2 % 2) = n
      then putSlot n { slotOf a n with retireNs := none } a else mirror 0x82 n [w32 n] (retireSlot n (inFlow (n / 4) a))))

/-- The mixer's commands complete with their effects on the conference. When none of its checks fails AUD_MIXER_SET leaves the new N and
bus count, an always-on input's start or end, an encode group's settings or end, or a leg's bus waiting for its boundary, or writes a
gain, an equaliser section or the echo setting into the inactive bank. AUD_ROUTE_SET writes one gain into both banks and returns the next
block boundary. AUD_GAIN_SET leaves a trim waiting. AUD_BANK_SWAP of a conference with no swap waiting sets the swap at the next block
boundary and returns it. AUD_METER_READ returns one word per meter and restarts the peaks when asked. The rows: AUD_MIXER_SET,
AUD_ROUTE_SET, AUD_GAIN_SET, AUD_BANK_SWAP, AUD_METER_READ. -/
def Obligations.MixerCommandsComplete : Prop :=
  CompletesOkBy .audMixerSet 0x0401 mixerLens (fun c b => field (word c 0) 16 4 = 0 ∧ firstFail (sizeChecks c b) = none)
    (fun _ _ => []) (fun c b => modConf (audConf c) (resized c) b) ∧
  CompletesOkBy .audMixerSet 0x0401 mixerLens (fun c b => field (word c 0) 16 4 = 1 ∧ firstFail (alwaysOnChecks c b) = none)
    (fun _ _ => []) (fun c b => modConf (audConf c) (alwaysOnSet c) b) ∧
  CompletesOkBy .audMixerSet 0x0401 mixerLens (fun c b => field (word c 0) 16 4 = 2 ∧ firstFail (groupChecks c b) = none)
    (fun _ _ => []) (fun c b => setEncGroup c b) ∧
  CompletesOkBy .audMixerSet 0x0401 mixerLens (fun c b => field (word c 0) 16 4 = 3 ∧ firstFail (bindChecks c b) = none) (fun _ _ => [])
    (fun c b => modConf (audConf c) (fun x => { x with
      bindNew := x.bindNew.filter (fun b => b.1 ≠ field (word c 1) 0 14) ++ [(field (word c 1) 0 14, field (word c 1) 14 3, word c 2)] }) b) ∧
  CompletesOkBy .audMixerSet 0x0401 mixerLens (fun c b => field (word c 0) 16 4 = 4 ∧ firstFail (bankSetChecks c b) = none)
    (fun _ _ => []) (fun c b => modBank (audConf c) (field (word c 1) 0 1)
      (putGain (field (word c 1) 1 5) (field (word c 1) 6 3) (field (word c 2) 0 16)) b) ∧
  CompletesOkBy .audMixerSet 0x0401 mixerLens (fun c b => field (word c 0) 16 4 = 5 ∧ firstFail (bankSetChecks c b) = none)
    (fun _ _ => []) (fun c b => modBank (audConf c) (field (word c 1) 0 1) (fun k => { k with
        eq := tset k.eq (field (word c 1) 1 5 * 4 + field (word c 1) 6 2) ((c.words.drop 2).take 5) }) b) ∧
  CompletesOkBy .audMixerSet 0x0401 mixerLens (fun c b => field (word c 0) 16 4 = 6 ∧ firstFail (bankSetChecks c b) = none)
    (fun _ _ => []) (fun c b => modBank (audConf c) (field (word c 1) 0 1) (fun k => { k with echo := word c 2 }) b) ∧
  (∀ (c : Cmd) (s b : State) (x : Conf), startsNow 0x0402 (exactly 2) c s = true → b = begun c s → confUsed b (audConf c) = true →
    tget b.aue.confs (audConf c) = some x → rowOk x (field (word c 1) 0 5) = true → busOk x (field (word c 1) 5 3) = true →
    exec (.audRouteSet c) s = .next (answered 0x0402 c [w32 (nextBlockNs b)]
      (modBank (audConf c) 1 (putGain (field (word c 1) 0 5) (field (word c 1) 5 3) (field (word c 1) 16 16))
        (modBank (audConf c) 0 (putGain (field (word c 1) 0 5) (field (word c 1) 5 3) (field (word c 1) 16 16)) b)))) ∧
  (∀ (c : Cmd) (s b : State) (x : Conf), startsNow 0x0403 (exactly 2) c s = true → b = begun c s → confUsed b (audConf c) = true →
    tget b.aue.confs (audConf c) = some x → rowOk x (field (word c 1) 0 5) = true →
    exec (.audGainSet c) s = .next (answered 0x0403 c [] (modConf (audConf c) (fun x => { x with
      rows := x.rows.modify (field (word c 1) 0 5) fun r =>
        { r with trimNew := some (field (word c 1) 16 16), trimNs := nextBlockNs b } }) b))) ∧
  (∀ (c : Cmd) (s b : State) (x : Conf), startsNow 0x0404 (exactly 1) c s = true → b = begun c s → confUsed b (audConf c) = true →
    tget b.aue.confs (audConf c) = some x → x.swapAt = none →
    exec (.audBankSwap c) s = .next (answered 0x0404 c (w64 (nextBlockNs b))
      (modConf (audConf c) (fun x => { x with swapAt := some (nextBlockNs b) }) b))) ∧
  (∀ (c : Cmd) (s b : State) (x : Conf) (m n : Nat), startsNow 0x0405 (exactly 2) c s = true → b = begun c s →
    confUsed b (audConf c) = true → tget b.aue.confs (audConf c) = some x → m = field (word c 1) 0 6 → n = field (word c 1) 6 7 →
    1 ≤ n → m + n ≤ 64 →
    exec (.audMeterRead c) s = .next (answered 0x0405 c ((List.range n).map fun i => meterWord x (m + i))
      (if bit (word c 1) 31 then modConf (audConf c) (restartPeaks m (m + n) (nowNs b)) b else b)))

/-- The block boundary, a group's frame, a trim's zero crossing, a playout window's end and a missed slot complete with their effects.
AUDIO_BLOCK_BOUNDARY passes time to the boundary, every conference runs its block in index order, and playout follows; with the AUE down
only the boundary is met. ENCODE_GROUP_FRAME of a group holding a frame's samples takes them, counts the frame and sends a packet of the
group's stream: with the next sequence number, marked when it is the first, on the media clock, of the bytes that the encoder's settings,
with the in-band FEC set or decided, and state give. TRIM_ZERO_CROSSING gives a waiting trim effect after 4 ms at once, before that at the
first zero crossing, or lets it wait on; a row of the low-latency path takes its trim as it is conditioned. At ANCHOR_WINDOW_END a REMOTE
audio stream's playout anchor is judged. SLOT_BLOCK_MISSED: 900 us after the boundary a serving core that has not finished its block
misses it. The rows: AUDIO_BLOCK_BOUNDARY, ENCODE_GROUP_FRAME, TRIM_ZERO_CROSSING, ANCHOR_WINDOW_END, SLOT_BLOCK_MISSED. -/
def Obligations.AudioBlocksComplete : Prop :=
  (∀ (run : BlockRun) (s a : State), a = sampleQueues (advanceTo (blockDue s * 65536) s) → subDown a 12 = true →
    exec (.audioBlockBoundary run) s = .next { a with aue.lastNs := a.aue.blockNs, aue.blockNs := blockDue s }) ∧
  (∀ (run : BlockRun) (s a b : State), a = sampleQueues (advanceTo (blockDue s * 65536) s) → subDown a 12 = false →
    b = { a with aue.lastNs := a.aue.blockNs, aue.blockNs := blockDue s } →
    exec (.audioBlockBoundary run) s = .next (playoutBlock run ((b.aue.confs.map (·.1)).foldl (fun s k => confBlock k s) b))) ∧
  (∀ (conf group ms n bytes data : Nat) (x : Conf) (g : Group) (y : Stream) (s a : State), tget s.aue.confs conf = some x →
    tget x.groups group = some g → ms = groupNs g / 1000000 → n = ms * spb g.domain → n ≤ g.fifo.length →
    (bytes, data) = frameOf { g with fec := groupFec s g } ((g.comps.head?).getD g.compNow) ms (g.fifo.take n) →
    a = (draw (modConf conf (fun y => { y with groups := tmod y.groups group (frameTaken n (groupFec s g)) }) s)).2 →
    tget a.fwe.streams g.stream = some y →
    ∃ (p : RtpPkt) (b : State), exec (.encodeGroupFrame conf group) s = .next (forkLocal g.stream p b) ∧
      p.ssrc = y.ssrc ∧ p.seq = BitVec.ofNat 16 y.txSeq.toNat ∧ p.pt = y.pt ∧ p.marker = decide (g.frames = 0) ∧ p.dur = 48 * ms ∧
      p.bytes = 12 + bytes ∧ p.data = data ∧ (∀ t, y.lastTs = some t → p.ts = t + w32 (ms * clockRate y.codec / 1000)) ∧
      b = modStream g.stream (fun x => { x with txSeq := w32 ((x.txSeq.toNat + 1) % 65536) }) a) ∧
  (∀ (conf row : Nat) (x : Conf) (s : State), tget s.aue.confs conf = some x →
    directRow s x (x.rows.getD row Row.reset) = false →
    exec (.trimZeroCrossing conf row) s =
      .next (modConf conf (fun x => { x with rows := x.rows.modify row (trimHit s.aue.blockNs) }) s)) ∧
  (∀ (r : Row) (t ns : Nat), r.trimNew = some t → r.trimNs ≤ ns →
    trimHit ns r = if r.trimNs + 4000000 ≤ ns then { r with trimNew := none, condHit := some (0, t) }
      else match zeroCrossing r.last r.cond 0 with
        | some h => { r with trimNew := none, condHit := some (h, t) }
        | none => r) ∧
  (∀ (stream : Nat) (s a : State), a = advanceTo (atBoundaryNs 1000000000 s * 65536) s →
    exec (.anchorWindowEnd stream) s = .next (modStream stream (fun x => if x.origin ∨ !isAudio x.codec then x
      else { x with jitter := jitterWindow (playoutNs a stream) (nowNs a) x.jitter }) a)) ∧
  (∀ (core : Nat) (x : Core) (s : State), tget s.aue.cores core = some x → slotServes x s.aue.blockNs = true →
    x.counted = false → x.waiting = false →
    exec (.slotBlockMissed core) s = .next (slotMiss core (advanceTo ((s.aue.blockNs + 900000) * 65536) s)))

/-- The deadlines, reports, selections and cells of a conference that spans a cluster complete with their effects. For the conference that
holds the group, CLUSTER_SUM_DEADLINE: at 300 us a worker with children sends the partial of every bus; at 450 us the manager sums every
bus, sends the full sums down and counts whether a partial is missing; at 800 us a worker counts a full sum still missing and keeps its
own partial; the sums of the block are then closed. 1 ms after an epoch boundary LEVEL_CELL_SEND sends a worker's levels up, and the
manager keeps its own; then at SELECTION_CELL_SEND, 3 ms after it, the manager selects, clears the reports, and sends the selection down.
AUDIO_CELL is handled by its kind; one of a group with no conference here is passed on by an intermediate module. The rows:
CLUSTER_SUM_DEADLINE, LEVEL_CELL_SEND, SELECTION_CELL_SEND, AUDIO_CELL. -/
def Obligations.AudioCellsComplete : Prop :=
  (∀ (group k : Nat) (x : Conf) (s : State), lockConf s group = some (k, x) → s.cti.role = 2 → childPorts s ≠ [] →
    exec (.clusterSumDeadline group 2) s = .next
      ((List.range x.buses).foldl (fun s b => sendPartial k b s) (advanceTo ((s.aue.blockNs + 300000) * 65536) s))) ∧
  (∀ (group k : Nat) (x : Conf) (s a : State), lockConf s group = some (k, x) → s.cti.role = 1 →
    a = advanceTo ((s.aue.blockNs + 450000) * 65536) s →
    exec (.clusterSumDeadline group 3) s = .next (modConf k (fun x => { x with sumClosed := true }) (countMissedSum k
      ((List.range x.buses).any fun b => partialMissing a x b)
      ((List.range x.buses).foldl (fun s b => managerSum k b s) a)))) ∧
  (∀ (group k : Nat) (x : Conf) (s : State), lockConf s group = some (k, x) → s.cti.role = 2 →
    exec (.clusterSumDeadline group 5) s = .next (modConf k (fun x => { x with sumClosed := true }) (countMissedSum k
      (!(List.range x.buses).all fun b => x.fullSum.contains (b, true)) (advanceTo ((s.aue.blockNs + 800000) * 65536) s)))) ∧
  (∀ (group k : Nat) (x : Conf) (s a : State), lockConf s group = some (k, x) → a = afterEpoch 1000000 s →
    (a.cti.role = 1 → exec (.levelCellSend group) s = .next (modConf k (fun y => { y with
      levelCells := y.levelCells.filter (fun l => l.1 ≠ a.cti.position) ++ [(a.cti.position, levelWords a k x)] }) a)) ∧
    (a.cti.role ≠ 1 →
      exec (.levelCellSend group) s = .next (sendUp { lockCell a x 3 (lastEpochStart a) with words := levelWords a k x } a))) ∧
  (∀ (group k : Nat) (x : Conf) (s a : State), lockConf s group = some (k, x) → s.cti.role = 1 → a = afterEpoch 3000000 s →
    exec (.selectionCellSend group) s = .next (sendDown
      { lockCell a x 4 (lastEpochStart a) with words := selectionWords x (managerSelect x) }
      (modConf k (fun y => { y with
        mgr := managerSelect x, selCell := some (selectionWords x (managerSelect x)), levelCells := [] }) a))) ∧
  (∀ (port k : Nat) (c : AudioCell) (x : Conf) (s : State), relays s = false → lockConf s c.group = some (k, x) →
    exec (.audioCell port c) s = .next (audioCell port k x c s)) ∧
  (∀ (port : Nat) (c : AudioCell) (s : State), relays s = false → lockConf s c.group = none →
    exec (.audioCell port c) s = .next
      (if s.cti.role = 2 then (if port = s.cti.parent then sendDown c s else sendUp c s) else s)) ∧
  (∀ (port : Nat) (c : AudioCell) (s : State), relays s = true →
    exec (.audioCell port c) s = .next (relayCell (16 + c.kind) (audioCellWords c) s))

/-- The arithmetic and move instructions of a signal core retire with their results. Wherever a running core stands at the instruction and
its move slots are permitted: mac, msu, mpy, clr and asra give the 72-bit accumulator with the sticky overflow flag; add, sub, and, or,
xor, shl, shr, asr, min and max give d with z and n; adds and subs saturate and set sat; abs gives the magnitude, a free value for the
most negative number; movi (whose 32-bit constant lies within the program memory) and mov write a register of a class; sta stores through
its pointer where the address is mapped. The moves of the slots follow each. The rows: MALLET_NOP, MAC, MSU, MPY, CLR, ASRA, STA, ADD,
SUB, ADDS, SUBS, AND, OR, XOR, SHL, SHR, ASR, MIN, MAX, ABS, MOVI, MOV. -/
def Obligations.MalletArithmeticComplete : Prop :=
  CoreCompletes .malletNop 0x00 true (fun _ _ => True) (fun _ x s => { core := x, st := s }) ∧
  CoreCompletes .mac 0x01 true (fun _ _ => True) (accOut fun acc p _ => wrap72 (acc.toInt + p)) ∧
  CoreCompletes .msu 0x02 true (fun _ _ => True) (accOut fun acc p _ => wrap72 (acc.toInt - p)) ∧
  CoreCompletes .mpy 0x03 true (fun _ _ => True) (accOut fun _ p _ => (BitVec.ofInt 72 p, false)) ∧
  CoreCompletes .clr 0x04 true (fun _ _ => True) (accOut fun _ _ _ => (0, false)) ∧
  CoreCompletes .asra 0x05 true (fun _ _ => True) (accOut fun acc _ w => (acc.sshiftRight (immOf w % 64), false)) ∧
  (∀ m a : Nat, CoreCompletes .sta 0x06 true
    (fun w x => coreMap (decide (4 ≤ bOf w % 8)) (x.p.getD (bOf w % 8) 0) = .ok (m, a)) (staOut m a)) ∧
  CoreCompletes .add 0x10 true (fun _ _ => True) (aluOut fun a b _ => a + b) ∧
  CoreCompletes .sub 0x11 true (fun _ _ => True) (aluOut fun a b _ => a - b) ∧
  CoreCompletes .adds 0x12 true (fun _ _ => True) (satOut fun a b => a + b) ∧
  CoreCompletes .subs 0x13 true (fun _ _ => True) (satOut fun a b => a - b) ∧
  CoreCompletes .and 0x14 true (fun _ _ => True) (aluOut fun a b _ => a &&& b) ∧
  CoreCompletes .or 0x15 true (fun _ _ => True) (aluOut fun a b _ => a ||| b) ∧
  CoreCompletes .xor 0x16 true (fun _ _ => True) (aluOut fun a b _ => a ^^^ b) ∧
  CoreCompletes .shl 0x17 true (fun _ _ => True) (aluOut fun a _ w => a <<< (immOf w % 32)) ∧
  CoreCompletes .shr 0x18 true (fun _ _ => True) (aluOut fun a _ w => a >>> (immOf w % 32)) ∧
  CoreCompletes .asr 0x19 true (fun _ _ => True) (aluOut fun a _ w => a.sshiftRight (immOf w % 32)) ∧
  CoreCompletes .min 0x1A true (fun _ _ => True) (aluOut fun a b _ => if a.toInt ≤ b.toInt then a else b) ∧
  CoreCompletes .max 0x1B true (fun _ _ => True) (aluOut fun a b _ => if a.toInt ≤ b.toInt then b else a) ∧
  CoreCompletes .abs 0x1C true (fun _ _ => True) absOut ∧
  CoreCompletes .movi 0x20 true (fun w x => immOf w ≠ 0x800 ∨ x.pc < 4096) moviOut ∧
  CoreCompletes .mov 0x21 true (fun _ _ => True) movOut

/-- Loops, branches, calls, returns, done, halt, illegal instructions and AUD_PROGRAM_LOAD complete with their effects. loop opens a loop,
or skips the body at a count of 0, with fewer than four loops open; br, call and ret set the program counter; done waits for the next
block; halt returns the core to LOADED and detaches its slot. An unlisted opcode faults the core, and a fetch beyond the program memory
faults it with the address denied. AUD_PROGRAM_LOAD takes the next chunk of an image, installs a whole image that is sound, starts a
LOADED core, stops a RUNNING one (an attached slot is detached first), attaches and detaches a slot, sets the parameters and returns the
status. The rows: LOOP, BR, CALL, RET, DONE, HALT, ILLEGAL_INSTRUCTION, AUD_PROGRAM_LOAD. -/
def Obligations.MalletControlCompletes : Prop :=
  CoreCompletes .loop 0x30 false (fun w x => loopCount w x = 0 ∨ x.loops.length < 4) loopOut ∧
  CoreCompletes .br 0x31 false (fun _ _ => True) brOut ∧
  CoreCompletes .call 0x32 false (fun _ _ => True) callOut ∧
  CoreCompletes .ret 0x33 false (fun _ _ => True) (fun _ => retOut) ∧
  CoreCompletes .done 0x3E false (fun _ _ => True) (fun _ x s => { core := { x with waiting := true, doneNs := nowNs s }, st := s }) ∧
  (∀ (core : Nat) (s : State) (x : Core) (w : BitVec 64), CoreAt core 0x3F s x w →
    exec (.halt core) s = .next (modCore core (fun x => { coreAtEntry x with state := .loaded, detach := x.attached.isSome }) s)) ∧
  (∀ (core : Nat) (s : State) (x : Core), tget s.aue.cores core = some x → coreRuns s x = true → 4096 ≤ x.pc →
    exec (.illegalInstruction core) s = .next (coreFault core (.denied (progAddr x.pc)) s)) ∧
  (∀ (core : Nat) (s : State) (x : Core) (w : BitVec 64), CoreAt core (opOf w) s x w → listedOps.contains (opOf w) = false →
    exec (.illegalInstruction core) s = .next (coreFault core .illegal s)) ∧
  (∀ (c : Cmd) (s b : State) (i : Nat) (x : Core), startsNow 0x0406 (programLens c) c s = true → b = begun c s →
    field (word c 0) 16 4 = 0 → i = field (word c 0) 20 8 → tget b.aue.cores i = some x → firstFail (chunkChecks x c) = none →
    (heldImage x ++ chunkBytes c).length < (word c 2).toNat →
    exec (.audProgramLoad c) s = .next (answered 0x0406 c [] (modCore i (fun y =>
      { y with state := .loading, image := heldImage x ++ chunkBytes c, total := (word c 2).toNat }) b))) ∧
  (∀ (c : Cmd) (s b : State) (i : Nat) (x : Core), startsNow 0x0406 (programLens c) c s = true → b = begun c s →
    field (word c 0) 16 4 = 0 → i = field (word c 0) 20 8 → tget b.aue.cores i = some x → firstFail (chunkChecks x c) = none →
    (word c 2).toNat ≤ (heldImage x ++ chunkBytes c).length → imageOk (heldImage x ++ chunkBytes c) = true →
    exec (.audProgramLoad c) s = .next (answered 0x0406 c [] (modCore i (installImage (heldImage x ++ chunkBytes c)) b))) ∧
  (∀ (c : Cmd) (s b : State) (i : Nat) (x : Core), startsNow 0x0406 (programLens c) c s = true → b = begun c s →
    i = field (word c 0) 20 8 → tget b.aue.cores i = some x →
    (field (word c 0) 16 4 = 1 → x.state = .loaded →
      exec (.audProgramLoad c) s = .next (answered 0x0406 c [] (modCore i (fun x => { coreAtEntry x with state := .running }) b))) ∧
    (field (word c 0) 16 4 = 2 → x.state = .running →
      exec (.audProgramLoad c) s = .next (answered 0x0406 c [] (modCore i (fun x =>
        if x.attached.isSome then { x with detach := true, halting := true } else { coreAtEntry x with state := .loaded }) b))) ∧
    (field (word c 0) 16 4 = 3 → firstFail (attachChecks x c b) = none →
      exec (.audProgramLoad c) s = .next (answered 0x0406 c (w64 (nextBlockNs b)) (attachAt i c b))) ∧
    (field (word c 0) 16 4 = 4 → exec (.audProgramLoad c) s = .next (answered 0x0406 c (w64 (nextBlockNs b))
      (modCore i (fun x => { x with detach := x.attached.isSome }) b))) ∧
    (field (word c 0) 16 4 = 5 → exec (.audProgramLoad c) s = .next (answered 0x0406 c []
      (modCore i (fun x => { x with params := [word c 1, word c 2] }) b))) ∧
    (field (word c 0) 16 4 = 6 → exec (.audProgramLoad c) s = .next (answered 0x0406 c
      [w32 x.state.code, w32 x.lastFault, w32 x.missed, w32 x.maxUsed] b)))

/-- The decoder's commands and events complete with their effects. When none of its checks fails VID_DECODER_BIND takes a context with its
working memory and returns its index; of an index in range it unbinds the context, sets the layer mask waiting for a switch point, or
returns the 12 status words. VID_CORE_QUIESCE of a core in service is accepted while the charges fit with one core fewer and fewer than
four are out; it returns a core to service, ending a quiesce still open, or reads its state. At CORE_QUIESCED the core's job goes back to
the scheduler and the long operations end. At ASSEMBLY_DEADLINE the oldest picture in assembly is released. DECODE_WATCHDOG: once a job
has had 50 ms of core time its picture is concealed whole and ends the job, the fault is logged, and a third trip within an hour takes the
core out of service. At CATCH_UP_TIMEOUT a catch-up that has not reached live in 500 ms is discarded and waits for an access point, or is
freed when it is to be unbound. DECODE_JOB_COMPLETE ends the job on the core that runs it; a hidden context's refresh picture ends its
rendition. The rows: VID_DECODER_BIND, VID_CORE_QUIESCE, CORE_QUIESCED, ASSEMBLY_DEADLINE, DECODE_WATCHDOG, CATCH_UP_TIMEOUT,
DECODE_JOB_COMPLETE. -/
def Obligations.DecoderCompletes : Prop :=
  CompletesOkBy .vidDecoderBind 0x0501 (fnLens [4, 1, 2, 1]) (fun c b => field (word c 0) 16 4 = 0 ∧ firstFail (decBindChecks c b) = none)
    (fun c b => [w32 (ctxIndex b.vca.decs c)]) (fun c b => bindDec (ctxIndex b.vca.decs c) (boundDec c b) b) ∧
  CompletesOkBy .vidDecoderBind 0x0501 (fnLens [4, 1, 2, 1]) (fun c _ => field (word c 0) 16 4 = 1 ∧ field (word c 0) 0 16 ≤ 4095)
    (fun _ _ => []) (fun c b => decUnbind (field (word c 0) 0 16) b) ∧
  CompletesOkBy .vidDecoderBind 0x0501 (fnLens [4, 1, 2, 1])
    (fun c b => field (word c 0) 16 4 = 2 ∧ field (word c 0) 0 16 ≤ 4095 ∧ maskValid (field (word c 1) 0 8) = true ∧
      thas b.vca.decs (field (word c 0) 0 16) = true)
    (fun _ _ => []) (fun c b => modDec (field (word c 0) 0 16) (fun d => { d with maskNew := field (word c 1) 0 8 }) b) ∧
  CompletesOkBy .vidDecoderBind 0x0501 (fnLens [4, 1, 2, 1]) (fun c _ => field (word c 0) 16 4 = 3 ∧ field (word c 0) 0 16 ≤ 4095)
    (fun c b => decStatus b (field (word c 0) 0 16)) (fun _ b => b) ∧
  CompletesLong .vidCoreQuiesce 0x0505 (exactly 1)
    (fun c b => field (word c 0) 16 4 = 0 ∧ b.cpx.mode ≠ .shadow ∧ ((gougeOf b (field (word c 0) 0 5)).svc = 0 →
      quiesceOver b (field (word c 0) 0 5) = false ∧ (b.vca.cores.filter fun g => g.svc ≠ 0).length < 4))
    (fun c _ => field (word c 0) 0 5) (fun c b => modGouge (field (word c 0) 0 5) (fun g => { g with svc := 1 }) b) ∧
  CompletesOk .vidCoreQuiesce 0x0505 (exactly 1) (fun c b => field (word c 0) 16 4 = 1 ∧ b.cpx.mode ≠ .shadow) (fun _ _ => [])
    (fun c b => returnCore (field (word c 0) 0 5) b) ∧
  CompletesOk .vidCoreQuiesce 0x0505 (exactly 1) (fun c b => field (word c 0) 16 4 = 2 ∧ b.cpx.mode ≠ .shadow)
    (fun c b => [w32 (gougeOf b (field (word c 0) 0 5)).svc]) (fun _ b => b) ∧
  (∀ (core : Nat) (s : State), (gougeOf s core).svc = 1 →
    exec (.coreQuiesced core) s = .next (endEveryLong 0x0505 core []
      (scheduleCores (modGouge core (fun g => { g with svc := 2 }) (vacate core s))))) ∧
  (∀ (ctx : Nat) (d : Dec) (p : Pic) (ps : List Pic) (s : State), tget s.vca.decs ctx = some d → d.asm = p :: ps →
    exec (.assemblyDeadline ctx) s = .next (releaseDone ctx true (ps.length + 1)
      (releaseHead ctx (advanceTo ((p.firstNs + asmDelayNs s d) * 65536) s)))) ∧
  (∀ (core k held : Nat) (trips : List Nat) (d : Dec) (s a t : State), s.cpr.sleep = 0 → (gougeOf s core).job = some (.decode, k) →
    held = ((vjobOf s .decode k).map (·.heldNs)).getD 0 → a = advanceAon ((gougeOf s core).startNs + 50000000 - held) s →
    trips = ((gougeOf a core).trips.filter fun t => a.cpr.aonNs < t + 3600000000000) ++ [a.cpr.aonNs] → trips.length < 3 →
    t = modGouge core (fun g => { g with trips := trips, wd := inc32 g.wd, svc := g.svc }) a → tget t.vca.decs k = some d →
    exec (.decodeWatchdog core) s =
      .next (fault 0xD104 [w32 core, w32 k] (endDecode k core { units := wholeLost (jobPicture t d) } t))) ∧
  (∀ (core k held : Nat) (trips : List Nat) (d : Dec) (s a t : State), s.cpr.sleep = 0 → (gougeOf s core).job = some (.decode, k) →
    held = ((vjobOf s .decode k).map (·.heldNs)).getD 0 → a = advanceAon ((gougeOf s core).startNs + 50000000 - held) s →
    (gougeOf a core).svc = 0 →
    trips = ((gougeOf a core).trips.filter fun t => a.cpr.aonNs < t + 3600000000000) ++ [a.cpr.aonNs] → 3 ≤ trips.length →
    t = modGouge core (fun g => { g with trips := trips, wd := inc32 g.wd, svc := 3 }) a → tget t.vca.decs k = some d →
    exec (.decodeWatchdog core) s =
      .next (fault 0xD104 [w32 core, w32 k] (endDecode k core { units := wholeLost (jobPicture t d) } t))) ∧
  (∀ (ctx : Nat) (d : Dec) (s m : State), tget s.vca.decs ctx = some d → d.state = .catchingUp → d.hidden = false →
    m = dropMissed ctx (dropVjob .decode ctx (advanceAon (d.catchNs + 500000000) s)) →
    exec (.catchUpTimeout ctx) s = .next (if d.unbinding then freeDec ctx m else enterWaitingRap ctx m)) ∧
  (∀ (ctx c : Nat) (r : DecodeResult) (s t : State), runsOn s .decode ctx = some c → t = endDecode ctx c r s →
    (t.vca.jobs.find? (fun x => x.2.hidDec = ctx ∧ x.2.phase = .bridged) = none ∨
      refreshPosted ctx s.vca.records.length t = none) →
    exec (.decodeJobComplete ctx r) s = .next t) ∧
  (∀ (ctx c j : Nat) (ts : Word) (x : Job) (r : DecodeResult) (s t : State), runsOn s .decode ctx = some c →
    t = endDecode ctx c r s → t.vca.jobs.find? (fun x => x.2.hidDec = ctx ∧ x.2.phase = .bridged) = some (j, x) →
    refreshPosted ctx s.vca.records.length t = some ts →
    exec (.decodeJobComplete ctx r) s = .next (bridgeEnd j x ts t))

/-- The encoder's and the repairer's commands and events complete with their effects. When none of its checks fails VID_ENCODER_SET takes
a set into force and returns the index; of an index in range it releases a context that is set, at once or when its job ends, or returns
the 8 status words. VID_KEYFRAME marks a context for a key picture, or leaves a repair need on an entry and is accepted. VID_SYNTH_POLICY
in range leaves the policy waiting for the next boundary. ENCODER_SOURCE_PICTURE: a source picture reaches its context.
ENCODE_JOB_COMPLETE: the job ends on the core that runs it, its unit is sent, a rendition's first key picture takes its entries along, and
what waits follows. ENTRY_REPAIR_DONE answers every waiting VID_KEYFRAME with the result. SYNTH_CATCH_UP_DONE: a synthesis that caught up
in order starts its encode step or its rendition; one degraded, or that lost its context, ends so. SYNTH_ENCODE_DONE: the coded pictures
go to every entry whose leg's rate allows them and the job ends. SYNTH_NO_TIME: a catch-up with no time ends so. BRIDGED_LIMIT_EXPIRY: a
rendition at its limit asks the sender for a key picture. The rows: VID_ENCODER_SET, ENCODER_SOURCE_PICTURE, ENCODE_JOB_COMPLETE,
VID_KEYFRAME, ENTRY_REPAIR_DONE, VID_SYNTH_POLICY, SYNTH_CATCH_UP_DONE, SYNTH_ENCODE_DONE, SYNTH_NO_TIME, BRIDGED_LIMIT_EXPIRY. -/
def Obligations.EncoderCompletes : Prop :=
  CompletesOkBy .vidEncoderSet 0x0502 (fnLens [8, 1, 1]) (fun c b => field (word c 0) 16 4 = 0 ∧ firstFail (encSetChecks c b) = none)
    (fun c b => [w32 (ctxIndex b.vca.encs c)]) (fun c b => encApply (ctxIndex b.vca.encs c) (encOfWords c) b) ∧
  CompletesOkBy .vidEncoderSet 0x0502 (fnLens [8, 1, 1]) (fun c b => field (word c 0) 16 4 = 1 ∧ field (word c 0) 0 16 ≤ 1023 ∧
      thas b.vca.encs (field (word c 0) 0 16) = true)
    (fun _ _ => []) (fun c b => if ((tget b.vca.encs (field (word c 0) 0 16)).bind (·.job)).isSome
      then modEnc (field (word c 0) 0 16) (fun e => { e with releasing := true, waitPic := none }) b
      else freeEnc (field (word c 0) 0 16) b) ∧
  CompletesOkBy .vidEncoderSet 0x0502 (fnLens [8, 1, 1]) (fun c _ => field (word c 0) 16 4 = 2 ∧ field (word c 0) 0 16 ≤ 1023)
    (fun c b => encStatus b (field (word c 0) 0 16)) (fun _ b => b) ∧
  (∀ (ctx : Nat) (e : Enc) (s : State), tget s.vca.encs ctx = some e → exec (.encoderSourcePicture ctx e.src) s = .next (sourcePicture ctx s)) ∧
  (∀ (ctx c : Nat) (r : EncodeResult) (e : Enc) (j : EncJob) (s t : State) (out : List CodedLayer),
    tget s.vca.encs ctx = some e → runsOn s .encode ctx = some c → e.job = some j → encodeDone ctx c j r s = (out, t) →
    exec (.encodeJobComplete ctx r) s =
      .next (encodeNext ctx (sendUnit j out (if e.hidden ∧ j.key ∧ out ≠ [] then bridgeStart ctx t else t)))) ∧
  CompletesOkBy .vidKeyframe 0x0503 (fnLens [1, 2])
    (fun c b => field (word c 0) 16 4 = 0 ∧ field (word c 0) 0 16 ≤ 1023 ∧ thas b.vca.encs (field (word c 0) 0 16) = true)
    (fun _ _ => []) (fun c b => modEnc (field (word c 0) 0 16)
      (fun e => if bit (word c 0) 20 then { e with keyNext := true } else { e with keyAsk := true }) b) ∧
  (∀ (c : Cmd) (s b : State), startsNow 0x0503 (fnLens [1, 2] c) c s = true → b = begun c s → field (word c 0) 16 4 = 1 →
    field (word c 1) 20 2 ≠ 3 → thas b.fwe.ledger (field (word c 1) 0 19) = true → (queueOf b (qiOf c)).longOps.length < 64 →
    exec (.vidKeyframe c) s = .next (answeredLong 0x0503 c (field (word c 1) 0 19)
      (modEntry (field (word c 1) 0 19) (fun e => { e with needs := e.needs ++ [16 * field (word c 1) 20 2] }) b))) ∧
  (∀ (entry result : Nat) (s : State), s.vca.results.contains (entry, result) = true →
    exec (.entryRepairDone entry result) s = .next (endEveryLong 0x0503 entry [w32 result]
      { s with vca.results := s.vca.results.filter fun r => r.1 ≠ entry })) ∧
  CompletesOk .vidSynthPolicy 0x0504 (exactly 2)
    (fun c _ => (field (word c 0) 0 8 ≤ 50 ∨ field (word c 0) 0 8 = 255) ∧ 50 ≤ field (word c 1) 0 16 ∧ field (word c 1) 0 16 ≤ 2000 ∧
      1 ≤ field (word c 1) 16 16 ∧ field (word c 1) 16 16 ≤ 60)
    (fun _ _ => []) (fun c b => { b with
      vca.polNew := some (nextBoundaryNs 10000000 b, field (word c 0) 0 8 + field (word c 0) 8 3 * 256,
          field (word c 1) 0 16, field (word c 1) 16 16) }) ∧
  (∀ (job : Nat) (x : Job) (d : Dec) (live : Word) (recs : List CairnRec) (s : State), tget s.vca.jobs job = some x →
    x.phase = .catchUp → d = (tget s.vca.decs x.hidDec).getD Dec.reset → d.state = .decoding → live = d.lastRel.getD 0 →
    recs = (cairnFrom s x.stream x.rap).take
      ((cairnFrom s x.stream x.rap).length - ((cairnFrom s x.stream x.rap).reverse.findIdx fun r => r.ts = live)) →
    recs.head?.map (·.number) = some x.rap →
    (0 < d.degr → exec (.synthCatchUpDone job x.hidDec) s = .next (endJob job 1 s)) ∧
    (d.degr = 0 → x.bridged = true → exec (.synthCatchUpDone job x.hidDec) s = .next (startBridge job x s)) ∧
    (d.degr = 0 → x.bridged = false → exec (.synthCatchUpDone job x.hidDec) s = .next (addVjob .synth job none (modJob job (fun y =>
      { y with
        phase := .encode, live := some live, held := synthPictures (codecOf s x.stream) recs y.mask live, params := activeParams recs
        slots := if codecOf s x.stream = 8 then List.range 8 else (refState recs y.mask).map (·.1) }) s)))) ∧
  (∀ (job : Nat) (x : Job) (s : State), tget s.vca.jobs job = some x → x.phase = .catchUp →
    ((tget s.vca.decs x.hidDec).getD Dec.reset).state = .waitingRap →
    exec (.synthCatchUpDone job x.hidDec) s = .next (endJob job 2 s)) ∧
  (∀ (job c pl pix : Nat) (r : EncodeResult) (x : Job) (live : Word) (bits : List Nat) (s f t d : State), tget s.vca.jobs job = some x →
    runsOn s .synth job = some c → x.phase = .encode → x.live = some live →
    bits = (x.held.mapIdx fun i _ => (((r.layers.getD i {}).rows).map fun row => row.getD 2 0).sum) →
    pix = (x.held.map fun h => h.w * h.h).sum → f = finishVjob .synth job c false s →
    t = modStream x.stream (fun y => { y with bpp := if pix = 0 then y.bpp else some (bits.sum * 256 / pix) }) f →
    drawBelow 825 t = (pl, d) →
    exec (.synthEncodeDone job r) s = .next (dropJob job (x.entries.foldl (fun u i =>
      if u.vca.burstMs * (((tget u.fwe.ledger i).bind fun e => (tget u.lgv.legs e.dest).map (·.rate)).getD 0) * 5 < bits.sum * 4
      then endEntryRepair i 4 u
      else sendSynth i x live (synthPackets (codecOf d x.stream) (576 + pl) live x.held x.params bits) u) d))) ∧
  (∀ (job : Nat) (x : Job) (s : State), tget s.vca.jobs job = some x → x.phase = .catchUp →
    exec (.synthNoTime job) s = .next (endJob job 5 (advanceTo ((x.startNs + 500000000) * 65536) s))) ∧
  (∀ (job : Nat) (x : Job) (s : State), tget s.vca.jobs job = some x → x.phase = .bridged → x.asked = false →
    exec (.bridgedLimitExpiry job) s = .next (requestKey x.stream (modJob job (fun y => { y with asked := true })
      (advanceTo ((x.startNs + s.vca.bridgeS * 1000000000) * 65536) s))).2)

/-- The compositor's commands and events complete with their effects. When none of its checks fails CANVAS_SET takes a canvas and returns
its index, die and phase; of a canvas it deletes it or returns its counters. LAYER_SET takes a layer's settings, staged or for the next
deadline, which it returns; it removes a layer, staged or for the next deadline, or reads one back. LAYER_IMAGE_LOAD of a chunk in order
keeps it; the last starts the conversion and is accepted; it frees a slot or reads one. FLIP_GROUP_SET sets a hold time, commits the
staged layers or reads a group. IMAGE_CONVERSION_DONE answers its long operation. At FLIP_DEADLINE a canvas flips and the frame is
composed; at COMPOSITION_FINISHED a frame that ends, with Ashlar's clock running, is shown, counted and offered to the layers that show
the canvas. The rows: CANVAS_SET, LAYER_SET, LAYER_IMAGE_LOAD, FLIP_GROUP_SET, IMAGE_CONVERSION_DONE, FLIP_DEADLINE, COMPOSITION_FINISHED.
-/
def Obligations.CompositorCompletes : Prop :=
  CompletesOkBy .canvasSet 0x0601 (fnLens [6, 1, 1]) (fun c b => field (word c 0) 16 4 = 0 ∧ firstFail (canvasSetChecks c b) = none)
    (fun c b => [w32 (ctxIndex b.lco.canvases c), w32 (canvasDie (ctxIndex b.lco.canvases c) b), w32 (canvasPhase c b).1])
    (fun c b => placeCanvas c b) ∧
  CompletesOkBy .canvasSet 0x0601 (fnLens [6, 1, 1])
    (fun c b => field (word c 0) 16 4 = 1 ∧ field (word c 0) 0 16 ≤ 1023 ∧ thas b.lco.canvases (field (word c 0) 0 16) = true)
    (fun _ _ => []) (fun c b => deleteCanvas (field (word c 0) 0 16) b) ∧
  (∀ (c : Cmd) (s b : State) (x : Canvas), startsNow 0x0601 (fnLens [6, 1, 1] c) c s = true → b = begun c s →
    field (word c 0) 16 4 = 2 → field (word c 0) 0 16 ≤ 1023 → tget b.lco.canvases (field (word c 0) 0 16) = some x →
    exec (.canvasSet c) s = .next (answered 0x0601 c
      [w32 (inc32 x.frames 0), w32 x.late, w32 x.drops, w32 (canvasCharge x / 1000000), w32 x.die] b)) ∧
  (∀ (c : Cmd) (s b : State) (x : Canvas), startsNow 0x0602 (fnLens [9, 1, 1] c) c s = true → b = begun c s →
    field (word c 0) 16 4 = 0 → firstFail (layerSetChecks c b) = none → tget b.lco.canvases (field (word c 0) 0 10) = some x →
    exec (.layerSet c) s = .next (answered 0x0602 c
      (w32 (b1 (decide (setKind (layerSetWords c) ≠ 3) && decide (2048 < layerCols c b))) ::
        w64 (if bit (word c 0) 20 then 0 else applyDeadline b x))
      (putLayer (field (word c 0) 0 10) (field (word c 0) 10 6)
        (some (newLayer c (flipDue b x) ((tget x.layers (field (word c 0) 10 6)).getD Layer.reset))) b))) ∧
  (∀ (c : Cmd) (s b : State) (x : Canvas), startsNow 0x0602 (fnLens [9, 1, 1] c) c s = true → b = begun c s →
    tget b.lco.canvases (field (word c 0) 0 10) = some x →
    (field (word c 0) 16 4 = 1 → exec (.layerSet c) s = .next (answered 0x0602 c []
      (match tget x.layers (field (word c 0) 10 6) with
        | some l => putLayer (field (word c 0) 0 10) (field (word c 0) 10 6) (some (if bit (word c 0) 20 then { l with staged := some [] }
            else { dueLayer (flipDue b x) l with gone := true, next := none, skip := flipDue b x })) b
        | none => b))) ∧
    (field (word c 0) 16 4 = 2 → exec (.layerSet c) s = .next (answered 0x0602 c
      (layerWords ((tget x.layers (field (word c 0) 10 6)).getD Layer.reset)) b))) ∧
  (∀ (c : Cmd) (s b t : State) (i : Nat) (m : Image) (bs : List Nat), startsNow 0x0603 (imageLens c) c s = true → b = begun c s →
    field (word c 0) 16 4 = 0 → i = field (word c 0) 0 12 → m = (tget b.lco.images i).getD Image.reset →
    firstFail (imageChunkChecks i c b) = none → imageBuffers i c b = (some bs, t) →
    ((heldPixels m ++ c.words.drop 3).length ≠ field (word c 2) 0 16 * field (word c 2) 16 16 →
      exec (.layerImageLoad c) s = .next (answered 0x0603 c [] { t with lco.images := tset t.lco.images i (grownImage c m bs) })) ∧
    ((heldPixels m ++ c.words.drop 3).length = field (word c 2) 0 16 * field (word c 2) 16 16 →
      (queueOf b (qiOf c)).longOps.length < 64 →
      exec (.layerImageLoad c) s = .next (answeredLong 0x0603 c i { t with lco.images := tset t.lco.images i (grownImage c m bs) }))) ∧
  (∀ (c : Cmd) (s b : State) (i : Nat) (m : Image), startsNow 0x0603 (imageLens c) c s = true → b = begun c s →
    i = field (word c 0) 0 12 → m = (tget b.lco.images i).getD Image.reset →
    (field (word c 0) 16 4 = 1 → m.converting = false → imageUsed b i = false →
      exec (.layerImageLoad c) s = .next (answered 0x0603 c [] (dropImage i b))) ∧
    (field (word c 0) 16 4 = 2 →
      exec (.layerImageLoad c) s = .next (answered 0x0603 c [w32 (b1 m.loaded + 2 * b1 m.solid), w32 (m.w + m.h * 65536)] b))) ∧
  (∀ (c : Cmd) (s b : State) (k g : Nat) (x : Canvas) (grp : FlipGroup), startsNow 0x0604 (fnLens [2, 1, 1] c) c s = true →
    b = begun c s → k = field (word c 0) 0 10 → g = field (word c 0) 10 5 → tget b.lco.canvases k = some x →
    grp = (tget x.groups g).getD FlipGroup.reset →
    (field (word c 0) 16 4 = 0 → 1 ≤ g → g ≤ 16 → field (word c 1) 0 16 ≤ 100 → exec (.flipGroupSet c) s = .next (answered 0x0604 c []
      (modCanvas k (fun y => { y with groups := tset y.groups g { grp with holdMs := field (word c 1) 0 16 } }) b))) ∧
    (field (word c 0) 16 4 = 1 →
      exec (.flipGroupSet c) s = .next (answered 0x0604 c (w64 (applyDeadline b x)) (commitStaged k b))) ∧
    (field (word c 0) 16 4 = 2 → 1 ≤ g → g ≤ 16 →
      exec (.flipGroupSet c) s = .next (answered 0x0604 c [w32 (b1 grp.pending), w32 grp.held] b))) ∧
  (∀ (slot : Nat) (m : Image) (s : State), tget s.lco.images slot = some m → m.converting = true →
    exec (.imageConversionDone slot) s = .next (endLong 0x0603 slot .ok [w32 (b1 (convertImage m).solid)]
      { s with lco.images := tset s.lco.images slot (convertImage m) })) ∧
  (∀ (canvas : Nat) (poisoned : List (Nat × Nat × Nat)) (s : State),
    exec (.flipDeadline canvas poisoned) s = .next (flipDeadline canvas poisoned s)) ∧
  (∀ (canvas row : Nat) (late : Bool) (c : Canvas) (f : Nat × Nat × List Nat × List Nat × List Nat)
      (fs : List (Nat × Nat × List Nat × List Nat × List Nat)) (s t u : State), tget s.lco.canvases canvas = some c → s.cpr.sleep = 0 →
    c.composing = f :: fs → late = decide (f.1 ≤ s.tsu.now) → row = (if late then c.lateRow + 1 else 0) →
    t = modCanvas canvas (fun y => { y with
      composing := fs, frame := f.2.2, frameAt := f.2.1, frameNs := s.tsu.now, frames := y.frames + 1
      late := if late then inc32 y.late else y.late, lateRow := if 10 ≤ row then 0 else row }) s →
    u = offerPic (canvasPic canvas ((tget t.lco.canvases canvas).getD c)) 0 t →
    exec (.compositionFinished canvas) s = .next (if 10 ≤ row then fault 0xE102 [w32 canvas] u else u))

/-- The cluster's commands, frames, cells and timers complete with their effects. CLUSTER_ROLE_SET takes a role that is in range and
allowed, adds a conference to a lock group or removes it, or returns the status; COURSE_PORT_SET sets a port or returns its words. A
Course frame is taken up by the port's state. On a port in sync a container is captured, or discarded and counted; HELLO, TIME and GROUP
cells are taken. HELLO_SEND, TIME_CELL_SEND and GROUP_CELL_SEND send after their period. A worker whose path to its manager has been lost
for 10 ms is suspended; a port that has not reached SYNC 100 ms after its enable logs the fault; a transceiver that does not fit leaves
its port hunting, with loss of frame if it was in sync. The rows: CLUSTER_ROLE_SET, COURSE_PORT_SET, COURSE_FRAME, CONTAINER_RECEIVED,
HELLO, TIME_CELL, GROUP_CELL, HELLO_SEND, TIME_CELL_SEND, GROUP_CELL_SEND, MANAGER_PATH_LOST, COURSE_SYNC_TIMEOUT, TRANSCEIVER_HOT_PLUG.
-/
def Obligations.ClusterCompletes : Prop :=
  CompletesOkBy .clusterRoleSet 0x0A01 (fnLens [2, 2, 2, 1])
    (fun c b => field (word c 0) 16 4 = 0 ∧ roleBad (word c 1) = false ∧ (roleChanges (word c 1) b = false ∨ b.cti.groups = []))
    (fun _ _ => []) (fun c b => takeRole (word c 1) b) ∧
  CompletesOkBy .clusterRoleSet 0x0A01 (fnLens [2, 2, 2, 1])
    (fun c b => field (word c 0) 16 4 = 1 ∧ field (word c 1) 0 16 ≠ 0 ∧ confUsed b (field (word c 1) 16 13) = true ∧
      (((tget b.aue.confs (field (word c 1) 16 13)).map (·.lock)).getD 0 = 0 ∨
        ((tget b.aue.confs (field (word c 1) 16 13)).map (·.lock)).getD 0 = field (word c 1) 0 16) ∧
      b.cti.role ≠ 0 ∧ b.tsu.state ≠ .unset ∧ (b.cti.groups.any fun x => x.group = field (word c 1) 0 16) = false)
    (fun _ _ => []) (fun c b => { b with
      cti.groups := b.cti.groups ++ [⟨field (word c 1) 0 16, field (word c 1) 16 13, none⟩]
      aue.confs := tmod b.aue.confs (field (word c 1) 16 13) fun x => { x with lock := field (word c 1) 0 16 } }) ∧
  (∀ (c : Cmd) (s b t : State) (g k : Nat), startsNow 0x0A01 (fnLens [2, 2, 2, 1] c) c s = true → b = begun c s →
    field (word c 0) 16 4 = 2 → g = field (word c 1) 0 16 → k = field (word c 1) 16 13 → g ≠ 0 →
    (b.cti.groups.any fun x => x.group = g ∧ x.conf = k) = true →
    t = { b with
      cti.groups := b.cti.groups.filter fun x => x.group ≠ g
      aue.confs := tmod b.aue.confs k fun x => { x with lock := 0 } } →
    exec (.clusterRoleSet c) s = .next (answered 0x0A01 c []
      (if t.cti.groups.isEmpty then { t with cti.suspended := false, cti.cause := 0 } else t))) ∧
  CompletesOkBy .clusterRoleSet 0x0A01 (fnLens [2, 2, 2, 1]) (fun c _ => field (word c 0) 16 4 = 3)
    (fun _ b => [roleWord b, i32 (managerOffset b), w32 b.cti.groups.length, w32 b.cti.suspensions]) (fun _ b => b) ∧
  CompletesOkBy .coursePortSet 0x0A02 (fnLens [2, 1]) (fun c _ => field (word c 0) 16 4 = 0 ∧ field (word c 1) 2 5 ≤ 16)
    (fun _ _ => []) (fun c b => coursePort (field (word c 0) 0 2) (word c 1) b) ∧
  CompletesOkBy .coursePortSet 0x0A02 (fnLens [2, 1]) (fun c _ => field (word c 0) 16 4 = 1)
    (fun c b => coursePortWords (ctiPort b (field (word c 0) 0 2))) (fun _ b => b) ∧
  (∀ (port : Nat) (f : CourseFrame) (s : State), exec (.courseFrame port f) s = .next (courseFrame port f s)) ∧
  (∀ (port : Nat) (c : Container) (s : State), portInSync s port = true → (c.crcOk = false ∨ (ctiPort s port).contDrop = true) →
    exec (.containerReceived port c) s = .next (modCtiPort port (fun x =>
      { x with contDrop := false, contDisc := inc32 x.contDisc, cellsLost := inc32 x.cellsLost c.cells }) s)) ∧
  (∀ (port : Nat) (c : Container) (s : State), portInSync s port = true → c.crcOk = true → (ctiPort s port).contDrop = false →
    exec (.containerReceived port c) s = .next (modCtiPort port (fun x => { x with
      cellsLost := inc32 x.cellsLost ((c.badAt.map fun i => c.cells - i).getD 0)
      rxTimes := ((c.number % 2 ^ 32, nowNs (drawBelow 3 s).2 + 4 + (drawBelow 3 s).1) :: x.rxTimes).take 16 }) (drawBelow 3 s).2)) ∧
  (∀ (port : Nat) (ws : List Word) (s t : State), portInSync s port = true →
    t = modCtiPort port (fun x => { x with hello := some ws, rxSeq := (ws.getD 1 0).toNat }) s →
    exec (.hello port ws) s = .next (if port < 4 then judgeTree t else t) ∧
    exec (.timeCell port ws) s = .next (timeCell port ws s) ∧ exec (.groupCell port ws) s = .next (groupCell port ws s)) ∧
  (∀ (port : Nat) (s a : State), portOn s port = true → a = periodic (ctiPort s port).helloNs 100000000 s →
    exec (.helloSend port) s =
      .next (sendControl port 0 (helloWords a) (modCtiPort port (fun x => { x with helloNs := nowNs a }) a))) ∧
  (∀ (port n d : Nat) (s a b t : State), portInSync s port = true → a = periodic (ctiPort s port).timeNs 1000000000 s →
    n = nowNs a / 1280 → drawBelow 1280 a = (d, b) →
    t = modCtiPort port (fun x =>
      { x with timeNs := nowNs b, txTimes := ((n % 2 ^ 32, n * 1280 + d) :: x.txTimes).take 16 }) b →
    exec (.timeCellSend port) s = .next (sendControl port 1 ([w32 n] ++ w64 (n * 1280 + d) ++
      [w32 (((ctiPort t port).rxTimes.head?).getD (0, 0)).1] ++ w64 (((ctiPort t port).rxTimes.head?).getD (0, 0)).2) t)) ∧
  (∀ (s a : State), s.cti.role = 1 → relays s = false → a = periodic s.cti.groupNs 1000000000 s →
    exec .groupCellSend s = .next (a.cti.groups.foldl (fun s g => sendGroup g s) { a with cti.groupNs := nowNs a })) ∧
  (∀ (s a : State), s.cti.role = 2 → (portInSync s s.cti.parent = false ∨ parentWorks s = true) →
    a = (if portInSync s s.cti.parent then s else
      ((ctiPort s s.cti.parent).lostNs.map fun t => advanceAon (t + 10000000) s).getD s) →
    exec .managerPathLost s = .next (suspend 4 { a with cti.pathLost := true, cti.goodOffsets := 0 })) ∧
  (∀ (port : Nat) (s : State), portOn s port = true → (ctiPort s port).syncWait = true →
    exec (.courseSyncTimeout port) s = .next (fault 0x4002 [w32 port] (modCtiPort port (fun x => { x with syncWait := false })
      (advanceAon ((ctiPort s port).syncNs + 100000000) s)))) ∧
  (∀ (port mw : Nat) (inserted : Bool) (s t : State), t = modCtiPort port (fun x => { x with plugged := inserted && decide (mw ≤ 3500) }) s →
    exec (.transceiverHotPlug port inserted mw) s = .next (if (inserted = true ∧ mw ≤ 3500) ∨ 6 ≤ port then t
      else if (ctiPort s port).path.sync = .sync ∨ (ctiPort s port).path.sync = .syncMiss then lossOfFrame port t
      else modCtiPort port (fun x => { x with path := { x.path with sync := .hunt, misses := 0 } }) t))

/-- The twin pair's commands, heartbeat, mirror and switch complete with their effects. TWIN_PAIR of a module free to pair is accepted and
the pair starts forming; it dissolves a pair; it returns the status. TWIN_SWITCH with none open is accepted and taken up. A pair that has
met its partner is joined; after 10 s without it the long operation ends with result 1. A paired or forming module sends its heartbeat
each millisecond and takes its partner's; its loss makes a fit standby take over. A mirror record, a finished resynchronisation, TAKEOVER,
its acknowledgement, a link outage, YIELD, the powered domains, the announcements and the end of a switch have their effects. The rows:
TWIN_PAIR, TWIN_SWITCH, PAIRING_DONE, HEARTBEAT_SEND, HEARTBEAT, HEARTBEAT_LOSS, MIRROR, FULL_RESYNCHRONISATION_DONE, TAKEOVER,
TAKEOVER_ACK, HOST_LINK_OUTAGE_TRIGGER, YIELD, SWITCH_POWERED, ADDRESS_ANNOUNCE, SWITCH_COMPLETE. -/
def Obligations.TwinCompletes : Prop :=
  (∀ (c : Cmd) (s b : State), startsNow 0x0A03 (fnLens [3, 1, 1] c) c s = true → b = begun c s → field (word c 0) 16 4 = 0 →
    (field (word c 2) 0 2 = 1 ∨ field (word c 2) 0 2 = 2) → b.cti.forming = false → b.cti.switching = none →
    (b.cti.paired = false ∨ b.cti.twin = 3) → (field (word c 2) 0 2 = 1 ∨ b.cti.twin = 3 ∨ b.fwe.legs = []) →
    (queueOf b (qiOf c)).longOps.length < 64 →
    exec (.twinPair c) s = .next (answeredLong 0x0A03 c 0
      (twinForm (word c 1) (field (word c 2) 0 2) (if b.cti.twin = 3 then dropObjects b else b)))) ∧
  CompletesOkBy .twinPair 0x0A03 (fnLens [3, 1, 1])
    (fun c b => field (word c 0) 16 4 = 1 ∧ b.cti.forming = false ∧ b.cti.switching = none) (fun _ _ => [])
    (fun _ b => if b.cti.paired then dissolve b else b) ∧
  CompletesOkBy .twinPair 0x0A03 (fnLens [3, 1, 1]) (fun c _ => field (word c 0) 16 4 = 2) (fun _ b => twinStatus b) (fun _ b => b) ∧
  (∀ (c : Cmd) (s b : State), startsNow 0x0A04 (exactly 1) c s = true → b = begun c s → b.cti.switching = none →
    longOpen 0x0A04 b = false → (queueOf b (qiOf c)).longOps.length < 64 →
    exec (.twinSwitch c) s =
      .next (settleSwitch (answeredLong 0x0A04 c 0 { b with cti.switchAsk := some (bit (word c 0) 0) }))) ∧
  (∀ (prefer : Nat) (s t : State), s.cti.forming = true → partnerMet s = true → t = joinPair prefer s →
    exec (.pairingDone prefer) s = .next (endLong 0x0A03 0 .ok [w32 (if t.cti.keyAgree then 0 else 2), w32 t.cti.twin] t)) ∧
  (∀ (prefer : Nat) (s t : State), s.cti.forming = true → partnerMet s = false →
    t = advanceAon (s.cti.formNs + 10000000000) { s with cti.forming := false } →
    exec (.pairingDone prefer) s = .next (endLong 0x0A03 0 .ok [w32 1, w32 t.cti.twin] t)) ∧
  (∀ (s a b t : State), (s.cti.paired = true ∨ s.cti.forming = true) →
    a = (if s.cti.hbSentNs = 0 then s else advanceAon (s.cti.hbSentNs + 1000000) s) →
    b = switchRefused { a with cti.hbSentNs := a.cpr.aonNs } →
    t = (if b.cti.twin = 1 ∧ b.cti.paired = true
      then (heartbeatRecords b).foldl (fun s (r : Nat × Nat × List Word) => sendMirror r.1 r.2.1 r.2.2 s) b else b) →
    exec .heartbeatSend s = .next (svcHeartbeat (heartbeatWords t) (sendTwin 0 (heartbeatWords t) t))) ∧
  (∀ (ws : List Word) (s : State), (s.cti.paired = true ∨ s.cti.forming = true) → (portInSync s 4 = true ∨ portInSync s 5 = true) →
    exec (.heartbeat true ws) s = .next (heartbeat true ws s)) ∧
  (∀ (ws : List Word) (s : State), (s.cti.paired = true ∨ s.cti.forming = true) → svcOn s = true →
    exec (.heartbeat false ws) s = .next (heartbeat false ws (svcCount 8 s))) ∧
  (∀ (t : Nat) (s a b : State), s.cti.hbNs = some t → a = advanceAon (t + 10000000) s →
    b = evtTwin 2 [a.cti.partner] { a with cti.heartbeat := false, cti.hbNs := none, cti.quoinNs := none } →
    exec .heartbeatLoss s = .next
      (let u := if b.tsu.qualified.getD 2 false then unqualify 2 b else b
       if u.cti.paired ∧ u.cti.twin = 2 ∧ u.cti.switching = none then
         if mayTake 5 u then beginTakeover 5 u else evtTwin 6 [w32 (fitFlags u)] (judgeFit u)
       else { u with cti.fit := 0 })) ∧
  (∀ (seq kind index : Nat) (image : List Word) (s : State),
    exec (.mirror seq kind index image) s = .next (mirrorIn ⟨seq, kind, index, image⟩ s)) ∧
  (∀ (s : State), s.cti.twin = 2 → s.cti.resync = true →
    exec .fullResynchronisationDone s = .next (judgeFit (if s.cpx.mode = .shadow ∨ !s.fwe.legs.isEmpty
      then { s with cti.resync := false }
      else { s with cti.resync := false, cpx.pending := some .shadow, cpx.pendingAt := nextBoundaryNs 10000000 s }))) ∧
  (∀ (code : Nat) (s : State), s.cti.paired = true → s.cti.switching = none → s.cti.twin = 2 → mayTake code s = true →
    exec (.takeover code) s = .next (beginTakeover code (sendTwin 3 [w32 code] s))) ∧
  (∀ (s : State), s.cti.twin = 1 → s.cti.switching.isSome = true → s.cti.taking = false →
    exec .takeoverAck s = .next { s with cti.ackSeen := true }) ∧
  (∀ (s : State), s.hlp.link ≠ .active → s.hlp.outage = false →
    exec .hostLinkOutageTrigger s = .next (twinTrigger 1 { advanceAon (s.hlp.outNs + 20000000) s with hlp.outage := true })) ∧
  (∀ (n : Nat) (s : State), s.cti.paired = true → exec (.yield n) s = .next (judgeFit { s with
    cti.partnerHb := some ([w32 ((hbWord s 0).toNat / 4 * 4 + 3)] ++ (List.range 6).map (fun i => hbWord s (i + 1)) ++ w64 n) })) ∧
  (∀ (s t : State), s.cti.taking = true → s.cti.twin = 2 → computeDomains.any (fun d => (domainOf s d).state ≠ .on) = false →
    t = materialise s → exec .switchPowered s = .next (setTwin 1 { t with
      cti.takeoverNs := nowNs t, cti.egressStopped := true, cti.resync := false, cti.mirrorSent := 0, cti.mirrorTimes := []
      cti.fullNs := none, cti.announce := 3, cti.announceNs := none })) ∧
  (∀ (s a : State), s.cti.announce ≠ 0 → s.cti.twin = 1 →
    a = (match s.cti.announceNs with
      | some t => advanceAon (t + 10000000) s
      | none => s) →
    exec .addressAnnounce s =
      .next (announceAll { a with cti.announce := a.cti.announce - 1, cti.announceNs := some a.cpr.aonNs })) ∧
  (∀ (s : State), s.cti.switching.isSome = true → s.cti.twin = 1 → s.cti.taking = true →
    exec .switchComplete s = .next { switchOver s with cti.egressStopped := false }) ∧
  (∀ (s : State), s.cti.switching.isSome = true → s.cti.twin = 1 → s.cti.taking = false → s.cti.ackSeen = true →
    exec .switchComplete s = .next (if s.cti.switchPlanned = true ∧ s.cti.switching = some 4
      then startResync (setTwin 2 (dropObjects (switchOver s))) else setTwin 3 (switchOver s)))

/-- The service Ethernet and the backup path complete with their effects. SVCETH_SET sets addresses, link and filters that are in range,
and returns and clears the counters. With the port running a frame is received, or dropped and counted, and wakes a sleeping module whose
filter it matches; a collision of a waiting frame backs off or, the 16th, drops it; the speed policy judges its 10 s at 100 Mb/s and
restarts at 10 Mb/s or begins another window; a powered port takes a link change. With the backup path enabled an acknowledgement removes
its event; a datagram whose tag fails is counted, and one whose tag holds is an acknowledgement, is discarded or is queued. A packet of
the active link that is no command is discarded and its credit returned. An unacknowledged event is sent again after 100 ms, or counted as
lost after five resends. The rows: SVCETH_SET, SERVICE_ETHERNET_FRAME, COLLISION, SPEED_POLICY_TIMER, SERVICE_ETHERNET_LINK_CHANGE,
BACKUP_ACKNOWLEDGEMENT, BACKUP_DATAGRAM, NOT_A_COMMAND_DISCARD, BACKUP_EVENT_RESEND. -/
def Obligations.ServiceEthernetCompletes : Prop :=
  CompletesOkBy .svcethSet 0x0A05 (fnLens [12, 2, 7, 1])
    (fun c _ => field (word c 0) 16 4 = 0 ∧ field (word c 2) 0 6 ≤ 32 ∧ field (word c 2) 8 8 ≤ 128)
    (fun _ _ => []) (fun c b => svcAddresses (c.words.drop 1) b) ∧
  CompletesOkBy .svcethSet 0x0A05 (fnLens [12, 2, 7, 1]) (fun c _ => field (word c 0) 16 4 = 1 ∧ field (word c 1) 16 2 ≠ 3)
    (fun _ _ => []) (fun c b => svcLink (word c 1) b) ∧
  CompletesOkBy .svcethSet 0x0A05 (fnLens [12, 2, 7, 1]) (fun c _ => field (word c 0) 16 4 = 2)
    (fun _ _ => []) (fun c b => { b with cti.svc.filters := b.cti.svc.filters.modify (field (word c 1) 0 3) fun _ =>
      { on := bit (word c 1) 3, check := field (word c 1) 16 16, mask := (c.words.drop 2).take 4 } }) ∧
  CompletesOkBy .svcethSet 0x0A05 (fnLens [12, 2, 7, 1]) (fun c _ => field (word c 0) 16 4 = 3) (fun _ b => svcStatus (svcDrain b))
    (fun _ b => { svcDrain b with cti.svc.counters := SvcEth.reset.counters }) ∧
  (∀ (f : EthFrame) (n : Nat) (asleep : Bool) (s t u : State), svcOn s = true →
    asleep = (decide (s.cpr.sleep ≠ 0) || s.cpr.waking.isSome) →
    t = (if 2 ≤ s.cpr.sleep ∧ s.cti.svc.filters.any fun x => filterMatches x f.head then wakeSource 2 s else s) →
    n = (if asleep then t.cti.svc.rxBytes else 0) + f.len →
    u = svcCount 1 { t with cti.svc.rxBytes := if asleep then n else 0 } →
    (vlanPasses t.cti.svc f = false → exec (.serviceEthernetFrame f) s = .next (svcCount 7 t)) ∧
    (vlanPasses t.cti.svc f = true → 49152 < n → exec (.serviceEthernetFrame f) s = .next (svcCount 6 t)) ∧
    (vlanPasses t.cti.svc f = true → n ≤ 49152 → f.kind ≤ 2 → exec (.serviceEthernetFrame f) s = .next u) ∧
    (vlanPasses t.cti.svc f = true → n ≤ 49152 → 2 < f.kind → exec (.serviceEthernetFrame f) s =
      .next { u with fwe.portCnt := u.fwe.portCnt.modify 14 fun l => l.modify 0 fun k => inc32 k })) ∧
  (∀ (late : Bool) (s t u : State), t = svcDrain s → svcOn t = true → t.cti.svc.txq ≠ [] →
    u = svcCount 2 (if late then svcCount 4 t else t) →
    (15 ≤ u.cti.svc.attempts → exec (.collision late) s = .next (restamp 0 (svcCount 3
      { u with cti.svc.txq := u.cti.svc.txq.drop 1, cti.svc.attempts := 0, cti.svc.backoff := 0 }))) ∧
    (∀ (e k : Nat) (v : State), u.cti.svc.attempts < 15 → e = min (u.cti.svc.attempts + 1) 10 → drawBelow (2 ^ e) u = (k, v) →
      exec (.collision late) s = .next (restamp (k * 64 * 8 * (if v.cti.svc.fast then 10 else 100))
        { v with cti.svc.attempts := u.cti.svc.attempts + 1, cti.svc.backoff := e }))) ∧
  (∀ (util : Nat) (s a : State), svcOn s = true → s.cti.svc.fast = true → s.cti.svc.policy = 0 →
    a = advanceAon (s.cti.svc.fastNs + 10000000000) s →
    (util < 100 → (a.cti.paired = false ∨ quoinUp a = true) →
      exec (.speedPolicyTimer util) s = .next { a with cti.svc.advert := 2, cti.svc.up := false }) ∧
    ((100 ≤ util ∨ (a.cti.paired = true ∧ quoinUp a = false)) →
      exec (.speedPolicyTimer util) s = .next { a with cti.svc.fastNs := a.cpr.aonNs })) ∧
  (∀ (up fast : Bool) (s : State), (domainOf s 26).state = .on → (domainOf s 26).latched = false → s.cpr.powered = true →
    exec (.serviceEthernetLinkChange up fast) s = .next (if up then restamp 0 { s with
        cti.svc.up := true, cti.svc.fastNs := s.cpr.aonNs, cti.svc.fast := decide (s.cti.svc.advert = 1) || (decide (s.cti.svc.advert = 0) && fast) }
      else { svcDrain s with cti.svc.up := false })) ∧
  (∀ (q code : Nat) (tag seq : Word) (s : State), s.cpx.backupOn = true → svcOn s = true →
    exec (.backupAcknowledgement q code tag seq) s = .next { s with cpx.backupUnacked := s.cpx.backupUnacked.filter fun e =>
      !(e.queue = q ∧ e.code = code ∧ e.tag = tag ∧ e.seq = seq) }) ∧
  (∀ (src : Addr) (port : Nat) (key : List Word) (bytes body : List Byte) (p : RawPacket) (s t : State), s.cpx.backupOn = true →
    svcOn s = true → s.cpe.backupKey = some key → body = bytes.take (bytes.length - 16) → p = parsePacket body →
    t = { s with cpx.backupPeer := some (src, port) } →
    (bytes.drop (bytes.length - 16) ≠ (hmacSha256 (wordsBytes key) body).take 16 → exec (.backupDatagram src port bytes) s =
      .next { s with cpx.backupTagFails := inc32 s.cpx.backupTagFails }) ∧
    (bytes.drop (bytes.length - 16) = (hmacSha256 (wordsBytes key) body).take 16 →
      (p.crcOk = true → p.flags % 4 = 3 → p.words = [] → exec (.backupDatagram src port bytes) s =
        .next (backupAck (p.target / 4096 % 4) p.opcode p.tag p.seq t)) ∧
      (p.crcOk = true → p.flags % 4 ≠ 0 → (p.flags % 4 ≠ 3 ∨ p.words ≠ []) → exec (.backupDatagram src port bytes) s =
        .next (discardPacket (4 + p.target / 4096 % 4) t)) ∧
      ((p.crcOk = false ∨ p.flags % 4 = 0) → exec (.backupDatagram src port bytes) s =
        .next (packetArrives true (p.target / 4096 % 4) (some (src, port)) body t)))) ∧
  (∀ (q : Nat) (s : State), s.hlp.link = .active → q < 4 →
    exec (.notACommandDiscard q) s = .next (returnCredit q (discardPacket q (takeCredit q s)))) ∧
  (∀ (e : BackupEvent) (es : List BackupEvent) (s a : State), s.cpx.backupUnacked = e :: es →
    a = advanceAon (e.sentNs + 100000000) s →
    (5 ≤ e.resends → exec .backupEventResend s =
      .next { a with cpx.backupUnacked := es, cpx.backupEventsLost := inc32 a.cpx.backupEventsLost }) ∧
    (e.resends < 5 → exec .backupEventResend s =
      .next (sendBackup (.packet true e.queue a.cpx.backupPeer e.packet) a.cpx.backupPeer e.packet
        { a with cpx.backupUnacked := es ++ [{ e with resends := e.resends + 1, sentNs := a.cpr.aonNs }] })))

/-- The conference store's commands and events complete with their effects. STORE_POLICY_SET sets a ring that fits, lets a stream append
or not, and reads a ring. STORE_EXPORT and STORE_REPLAY of an index that is not running are accepted with the settings given; each ends
one and reads its status. EXPORT_RECORD_SEND: a running export sends its next wanted record or counts a skipped one; EXPORT_DONE: with
none left it ends, as does one whose ring is gone. REPLAY_END: a replay ends with result 0 when its records are sent, 1 when one was
reclaimed before it was sent, and 4 when no record stands at or before its start. CAIRN_APPEND_TIMEOUT: a packet record that the fabric
has not accepted within 100 us is dropped and counted. The rows: STORE_POLICY_SET, STORE_EXPORT, STORE_REPLAY, EXPORT_RECORD_SEND,
EXPORT_DONE, REPLAY_END, CAIRN_APPEND_TIMEOUT. -/
def Obligations.StoreCompletes : Prop :=
  CompletesOkBy .storePolicySet 0x0B01 storePolicyLen
    (fun c b => field (word c 0) 16 4 = 0 ∧ (word c 1).toNat ≤ 1835008 ∧ 100 ≤ (word c 2).toNat ∧ (word c 2).toNat ≤ 3600000 ∧
      confUsed b (field (word c 0) 0 13) = true ∧
      ringTotal b - ((tget b.mss.rings (field (word c 0) 0 13)).map (·.sizeMiB)).getD 0 + (word c 1).toNat ≤ areaMiB b)
    (fun _ _ => []) (fun c b => setRing (field (word c 0) 0 13) (word c 1).toNat (word c 2).toNat b) ∧
  CompletesOkBy .storePolicySet 0x0B01 storePolicyLen
    (fun c b => field (word c 0) 16 4 = 1 ∧ confUsed b (field (word c 0) 0 13) = true ∧ streamUsed b (field (word c 1) 0 16) = true)
    (fun _ _ => []) (fun c b => if bit (word c 1) 16
      then { b with mss.noAppend := b.mss.noAppend.filter (· ≠ field (word c 1) 0 16) }
      else { b with
        mss.noAppend := field (word c 1) 0 16 :: b.mss.noAppend.filter (· ≠ field (word c 1) 0 16)
        mss.index := terase b.mss.index (field (word c 1) 0 16) }) ∧
  CompletesOkBy .storePolicySet 0x0B01 storePolicyLen
    (fun c b => field (word c 0) 16 4 = 2 ∧ confUsed b (field (word c 0) 0 13) = true)
    (fun c b => ringWords b (field (word c 0) 0 13)) (fun _ b => b) ∧
  (∀ (c : Cmd) (s b : State) (conf st n : Nat), startsNow 0x0B02 (storeExportLen c) c s = true → b = begun c s →
    field (word c 0) 16 4 = 0 → conf = field (word c 0) 0 13 → st = field (word c 1) 0 16 → n = field (word c 0) 20 2 →
    confUsed b conf = true → (st = 0xFFFF ∨ streamUsed b st = true) → ((tget b.mss.exports n).map (·.running)).getD false = false →
    (queueOf b (qiOf c)).longOps.length < 64 →
    exec (.storeExport c) s = .next (answeredLong 0x0B02 c n { b with
      mss.exports := tset b.mss.exports n
        { Export.reset with
          conf := conf, stream := st, raw := bit (word c 1) 16, startNs := nat64 (word c 2) (word c 3)
          endNs := nat64 (word c 4) (word c 5), tag := field (word c 6) 0 16, running := true, result := 15
          next := ((tget b.mss.rings conf).map fun r => (r.recs.head?.map (·.number)).getD r.next).getD 0 } })) ∧
  CompletesOkBy .storeExport 0x0B02 storeExportLen (fun c _ => field (word c 0) 16 4 = 1) (fun _ _ => [])
    (fun c b => endExport (field (word c 0) 20 2) 2 b) ∧
  CompletesOkBy .storeExport 0x0B02 storeExportLen (fun c _ => field (word c 0) 16 4 = 2)
    (fun c b => exportWords ((tget b.mss.exports (field (word c 0) 20 2)).getD { Export.reset with running := false, result := 0 }))
    (fun _ b => b) ∧
  (∀ (c : Cmd) (s b : State) (src tgt n : Nat), startsNow 0x0B03 (storeReplayLen c) c s = true → b = begun c s →
    field (word c 0) 16 4 = 0 → src = field (word c 1) 0 16 → tgt = field (word c 1) 16 16 → n = field (word c 0) 20 6 →
    streamUsed b src = true → streamUsed b tgt = true → ((tget b.fwe.streams tgt).map (·.origin)).getD false = true →
    ((tget b.fwe.legs (tgt / 4)).map fun l => decide (l.kind = .producer)).getD false = true → indexOf b src ≠ [] →
    ((tget b.mss.replays n).map (·.running)).getD false = false → (queueOf b (qiOf c)).longOps.length < 64 →
    exec (.storeReplay c) s = .next (answeredLong 0x0B03 c n { b with
      mss.replays := tset b.mss.replays n
        { Replay.reset with
          source := src, target := tgt, conf := ((tget b.fwe.legs (src / 4)).bind (·.conf)).getD 0, running := true, result := 15
          launchNs := if nat64 (word c 4) (word c 5) = 0 then nextBoundaryNs 10000000 b else nat64 (word c 4) (word c 5)
          next := ((rapBefore b src (nat64 (word c 2) (word c 3))).map (·.number)).getD 0
          firstNs := (rapBefore b src (nat64 (word c 2) (word c 3))).map (·.timeNs) } })) ∧
  CompletesOkBy .storeReplay 0x0B03 storeReplayLen (fun c _ => field (word c 0) 16 4 = 1) (fun _ _ => [])
    (fun c b => endReplay (field (word c 0) 20 6) 2 b) ∧
  (∀ (c : Cmd) (s b : State) (r : Replay), startsNow 0x0B03 (storeReplayLen c) c s = true → b = begun c s →
    field (word c 0) 16 4 = 2 → r = (tget b.mss.replays (field (word c 0) 20 6)).getD { Replay.reset with running := false, result := 0 } →
    exec (.storeReplay c) s = .next (answered 0x0B03 c [w32 (if r.running then 15 else r.result), w32 r.sent] b)) ∧
  (∀ (n : Nat) (e : Export) (r : Ring) (x : CairnRec) (s : State), tget s.mss.exports n = some e → tget s.mss.rings e.conf = some r →
    e.running = true → exportNext e r = some x →
    exec (.exportRecordSend n) s = .next (if exportWants r e x = 2
      then { s with mss.exports := tset s.mss.exports n { e with next := x.number + 1, skipped := inc32 e.skipped } }
      else sendData { kind := 3, flags := 0, tag := e.tag, timeNs := x.timeNs, len := 32 + x.length, data := recHeader x ++ recPayload x }
        (engineTraffic .cairnRead (recBytes x.length)
          { s with mss.exports := tset s.mss.exports n { e with next := x.number + 1, sent := inc32 e.sent } }))) ∧
  (∀ (n : Nat) (e : Export) (r : Ring) (s : State), tget s.mss.exports n = some e → tget s.mss.rings e.conf = some r →
    exportNext e r = none → exec (.exportDone n) s = .next (endExport n (if e.skipped = 0 then 0 else 1) s)) ∧
  (∀ (n : Nat) (e : Export) (s : State), tget s.mss.exports n = some e → tget s.mss.rings e.conf = none →
    exec (.exportDone n) s = .next (endExport n (if e.skipped = 0 then 0 else 1) s)) ∧
  (∀ (n : Nat) (r : Replay) (s : State), tget s.mss.replays n = some r →
    (r.dropped = true → r.lost = false →
      ((tget s.mss.rings r.conf).map fun x => x.recs.any (replayOwes r)).getD false = false →
      exec (.replayEnd n 0) s = .next (endReplay n 0 s)) ∧
    (r.lost = true → exec (.replayEnd n 1) s = .next (endReplay n 1 s)) ∧
    (r.firstNs = none → exec (.replayEnd n 4) s = .next (endReplay n 4 s))) ∧
  (∀ (conf n : Nat) (r : Ring) (x : CairnRec) (s a : State), tget s.mss.rings conf = some r →
    r.recs.find? (fun y => y.number % 2 ^ 32 = n) = some x → x.kind = 0 →
    a = advanceAon (x.atNs + 100000) s →
    exec (.cairnAppendTimeout conf n) s = .next (bufReleaseOpt x.buf (trimIndex conf (modRing conf
      (fun r => { r with drops := inc32 r.drops })
      (modRing conf (fun r => { r with recs := r.recs.filter fun y => y.number ≠ x.number }) a)))))

/-- Requests of the fabric, memory reads, flits, retraining, MEM_STATUS and the memory registers complete with their effects. Whatever a
channel's queue owes is served first. FABRIC_REQUEST takes its place in the order of issue; it is denied when no region grants it or it
ends beyond the 2^41 bytes of memory, and else served, at once where nothing that was issued before it holds it up. DRAM_READ of memory in
range reads the bursts of the channels in service; one beyond 2^41 stops with the fault noSuchAddress. FABRIC_FLIT_ARRIVAL: a flit of 16
words with good parity is delivered and leaves the replay buffer; one that fails is held for replay, and when two replays have failed it
is delivered with its failing words poisoned and the fault logged; a failing request to a port that is down is answered UNAVAILABLE.
RETRAINING_PAUSE: a channel in service pauses for 600 ns from its slot and counts. MEM_STATUS returns its words. MSS_AGE_LIMIT_WRITE takes
the fields in range; PU_REGION_WRITE logs the fault. The rows: FABRIC_REQUEST, DRAM_READ, FABRIC_FLIT_ARRIVAL, RETRAINING_PAUSE,
MEM_STATUS, MSS_AGE_LIMIT_WRITE, PU_REGION_WRITE. -/
def Obligations.MemoryCompletes : Prop :=
  (∀ (r : FabReq) (x : HeldReq) (s c u : State), r.master < 64 → r.target < 16 → c = settleChannels s →
    x = ⟨c.mss.issued, nowNs c, r⟩ → u = { c with mss.issued := c.mss.issued + 1 } →
    ((permitted u r (reqBytes r) = false ∨ (r.target = 6 ∧ 2 ^ 41 < r.addr + reqBytes r)) →
      exec (.fabricRequest r) s = .next (denyRequest r (reqBytes r) u)) ∧
    (permittedRequest u r = true → exec (.fabricRequest r) s = .next (serveRequest x u)) ∧
    (permittedRequest u r = true → r.fenced = false → portDown u r.target r.inst = false → mustWait u x = false →
      pausedChannel u r = none → exec (.fabricRequest r) s = .next (performRequest r u))) ∧
  (∀ (addr n : Nat) (k : Traffic) (bad : List (List Nat)) (s : State), addr + 4 * n ≤ 2 ^ 41 →
    exec (.dramRead addr ⟨n, k⟩ bad) s = .next (readLines (bad.map fun b => b.map (addr / 4 + ·))
      ((linesOf addr (4 * n)).filter fun l => (chanOf s (channelOf (64 * l))).inService)
      (recordRequest { master := 22, addr := addr, len := 4 * n, traffic := k } s)).2) ∧
  (∀ (addr n : Nat) (k : Traffic) (bad : List (List Nat)) (s : State), 2 ^ 41 < addr + 4 * n →
    exec (.dramRead addr ⟨n, k⟩ bad) s = .fault (.noSuchAddress addr)) ∧
  (∀ (link number n : Nat) (f : FabFlit) (r : FabReq) (x : HeldReq) (s c u : State) (rest : List ReplayFlit), c = settleChannels s →
    rest = (linkHeld c link).filter (fun x => x.number ≠ number) → r = flitReq f (flitBad f) →
    n = (((linkHeld c link).find? fun x => x.number = number).map (·.tries)).getD 0 →
    (match (linkHeld c link).find? fun x => x.number = number with
      | some o => ((⟨o.seq, nowNs c, r⟩ : HeldReq), c)
      | none => issue r c) = (x, u) →
    f.words.length = 16 → rest.length < 64 → r.master < 64 → r.target < 16 →
    (flitBad f = [] → f.reply = true →
      exec (.fabricFlitArrival link number f) s = .next (releaseBehind (replyArrives f r (setHeld link rest u)))) ∧
    (flitBad f = [] → f.reply = false →
      exec (.fabricFlitArrival link number f) s = .next (releaseBehind (checkedRequest x (setHeld link rest u)))) ∧
    (flitBad f ≠ [] → f.reply = false → (r.fenced || portDown u r.target r.inst) = true → permittedRequest u r = true →
      exec (.fabricFlitArrival link number f) s =
        .next (releaseBehind (emit (.completion r.master 1 [] []) (setHeld link rest u)))) ∧
    (flitBad f ≠ [] → (f.reply = true ∨ (r.fenced || portDown u r.target r.inst) = false ∨ permittedRequest u r = false) →
      (n < 2 → exec (.fabricFlitArrival link number f) s = .next (setHeld link (rest ++ [⟨number, n + 1, f.reply, x.seq, r⟩]) u)) ∧
      (2 ≤ n → exec (.fabricFlitArrival link number f) s = .next (releaseBehind
        (if f.reply then replyArrives f r (fault 0x6101 [w32 link] (setHeld link rest u))
         else checkedRequest x (fault 0x6101 [w32 link] (setHeld link rest u))))))) ∧
  (∀ (ch t : Nat) (ok : Bool) (s a : State), ch < 16 → (chanOf s ch).inService = true → (chanOf s ch).selfRef = false →
    t = pauseStart s ch → a = settleChannels (advanceTo (t * 65536) s) →
    exec (.retrainingPause ch ok) s = .next (pauseResult ch ok
      (modChan ch (fun c => { c with lastSlot := some (pauseSlot s ch), openNs := t + 600 })
        { a with mss.pauseEnd := t + 600, mss.pauseCh := ch }))) ∧
  (∀ (ch : Nat) (s : State), ∃ t, pauseResult ch true s = modChan ch (fun c => { c with
      doubled := decide ((drawBelow 2 s).1 = 1), pauses := inc32 c.pauses, discRow := 0 }) t ∧ t = (drawBelow 2 s).2) ∧
  CompletesOk .memStatus 0x0B04 (exactly 1) (fun c _ => field (word c 0) 16 4 = 0) (fun _ b => memSummary b)
    (fun c b => if bit (word c 0) 31
      then { b with mss.c0MaxClear := 0, mss.chans := b.mss.chans.map fun c => { c with replays := 0, poisons := 0 } } else b) ∧
  CompletesOk .memStatus 0x0B04 (exactly 1) (fun c _ => field (word c 0) 16 4 = 1 ∧ field (word c 0) 20 8 ≤ 15)
    (fun c b => memChannel b (field (word c 0) 20 8)) (fun _ b => b) ∧
  CompletesOk .memStatus 0x0B04 (exactly 1) (fun c _ => field (word c 0) 16 4 = 2 ∧ field (word c 0) 20 8 ≤ 15)
    (fun c b => memLog b (field (word c 0) 20 8)) (fun _ b => b) ∧
  CompletesOk .memStatus 0x0B04 (exactly 1) (fun c _ => field (word c 0) 16 4 = 3)
    (fun c b => memRegion b (field (word c 0) 20 8)) (fun _ b => b) ∧
  (∀ (v : Word) (s : State), Reaches true 0x60100 s → exec (.mssAgeLimitWrite v) s = .next { s with
    mss.ageC1 := ageField (field v 0 8) s.mss.ageC1, mss.ageC2 := ageField (field v 8 8) s.mss.ageC2
    mss.ageC3 := ageField (field v 16 8) s.mss.ageC3 }) ∧
  (∀ (a v : Word) (s : State), Reaches true a.toNat s → exec (.puRegionWrite a v) s = .next (fault 0x6103 [a] s))

/-- The commands of power, clocks and claims complete with their effects. POWER_STATE_SET of S0 answers OK; of a sleep state, with nothing
in use, it is accepted and the entry starts. PERF_LEVEL_SET of the level in force answers OK; of another that the mode and the charges
allow it answers when the change completes. PAD_RELEASE releases a group of a powered domain. CLOCK_SELECT in SERVICE sets the switch, by
recovery when asked; a switch whose old input has stopped hangs until its timeout. RESOURCE_CLAIM claims, releases and reads a resource,
and sets up a claimed event pin. The rows: POWER_STATE_SET, PERF_LEVEL_SET, PAD_RELEASE, CLOCK_SELECT, RESOURCE_CLAIM. -/
def Obligations.PowerCommandsComplete : Prop :=
  CompletesOk .powerStateSet 0x0C01 (exactly 1) (fun c _ => field (word c 0) 0 2 = 0) (fun _ _ => []) (fun _ b => b) ∧
  CompletesLong .powerStateSet 0x0C01 (exactly 1)
    (fun c b => field (word c 0) 0 2 ≠ 0 ∧ b.cpx.mode ≠ .shadow ∧ b.fwe.legs = [] ∧ b.cti.paired = false ∧ b.cti.forming = false ∧
      b.cpr.entering = none ∧ b.cpx.queues.any (fun q => !q.longOps.isEmpty) = false)
    (fun _ _ => 0) (fun c b => startEntry { b with
      cpr.entering := some (field (word c 0) 0 2), cpr.wakeMask := field (word c 0) 8 6, cpr.wakeDue := none }) ∧
  (∀ (c : Cmd) (s b : State) (g l : Nat), startsNow 0x0C02 (exactly 1) c s = true → b = begun c s → g = field (word c 0) 0 2 →
    l = field (word c 0) 4 2 → (g = 0 → l = 0 ∨ b.cpx.mode = .service) → (g ≠ 0 → ceiling b.cpx.mode ≤ l) →
    levelShort b g l = false → b.cpr.changing.any (fun x => x.1 = g) = false →
    (stepped b g = false ∨ levelOf b g ≤ l ∨ b.cpr.powerStop = false) →
    exec (.perfLevelSet c) s = .next (if l = levelOf b g then answered 0x0C02 c [w32 l] b
      else answeredLater 0x0C02 c
        { b with cpr.changing := b.cpr.changing ++ [(g, l)], cpr.perfReply := b.cpr.perfReply ++ [(g, qiOf c)] })) ∧
  CompletesOk .padRelease 0x0C03 (exactly 1)
    (fun c b => field (word c 0) 0 4 ≤ 8 ∧ (domainOf b (padDomain (field (word c 0) 0 4))).state ≠ .off)
    (fun _ _ => []) (fun c b => releasePad (field (word c 0) 0 4) b) ∧
  (∀ (c : Cmd) (s b : State) (mux input : Nat) (hung : Bool), startsNow 0x0C04 (exactly 1) c s = true → b = begun c s →
    mux = field (word c 0) 0 4 → input = b1 (bit (word c 0) 4) → firstFail (clockChecks mux input b) = none →
    hung = (decide (b.cpr.cmux.getD mux 0 ≠ input) && inputStopped b mux (b.cpr.cmux.getD mux 0)) →
    (bit (word c 0) 5 = false → hung = false →
      exec (.clockSelect c) s = .next (answered 0x0C04 c [muxWord (putMux mux input b) mux] (putMux mux input b))) ∧
    (bit (word c 0) 5 = false → hung = true →
      exec (.clockSelect c) s = .next (answeredLater 0x0C04 c { b with
        cpr.switching := b.cpr.switching ++ [(mux, input)], cpr.switchNs := b.cpr.switchNs.set mux b.cpr.aonNs })) ∧
    (bit (word c 0) 5 = true → exec (.clockSelect c) s =
      .next (answered 0x0C04 c [muxWord (putMux mux input (recoverMux mux input b)) mux]
        (if hung = true ∧ mux ≤ 3 then raiseFault 0x1003 [w32 mux] true (putMux mux input (recoverMux mux input b))
        else putMux mux input (recoverMux mux input b))))) ∧
  CompletesOkBy .resourceClaim 0x0C05 (fnLens [1, 1, 1, 2])
    (fun c b => field (word c 0) 16 4 = 0 ∧ firstFail (claimChecks (field (word c 0) 0 4) (field (word c 0) 8 8) b) = none)
    (fun _ _ => [1]) (fun c b => claimRes (field (word c 0) 0 4) (field (word c 0) 8 8) b) ∧
  CompletesOkBy .resourceClaim 0x0C05 (fnLens [1, 1, 1, 2])
    (fun c b => field (word c 0) 16 4 = 1 ∧ claimIndexBad (field (word c 0) 0 4) (field (word c 0) 8 8) = false ∧
      ownerOf b (field (word c 0) 0 4) (field (word c 0) 8 8) < 2)
    (fun _ _ => [0]) (fun c b => if ownerOf b (field (word c 0) 0 4) (field (word c 0) 8 8) = 0 then b
      else releaseRes (field (word c 0) 0 4) (field (word c 0) 8 8) b) ∧
  CompletesOkBy .resourceClaim 0x0C05 (fnLens [1, 1, 1, 2])
    (fun c _ => field (word c 0) 16 4 = 2 ∧ claimIndexBad (field (word c 0) 0 4) (field (word c 0) 8 8) = false)
    (fun c b => if field (word c 0) 0 4 = 1
      then [w32 (ownerOf b 1 (field (word c 0) 8 8)), w32 b.tsu.evtEdges] ++ w64 b.tsu.evtLast
      else [w32 (ownerOf b (field (word c 0) 0 4) (field (word c 0) 8 8))]) (fun _ b => b) ∧
  CompletesOkBy .resourceClaim 0x0C05 (fnLens [1, 1, 1, 2])
    (fun c b => field (word c 0) 16 4 = 3 ∧ claimIndexBad (field (word c 0) 0 4) (field (word c 0) 8 8) = false ∧
      field (word c 0) 0 4 = 1 ∧ b.tsu.evtOwner = 1 ∧
      (bit (word c 1) 0 = true → 8 ≤ field (word c 1) 2 6 ∧ field (word c 1) 8 24 ≠ 0 ∧ (cmpOf b (field (word c 1) 2 6)).owner = 1))
    (fun _ _ => []) (fun c b => { evtRest b with
      tsu.evtOut := bit (word c 1) 0, tsu.evtFall := bit (word c 1) 1, tsu.evtCmp := field (word c 1) 2 6
      tsu.evtWidth := field (word c 1) 8 24, tsu.evtSet := true })

/-- The events of clocks, power domains and sleep complete with their effects. SLEEP_ENTERED: a sleep entry that is ready ends with its
state, the window open; ENTRY_WINDOW_END closes it after 320 ns and a waiting wake follows. WAKE_EVENT: an enabled wake source wakes a
sleeping module and is kept during entry, an edge in the entry window being lost; WAKE_COMPLETE returns to S0 and reports.
LEVEL_CHANGE_COMPLETE takes effect, answers its command and frees the entry. CLOCK_INPUT_STOPPED, SWITCH_STUCK_TIMEOUT, PLL_UNLOCK,
HANDSHAKE_OVERRUN and DRAIN_END with requests outstanding log their faults and recover; each request outstanding at DRAIN_END is completed
ABORTED. DOMAIN_POWERED: the domain is ON. POWER_WINDOW: windows count, step down and cool, and at ADMISSION_RESUME admission resumes
after 1 s below 95 %. The rows: SLEEP_ENTERED, ENTRY_WINDOW_END, WAKE_EVENT, WAKE_COMPLETE, LEVEL_CHANGE_COMPLETE, CLOCK_INPUT_STOPPED,
SWITCH_STUCK_TIMEOUT, PLL_UNLOCK, DRAIN_END, DOMAIN_POWERED, HANDSHAKE_OVERRUN, POWER_WINDOW, ADMISSION_RESUME. -/
def Obligations.PowerEventsComplete : Prop :=
  (∀ (t : Nat) (s a b : State), s.cpr.entering = some t → s.cpr.window = false → s.cpr.changing = [] →
    (t < 2 ∨ (sleepDomains.any fun d => (domainOf s d).state ≠ .off) = false) →
    a = { endLong 0x0C01 0 .ok [w32 t] s with
      cpr.sleep := t, cpr.window := true, cpr.windowNs := (endLong 0x0C01 0 .ok [w32 t] s).cpr.aonNs, hlp.wakePending := false } →
    b = (if 2 ≤ t then selfRefresh (drainChannels a) else a) →
    (t ≠ 2 → t ≠ 3 → exec .sleepEntered s = .next b) ∧
    (t = 2 → exec .sleepEntered s = .next { b with cpr.ctlBefore := levelOf b 0, cpr.levels := b.cpr.levels.set 0 3 }) ∧
    (t = 3 → exec .sleepEntered s = .next (ponTrySleep
      ((if b.hlp.link = .active then hlpCount 5 1 else id) (leaveLink { b with hlp.trainReady := false }))))) ∧
  (∀ (s a : State), s.cpr.window = true →
    a = { advanceAon (s.cpr.windowNs + 320) s with cpr.window := false, cpr.entering := none, cpr.wakeDue := none } →
    (∀ b, s.cpr.wakeDue = some b → exec .entryWindowEnd s = .next (startWake b a)) ∧
    (s.cpr.wakeDue = none → exec .entryWindowEnd s = .next a)) ∧
  (∀ (source : Nat) (s : State), source < 6 → (source = 4 → commandWaits s = true) → (s.cpr.wakeMask >>> source) % 2 = 1 →
    (s.cpr.entering = none → s.cpr.waking = none → s.cpr.sleep ∈ wakeStates source →
      exec (.wakeEvent source) s = .next (startWake source s)) ∧
    (∀ t, s.cpr.entering = some t → t ∈ wakeStates source → (s.cpr.window = false ∨ wakeLevel source = true) →
      exec (.wakeEvent source) s = .next { s with cpr.wakeDue := some source }) ∧
    (∀ t, s.cpr.entering = some t → s.cpr.window = true → wakeLevel source = false → exec (.wakeEvent source) s = .next s)) ∧
  (∀ (left src : Nat) (s a w b d : State), s.cpr.waking = some (left, src) →
    ((List.range 28).any fun d => (domainOf s d).state = .powering) = false →
    a = { s with cpr.waking := none, cpr.sleep := 0, hlp.wakePending := false } →
    w = (if 2 ≤ left then wakePauses a else a) →
    b = (if left = 2 then { w with cpr.levels := w.cpr.levels.set 0 w.cpr.ctlBefore } else w) →
    d = (if left = 3 then { (ponWake (decide (src ≠ 3)) b) with hlp.trainReady := true } else b) →
    exec .wakeComplete s = .next ((List.range 8).foldl (fun s qi => drainRefused qi (queueOf s qi).waiting s)
      (if d.hlp.link = .active then evtPower 3 [w32 (left + src * 4), w32 ((s.cpr.aonNs - s.cpr.wakeNs) / 1000)] d
      else { d with cpr.woke := some (left, src, (s.cpr.aonNs - s.cpr.wakeNs) / 1000) }))) ∧
  (∀ (g l : Nat) (s a : State), s.cpr.changing.find? (fun x => x.1 = g) = some (g, l) →
    a = { s with
      cpr.overWindows := if stepRuns s g then 0 else s.cpr.overWindows
      cpr.levels := s.cpr.levels.set g l, cpr.changing := s.cpr.changing.filter fun x => x.1 ≠ g } →
    (s.cpr.perfReply.find? (fun x => x.1 = g) = none → exec (.levelChangeComplete g) s = .next (startEntry a)) ∧
    (∀ qi, s.cpr.perfReply.find? (fun x => x.1 = g) = some (g, qi) → exec (.levelChangeComplete g) s =
      .next (startEntry (finishDeferred qi .ok [w32 l] (let b := { a with
          cpr.perfReply := a.cpr.perfReply.filter fun x => x.1 ≠ g
          cpr.steppedM := a.cpr.steppedM && !(decide (l < levelOf s g) && decide (g = 1))
          cpr.steppedG := a.cpr.steppedG && !(decide (l < levelOf s g) && decide (g = 2)) }
        evtPower 2 (powerWords b g l) b))))) ∧
  (∀ (i : Nat) (s a : State), i < 18 → s.cpr.stopped.getD i false = false →
    a = raiseFault 0x1004 [w32 i] (decide (i < 8)) { s with cpr.stopped := s.cpr.stopped.set i true } →
    exec (.clockInputStopped i) s =
      .next (if i = 14 then { a with cpr.cmux := a.cpr.cmux.set 7 1, tsu.ponRef := false } else a)) ∧
  (∀ (mux i : Nat) (s t a : State), s.cpr.switching.find? (fun x => x.1 = mux) = some (mux, i) →
    t = advanceAon (s.cpr.switchNs.getD mux 0 + switchLimit s mux i) s →
    a = raiseFault 0x1003 [w32 mux] (decide (mux ≤ 3)) (recoverMux mux i { t with cpr.stuck := t.cpr.stuck.set mux true }) →
    exec (.switchStuckTimeout mux) s = .next (match servingQueue a 0x0C04 with
      | some qi => finishDeferred qi .ok [muxWord a mux] a
      | none => a)) ∧
  (∀ (p : Nat) (s : State), p < 8 →
    ((p < 4 ∨ p = 7) → exec (.pllUnlock p) s =
      .next (raiseFault 0x1005 [w32 p] true { s with cpr.pllLock := s.cpr.pllLock.set p false })) ∧
    (4 ≤ p → p ≠ 7 → exec (.pllUnlock p) s = .next { recoverMux p 1 (fault 0x1005 [w32 p] s) with
      cpr.cmux := (recoverMux p 1 (fault 0x1005 [w32 p] s)).cpr.cmux.set p 0 })) ∧
  (∀ (d : Nat) (ms : List Nat) (s a : State), d < 28 → (domainOf s d).state = .draining →
    a = ms.foldl (fun s m => emit (.completion m 2 [] []) s) (advanceAon ((domainOf s d).drainNs + 2000000) s) →
    (ms = [] → exec (.drainEnd d ms) s = .next (domainOff d 0 s)) ∧
    (ms ≠ [] → exec (.drainEnd d ms) s = .next (fault 0x1008 [w32 ms.length]
      { domainOff d ms.length a with cpr.drains := inc32 (domainOff d ms.length a).cpr.drains }))) ∧
  (∀ (d : Nat) (s : State), (domainOf s d).state = .powering →
    exec (.domainPowered d) s = .next (modDomain d (fun x => { x with state := .on, fenced := false }) s)) ∧
  (∀ (x y : Nat) (s : State), x < 14 → y < 14 → exec (.handshakeOverrun x y) s = .next (fault 0x1007 [w32 x, w32 y]
    { s with cpr.xing := s.cpr.xing.set y true, cpr.overruns := inc32 s.cpr.overruns })) ∧
  (∀ (dw : Nat) (s t a : State), t = advanceAon (s.cpr.powerNs + 1000000) s → t.cpr.sleep = 0 → t.cpr.entering = none →
    a = { t with cpr.power := min dw 4095, cpr.powerNs := t.cpr.aonNs } →
    (dw ≤ maxPower t.cpx.mode → exec (.powerWindow dw) s = .next { a with
      cpr.overWindows := 0, cpr.coolMs := if dw * 100 ≤ maxPower t.cpx.mode * 95 then t.cpr.coolMs + 1 else 0 }) ∧
    (maxPower t.cpx.mode < dw → t.cpr.overWindows = 0 → exec (.powerWindow dw) s = .next { a with
      cpr.overWindows := 1, cpr.coolMs := 0 }) ∧
    (maxPower t.cpx.mode < dw → 1 ≤ t.cpr.overWindows → stepRuns t 1 = false → stepRuns t 2 = false → exec (.powerWindow dw) s =
      .next (stepDown 1 (stepDown 2 { a with
        cpr.coolMs := 0, cpr.overWindows := 0, cpr.powerStop := true, cpr.stepDowns := inc32 t.cpr.stepDowns })))) ∧
  (∀ (s : State), s.cpr.powerStop = true → 1000 ≤ s.cpr.coolMs →
    exec .admissionResume s = .next { s with cpr.powerStop := false })

/-- The dispatcher's events complete with their effects. THREAD_POST of a descriptor in range creates, readies or merges its thread.
CORE_FREE_DISPATCH: a free core that may dispatch takes the chosen READY thread, which is RUNNING there with its wait counted. At
THREAD_COMPLETE, THREAD_YIELD and THREAD_BLOCK a run ends so. At RUN_BUDGET_OVERRUN a run past its budget is marked and logged. The rows:
THREAD_POST, CORE_FREE_DISPATCH, THREAD_COMPLETE, THREAD_YIELD, THREAD_BLOCK, RUN_BUDGET_OVERRUN. -/
def Obligations.DispatcherCompletes : Prop :=
  (∀ (n : Nat) (d : Desc) (s : State), descOk n d = true → exec (.threadPost n d) s = .next (threadPost n d s)) ∧
  (∀ (core n : Nat) (t : Thread) (s a : State), dispatchable s core = true → thas s.tds.running core = false →
    chooseThread s core = some (n, t) → a = traceRec 11 (if core < 16 then 1 else 2) (traceCore core) n (flowWord t.d)
      (t.prio + 64 * b1 t.raised + 128 * min ((nowNs (rollLoads s) - t.readyNs) / 1000) 511) (rollLoads s) →
    exec (.coreFreeDispatch core) s = .next (modLoad core (fun l =>
        { l with sumWait := l.sumWait + (nowNs (rollLoads s) - t.readyNs), dispatches := l.dispatches + 1 })
      (modThread n (fun t => { t with state := .running, core := core, startNs := nowNs a, raised := false })
        { a with tds.running := tset a.tds.running core n }))) ∧
  (∀ (core : Nat) (s : State), exec (.threadComplete core) s = .next (endRun core 0 s) ∧
    exec (.threadYield core) s = .next (endRun core 1 s) ∧ exec (.threadBlock core) s = .next (endRun core 2 s) ∧
    exec (.runBudgetOverrun core) s = .next (runOverrun core s))

/-- The sideband, training, flits, marks and trims of the host link complete with their effects. With the sideband on, POLL answers the
status, POWER_LOSS is acknowledged and starts a save 10 us later, TRAIN of a ready module enters lane synchronisation, BOOT answers its
command, and a CRC failure counts. In its state each training step goes on, or at its timeout falls back or abandons. On an active link a
flit is judged by its length, its CRC and its header; NAK, credits, a retrain and the frame marks take effect. A retrain that fails takes
the link down. A trim window moves the trim by its count; the firmware's handoff ends the boot stage and TRAIN_READY lets the link train.
The rows: POLL, SIDEBAND_CRC_FAIL, POWER_LOSS, TRAIN, BOOT, WAKE_PATTERN, LANE_SYMBOL_LOCK, LANE_SYNC_TIMEOUT, EQUALIZE_DONE,
FEC_ALIGNMENT_LOCK, CREDIT_INIT, FLIT_RECEIVED, FLIT_NAK, CREDIT_RETURN, LINK_RETRAIN, SOF_MISS, SOF_MARK, RETRAIN_FAILED,
AON_TRIM_WINDOW, TRAIN_READY_SET, HANDOFF_SET, SIDEBAND_PROTOCOL_START. -/
def Obligations.HostLinkCompletes : Prop :=
  (∀ (s : State), sidebandOn s = true → exec .poll s = .next (emit (.sideband 0x81 (sidebandStatus s)) s) ∧
    exec .sidebandCrcFail s = .next (hlpCount 8 1 s)) ∧
  (∀ (s : State), sidebandOn s = true → s.cpr.saving = false → exec .powerLoss s = .next (saveStart 1 (advanceTo (s.tsu.now + 10000 * 65536)
    (if inTraining (emit (.sideband 0x82 []) s)
      then abandonTraining (emit (.sideband 0x82 []) s) else emit (.sideband 0x82 []) s)))) ∧
  (∀ (p : Byte) (s a : State), sidebandOn s = true → s.hlp.trainReady = true → p.toNat / 2 % 4 ≠ 3 →
    a = (if s.hlp.link = .active then hlpCount 4 1 s else s) →
    exec (.train p) s = .next (wakeSource 0 (laneSync (emit (.sideband 0x83 []) { a with
      hlp.full := p.getLsbD 0, hlp.widest := p.toNat / 2 % 4, hlp.nrz := false, hlp.nrzTried := false, hlp.fecFails := 0
      hlp.retraining := decide (s.hlp.link = .active) || s.hlp.retraining })))) ∧
  (∀ (bytes : List Byte) (s : State), sidebandOn s = true → bytes.length ≤ 64 →
    (s.hlp.handoff = true → exec (.boot bytes) s = .next (settleReset (emit (.boot
      { opcode := (parsePacket bytes).opcode, tag := (parsePacket bytes).tag, status := .unavailable, words := [] }) s))) ∧
    (s.hlp.handoff = false → exec (.boot bytes) s = .next (settleReset (emit (.boot
      { opcode := (parsePacket bytes).opcode, tag := (parsePacket bytes).tag
        status := (bootServe (parsePacket bytes) s).1, words := (bootServe (parsePacket bytes) s).2.1 })
      (bootServe (parsePacket bytes) s).2.2)))) ∧
  (∀ (s : State), s.hlp.link ≠ .active → exec .wakePattern s = .next (wakeSource 1 s)) ∧
  (∀ (m : Nat) (s : State), s.hlp.link = .laneSync → (m % 16 ≠ 0 → exec (.laneSymbolLock m) s =
      .next { s with hlp.locked := m % 16, hlp.link := .equalize, hlp.stateNs := s.cpr.aonNs }) ∧
    exec .laneSyncTimeout s = .next (abandonTraining (trainTimeout 2 s))) ∧
  (∀ (good : Nat) (lanes : List Nat) (s a : State), s.hlp.link = .equalize →
    a = (if good &&& s.hlp.locked = s.hlp.locked then s else trainTimeout (if s.hlp.full then 40 else 2) s) →
    lanes = chooseWidth (good &&& s.hlp.locked) a.hlp.widest →
    (lanes = [] → exec (.equalizeDone good) s = .next (if a.hlp.full = false then { a with hlp.full := true, hlp.stateNs := a.cpr.aonNs }
      else if a.hlp.nrzTried = false then laneSync { a with hlp.nrz := true, hlp.nrzTried := true } else abandonTraining a)) ∧
    (lanes ≠ [] → ∃ t, t = { a with
        hlp.link := .fecLock, hlp.stateNs := a.cpr.aonNs, hlp.coeffs := true, hlp.chosen := (lanes.map fun i => 2 ^ i).sum
        hlp.width := if lanes.length = 4 then 3 else lanes.length } ∧
      exec (.equalizeDone good) s = .next (if lanes.length < 4 ∨ a.hlp.nrz = true then hlpFault 0x2002 t else t))) ∧
  (∀ (ok : Bool) (s : State), s.hlp.link = .fecLock →
    exec (.fecAlignmentLock ok) s = .next (if ok then { s with hlp.link := .creditInit, hlp.stateNs := s.cpr.aonNs }
      else fecFailed (trainTimeout 5 s))) ∧
  (∀ (cs : List Nat) (s : State), s.hlp.link = .creditInit → exec (.creditInit cs) s = .next (if cs.length = 6
    then linkActive (if s.hlp.retraining then s else creditInit cs s) else fecFailed (trainTimeout 1 s))) ∧
  (∀ (bytes : List Byte) (corrected : Nat) (s : State), s.hlp.link = .active →
    (bytes.length ≠ 256 → exec (.flitReceived ⟨corrected, bytes⟩) s = .next (codewordLost (hlpCount 0 corrected s))) ∧
    (bytes.length = 256 → bytesWord (bytes.drop 252) ≠ crc32c (bytes.take 252) →
      exec (.flitReceived ⟨corrected, bytes⟩) s = .next (sendNak (hlpCount 2 1 (hlpCount 0 corrected s)))) ∧
    (bytes.length = 256 → bytesWord (bytes.drop 252) = crc32c (bytes.take 252) →
      exec (.flitReceived ⟨corrected, bytes⟩) s = .next (goodFlit bytes (hlpCount 0 corrected s)))) ∧
  (∀ (n ch : Nat) (s : State), s.hlp.link = .active → exec (.flitNak n) s = .next (nakFlits (n % 4096) s) ∧
    (ch < 6 → exec (.creditReturn ch n) s = .next (addCredits ch n s)) ∧ exec .linkRetrain s = .next (retrain s) ∧
    exec .sofMiss s = .next (sofMissed s) ∧
    exec (.sofMark n) s = .next (if n < 3100 ∨ 3150 < n then sofMissed s else { s with
      hlp.sofMisses := 0, hlp.sofSeen := s.hlp.sofSeen + 1, cpr.trimHeld := s.cpr.trimHeld && decide (s.hlp.sofSeen + 1 < 2) })) ∧
  (∀ (s : State), s.hlp.retraining = true → inTraining s = true → exec .retrainFailed s = .next (linkDown s)) ∧
  (∀ (n : Nat) (s a : State), a = advanceAon (s.cpr.trimNs + 8000000) s → trimRef s ≠ 0 →
    (a.cpr.windowMissed = false ∨ trimRef s ≠ 2) →
    exec (.aonTrimWindow n) s = .next { a with
      cpr.windowMissed := false, cpr.trimNs := a.cpr.aonNs, cpr.aonRef := trimRef s
      cpr.aonTrim := clampInt (-128) 127 (a.cpr.aonTrim - clampInt (-16) 16 (((n : Int) - 200000).tdiv 5)) }) ∧
  (∀ (s : State), s.cpr.boot ≠ .rom → s.cpr.boot ≠ .romStopped → Reaches true 0x20100 s →
    exec .trainReadySet s = .next { s with hlp.trainReady := true } ∧
    (s.hlp.handoff = false → exec .handoffSet s = .next (applyPorts { s with
      hlp.handoff := true, cpr.bringNs := s.cpr.aonNs
      flash.attempts := if s.cpx.fwSlot = 1 then (0, s.flash.attempts.2) else (s.flash.attempts.1, 0) }))) ∧
  (∀ (s : State), s.hlp.link = .power → exec .sidebandProtocolStart s = .next { s with hlp.link := .sidebandUp })

/-- Power-up, boot, save and the power faults complete with their effects. Good input powers a module that is off and not held after an
aborted save. The charged bank gives its capacitance and arms the save; without it 400 ms after the input the hold-up has failed. The
crystal starts the PLLs or has failed. The boot ROM hands over to the first verified image or stops; the watchdog counts the attempt and
resets. The configuration is chosen and applied, the memory trained, and the module is ready in its boot mode. A sag, an overvoltage or an
overtemperature starts a save; the marker ends it, the bank's abort voltage ends the power, and the input's return for 100 ms restarts the
module. A fatal fault resets. The rows: INPUT_POWER_APPLIED, BANK_CHARGED, HOLDUP_CHARGE_TIMEOUT, CRYSTAL_STABLE, CRYSTAL_TIMEOUT,
BOOT_ROM_HANDOFF, BOOT_WATCHDOG, CONFIGURATION_CHOSEN, DRAM_TRAINED, MODULE_READY, INPUT_SAG, SAVE_MARKER_WRITTEN, BANK_ABORT_VOLTAGE,
INPUT_RETURN_HOLD, INPUT_OVERVOLTAGE, OVERTEMPERATURE_TRIP, FATAL_FAULT_RESET. -/
def Obligations.BringUpCompletes : Prop :=
  (∀ (dv : Nat) (s : State), s.cpr.powered = false → s.cpr.saveAborted = false → 440 ≤ dv → dv ≤ 600 →
    exec (.inputPowerApplied dv) s = .next (powerOn dv (powerOnCause s) s)) ∧
  (∀ (t c : Nat) (late : Bool) (s a : State), s.cpr.powered = true → s.cpr.capValid = false → c = min (t / 30) 65535 →
    a = advanceAon (t * 1000) s → late = (!a.cpr.holdDone && decide (400000000 < a.cpr.aonNs)) →
    exec (.bankCharged t) s = .next (holdupFaults { a with
      cpr.cap := c, cpr.capValid := true, cpr.bankV := 420, cpr.armed := !a.cpr.holdDone && !late && decide (1000 ≤ c)
      cpr.saveSize := if c < 1000 then 0 else permittedBytes c, cpr.holdDone := a.cpr.holdDone || late
      cpr.holdupFailed := a.cpr.holdupFailed || late || decide (c < 1000)
      cpr.holdupLow := a.cpr.holdupLow || decide (1000 ≤ c ∧ c < 2400) })) ∧
  (∀ (s : State), s.cpr.powered = true →
    (s.cpr.capValid = false → s.cpr.holdDone = false →
      exec .holdupChargeTimeout s = .next (holdupFaults
        { advanceAon 400000000 s with cpr.holdDone := true, cpr.holdupFailed := true })) ∧
    (s.cpr.crystalFailed = false →
      exec .crystalStable s = .next { s with cpr.crystal := true, cpr.pllLock := List.replicate 8 true }) ∧
    (s.cpr.crystal = false → s.cpr.crystalFailed = false →
      exec .crystalTimeout s = .next { advanceAon 20000000 s with
        cpr.crystalFailed := true, cpx.faultLast := 0x1006, cpx.hdrFault := s.cpx.hdrFault.set 1 0x1006 })) ∧
  (∀ (s : State), s.cpr.powered = true → s.cpr.crystal = true → s.cpr.boot = .rom →
    (((bootOrder s).1.find? fun n => (fwOf s n).hdr && imageVerified (fwOf s n).content) = none →
      exec .bootRomHandoff s = .next { s with cpr.boot := .romStopped }) ∧
    (∀ n, ((bootOrder s).1.find? fun n => (fwOf s n).hdr && imageVerified (fwOf s n).content) = some n →
      exec .bootRomHandoff s = .next (handOver n (bootOrder s).2 s))) ∧
  (∀ (s : State), s.hlp.handoff = false → s.cpr.boot ≠ .rom → s.cpr.boot ≠ .romStopped →
    exec .bootWatchdog s = .next (fullReset 5 { advanceAon (s.cpr.handNs + 5000000000) s with flash.attempts :=
      if s.cpx.fwSlot = 1 then (s.flash.attempts.1 + 1, s.flash.attempts.2) else (s.flash.attempts.1, s.flash.attempts.2 + 1) })) ∧
  (∀ (s : State), s.cpr.boot = .firmware →
    exec .configurationChosen s = .next (applyAtBoot { chooseConfig s with cpr.boot := .configured })) ∧
  (∀ (mask : Nat) (s : State), s.cpr.boot = .configured → exec (.dramTrained mask) s = .next { s with
    cpr.boot := .trained, mss.area := ((itemCommitted s 0x6001).getD 0 0).toNat
    mss.workFree := workingBytes ((itemCommitted s 0x6001).getD 0 0).toNat -
      ((List.range 8).map fun p => if p < 4 then 0 else poolSize p * (poolOf s p).count).sum
    mss.chans := s.mss.chans.mapIdx fun i c => { c with inService := decide ((mask >>> i) % 2 = 1) } }) ∧
  (∀ (s : State), s.cpx.ready = false → readyNow s = true → exec .moduleReady s = .next (evtPower 4
    [w32 ((readyMissing s).1 + 2 * (readyMissing s).2.1 + 4 * (readyMissing s).2.2)]
    (enterBootMode { advanceAon (readyDue s) s with cpx.ready := true }))) ∧
  (∀ (v : Nat) (s t : State), s.cpr.powered = true → drawBelow 400 s = (v, t) →
    exec .inputSag s = .next (saveStart 0 { t with cpr.volts := v, cpr.inputBack := false })) ∧
  (∀ (v : Nat) (s t : State), saveRuns s = true → drawBelow 121 s = (v, t) → exec .saveMarkerWritten s = .next
    (modSave (fun x => { x with
        marker := true, written := x.planned, mask := savedMask x.dir x.planned, volts := 300 + v
        durUs := (nowNs t - t.cpr.saveNs) / 1000 })
      { t with cpr.saveDone := true, cpr.bankV := 300 + v })) ∧
  (∀ (n : Nat) (s t : State), s.cpr.powered = true → s.cpr.saving = true → saveRuns s = true →
    drawBelow (s.flash.saves.getD (saveSlotOf (nextSave s - 1)) SaveSlot.reset).planned s = (n, t) →
    exec .bankAbortVoltage s = .next (powerOff true (modSave (fun x => { x with
      written := n, mask := savedMask x.dir n, volts := 300, durUs := (nowNs t - t.cpr.saveNs) / 1000 }) t))) ∧
  (∀ (s a : State), s.cpr.inputBack = true → a = advanceAon (s.cpr.backNs + 100000000) s →
    (s.cpr.powered = false → exec .inputReturnHold s = .next (powerOn s.cpr.volts 2 a)) ∧
    (s.cpr.powered = true → s.cpr.saveDone = true → exec .inputReturnHold s = .next (fullReset 8 a)) ∧
    (s.cpr.powered = true → s.cpr.saveDone = false → s.flash.lostDisarmed = true →
      exec .inputReturnHold s = .next (fullReset 3 a))) ∧
  (∀ (s : State), s.cpr.powered = true →
    exec .inputOvervoltage s = .next (saveStart 0 { s with cpr.switchOpen := true, cpr.inputBack := false }) ∧
    exec .overtemperatureTrip s =
      .next (saveStart 0 { s with cpr.switchOpen := true, cpr.overtemp := true, cpr.inputBack := false })) ∧
  (∀ (s : State), s.cpx.fatal = true → exec .fatalFaultReset s = .next (fatalReset s))

/-- A step takes the command at the front of the queue and is that command's effect on the state with the queue's rest. For every command
c and state s, the step of s with c at the front of its queue is exec of c on s with the queue's rest. First in, first out is the model's
queue of commands that wait to be presented. -/
def Obligations.StepRunsFront : Prop :=
  ∀ (c : Instr) (rest : List Instr) (s : State), step { s with pending := c :: rest } = exec c { s with pending := rest }

/-- On an empty queue a step is one tick of the time base (the model's choice, log 6). The step of a state whose queue is empty answers
next. With no slew in progress the time grows by the increment and the carry of the dither accumulator, modulo the range of TSU, the
always-on count by 2 ns, and nothing else changes. That an idle step is a tick is the model's choice (log 6). -/
def Obligations.IdleStepTicks : Prop :=
  ∀ s : State, s.pending = [] → s.tsu.slew = 0 →
    step s = .next { s with
      tsu.now := (s.tsu.now + s.tsu.incr + (s.tsu.acc + s.tsu.dither) / 65536) % tsuRange
      tsu.acc := (s.tsu.acc + s.tsu.dither) % 65536
      cpr.aonNs := s.cpr.aonNs + 2 }

/-- What the machine holds right after reset where the specification gives the value. The time state is UNSET and TSU counts from zero
with its nominal increment (R34, R369), the offset to UTC is 37 s (R370), the source priorities are 0, 1, 2 (R375), every protection
region is zero and memory holds nothing (R505), every event is subscribed and mirroring is off (R344), no sequence has been accepted on
any queue (R329), no leg, conference, key or buffer is in use, and no command waits. -/
def Obligations.ResetState : Prop :=
  let s := State.reset
  s.tsu.state = .unset ∧ s.tsu.now = 0 ∧ s.tsu.incr = 0x00020000 ∧ s.tsu.utcOff = 37 ∧ s.tsu.prio = [0, 1, 2] ∧
  s.mss.regions = List.replicate 256 Region.reset ∧ s.mss.dram = [] ∧ s.mss.locked = false ∧
  s.cpx.evMask = 0xFF ∧ s.cpx.mirror = false ∧ (∀ q ∈ s.cpx.queues, q.lastSeq = none ∧ q.sendSeq = 0 ∧ q.waiting = [] ∧ q.longOps = []) ∧
  s.fwe.legs = [] ∧ s.fwe.ledger = [] ∧ s.aue.confs = [] ∧ s.cpe.slots = [] ∧ s.bpm.bufs = [] ∧ s.pending = []

/-- Memory has its canonical form at reset. The DRAM of the state after reset is in canonical form: addresses strictly rising and no entry
equal to what an unlisted address reads as. -/
def Obligations.MemoryFormAtReset : Prop :=
  Memory.wf State.reset.mss.dram = true

/-- Every step of every command keeps the canonical form of memory. For every state whose DRAM is in canonical form (addresses strictly
rising, no entry of the value that an unlisted address reads as), if a step answers a next state then its DRAM is in canonical form. The
step may run any command of the table or idle. Equal memories are therefore equal data after any run, from any such state. -/
def Obligations.MemoryFormKept : Prop :=
  ∀ s t : State, Memory.wf s.mss.dram = true → step s = .next t → Memory.wf t.mss.dram = true

/-- A permitted write to memory stores its bytes and no others, and a read gives them back. A write request to memory that the protection
unit permits, that ends within its 2^41 bytes and is at a port in service, that need not follow an earlier request, and none of whose
channels pauses, is performed after what waited for the channels: the next state holds each byte of the request at its address, counted
from the request's address, every address outside reads as before, and buffers, legs, keys, conferences and time stay as they were. Over
memory in canonical form the bytes read back from the same address are the bytes written. When a channel of it pauses, the request joins
that channel's queue, at most 2,048 deep, and else waits behind, and memory stays as it was. -/
def Obligations.FabricWriteStores : Prop :=
  (∀ (r : FabReq) (s u : State), u = settleChannels s → r.master < 64 → r.target = 6 → r.write = true →
    permitted s r r.data.length = true → r.addr + r.data.length ≤ dramBytes → r.fenced = false → portDown s 6 r.inst = false →
    mustWait u ⟨u.mss.issued, nowNs u, r⟩ = false → pausedChannel u r = none → Memory.wf s.mss.dram = true →
    ∃ t, exec (.fabricRequest r) s = .next t ∧
      (∀ i, i < r.data.length → readCell t.mss.dram (r.addr + i) = r.data.getD i 0) ∧
      (∀ a, (a < r.addr ∨ r.addr + r.data.length ≤ a) → readCell t.mss.dram a = readCell u.mss.dram a) ∧
      readBytes t.mss.dram r.addr r.data.length = r.data ∧ t.bpm = u.bpm ∧ t.fwe = u.fwe ∧ t.cpe = u.cpe ∧ t.aue = u.aue ∧ t.tsu = u.tsu) ∧
  (∀ (r : FabReq) (ch : Nat) (s u : State), u = settleChannels s → r.master < 64 → r.target = 6 → r.write = true →
    permitted s r r.data.length = true → r.addr + r.data.length ≤ dramBytes → r.fenced = false → portDown s 6 r.inst = false →
    mustWait u ⟨u.mss.issued, nowNs u, r⟩ = false → pausedChannel u r = some ch →
    ((chanOf u ch).queue.length < 2048 → ch < u.mss.chans.length →
      ∃ t, exec (.fabricRequest r) s = .next t ∧ t.mss.dram = u.mss.dram ∧
        (chanOf t ch).queue = (chanOf u ch).queue ++ [⟨u.mss.issued, nowNs u, r⟩]) ∧
    (2048 ≤ (chanOf u ch).queue.length →
      ∃ t, exec (.fabricRequest r) s = .next t ∧ t.mss.dram = u.mss.dram ∧
        t.mss.behind = u.mss.behind ++ [⟨u.mss.issued, nowNs u, r⟩]))

/-- A request that no region grants changes no memory; a customer core that made it stops and is released. A request that the protection
unit denies leaves every part of the memory system as it is once what waited for the channels is served, its bytes and their parity
included, but for the count of requests issued, and the buffers, legs, keys and time base too. When a claimed customer core made it, the
core is released at once when no slot of a conference holds it, and else stands FAULTED with its slot to be detached; any other master
leaves the conferences and cores as they are. -/
def Obligations.DeniedRequestChangesNothing : Prop :=
  ∀ (r : FabReq) (s u : State), u = settleChannels s → r.master < 64 → r.target < 16 →
    (permitted s r (reqBytes r) = false ∨ (r.target = 6 ∧ dramBytes < r.addr + reqBytes r)) →
    ∃ t, exec (.fabricRequest r) s = .next t ∧ t.mss = { u.mss with issued := u.mss.issued + 1 } ∧ t.bpm = u.bpm ∧ t.fwe = u.fwe ∧ t.cpe = u.cpe ∧ t.tsu = u.tsu ∧
      ((r.master < 32 ∨ thas u.aue.cores (192 + r.master) = false) → t.aue = u.aue) ∧
      (∀ x, 32 ≤ r.master → tget u.aue.cores (192 + r.master) = some x →
        (x.attached = none → tget t.aue.cores (192 + r.master) = none) ∧
        (x.attached ≠ none → tget t.aue.cores (192 + r.master) =
          some { x with state := .faulted, lastFault := 0x6102, detach := true, inBlock := false }))

/-- A word stored poisoned fails every read of its burst until good data is written over it whole. After a permitted write to memory is
performed, a word of it stands with inverted parity exactly when it arrived poisoned, or stood so and was not written whole, and every
other word keeps its parity. A burst that holds a word of inverted parity is delivered with the word poisoned, counted and logged, with
its fault raised, and its parity stays; a DRAM read leaves the parity as it was; so the next read fails too. A permitted read of such a
word by a request is answered with status POISONED and the word in its mask. -/
def Obligations.PoisonedWriteReadsPoisoned : Prop :=
  (∀ (r : FabReq) (s u : State), u = settleChannels s → r.master < 64 → r.target = 6 → r.write = true →
    permitted s r r.data.length = true → r.addr + r.data.length ≤ dramBytes → r.fenced = false → portDown s 6 r.inst = false →
    mustWait u ⟨u.mss.issued, nowNs u, r⟩ = false → pausedChannel u r = none →
    ∃ t, exec (.fabricRequest r) s = .next t ∧
      (∀ i, i < wordsOf r.addr r.data.length → ((r.addr / 4 + i) ∈ t.mss.badParity ↔ (i ∈ r.poison ∨
        ((4 * (r.addr / 4 + i) < r.addr ∨ r.addr + r.data.length < 4 * (r.addr / 4 + i) + 4) ∧ (r.addr / 4 + i) ∈ u.mss.badParity)))) ∧
      (∀ w, (w < r.addr / 4 ∨ r.addr / 4 + wordsOf r.addr r.data.length ≤ w) → (w ∈ t.mss.badParity ↔ w ∈ u.mss.badParity))) ∧
  (∀ (line w : Nat) (bad : List (List Nat)) (s : State), w / 16 = line → w ∈ s.mss.badParity →
    w ∈ (readLine bad line s).1 ∧ (readLine bad line s).2 = poisonRead line s ∧ (poisonRead line s).mss.badParity = s.mss.badParity) ∧
  (∀ (addr n : Nat) (k : Traffic) (bad : List (List Nat)) (s : State), addr + 4 * n ≤ dramBytes →
    ∃ t, exec (.dramRead addr ⟨n, k⟩ bad) s = .next t ∧ t.mss.badParity = s.mss.badParity) ∧
  (∀ (r : FabReq) (s u : State) (i : Nat), u = settleChannels s → r.master < 64 → r.target = 6 → r.write = false →
    permitted s r r.len = true → r.addr + r.len ≤ dramBytes → r.fenced = false → portDown s 6 r.inst = false →
    mustWait u ⟨u.mss.issued, nowNs u, r⟩ = false → pausedChannel u r = none → i < wordsOf r.addr r.len →
    (r.addr / 4 + i) ∈ u.mss.badParity →
    ∃ t bs bad, exec (.fabricRequest r) s = .next t ∧ i ∈ bad ∧ Output.completion r.master 3 bs bad ∈ t.out ∧
      t.mss.badParity = u.mss.badParity)

/-- A command whose sequence is not later than the last accepted one is not executed. For a command presented with any opcode and any
meaning, when its sequence equals the last accepted one or is earlier, nothing of the module changes beyond the queues, the link, the
service Ethernet, the outputs that a reply passes through and the count of free values, and the last accepted sequence stands. -/
def Obligations.UnacceptedSequenceNotExecuted : Prop :=
  ∀ (op : Nat) (lens : Nat → Bool) (c : Cmd) (body : State → Res) (s : State),
    (seqCase (queueOf s (qiOf c)).lastSeq c.seq = .repeated ∨ seqCase (queueOf s (qiOf c)).lastSeq c.seq = .stale) →
    (queueOf s (qiOf c)).waiting = [] →
    SendsOnly s (serve op lens c s body) ∧ (queueOf (serve op lens c s body) (qiOf c)).lastSeq = (queueOf s (qiOf c)).lastSeq

/-- A command that a check refuses performs nothing. For a command presented with any opcode and any meaning to a queue with nothing
waiting, when a header check of R330 fails, or the command starts and its own checks refuse it, nothing of the module changes beyond the
queues, the link, the service Ethernet, the outputs that a reply passes through and the count of free values. -/
def Obligations.RefusedCommandHasNoEffect : Prop :=
  ∀ (op : Nat) (lens : Nat → Bool) (c : Cmd) (body : State → Res) (s : State), (queueOf s (qiOf c)).waiting = [] →
    ((firstFail (headerChecks lens c)).isSome = true ∨ ∃ st, body (begun c s) = .refuse st) →
    SendsOnly s (serve op lens c s body)

/-- With 64 long operations outstanding on its queue a further one performs nothing. For a command of any opcode that starts at once and
whose own checks pass as a long operation, when 64 are already outstanding on its queue, the reply is RESOURCE_BUSY and nothing is
performed: the module differs only in what a reply passes through. When fewer than 64 are outstanding it is answered ACCEPTED. -/
def Obligations.LongOperationLimit : Prop :=
  ∀ (op : Nat) (lens : Nat → Bool) (c : Cmd) (body : State → Res) (s u : State) (key : Nat), startsNow op lens c s = true →
    body (begun c s) = .accepted key u →
    (64 ≤ (queueOf (begun c s) (qiOf c)).longOps.length →
      serve op lens c s body = finish c op .resourceBusy [] (begun c s) ∧ SendsOnly s (serve op lens c s body)) ∧
    ((queueOf (begun c s) (qiOf c)).longOps.length < 64 →
      serve op lens c s body = answeredLong op c key u)

/-- A sequence up to 2^31 - 1 ahead is accepted, the same one is repeated, any other is stale. Under serial-number arithmetic modulo 2^32,
a sequence that lies n ahead of the last accepted one is accepted for n from 1 to 2^31 - 1, with a gap counted for every n but 1; n = 0 is
the repeated command; every other n is earlier, and stale. The first command after CREDIT_INIT is accepted whatever its sequence. -/
def Obligations.SerialNumberOrder : Prop :=
  (∀ (l : Word) (n : Nat), n < 2 ^ 32 →
    seqCase (some l) (l + BitVec.ofNat 32 n) =
      (if n = 0 then .repeated else if n < 2 ^ 31 then .accept (decide (n ≠ 1)) else .stale)) ∧
  (∀ q : Word, seqCase none q = .accept false)

/-- Only AUD and CTL requests draw on a pool's reserve. Each pool keeps 1/16 of its count, rounded down. An allocation that is not for AUD
or CTL lowers the free count of a pool only where it leaves at least the reserve; one for AUD or CTL is served by a pool that fits, up to
its fallback limit, while any buffer is free there, reserve included. -/
def Obligations.PoolReserve : Prop :=
  (∀ (n limit refs p : Nat) (s : State), p < 8 → (poolOf (bufAlloc n false limit refs s).2 p).free < (poolOf s p).free →
    (poolOf s p).count / 16 ≤ (poolOf (bufAlloc n false limit refs s).2 p).free) ∧
  (∀ (n limit refs p : Nat) (s : State), p < 8 → p ≤ limit → n ≤ poolSize p → 0 < (poolOf s p).free →
    (bufAlloc n true limit refs s).1.isSome = true)

/-- One repair packet follows each run of m protected packets, and none when the share is 0. With the share f of an entry's leg at pc
hundredths, m = max(2, floor((100 - pc) / pc)) = max(2, floor((1 - f) / f)). From the start of a run the first m - 1 protected packets
send nothing and are counted, with the longest kept; the next one starts a new run and hands one repair packet, in a buffer of its own and
protected by the leg's current key, to the leg's queue; where no buffer can be had the packet is dropped and counted for the leg (R82).
With f = 0 no repair packet is made. -/
def Obligations.FecRuns : Prop :=
  (∀ (i dest pc m : Nat) (f : Frame) (lens : List Nat) (s : State) (e : Entry), tget s.fwe.ledger i = some e → e.fec = true →
    pc = ((tget s.lgv.legs dest).map (·.fecPc)).getD 0 → pc ≠ 0 → m = max 2 ((100 - pc) / pc) → e.fecRun + lens.length < m →
    tget (lens.foldl (fun s n => fecStep i dest n f s) s).fwe.ledger i =
      some { e with fecRun := e.fecRun + lens.length, fecLen := lens.foldl max e.fecLen } ∧
    (lens.foldl (fun s n => fecStep i dest n f s) s).tsh = s.tsh ∧
    (lens.foldl (fun s n => fecStep i dest n f s) s).cpe = s.cpe ∧
    (lens.foldl (fun s n => fecStep i dest n f s) s).out = s.out) ∧
  (∀ (i dest len pc m k extra : Nat) (f : Frame) (s t : State) (e : Entry) (x : Stream), tget s.fwe.ledger i = some e → e.fec = true →
    pc = ((tget s.lgv.legs dest).map (·.fecPc)).getD 0 → pc ≠ 0 → m = max 2 ((100 - pc) / pc) → e.fecRun + 1 = m →
    x = (tget s.fwe.streams e.source).getD Stream.reset →
    egressProtect dest x.fecSsrc 0 false (max e.fecLen len + 20) (modEntry i (fun e => { e with fecRun := 0, fecLen := 0 }) s) =
      (some (k, extra), t) →
    (∀ (b : Nat) (u : State), bufAlloc (max e.fecLen len + 20 + extra) (decide (f.service ≤ 1)) 4 1 t = (some b, u) →
      fecStep i dest len f s = queueUdp { f with proto := .fec, ssrc := x.fecSsrc, pt := x.fecPt, buf := some b, slot := some k }
        (((tget t.fwe.legs dest).map (·.ipv6)).getD false) (max e.fecLen len + 20 + extra) u) ∧
    (∀ u : State, bufAlloc (max e.fecLen len + 20 + extra) (decide (f.service ≤ 1)) 4 1 t = (none, u) →
      fecStep i dest len f s = legDrops dest 1 u)) ∧
  (∀ (i dest : Nat) (f : Frame) (lens : List Nat) (s : State), lens ≠ [] → ((tget s.lgv.legs dest).map (·.fecPc)).getD 0 = 0 →
    lens.foldl (fun s n => fecStep i dest n f s) s = modEntry i (fun e => { e with fecRun := 0, fecLen := 0 }) s)

/-- A failed pause is discarded, the third in a row raises MEM_RETRAIN_FAILED, and the channel stays in service. A pause of a channel in
service whose margin is below the limit counts a pause and a discard and keeps its slot and its end; every other record of the channel and
its service stand as they are when the pause begins, and only the refresh rate, which R260 lets the temperature set, may differ. Three
such pauses in a row, from a row of none and with no request waiting, raise fault 0x6202 with the channel; the first two raise none, and
the channel is in service after the third. A pause that passes ends the row. -/
def Obligations.RetrainingDiscards : Prop :=
  (∀ (ch : Nat) (s a : State), ch < 16 → s.mss.chans.length = 16 → (chanOf s ch).inService = true → (chanOf s ch).selfRef = false →
    a = settleChannels (advanceTo (pauseStart s ch * 65536) s) →
    ∃ t d, exec (.retrainingPause ch false) s = .next t ∧ chanOf t ch = { chanOf a ch with
      doubled := d, lastSlot := some (pauseSlot s ch), openNs := pauseStart s ch + 600, pauses := inc32 (chanOf a ch).pauses, discards := inc32 (chanOf a ch).discards
      discRow := if 3 ≤ (chanOf a ch).discRow + 1 then 0 else (chanOf a ch).discRow + 1 }) ∧
  (∀ (ch : Nat) (s : State), ch < 16 → s.mss.chans.length = 16 → (chanOf s ch).inService = true → (chanOf s ch).selfRef = false →
    ∃ t, exec (.retrainingPause ch true) s = .next t ∧ (chanOf t ch).discRow = 0 ∧ (chanOf t ch).inService = true) ∧
  (∀ (ch : Nat) (s : State), ch < 16 → s.mss.chans.length = 16 → (chanOf s ch).inService = true → (chanOf s ch).selfRef = false →
    (chanOf s ch).discRow = 0 → (∀ k, k < 16 → (chanOf s k).queue = []) → s.mss.behind = [] →
    ∃ t u v w, exec (.retrainingPause ch false) s = .next t ∧ exec (.retrainingPause ch false) t = .next u ∧
      exec (.retrainingPause ch false) u = .next v ∧ t.cpx.faults = s.cpx.faults ∧ u.cpx.faults = s.cpx.faults ∧
      v = fault 0x6202 [w32 ch] w ∧ w.cpx.faults = s.cpx.faults ∧ (chanOf v ch).inService = true)

/-- Retiring the current egress slot zeroes it, and nothing of the leg leaves until a slot becomes CURRENT. After KEY_RETIRE of the slot
that a leg's egress pointer names, the slot's registers are zero, protection of any packet of the leg gives nothing, and no SRTP frame of
the leg waits in a queue. Retiring an EMPTY slot changes nothing. -/
def Obligations.RetiredKeyStopsEgress : Prop :=
  (∀ (leg k : Nat) (s : State), ptrSlot s leg 1 = k → k / 4 = leg → (slotOf s k).state ≠ .empty →
    slotOf (retireSlot k s) k = Slot.reset ∧
    (∀ (ssrc : Word) (seq : BitVec 16) (rtcp : Bool) (n : Nat),
      egressProtect leg ssrc seq rtcp n (retireSlot k s) = (none, retireSlot k s)) ∧
    (∀ q ∈ (retireSlot k s).tsh.queues, ∀ f ∈ q.2.frames, ¬ (f.leg = leg ∧ isSrtp f = true))) ∧
  (∀ (k : Nat) (s : State), (slotOf s k).state = .empty → retireSlot k s = s)

/-- A speaker's own contribution is absent from the mix-minus to the last bit. The mix-minus of row i, formed before any scaling, is the
sum that the same rows give under the same gains with row i's routing gain at zero, sample by sample, for any block length, rows and
gains. -/
def Obligations.MixMinusExact : Prop :=
  ∀ (n i : Nat) (rs : List Row) (act : List Bool) (g : Stage),
    (stageSum n rs act (some i) g).sum = (stageSum n rs act none { g with gains := g.gains.set i 0 }).sum

/-- A port serves the highest service that has an eligible head frame. When a port can take a frame it takes the head frame of a leg in
one service, in the order AUD, CTL, VID, REP, and no higher service has an eligible head frame. It takes none only while all egress is
stopped or no service has one. -/
def Obligations.PortServesHighestService : Prop :=
  (∀ (port t : Nat) (f : Frame) (s u : State), portPick port t s = some (f, u) →
    ∃ v, v < 4 ∧ (∃ h ∈ eligibleHeads s port v t, h.2.1 = f) ∧ ∀ w, w < v → eligibleHeads s port w t = []) ∧
  (∀ (port t : Nat) (s : State), portPick port t s = none →
    s.cti.egressStopped = true ∨ ∀ w, w < 4 → eligibleHeads s port w t = [])

/-- Every sample that leaves the scaled output stage lies in 24 bits, and the count is that of the saturated samples. For any block, scale
factor and place of its ramp, the output has one sample for each input sample, each is within the signed 24-bit range, and the samples
counted are at most the block's. -/
def Obligations.ScaledOutputRange : Prop :=
  ∀ (n left : Nat) (g : Stage) (xs : List Int),
    (scaleGo n g xs left).1.length = xs.length ∧ (∀ y ∈ (scaleGo n g xs left).1, -8388608 ≤ y ∧ y ≤ 8388607) ∧
    (scaleGo n g xs left).2 ≤ xs.length

/-- A fault folds into the entry of the same code and first parameter less than 1 s old, and else makes a new entry. The age is that of
the always-on count, whatever the entry's TSU time. Where the first entry that a fault folds into lies at place i of the log, its repeats
byte increments (it stays at 255), and beside the newest fault and the newest fault of the owning subsystem nothing else of the module
changes: no entry is made, the fault number stands and no event is raised. Where no entry of this power-up has the code, the parameter and
the age, the fault takes the time of its capture and the next number, is the newest of at most 1,000 entries, and its event is raised. -/
def Obligations.FaultFolding : Prop :=
  (∀ (code i : Nat) (params : List Word) (s : State) (e : FaultEntry), s.cpx.faults[i]? = some e → e.restored = false → e.code = code →
    e.params.getD 0 0 = params.getD 0 0 → s.cpr.aonNs < e.bornNs + 1000000000 →
    (∀ (j : Nat) (x : FaultEntry), j < i → s.cpx.faults[j]? = some x → x.restored = true ∨ x.code ≠ code ∨
      x.params.getD 0 0 ≠ params.getD 0 0 ∨ x.bornNs + 1000000000 ≤ s.cpr.aonNs) →
    fault code params s = { s with
      cpx.faultLast := code, cpx.hdrFault := s.cpx.hdrFault.set (code / 4096) code
      cpx.faults := s.cpx.faults.set i { e with repeats := min (e.repeats + 1) 255 } }) ∧
  (∀ (code now : Nat) (params : List Word) (s t : State), stamp s = (now, t) →
    (∀ x ∈ s.cpx.faults, x.restored = true ∨ x.code ≠ code ∨ x.params.getD 0 0 ≠ params.getD 0 0 ∨
      x.bornNs + 1000000000 ≤ s.cpr.aonNs) →
    ∃ e : FaultEntry, e.code = code ∧ e.params = params ∧ e.timeNs = now ∧ e.bornNs = s.cpr.aonNs ∧ e.repeats = 0 ∧ e.number = (s.cpx.faultNum + 1) % 2 ^ 32 ∧
      fault code params s = raiseEvent 0x8001 0 (faultWords e) { t with
        cpx.faultLast := code, cpx.hdrFault := s.cpx.hdrFault.set (code / 4096) code
        cpx.faultNum := e.number, cpx.faults := (e :: s.cpx.faults).take 1000 })

/-- A leg's service queues hold at most 64 AUD, 256 CTL, 4,096 VID and 1,024 REP frames. A frame that arrives at a full queue is dropped:
no queue changes, its buffer reference is released, and the drop is counted in the overflow count of its queue. A frame that arrives at
one with room is its queue's last frame, and no other queue changes. A leg's service that holds no more than its limit holds no more after
any arrival. -/
def Obligations.QueueLimits : Prop :=
  (∀ (f : Frame) (s : State), f.service < 4 → [64, 256, 4096, 1024].getD f.service 0 ≤ legDepth s f.leg f.service →
    queueFrame f s = bufReleaseOpt f.buf (modStats f.leg f.service f.port (fun q => { q with overflow := inc16 q.overflow }) s) ∧
    (queueFrame f s).tsh.queues = s.tsh.queues) ∧
  (∀ (f : Frame) (s : State), f.service < 4 → f.port < 15 → legDepth s f.leg f.service < [64, 256, 4096, 1024].getD f.service 0 →
    (frameQ (queueFrame f s) (qKey f.leg f.service f.port)).frames =
      (frameQ s (qKey f.leg f.service f.port)).frames ++ [{ f with queuedNs := s.cpr.aonNs, tags := portTags s f.port }] ∧
    (∀ k, k ≠ qKey f.leg f.service f.port → frameQ (queueFrame f s) k = frameQ s k) ∧ (queueFrame f s).bpm = s.bpm) ∧
  (∀ (f : Frame) (s : State) (leg service : Nat), f.service < 4 → f.port < 15 → service < 4 →
    legDepth s leg service ≤ [64, 256, 4096, 1024].getD service 0 →
    legDepth (queueFrame f s) leg service ≤ [64, 256, 4096, 1024].getD service 0)
end

