-- ==== Sys2Proof/Laws/Sends.lean ====
section
/-!
SUPPORT. What sending a reply or raising an event can touch: the control complex, the host link, the twin and service Ethernet, the
record of outputs, and the count of free values; nothing else. One lemma for each shared operation.
-/

namespace Sys2Proof.Machine

theorem SendsOnly.refl (s : State) : SendsOnly s s := rfl

theorem SendsOnly.trans {s t u : State} (h : SendsOnly s t) (k : SendsOnly t u) : SendsOnly s u := by
  unfold SendsOnly at *
  rw [k, h]

theorem modQueue_sends (qi : Nat) (f : CmdQ → CmdQ) (s : State) : SendsOnly s (modQueue qi f s) := rfl

theorem cpx_sends (x : Cpx) (s : State) : SendsOnly s { s with cpx := x } := rfl

theorem cti_sends (x : Cti) (s : State) : SendsOnly s { s with cti := x } := rfl

theorem emit_sends (o : Output) (s : State) : SendsOnly s (emit o s) := rfl

theorem sendFlits_sends (chan n : Nat) (s : State) : SendsOnly s (sendFlits chan n s) := by
  induction n generalizing s with
  | zero => rfl
  | succ n ih => exact SendsOnly.trans (t := { s with hlp := _ }) rfl (ih _)

theorem svcCount_sends (i : Nat) (s : State) : SendsOnly s (svcCount i s) := rfl

theorem svcDrain_sends (s : State) : SendsOnly s (svcDrain s) := by
  unfold svcDrain
  dsimp only
  split <;> rfl

theorem svcSpeedUp_sends (s : State) : SendsOnly s (svcSpeedUp s) := by
  unfold svcSpeedUp
  split <;> rfl

theorem svcPlace_sends (f : Frame) (s : State) : SendsOnly s (svcPlace f s) := by
  unfold svcPlace
  exact (cti_sends _ s).trans (svcSpeedUp_sends _)

theorem svcSend_sends (d : Addr) (n : Nat) (s : State) : SendsOnly s (svcSend d n s).2 := by
  unfold svcSend
  dsimp only
  split
  · exact (svcDrain_sends s).trans (svcCount_sends ..)
  · exact (svcDrain_sends s).trans (svcPlace_sends ..)

theorem sendBackup_sends (o : Output) (d : Option (Addr × Nat)) (p : Packet) (s : State) : SendsOnly s (sendBackup o d p s) := by
  unfold sendBackup
  split
  · rfl
  · dsimp only
    split
    · exact (svcSend_sends ..).trans (emit_sends ..)
    · exact svcSend_sends ..

theorem sendPacket_sends (qi : Nat) (d : Option (Addr × Nat)) (p : Packet) (s : State) : SendsOnly s (sendPacket qi d p s) := by
  unfold sendPacket
  dsimp only
  split
  · exact (modQueue_sends ..).trans ((sendFlits_sends ..).trans (emit_sends ..))
  · exact (modQueue_sends ..).trans (sendBackup_sends ..)

theorem pumpLink_sends (qi n : Nat) (s : State) : SendsOnly s (pumpLink qi n s) := by
  induction n generalizing s with
  | zero => rfl
  | succ n ih =>
    unfold pumpLink
    dsimp only
    split
    · rfl
    · split
      · exact (sendPacket_sends ..).trans ((modQueue_sends ..).trans (ih _))
      · split
        · exact (sendPacket_sends ..).trans ((modQueue_sends ..).trans (ih _))
        · rfl

theorem sendAll_sends (qi : Nat) (d : Option (Addr × Nat)) (ps : List Packet) (s : State) :
    SendsOnly s (ps.foldl (fun s p => sendPacket qi d p s) s) := by
  induction ps generalizing s with
  | nil => rfl
  | cons p ps ih => exact (sendPacket_sends ..).trans (ih _)

theorem pump_sends (qi : Nat) (s : State) : SendsOnly s (pump qi s) := by
  unfold pump
  dsimp only
  split
  · exact pumpLink_sends ..
  · exact (sendAll_sends ..).trans (modQueue_sends ..)

theorem storeEvent_sends (qi : Nat) (e : EvRec) (s : State) : SendsOnly s (storeEvent qi e s) :=
  (modQueue_sends ..).trans (pump_sends ..)

theorem sendBackupEvent_sends (q : Nat) (e : EvRec) (s : State) : SendsOnly s (sendBackupEvent q e s) := by
  unfold sendBackupEvent
  dsimp only
  split
  · rfl
  · exact (sendPacket_sends ..).trans (t := sendPacket _ _ _ s) rfl

/-- Raising an event touches no more than sending it does. -/
theorem raiseEvent_sends (code detail : Nat) (ws : List Word) (s : State) : SendsOnly s (raiseEvent code detail ws s) := by
  unfold raiseEvent
  split
  · rfl
  · dsimp only
    split
    · exact (modQueue_sends ..).trans ((storeEvent_sends ..).trans ((modQueue_sends ..).trans (sendBackupEvent_sends ..)))
    · exact (modQueue_sends ..).trans (storeEvent_sends ..)

theorem sendTwin_sends (kind : Nat) (ws : List Word) (s : State) : SendsOnly s (sendTwin kind ws s) := by
  unfold sendTwin
  dsimp only
  split <;> split <;> rfl

theorem capture_sends (s : State) : SendsOnly s (capture s).2 := rfl

theorem stamp_sends (s : State) : SendsOnly s (stamp s).2 := capture_sends s

theorem twinTrigger_sends (code : Nat) (s : State) : SendsOnly s (twinTrigger code s) := by
  unfold twinTrigger
  split
  · split
    · exact (cti_sends _ s).trans ((raiseEvent_sends ..).trans (sendTwin_sends ..))
    · exact raiseEvent_sends ..
  · rfl

/-- Raising a fault touches no more than sending its event does. -/
theorem raiseFault_sends (code : Nat) (ps : List Word) (fatal : Bool) (s : State) : SendsOnly s (raiseFault code ps fatal s) := by
  have h : ∀ a : State, SendsOnly s a → SendsOnly s (if fatal = true then fatalReaction a else a) := by
    intro a ha
    split
    · exact ha.trans ((cpx_sends _ a).trans (twinTrigger_sends ..))
    · exact ha
  unfold raiseFault
  dsimp only
  refine h _ ?_
  split
  · rfl
  · exact SendsOnly.trans (cpx_sends _ s) ((stamp_sends _).trans ((cpx_sends _ _).trans (raiseEvent_sends ..)))

theorem fault_sends (code : Nat) (ps : List Word) (s : State) : SendsOnly s (fault code ps s) := raiseFault_sends ..

theorem longDone_sends (qi op : Nat) (tag : Word) (st : Status) (ws : List Word) (s : State) :
    SendsOnly s (longDone qi op tag st ws s) := by
  unfold longDone
  dsimp only
  split
  · exact (modQueue_sends ..).trans (storeEvent_sends ..)
  · exact (modQueue_sends ..).trans (sendBackupEvent_sends ..)

theorem endLong_sends (op key : Nat) (st : Status) (ws : List Word) (s : State) : SendsOnly s (endLong op key st ws s) := by
  unfold endLong
  split
  · exact longDone_sends ..
  · rfl

theorem returnCredit_sends (qi : Nat) (s : State) : SendsOnly s (returnCredit qi s) := by
  unfold returnCredit
  split <;> rfl

theorem reply_sends (c : Cmd) (op : Nat) (st : Status) (ws : List Word) (s : State) : SendsOnly s (reply c op st ws s) := by
  unfold reply
  exact (modQueue_sends ..).trans ((returnCredit_sends ..).trans (pump_sends ..))

theorem replyUnaccepted_sends (c : Cmd) (op : Nat) (st : Status) (s : State) : SendsOnly s (replyUnaccepted c op st s) :=
  (reply_sends ..).trans (modQueue_sends ..)

theorem drainRefused_sends (qi : Nat) (ws : List QCmd) (s : State) : SendsOnly s (drainRefused qi ws s) := by
  induction ws generalizing s with
  | nil => rfl
  | cons w ws ih =>
    unfold drainRefused
    split
    · split
      · refine SendsOnly.trans ?_ (ih _)
        split
        · exact (modQueue_sends ..).trans (reply_sends ..)
        · exact (modQueue_sends ..).trans (replyUnaccepted_sends ..)
      · rfl
    · rfl

theorem finish_sends (c : Cmd) (op : Nat) (st : Status) (ws : List Word) (s : State) : SendsOnly s (finish c op st ws s) :=
  (reply_sends ..).trans (drainRefused_sends ..)

end Sys2Proof.Machine
end

