-- ==== Sys2Proof/Laws/Tables.lean ====
section
/-!
SUPPORT. The tables of State and its sparse byte memories: what a write leaves to read, and that every write keeps the canonical form.
-/

namespace Sys2Proof.Machine

/-! ### Tables -/

@[simp] theorem tget_nil {α : Type} (n : Nat) : tget ([] : Tbl α) n = none := rfl

@[simp] theorem tget_tset_self {α : Type} (t : Tbl α) (n : Nat) (a : α) : tget (tset t n a) n = some a := by
  induction t with
  | nil => simp [tset, tget]
  | cons e t ih =>
    obtain ⟨k, b⟩ := e
    unfold tset
    split
    · simp [tget]
    · split
      · simp [tget]
      · simp only [tget, ih]
        rw [if_neg (by omega)]

theorem tget_tset_ne {α : Type} (t : Tbl α) {n m : Nat} (a : α) (h : m ≠ n) : tget (tset t n a) m = tget t m := by
  induction t with
  | nil => simp [tset, tget, h.symm]
  | cons e t ih =>
    obtain ⟨k, b⟩ := e
    unfold tset
    split
    · simp [tget, h.symm]
    · split
      · subst_vars
        simp [tget, h.symm]
      · simp only [tget, ih]

/-- A read after a write of a table: the value written at its key, and what was there elsewhere. -/
theorem tget_tset {α : Type} (t : Tbl α) (n m : Nat) (a : α) : tget (tset t n a) m = if m = n then some a else tget t m := by
  split
  · subst_vars
    exact tget_tset_self ..
  · exact tget_tset_ne t a ‹_›

theorem tget_tmod {α : Type} (t : Tbl α) (n m : Nat) (f : α → α) :
    tget (tmod t n f) m = if m = n then (tget t m).map f else tget t m := by
  induction t with
  | nil => simp [tmod, tget]
  | cons e t ih =>
    obtain ⟨k, b⟩ := e
    simp only [tmod, List.map_cons] at ih ⊢
    by_cases h : k = n <;> by_cases g : k = m <;> by_cases j : m = n <;> simp_all [tget]

@[simp] theorem tget_terase_self {α : Type} (t : Tbl α) (n : Nat) : tget (terase t n) n = none := by
  induction t with
  | nil => rfl
  | cons e t ih =>
    obtain ⟨k, b⟩ := e
    by_cases h : k = n <;> simp_all [terase, tget]

theorem tget_terase_ne {α : Type} (t : Tbl α) {n m : Nat} (h : m ≠ n) : tget (terase t n) m = tget t m := by
  induction t with
  | nil => rfl
  | cons e t ih =>
    obtain ⟨k, b⟩ := e
    by_cases hk : k = n
    · subst hk
      simp_all [terase, tget, h.symm]
    · by_cases hm : k = m <;> simp_all [terase, tget]

/-! ### Bytes -/

/-- What the canonical form says of a list with a first cell. -/
theorem wf_cons {a : Nat} {b : Byte} {m : List Host.Cell} :
    Memory.wf ((a, b) :: m) = true ↔ b ≠ 0 ∧ (∀ c ∈ m.head?, a < c.1) ∧ Memory.wf m = true := by
  cases m with
  | nil => simp [Memory.wf]
  | cons c m => simp [Memory.wf, and_assoc]

/-- A write's first cell is the cell written or the list's first. -/
theorem writeCell_head (m : List Host.Cell) (a k : Nat) (b : Byte) (h : ∀ c ∈ m.head?, k < c.1) (ha : k < a) (w : Memory.wf m = true) :
    ∀ c ∈ (writeCell m a b).head?, k < c.1 := by
  cases m with
  | nil =>
    unfold writeCell
    split <;> simp_all
  | cons e m =>
    obtain ⟨j, x⟩ := e
    have hj : k < j := h (j, x) (by simp)
    have hm := (wf_cons.mp w).2.1
    unfold writeCell
    split
    · split <;> simp_all
    · split
      · split
        · intro c hc
          exact hj.trans (hm c hc)
        · simp_all
      · simp_all

/-- Writing a byte keeps the canonical form. -/
theorem writeCell_wf (m : List Host.Cell) (a : Nat) (b : Byte) (w : Memory.wf m = true) : Memory.wf (writeCell m a b) = true := by
  induction m with
  | nil =>
    unfold writeCell
    split <;> simp_all [Memory.wf]
  | cons e m ih =>
    obtain ⟨j, x⟩ := e
    obtain ⟨hx, hm, wm⟩ := wf_cons.mp w
    unfold writeCell
    split
    · split
      · exact w
      · exact wf_cons.mpr ⟨‹_›, by simpa using ‹a < j›, w⟩
    · split
      · subst_vars
        split
        · exact wm
        · exact wf_cons.mpr ⟨‹_›, hm, wm⟩
      · exact wf_cons.mpr ⟨hx, writeCell_head m a j b hm (by omega) wm, ih wm⟩

/-- Every write of bytes keeps the canonical form. -/
theorem writeBytes_wf (m : List Host.Cell) (a : Nat) (bs : List Byte) (w : Memory.wf m = true) :
    Memory.wf (writeBytes m a bs) = true := by
  induction bs generalizing m a with
  | nil => exact w
  | cons b bs ih => exact ih _ _ (writeCell_wf m a b w)

/-- Every write of a word keeps the canonical form. -/
theorem writeWord_wf (m : List Host.Cell) (a : Nat) (v : Word) (w : Memory.wf m = true) : Memory.wf (writeWord m a v) = true :=
  writeBytes_wf m a _ w

/-- Below its first cell a canonical list reads as unlisted. -/
theorem readCell_below (m : List Host.Cell) (a : Nat) (w : Memory.wf m = true) (h : ∀ c ∈ m.head?, a < c.1) : readCell m a = 0 := by
  induction m with
  | nil => rfl
  | cons e m ih =>
    obtain ⟨k, b⟩ := e
    obtain ⟨-, hm, wm⟩ := wf_cons.mp w
    have hk : a < k := h (k, b) (by simp)
    simp only [readCell]
    rw [if_neg (by omega)]
    exact ih wm fun c hc => hk.trans (hm c hc)

/-- A write leaves every other byte as it was. -/
theorem readCell_writeCell_ne (m : List Host.Cell) {a x : Nat} (b : Byte) (h : x ≠ a) : readCell (writeCell m a b) x = readCell m x := by
  induction m with
  | nil =>
    unfold writeCell
    split <;> simp [readCell, h.symm]
  | cons e m ih =>
    obtain ⟨k, c⟩ := e
    unfold writeCell
    split
    · split <;> simp [readCell, h.symm]
    · split
      · subst_vars
        split <;> simp [readCell, h.symm]
      · simp only [readCell, ih]

/-- A read after a write gives the byte written. -/
theorem readCell_writeCell_self (m : List Host.Cell) (a : Nat) (b : Byte) (w : Memory.wf m = true) : readCell (writeCell m a b) a = b := by
  induction m with
  | nil =>
    unfold writeCell
    split <;> simp_all [readCell]
  | cons e m ih =>
    obtain ⟨k, c⟩ := e
    obtain ⟨-, hm, wm⟩ := wf_cons.mp w
    unfold writeCell
    split
    · split
      · subst_vars
        exact readCell_below _ a w (by simpa using ‹a < k›)
      · simp [readCell]
    · split
      · subst_vars
        split
        · subst_vars
          exact readCell_below m _ wm hm
        · simp [readCell]
      · simp only [readCell]
        rw [if_neg (by omega)]
        exact ih wm

theorem readCell_writeBytes_out (m : List Host.Cell) (a x : Nat) (bs : List Byte) (h : x < a ∨ a + bs.length ≤ x) :
    readCell (writeBytes m a bs) x = readCell m x := by
  induction bs generalizing m a with
  | nil => rfl
  | cons b bs ih =>
    simp only [List.length_cons] at h
    exact (ih _ _ (by omega)).trans (readCell_writeCell_ne m b (by omega))

end Sys2Proof.Machine
end

