-- ==== Sys2Proof/Laws/Fabric.lean ====
section
/-!
SUPPORT. What a request of the fabric can touch, and what serving the channels' queues can: one lemma for each shared operation.
-/

namespace Sys2Proof.Machine

/-- t differs from s in no other part than those that a request of the fabric touches: the memory system, the count of free values, and
what a reply or an event touches on its way out. -/
def FabricOnly (s t : State) : Prop :=
  t = { s with mss := t.mss, free := t.free, cpx := t.cpx, hlp := t.hlp, cti := t.cti, out := t.out }

theorem FabricOnly.refl (s : State) : FabricOnly s s := rfl

theorem FabricOnly.trans {s t u : State} (h : FabricOnly s t) (k : FabricOnly t u) : FabricOnly s u := by
  unfold FabricOnly at *
  rw [k, h]

theorem SendsOnly.fabric {s t : State} (h : SendsOnly s t) : FabricOnly s t := by
  unfold SendsOnly at h
  unfold FabricOnly
  rw [h]

theorem SendsOnly.mss {s t : State} (h : SendsOnly s t) : t.mss = s.mss := by rw [h]

theorem SendsOnly.cpr {s t : State} (h : SendsOnly s t) : t.cpr = s.cpr := by rw [h]

theorem SendsOnly.tsu {s t : State} (h : SendsOnly s t) : t.tsu = s.tsu := by rw [h]

/-- A free value drawn advances the count alone. -/
theorem drawBelow_frame (n : Nat) (s : State) : (drawBelow n s).2 = { s with free := s.free + 1 } := rfl

theorem finishDeferred_sends (qi : Nat) (st : Status) (ws : List Word) (s : State) : SendsOnly s (finishDeferred qi st ws s) := by
  unfold finishDeferred
  split
  · exact finish_sends ..
  · rfl

theorem coreLoadPoisoned_sends (addr : Nat) (s : State) : SendsOnly s (coreLoadPoisoned addr s) := by
  unfold coreLoadPoisoned
  dsimp only
  split
  · exact (fault_sends ..).trans (finishDeferred_sends ..)
  · exact fault_sends ..

theorem recordBurst_fabric (cls ch n : Nat) (s : State) : FabricOnly s (recordBurst cls ch n s) := rfl

theorem recordLatency_fabric (s : State) : FabricOnly s (recordLatency s) := rfl

theorem recordTraffic_fabric (cls ch n : Nat) (s : State) : FabricOnly s (recordTraffic cls ch n s) := by
  unfold recordTraffic
  dsimp only
  split
  · exact (recordBurst_fabric ..).trans (recordLatency_fabric _)
  · exact recordBurst_fabric ..

/-- An engine's traffic is in the figures of its class and of its channels, and nowhere else. -/
theorem engineTraffic_fabric (t : Traffic) (n : Nat) (s : State) : FabricOnly s (engineTraffic t n s) := by
  unfold engineTraffic
  split
  · rfl
  · exact recordTraffic_fabric ..

theorem portWrite_fabric (r : FabReq) (a : Nat) (bs : List Byte) (s : State) : FabricOnly s (portWrite r a bs s) := by
  induction bs generalizing a s with
  | nil => rfl
  | cons b bs ih => exact FabricOnly.trans (t := { s with mss.portMem := _ }) rfl (ih ..)

theorem portRead_fabric (master target a n : Nat) (s : State) : FabricOnly s (portRead master target a n s).2 := by
  induction n generalizing a s with
  | zero => rfl
  | succ n ih =>
    unfold portRead
    split
    rename_i v t h
    have ht : FabricOnly s t := by
      split at h
      · split at h <;> cases h <;> rfl
      · cases h
        rfl
    exact ht.trans (ih ..)

theorem readLine_fabric (bad : List (List Nat)) (line : Nat) (s : State) : FabricOnly s (readLine bad line s).2 := by
  unfold readLine
  dsimp only
  split
  · rfl
  · split
    · rfl
    · exact FabricOnly.trans (t := modChan _ _ s) rfl (fault_sends ..).fabric

theorem readLines_fabric (bad : List (List Nat)) (ls : List Nat) (s : State) : FabricOnly s (readLines bad ls s).2 := by
  induction ls generalizing s with
  | nil => rfl
  | cons l ls ih => exact (readLine_fabric ..).trans (ih _)

theorem fold_fabric {α : Type} (f : State → α → State) (h : ∀ s a, FabricOnly s (f s a)) (l : List α) (s : State) :
    FabricOnly s (l.foldl f s) := by
  induction l generalizing s with
  | nil => rfl
  | cons a l ih => exact (h s a).trans (ih _)

theorem recordRequest_fabric (r : FabReq) (s : State) : FabricOnly s (recordRequest r s) := by
  have h := fold_fabric (fun s l => recordBurst (reqClass r) (channelOf (64 * l)) (lineBytes r l) s) (fun s l => recordBurst_fabric ..)
    (linesOf r.addr (reqBytes r)) s
  unfold recordRequest
  dsimp only
  split
  · exact h.trans (recordLatency_fabric _)
  · exact h

theorem readTarget_fabric (r : FabReq) (s : State) : FabricOnly s (readTarget r s).2.2 := by
  unfold readTarget
  split
  · exact (recordRequest_fabric r s).trans (readLines_fabric ..)
  · exact portRead_fabric ..

theorem writeTarget_fabric (r : FabReq) (s : State) : FabricOnly s (writeTarget r s) := by
  unfold writeTarget
  split
  · exact (recordRequest_fabric r s).trans (t := recordRequest r s) rfl
  · exact portWrite_fabric ..

/-- A request performed at its target touches no more than a fabric request may. -/
theorem performRequest_fabric (r : FabReq) (s : State) : FabricOnly s (performRequest r s) := by
  unfold performRequest
  split
  · exact (writeTarget_fabric r s).trans (emit_sends ..).fabric
  · have g := readTarget_fabric r s
    dsimp only
    split
    · exact g.trans ((emit_sends ..).fabric.trans (coreLoadPoisoned_sends ..).fabric)
    · exact g.trans (emit_sends ..).fabric

/-- A request at its target is answered, waits, or is performed: it touches no more than a fabric request may. -/
theorem serveRequest_fabric (x : HeldReq) (s : State) : FabricOnly s (serveRequest x s) := by
  unfold serveRequest
  dsimp only
  split
  · split
    · exact FabricOnly.trans (t := { s with mss.fenceDrop := _ }) rfl (emit_sends ..).fabric
    · exact (emit_sends ..).fabric
  · split
    · rfl
    · split
      · split <;> rfl
      · exact performRequest_fabric ..

theorem drainChannel_fabric (ch : Nat) (s : State) : FabricOnly s (drainChannel ch s) :=
  FabricOnly.trans (t := modChan ch _ s) rfl (fold_fabric _ (fun s r => performRequest_fabric r s) ..)

theorem settleChannel_fabric (ch : Nat) (s : State) : FabricOnly s (settleChannel ch s) := by
  unfold settleChannel
  split
  · rfl
  · exact drainChannel_fabric ..

theorem releaseBehind_fabric (s : State) : FabricOnly s (releaseBehind s) := by
  unfold releaseBehind
  refine fold_fabric _ (fun s x => ?_) ..
  exact FabricOnly.trans (t := { s with mss.behind := _ }) rfl (serveRequest_fabric x _)

/-- Serving what the channels' queues owe touches no more than a fabric request may. -/
theorem settleChannels_fabric (s : State) : FabricOnly s (settleChannels s) :=
  (fold_fabric _ (fun s ch => settleChannel_fabric ch s) ..).trans (releaseBehind_fabric _)

/-! ### Answers that are mirrored -/

theorem sendMirror_fabric (k i : Nat) (im : List Word) (s : State) : FabricOnly s (sendMirror k i im s) := by
  unfold sendMirror
  split
  · exact (engineTraffic_fabric ..).trans ((cti_sends ..).fabric.trans (sendTwin_sends ..).fabric)
  · rfl

theorem mirror_fabric (k i : Nat) (im : List Word) (s : State) : FabricOnly s (mirror k i im s) := by
  unfold mirror
  dsimp only
  split
  · split
    · exact sendMirror_fabric ..
    · rfl
  · split
    · exact (cti_sends _ s).fabric.trans (sendMirror_fabric ..)
    · rfl

theorem mirrorCmd_fabric (op : Nat) (c : Cmd) (ws : List Word) (s : State) : FabricOnly s (mirrorCmd op c ws s) := by
  unfold mirrorCmd
  split
  · rfl
  · exact mirror_fabric ..

/-- Answering a performed command touches no more than sending its reply and mirroring its objects do. -/
theorem answered_fabric (op : Nat) (c : Cmd) (ws : List Word) (s : State) : FabricOnly s (answered op c ws s) :=
  (mirrorCmd_fabric ..).trans (finish_sends ..).fabric

theorem answeredLong_fabric (op : Nat) (c : Cmd) (key : Nat) (s : State) : FabricOnly s (answeredLong op c key s) :=
  (mirrorCmd_fabric ..).trans ((modQueue_sends ..).trans (finish_sends ..)).fabric

theorem answeredLater_fabric (op : Nat) (c : Cmd) (s : State) : FabricOnly s (answeredLater op c s) :=
  (mirrorCmd_fabric ..).trans (modQueue_sends ..).fabric

/-! ### What requests leave of the memory system -/

/-- The regions, the pause in progress and the number of channels stand, and memory keeps its canonical form. -/
def MemKept (s t : State) : Prop :=
  t.mss.regions = s.mss.regions ∧ t.mss.pauseEnd = s.mss.pauseEnd ∧ t.mss.pauseCh = s.mss.pauseCh ∧
    t.mss.chans.length = s.mss.chans.length ∧ (Memory.wf s.mss.dram = true → Memory.wf t.mss.dram = true)

theorem MemKept.refl (s : State) : MemKept s s := ⟨rfl, rfl, rfl, rfl, id⟩

theorem MemKept.trans {s t u : State} (h : MemKept s t) (k : MemKept t u) : MemKept s u :=
  ⟨k.1.trans h.1, k.2.1.trans h.2.1, k.2.2.1.trans h.2.2.1, k.2.2.2.1.trans h.2.2.2.1, fun w => k.2.2.2.2 (h.2.2.2.2 w)⟩

theorem MemKept.of_mss {s t : State} (h : t.mss = s.mss) : MemKept s t := by
  unfold MemKept
  rw [h]
  exact MemKept.refl s

theorem SendsOnly.kept {s t : State} (h : SendsOnly s t) : MemKept s t := MemKept.of_mss h.mss

theorem modChan_kept (ch : Nat) (f : MemCh → MemCh) (s : State) : MemKept s (modChan ch f s) :=
  ⟨rfl, rfl, rfl, by simp [modChan], id⟩

theorem recordBurst_kept (cls ch n : Nat) (s : State) : MemKept s (recordBurst cls ch n s) := ⟨rfl, rfl, rfl, rfl, id⟩

theorem portWrite_kept (r : FabReq) (a : Nat) (bs : List Byte) (s : State) : MemKept s (portWrite r a bs s) := by
  induction bs generalizing a s with
  | nil => exact MemKept.refl s
  | cons b bs ih => exact MemKept.trans (t := { s with mss.portMem := _ }) ⟨rfl, rfl, rfl, rfl, id⟩ (ih ..)

theorem portRead_kept (master target a n : Nat) (s : State) : MemKept s (portRead master target a n s).2 := by
  induction n generalizing a s with
  | zero => exact MemKept.refl s
  | succ n ih =>
    unfold portRead
    split
    rename_i v t h
    have ht : MemKept s t := by
      split at h
      · split at h <;> cases h <;> exact MemKept.of_mss rfl
      · cases h
        exact MemKept.of_mss rfl
    exact ht.trans (ih ..)

theorem readLine_kept (bad : List (List Nat)) (line : Nat) (s : State) : MemKept s (readLine bad line s).2 := by
  unfold readLine
  dsimp only
  split
  · exact MemKept.refl s
  · split
    · exact modChan_kept ..
    · exact (modChan_kept (channelOf (64 * line)) _ s).trans (fault_sends ..).kept

theorem readLines_kept (bad : List (List Nat)) (ls : List Nat) (s : State) : MemKept s (readLines bad ls s).2 := by
  induction ls generalizing s with
  | nil => exact MemKept.refl s
  | cons l ls ih => exact (readLine_kept ..).trans (ih _)

theorem fold_kept {α : Type} (f : State → α → State) (h : ∀ s a, MemKept s (f s a)) (l : List α) (s : State) : MemKept s (l.foldl f s) := by
  induction l generalizing s with
  | nil => exact MemKept.refl s
  | cons a l ih => exact (h s a).trans (ih _)

theorem recordRequest_kept (r : FabReq) (s : State) : MemKept s (recordRequest r s) := by
  have h := fold_kept (fun s l => recordBurst (reqClass r) (channelOf (64 * l)) (lineBytes r l) s) (fun s l => recordBurst_kept ..)
    (linesOf r.addr (reqBytes r)) s
  unfold recordRequest
  dsimp only
  split
  · exact h.trans ⟨rfl, rfl, rfl, rfl, id⟩
  · exact h

/-- The bytes of a write keep the canonical form. -/
theorem memWrite_kept (r : FabReq) (s : State) : MemKept s (memWrite r s) := ⟨rfl, rfl, rfl, rfl, writeBytes_wf s.mss.dram r.addr r.data⟩

theorem readTarget_kept (r : FabReq) (s : State) : MemKept s (readTarget r s).2.2 := by
  unfold readTarget
  split
  · exact (recordRequest_kept r s).trans (readLines_kept ..)
  · exact portRead_kept ..

theorem writeTarget_kept (r : FabReq) (s : State) : MemKept s (writeTarget r s) := by
  unfold writeTarget
  split
  · exact (recordRequest_kept r s).trans (memWrite_kept ..)
  · exact portWrite_kept ..

theorem performRequest_kept (r : FabReq) (s : State) : MemKept s (performRequest r s) := by
  unfold performRequest
  split
  · exact (writeTarget_kept r s).trans (emit_sends ..).kept
  · have g := readTarget_kept r s
    dsimp only
    split
    · exact g.trans ((emit_sends ..).kept.trans (coreLoadPoisoned_sends ..).kept)
    · exact g.trans (emit_sends ..).kept

theorem serveRequest_kept (x : HeldReq) (s : State) : MemKept s (serveRequest x s) := by
  unfold serveRequest
  dsimp only
  split
  · split
    · exact MemKept.trans (t := { s with mss.fenceDrop := _ }) ⟨rfl, rfl, rfl, rfl, id⟩ (emit_sends ..).kept
    · exact (emit_sends ..).kept
  · split
    · exact ⟨rfl, rfl, rfl, rfl, id⟩
    · split
      · split
        · exact modChan_kept ..
        · exact ⟨rfl, rfl, rfl, rfl, id⟩
      · exact performRequest_kept ..

theorem drainChannel_kept (ch : Nat) (s : State) : MemKept s (drainChannel ch s) :=
  (modChan_kept ch _ s).trans (fold_kept _ (fun s r => performRequest_kept r s) ..)

theorem settleChannel_kept (ch : Nat) (s : State) : MemKept s (settleChannel ch s) := by
  unfold settleChannel
  split
  · exact MemKept.refl s
  · exact drainChannel_kept ..

theorem releaseBehind_kept (s : State) : MemKept s (releaseBehind s) := by
  unfold releaseBehind
  refine fold_kept _ (fun s x => ?_) ..
  exact MemKept.trans (t := { s with mss.behind := _ }) ⟨rfl, rfl, rfl, rfl, id⟩ (serveRequest_kept x _)

/-- Serving what the channels' queues owe keeps the regions, the pause, and the canonical form of memory. -/
theorem settleChannels_kept (s : State) : MemKept s (settleChannels s) :=
  (fold_kept _ (fun s ch => settleChannel_kept ch s) ..).trans (releaseBehind_kept _)

theorem settleChannel_idle (ch : Nat) (s : State) (h : (chanOf s ch).queue = []) : settleChannel ch s = s := by
  unfold settleChannel
  simp [h]

/-- Where no request waits for a channel and none at its requester, serving the channels' queues changes nothing. -/
theorem settleChannels_idle (s : State) (h : ∀ k, k < 16 → (chanOf s k).queue = []) (hb : s.mss.behind = []) : settleChannels s = s := by
  have : ∀ l : List Nat, (∀ k ∈ l, k < 16) → l.foldl (fun s ch => settleChannel ch s) s = s := by
    intro l
    induction l with
    | nil => exact fun _ => rfl
    | cons k l ih =>
      intro hl
      rw [List.foldl_cons, settleChannel_idle k s (h k (hl k (by simp)))]
      exact ih fun j hj => hl j (by simp [hj])
  unfold settleChannels
  rw [this _ fun k hk => List.mem_range.mp hk, releaseBehind, hb, List.foldl_nil]

/-- The protection unit judges a request alike after the channels' queues are served. -/
theorem settleChannels_permitted (r : FabReq) (s : State) : permittedRequest (settleChannels s) r = permittedRequest s r := by
  unfold permittedRequest permitted
  rw [(settleChannels_kept s).1]

/-- A port is down alike after the channels' queues are served. -/
theorem settleChannels_portDown (sub inst : Nat) (s : State) : portDown (settleChannels s) sub inst = portDown s sub inst := by
  have h : (settleChannels s).cpr = s.cpr := by rw [settleChannels_fabric s]
  unfold portDown subDown domainDown domainOf
  rw [h]

end Sys2Proof.Machine
end

