-- ==== Sys2Proof/Laws/Queues.lean ====
section
/-!
SUPPORT. What an allocation of a buffer and the arrival of a frame at its queue can do: one lemma for each shared operation.
-/

namespace Sys2Proof.Machine

/-- The smallest pool whose buffers hold n bytes; 8 when none does. -/
def wantedPool (n : Nat) : Nat := ((List.range 8).find? fun p => n ≤ poolSize p).getD 8

/-- An allocation finds no pool that serves it, which counts, or takes a buffer of the first that does. -/
theorem bufAlloc_cases (n : Nat) (urgent : Bool) (limit refs : Nat) (s : State) :
    ((∀ p, p < 8 → wantedPool n ≤ p → p ≤ limit → poolServes (poolOf s p) urgent = false) ∧
      bufAlloc n urgent limit refs s = (none, modPool (wantedPool n) (fun x => { x with exhaust := inc32 x.exhaust }) s)) ∨
    (∃ p k, p < 8 ∧ wantedPool n ≤ p ∧ p ≤ limit ∧ poolServes (poolOf s p) urgent = true ∧ k = tfree s.bpm.bufs (bufKey p 0) ∧
      (bufAlloc n urgent limit refs s).1 = some k ∧
      (bufAlloc n urgent limit refs s).2.bpm.bufs = tset s.bpm.bufs k { Buf.reset with pool := p, refs := refs } ∧
      (bufAlloc n urgent limit refs s).2.bpm.pools = s.bpm.pools.modify p (fun x =>
        { setFree s.cpr.aonNs (x.free - 1) x with
          fallbacks := if p = wantedPool n then x.fallbacks else inc32 x.fallbacks
          reserve := if x.free ≤ x.count / 16 then inc32 x.reserve else x.reserve }) ∧
      FabricOnly s { (bufAlloc n urgent limit refs s).2 with bpm := s.bpm }) := by
  unfold bufAlloc
  cases h : (List.range 8).find? fun p => wantedPool n ≤ p ∧ p ≤ limit ∧ poolServes (poolOf s p) urgent with
  | none =>
    refine .inl ⟨fun p hp hw hl => ?_, ?_⟩
    · have := List.find?_eq_none.mp h p (List.mem_range.mpr hp)
      simp only [hw, hl, true_and, decide_eq_true_eq] at this
      simpa using this
    · delta wantedPool at h
      dsimp only
      rw [h]
      rfl
  | some p =>
    have hp := List.mem_range.mp (List.mem_of_find?_eq_some h)
    have hs := List.find?_some h
    simp only [decide_eq_true_eq] at hs
    delta wantedPool at h
    refine .inr ⟨p, _, hp, hs.1, hs.2.1, hs.2.2, rfl, ?_⟩
    dsimp only
    rw [h]
    dsimp only
    have g := engineTraffic_fabric .packetBuffer n
    by_cases h4 : p = 4
    · rw [if_pos h4]
      refine ⟨rfl, ?_, ?_, ?_⟩
      · rw [g _]; rfl
      · rw [g _]; rfl
      · unfold FabricOnly; dsimp only; rw [g _]; rfl
    · rw [if_neg h4]
      exact ⟨rfl, rfl, rfl, rfl⟩

/-- A frame that arrives at its queue is dropped and counted when its leg's service is full, and else stands at the queue's end. -/
theorem queueFrame_cases (f : Frame) (s : State) :
    (queueLimit f.service ≤ legDepth s f.leg f.service ∧
      queueFrame f s = bufReleaseOpt f.buf (modStats f.leg f.service f.port (fun q => { q with overflow := inc16 q.overflow }) s)) ∨
    (legDepth s f.leg f.service < queueLimit f.service ∧
      queueFrame f s = putQ (qKey f.leg f.service f.port)
        ((frameQ s (qKey f.leg f.service f.port)).frames ++ [{ f with queuedNs := s.cpr.aonNs, tags := portTags s f.port }])
        (frameQ s (qKey f.leg f.service f.port)).deficit s) := by
  unfold queueFrame
  split
  · exact .inl ⟨‹_›, rfl⟩
  · exact .inr ⟨Nat.lt_of_not_le ‹_›, rfl⟩

/-- Queues have keys of their own. -/
theorem qKey_inj {l l' v v' p p' : Nat} (hv : v < 4) (hv' : v' < 4) (hp : p < 16) (hp' : p' < 16) (h : qKey l v p = qKey l' v' p') :
    l = l' ∧ v = v' ∧ p = p' := by
  unfold qKey at h
  omega

/-- The queue that an update of the queues writes, when it leaves frames in it. -/
theorem frameQ_putQ_self (k : Nat) (fs : List Frame) (d : Nat) (s : State) (h : fs ≠ []) : frameQ (putQ k fs d s) k = ⟨fs, d⟩ := by
  have hf : fs.isEmpty = false := by simpa using h
  simp [frameQ, putQ, hf]

/-- The queues that an update of the queues does not write. -/
theorem frameQ_putQ_ne (k j : Nat) (fs : List Frame) (d : Nat) (s : State) (h : j ≠ k) : frameQ (putQ k fs d s) j = frameQ s j := by
  unfold frameQ putQ
  split
  · simp only [tget_terase_ne _ h]
  · simp only [tget_tset_ne _ _ h]

end Sys2Proof.Machine
end

