-- ==== Sys2Proof/Laws/Serve.lean ====
section
/-!
SUPPORT. What a host command does when it starts at once: one lemma for each way its body can answer, and what the state it
starts in keeps.
-/

namespace Sys2Proof.Machine

theorem takeCredit_cpx (qi : Nat) (s : State) : (takeCredit qi s).cpx = s.cpx := by
  unfold takeCredit
  split <;> rfl

theorem takeCredit_cpr (qi : Nat) (s : State) : (takeCredit qi s).cpr = s.cpr := by
  unfold takeCredit
  split <;> rfl

/-- Taking the credit and accepting the sequence touch the command's queue and the link's credits alone. -/
theorem begun_frame (c : Cmd) (s : State) :
    begun c s = { s with cpx.queues := (begun c s).cpx.queues, hlp.rxCredits := (begun c s).hlp.rxCredits } := by
  unfold begun
  split
  · unfold takeCredit acceptSeq modQueue
    split <;> rfl
  · rfl

theorem begun_subDown (c : Cmd) (s : State) (n : Nat) : subDown (begun c s) n = subDown s n := by
  have h : (begun c s).cpr = s.cpr := by rw [begun_frame]
  unfold subDown domainDown domainOf
  rw [h]

/-- A command that starts at once runs its body in the state begun. -/
theorem serve_begun {op : Nat} {lens : Nat → Bool} {c : Cmd} {s : State} (body : State → Res) (h : startsNow op lens c s = true) :
    serve op lens c s body = start op lens c body (begun c s) := by
  simp only [startsNow, Bool.and_eq_true, List.isEmpty_iff] at h
  obtain ⟨⟨⟨⟨⟨hp, hc⟩, hw⟩, hs⟩, -⟩, -⟩ := h
  unfold serve begun
  simp only [hp, hc, hw]
  cases h : seqCase (queueOf s (qiOf c)).lastSeq c.seq <;> simp_all

theorem start_ready {op : Nat} {lens : Nat → Bool} {c : Cmd} {s : State} (h : startsNow op lens c s = true) :
    firstFail (headerChecks lens c) = none ∧ ¬ (opSub op ≠ 0 ∧ subDown (begun c s) (opSub op) = true) := by
  simp only [startsNow, Bool.and_eq_true, Option.isNone_iff_eq_none] at h
  obtain ⟨⟨-, hh⟩, hd⟩ := h
  refine ⟨hh, ?_⟩
  rw [begun_subDown]
  cases e : subDown s (opSub op) <;> simp_all

/-- A command performed is answered OK. -/
theorem serve_done {op : Nat} {lens : Nat → Bool} {c : Cmd} {s s' : State} {ws : List Word} {body : State → Res}
    (h : startsNow op lens c s = true) (hb : body (begun c s) = .done ws s') :
    serve op lens c s body = answered op c ws s' := by
  obtain ⟨hh, hd⟩ := start_ready h
  rw [serve_begun body h]
  simp only [start, hh, hb, if_neg hd]

/-- A long operation started is answered ACCEPTED, unless its queue already holds 64. -/
theorem serve_accepted {op : Nat} {lens : Nat → Bool} {c : Cmd} {s s' : State} {key : Nat} {body : State → Res}
    (h : startsNow op lens c s = true) (hb : body (begun c s) = .accepted key s')
    (hl : (queueOf (begun c s) (qiOf c)).longOps.length < 64) :
    serve op lens c s body = answeredLong op c key s' := by
  obtain ⟨hh, hd⟩ := start_ready h
  rw [serve_begun body h]
  simp only [start, hh, hb, if_neg hd, if_neg (Nat.not_le.mpr hl)]

/-- A command whose reply comes later stays in service. -/
theorem serve_deferred {op : Nat} {lens : Nat → Bool} {c : Cmd} {s s' : State} {body : State → Res}
    (h : startsNow op lens c s = true) (hb : body (begun c s) = .deferred s') :
    serve op lens c s body = answeredLater op c s' := by
  obtain ⟨hh, hd⟩ := start_ready h
  rw [serve_begun body h]
  simp only [start, hh, hb, if_neg hd]

/-- A command whose own checks refuse it is answered with that status. -/
theorem serve_refuse {op : Nat} {lens : Nat → Bool} {c : Cmd} {s : State} {st : Status} {body : State → Res}
    (h : startsNow op lens c s = true) (hb : body (begun c s) = .refuse st) :
    serve op lens c s body = finish c op st [] (begun c s) := by
  obtain ⟨hh, -⟩ := start_ready h
  rw [serve_begun body h]
  simp only [start, hh, hb]

end Sys2Proof.Machine
end

