-- ==== Sys2Proof/Laws/State.lean ====
section
/-!
SUPPORT. What each shared update of State leaves alone: one lemma for each part of State that it does not change, and one for the part that
it does.
-/

namespace Sys2Proof.Machine

@[simp] theorem modConf_aue (k : Nat) (f : Conf → Conf) (s : State) :
    (modConf k f s).aue = { s.aue with confs := tmod s.aue.confs k f } := rfl
@[simp] theorem modConf_cpx (k : Nat) (f : Conf → Conf) (s : State) : (modConf k f s).cpx = s.cpx := rfl
@[simp] theorem modConf_flash (k : Nat) (f : Conf → Conf) (s : State) : (modConf k f s).flash = s.flash := rfl
@[simp] theorem modConf_cpr (k : Nat) (f : Conf → Conf) (s : State) : (modConf k f s).cpr = s.cpr := rfl
@[simp] theorem modConf_hlp (k : Nat) (f : Conf → Conf) (s : State) : (modConf k f s).hlp = s.hlp := rfl
@[simp] theorem modConf_ptu (k : Nat) (f : Conf → Conf) (s : State) : (modConf k f s).ptu = s.ptu := rfl
@[simp] theorem modConf_cti (k : Nat) (f : Conf → Conf) (s : State) : (modConf k f s).cti = s.cti := rfl
@[simp] theorem modConf_tsu (k : Nat) (f : Conf → Conf) (s : State) : (modConf k f s).tsu = s.tsu := rfl
@[simp] theorem modConf_mss (k : Nat) (f : Conf → Conf) (s : State) : (modConf k f s).mss = s.mss := rfl
@[simp] theorem modConf_bpm (k : Nat) (f : Conf → Conf) (s : State) : (modConf k f s).bpm = s.bpm := rfl
@[simp] theorem modConf_fwe (k : Nat) (f : Conf → Conf) (s : State) : (modConf k f s).fwe = s.fwe := rfl
@[simp] theorem modConf_cpe (k : Nat) (f : Conf → Conf) (s : State) : (modConf k f s).cpe = s.cpe := rfl
@[simp] theorem modConf_tsh (k : Nat) (f : Conf → Conf) (s : State) : (modConf k f s).tsh = s.tsh := rfl
@[simp] theorem modConf_tds (k : Nat) (f : Conf → Conf) (s : State) : (modConf k f s).tds = s.tds := rfl
@[simp] theorem modConf_vca (k : Nat) (f : Conf → Conf) (s : State) : (modConf k f s).vca = s.vca := rfl
@[simp] theorem modConf_lco (k : Nat) (f : Conf → Conf) (s : State) : (modConf k f s).lco = s.lco := rfl
@[simp] theorem modConf_lgv (k : Nat) (f : Conf → Conf) (s : State) : (modConf k f s).lgv = s.lgv := rfl
@[simp] theorem modConf_out (k : Nat) (f : Conf → Conf) (s : State) : (modConf k f s).out = s.out := rfl
@[simp] theorem modConf_free (k : Nat) (f : Conf → Conf) (s : State) : (modConf k f s).free = s.free := rfl
@[simp] theorem modConf_pending (k : Nat) (f : Conf → Conf) (s : State) : (modConf k f s).pending = s.pending := rfl

@[simp] theorem modPool_bpm (p : Nat) (f : Pool → Pool) (s : State) :
    (modPool p f s).bpm = { s.bpm with pools := s.bpm.pools.modify p f } := rfl
@[simp] theorem modPool_cpx (p : Nat) (f : Pool → Pool) (s : State) : (modPool p f s).cpx = s.cpx := rfl
@[simp] theorem modPool_flash (p : Nat) (f : Pool → Pool) (s : State) : (modPool p f s).flash = s.flash := rfl
@[simp] theorem modPool_cpr (p : Nat) (f : Pool → Pool) (s : State) : (modPool p f s).cpr = s.cpr := rfl
@[simp] theorem modPool_hlp (p : Nat) (f : Pool → Pool) (s : State) : (modPool p f s).hlp = s.hlp := rfl
@[simp] theorem modPool_ptu (p : Nat) (f : Pool → Pool) (s : State) : (modPool p f s).ptu = s.ptu := rfl
@[simp] theorem modPool_cti (p : Nat) (f : Pool → Pool) (s : State) : (modPool p f s).cti = s.cti := rfl
@[simp] theorem modPool_tsu (p : Nat) (f : Pool → Pool) (s : State) : (modPool p f s).tsu = s.tsu := rfl
@[simp] theorem modPool_mss (p : Nat) (f : Pool → Pool) (s : State) : (modPool p f s).mss = s.mss := rfl
@[simp] theorem modPool_fwe (p : Nat) (f : Pool → Pool) (s : State) : (modPool p f s).fwe = s.fwe := rfl
@[simp] theorem modPool_cpe (p : Nat) (f : Pool → Pool) (s : State) : (modPool p f s).cpe = s.cpe := rfl
@[simp] theorem modPool_tsh (p : Nat) (f : Pool → Pool) (s : State) : (modPool p f s).tsh = s.tsh := rfl
@[simp] theorem modPool_tds (p : Nat) (f : Pool → Pool) (s : State) : (modPool p f s).tds = s.tds := rfl
@[simp] theorem modPool_aue (p : Nat) (f : Pool → Pool) (s : State) : (modPool p f s).aue = s.aue := rfl
@[simp] theorem modPool_vca (p : Nat) (f : Pool → Pool) (s : State) : (modPool p f s).vca = s.vca := rfl
@[simp] theorem modPool_lco (p : Nat) (f : Pool → Pool) (s : State) : (modPool p f s).lco = s.lco := rfl
@[simp] theorem modPool_lgv (p : Nat) (f : Pool → Pool) (s : State) : (modPool p f s).lgv = s.lgv := rfl
@[simp] theorem modPool_out (p : Nat) (f : Pool → Pool) (s : State) : (modPool p f s).out = s.out := rfl
@[simp] theorem modPool_free (p : Nat) (f : Pool → Pool) (s : State) : (modPool p f s).free = s.free := rfl
@[simp] theorem modPool_pending (p : Nat) (f : Pool → Pool) (s : State) : (modPool p f s).pending = s.pending := rfl

@[simp] theorem countReleased_bpm (sub n : Nat) (s : State) :
    (countReleased sub n s).bpm = { s.bpm with blockDrops := s.bpm.blockDrops.modify sub fun c => inc32 c n } := rfl
@[simp] theorem countReleased_cpx (sub n : Nat) (s : State) : (countReleased sub n s).cpx = s.cpx := rfl
@[simp] theorem countReleased_flash (sub n : Nat) (s : State) : (countReleased sub n s).flash = s.flash := rfl
@[simp] theorem countReleased_cpr (sub n : Nat) (s : State) : (countReleased sub n s).cpr = s.cpr := rfl
@[simp] theorem countReleased_hlp (sub n : Nat) (s : State) : (countReleased sub n s).hlp = s.hlp := rfl
@[simp] theorem countReleased_ptu (sub n : Nat) (s : State) : (countReleased sub n s).ptu = s.ptu := rfl
@[simp] theorem countReleased_cti (sub n : Nat) (s : State) : (countReleased sub n s).cti = s.cti := rfl
@[simp] theorem countReleased_tsu (sub n : Nat) (s : State) : (countReleased sub n s).tsu = s.tsu := rfl
@[simp] theorem countReleased_mss (sub n : Nat) (s : State) : (countReleased sub n s).mss = s.mss := rfl
@[simp] theorem countReleased_fwe (sub n : Nat) (s : State) : (countReleased sub n s).fwe = s.fwe := rfl
@[simp] theorem countReleased_cpe (sub n : Nat) (s : State) : (countReleased sub n s).cpe = s.cpe := rfl
@[simp] theorem countReleased_tsh (sub n : Nat) (s : State) : (countReleased sub n s).tsh = s.tsh := rfl
@[simp] theorem countReleased_tds (sub n : Nat) (s : State) : (countReleased sub n s).tds = s.tds := rfl
@[simp] theorem countReleased_aue (sub n : Nat) (s : State) : (countReleased sub n s).aue = s.aue := rfl
@[simp] theorem countReleased_vca (sub n : Nat) (s : State) : (countReleased sub n s).vca = s.vca := rfl
@[simp] theorem countReleased_lco (sub n : Nat) (s : State) : (countReleased sub n s).lco = s.lco := rfl
@[simp] theorem countReleased_lgv (sub n : Nat) (s : State) : (countReleased sub n s).lgv = s.lgv := rfl
@[simp] theorem countReleased_out (sub n : Nat) (s : State) : (countReleased sub n s).out = s.out := rfl
@[simp] theorem countReleased_free (sub n : Nat) (s : State) : (countReleased sub n s).free = s.free := rfl
@[simp] theorem countReleased_pending (sub n : Nat) (s : State) : (countReleased sub n s).pending = s.pending := rfl

@[simp] theorem putSlot_cpe (n : Nat) (x : Slot) (s : State) :
    (putSlot n x s).cpe = { s.cpe with slots := if x.state = .empty then terase s.cpe.slots n else tset s.cpe.slots n x } := rfl
@[simp] theorem putSlot_cpx (n : Nat) (x : Slot) (s : State) : (putSlot n x s).cpx = s.cpx := rfl
@[simp] theorem putSlot_flash (n : Nat) (x : Slot) (s : State) : (putSlot n x s).flash = s.flash := rfl
@[simp] theorem putSlot_cpr (n : Nat) (x : Slot) (s : State) : (putSlot n x s).cpr = s.cpr := rfl
@[simp] theorem putSlot_hlp (n : Nat) (x : Slot) (s : State) : (putSlot n x s).hlp = s.hlp := rfl
@[simp] theorem putSlot_ptu (n : Nat) (x : Slot) (s : State) : (putSlot n x s).ptu = s.ptu := rfl
@[simp] theorem putSlot_cti (n : Nat) (x : Slot) (s : State) : (putSlot n x s).cti = s.cti := rfl
@[simp] theorem putSlot_tsu (n : Nat) (x : Slot) (s : State) : (putSlot n x s).tsu = s.tsu := rfl
@[simp] theorem putSlot_mss (n : Nat) (x : Slot) (s : State) : (putSlot n x s).mss = s.mss := rfl
@[simp] theorem putSlot_bpm (n : Nat) (x : Slot) (s : State) : (putSlot n x s).bpm = s.bpm := rfl
@[simp] theorem putSlot_fwe (n : Nat) (x : Slot) (s : State) : (putSlot n x s).fwe = s.fwe := rfl
@[simp] theorem putSlot_tsh (n : Nat) (x : Slot) (s : State) : (putSlot n x s).tsh = s.tsh := rfl
@[simp] theorem putSlot_tds (n : Nat) (x : Slot) (s : State) : (putSlot n x s).tds = s.tds := rfl
@[simp] theorem putSlot_aue (n : Nat) (x : Slot) (s : State) : (putSlot n x s).aue = s.aue := rfl
@[simp] theorem putSlot_vca (n : Nat) (x : Slot) (s : State) : (putSlot n x s).vca = s.vca := rfl
@[simp] theorem putSlot_lco (n : Nat) (x : Slot) (s : State) : (putSlot n x s).lco = s.lco := rfl
@[simp] theorem putSlot_lgv (n : Nat) (x : Slot) (s : State) : (putSlot n x s).lgv = s.lgv := rfl
@[simp] theorem putSlot_out (n : Nat) (x : Slot) (s : State) : (putSlot n x s).out = s.out := rfl
@[simp] theorem putSlot_free (n : Nat) (x : Slot) (s : State) : (putSlot n x s).free = s.free := rfl
@[simp] theorem putSlot_pending (n : Nat) (x : Slot) (s : State) : (putSlot n x s).pending = s.pending := rfl

@[simp] theorem pointTo_cpe (n : Nat) (s : State) : (pointTo n s).cpe = { s.cpe with ptrs := tset s.cpe.ptrs (n / 2) (n % 2) } := rfl
@[simp] theorem pointTo_cpx (n : Nat) (s : State) : (pointTo n s).cpx = s.cpx := rfl
@[simp] theorem pointTo_flash (n : Nat) (s : State) : (pointTo n s).flash = s.flash := rfl
@[simp] theorem pointTo_cpr (n : Nat) (s : State) : (pointTo n s).cpr = s.cpr := rfl
@[simp] theorem pointTo_hlp (n : Nat) (s : State) : (pointTo n s).hlp = s.hlp := rfl
@[simp] theorem pointTo_ptu (n : Nat) (s : State) : (pointTo n s).ptu = s.ptu := rfl
@[simp] theorem pointTo_cti (n : Nat) (s : State) : (pointTo n s).cti = s.cti := rfl
@[simp] theorem pointTo_tsu (n : Nat) (s : State) : (pointTo n s).tsu = s.tsu := rfl
@[simp] theorem pointTo_mss (n : Nat) (s : State) : (pointTo n s).mss = s.mss := rfl
@[simp] theorem pointTo_bpm (n : Nat) (s : State) : (pointTo n s).bpm = s.bpm := rfl
@[simp] theorem pointTo_fwe (n : Nat) (s : State) : (pointTo n s).fwe = s.fwe := rfl
@[simp] theorem pointTo_tsh (n : Nat) (s : State) : (pointTo n s).tsh = s.tsh := rfl
@[simp] theorem pointTo_tds (n : Nat) (s : State) : (pointTo n s).tds = s.tds := rfl
@[simp] theorem pointTo_aue (n : Nat) (s : State) : (pointTo n s).aue = s.aue := rfl
@[simp] theorem pointTo_vca (n : Nat) (s : State) : (pointTo n s).vca = s.vca := rfl
@[simp] theorem pointTo_lco (n : Nat) (s : State) : (pointTo n s).lco = s.lco := rfl
@[simp] theorem pointTo_lgv (n : Nat) (s : State) : (pointTo n s).lgv = s.lgv := rfl
@[simp] theorem pointTo_out (n : Nat) (s : State) : (pointTo n s).out = s.out := rfl
@[simp] theorem pointTo_free (n : Nat) (s : State) : (pointTo n s).free = s.free := rfl
@[simp] theorem pointTo_pending (n : Nat) (s : State) : (pointTo n s).pending = s.pending := rfl

@[simp] theorem modLeg_fwe (leg : Nat) (f : Leg → Leg) (s : State) :
    (modLeg leg f s).fwe = { s.fwe with legs := tmod s.fwe.legs leg f } := rfl
@[simp] theorem modLeg_cpx (leg : Nat) (f : Leg → Leg) (s : State) : (modLeg leg f s).cpx = s.cpx := rfl
@[simp] theorem modLeg_flash (leg : Nat) (f : Leg → Leg) (s : State) : (modLeg leg f s).flash = s.flash := rfl
@[simp] theorem modLeg_cpr (leg : Nat) (f : Leg → Leg) (s : State) : (modLeg leg f s).cpr = s.cpr := rfl
@[simp] theorem modLeg_hlp (leg : Nat) (f : Leg → Leg) (s : State) : (modLeg leg f s).hlp = s.hlp := rfl
@[simp] theorem modLeg_ptu (leg : Nat) (f : Leg → Leg) (s : State) : (modLeg leg f s).ptu = s.ptu := rfl
@[simp] theorem modLeg_cti (leg : Nat) (f : Leg → Leg) (s : State) : (modLeg leg f s).cti = s.cti := rfl
@[simp] theorem modLeg_tsu (leg : Nat) (f : Leg → Leg) (s : State) : (modLeg leg f s).tsu = s.tsu := rfl
@[simp] theorem modLeg_mss (leg : Nat) (f : Leg → Leg) (s : State) : (modLeg leg f s).mss = s.mss := rfl
@[simp] theorem modLeg_bpm (leg : Nat) (f : Leg → Leg) (s : State) : (modLeg leg f s).bpm = s.bpm := rfl
@[simp] theorem modLeg_cpe (leg : Nat) (f : Leg → Leg) (s : State) : (modLeg leg f s).cpe = s.cpe := rfl
@[simp] theorem modLeg_tsh (leg : Nat) (f : Leg → Leg) (s : State) : (modLeg leg f s).tsh = s.tsh := rfl
@[simp] theorem modLeg_tds (leg : Nat) (f : Leg → Leg) (s : State) : (modLeg leg f s).tds = s.tds := rfl
@[simp] theorem modLeg_aue (leg : Nat) (f : Leg → Leg) (s : State) : (modLeg leg f s).aue = s.aue := rfl
@[simp] theorem modLeg_vca (leg : Nat) (f : Leg → Leg) (s : State) : (modLeg leg f s).vca = s.vca := rfl
@[simp] theorem modLeg_lco (leg : Nat) (f : Leg → Leg) (s : State) : (modLeg leg f s).lco = s.lco := rfl
@[simp] theorem modLeg_lgv (leg : Nat) (f : Leg → Leg) (s : State) : (modLeg leg f s).lgv = s.lgv := rfl
@[simp] theorem modLeg_out (leg : Nat) (f : Leg → Leg) (s : State) : (modLeg leg f s).out = s.out := rfl
@[simp] theorem modLeg_free (leg : Nat) (f : Leg → Leg) (s : State) : (modLeg leg f s).free = s.free := rfl
@[simp] theorem modLeg_pending (leg : Nat) (f : Leg → Leg) (s : State) : (modLeg leg f s).pending = s.pending := rfl

@[simp] theorem putCtx_cpe (c : SsrcCtx) (s : State) :
    (putCtx c s).cpe = { s.cpe with ctxs := s.cpe.ctxs.filter (fun d => !(decide (d.leg = c.leg ∧ d.dir = c.dir ∧ d.ssrc = c.ssrc))) ++ [c] } := rfl
@[simp] theorem putCtx_cpx (c : SsrcCtx) (s : State) : (putCtx c s).cpx = s.cpx := rfl
@[simp] theorem putCtx_flash (c : SsrcCtx) (s : State) : (putCtx c s).flash = s.flash := rfl
@[simp] theorem putCtx_cpr (c : SsrcCtx) (s : State) : (putCtx c s).cpr = s.cpr := rfl
@[simp] theorem putCtx_hlp (c : SsrcCtx) (s : State) : (putCtx c s).hlp = s.hlp := rfl
@[simp] theorem putCtx_ptu (c : SsrcCtx) (s : State) : (putCtx c s).ptu = s.ptu := rfl
@[simp] theorem putCtx_cti (c : SsrcCtx) (s : State) : (putCtx c s).cti = s.cti := rfl
@[simp] theorem putCtx_tsu (c : SsrcCtx) (s : State) : (putCtx c s).tsu = s.tsu := rfl
@[simp] theorem putCtx_mss (c : SsrcCtx) (s : State) : (putCtx c s).mss = s.mss := rfl
@[simp] theorem putCtx_bpm (c : SsrcCtx) (s : State) : (putCtx c s).bpm = s.bpm := rfl
@[simp] theorem putCtx_fwe (c : SsrcCtx) (s : State) : (putCtx c s).fwe = s.fwe := rfl
@[simp] theorem putCtx_tsh (c : SsrcCtx) (s : State) : (putCtx c s).tsh = s.tsh := rfl
@[simp] theorem putCtx_tds (c : SsrcCtx) (s : State) : (putCtx c s).tds = s.tds := rfl
@[simp] theorem putCtx_aue (c : SsrcCtx) (s : State) : (putCtx c s).aue = s.aue := rfl
@[simp] theorem putCtx_vca (c : SsrcCtx) (s : State) : (putCtx c s).vca = s.vca := rfl
@[simp] theorem putCtx_lco (c : SsrcCtx) (s : State) : (putCtx c s).lco = s.lco := rfl
@[simp] theorem putCtx_lgv (c : SsrcCtx) (s : State) : (putCtx c s).lgv = s.lgv := rfl
@[simp] theorem putCtx_out (c : SsrcCtx) (s : State) : (putCtx c s).out = s.out := rfl
@[simp] theorem putCtx_free (c : SsrcCtx) (s : State) : (putCtx c s).free = s.free := rfl
@[simp] theorem putCtx_pending (c : SsrcCtx) (s : State) : (putCtx c s).pending = s.pending := rfl

@[simp] theorem putMux_cpx (mux input : Nat) (s : State) : (putMux mux input s).cpx = s.cpx := rfl
@[simp] theorem putMux_flash (mux input : Nat) (s : State) : (putMux mux input s).flash = s.flash := rfl
@[simp] theorem putMux_hlp (mux input : Nat) (s : State) : (putMux mux input s).hlp = s.hlp := rfl
@[simp] theorem putMux_ptu (mux input : Nat) (s : State) : (putMux mux input s).ptu = s.ptu := rfl
@[simp] theorem putMux_cti (mux input : Nat) (s : State) : (putMux mux input s).cti = s.cti := rfl
@[simp] theorem putMux_tsu (mux input : Nat) (s : State) : (putMux mux input s).tsu = s.tsu := rfl
@[simp] theorem putMux_mss (mux input : Nat) (s : State) : (putMux mux input s).mss = s.mss := rfl
@[simp] theorem putMux_bpm (mux input : Nat) (s : State) : (putMux mux input s).bpm = s.bpm := rfl
@[simp] theorem putMux_fwe (mux input : Nat) (s : State) : (putMux mux input s).fwe = s.fwe := rfl
@[simp] theorem putMux_cpe (mux input : Nat) (s : State) : (putMux mux input s).cpe = s.cpe := rfl
@[simp] theorem putMux_tsh (mux input : Nat) (s : State) : (putMux mux input s).tsh = s.tsh := rfl
@[simp] theorem putMux_tds (mux input : Nat) (s : State) : (putMux mux input s).tds = s.tds := rfl
@[simp] theorem putMux_aue (mux input : Nat) (s : State) : (putMux mux input s).aue = s.aue := rfl
@[simp] theorem putMux_vca (mux input : Nat) (s : State) : (putMux mux input s).vca = s.vca := rfl
@[simp] theorem putMux_lco (mux input : Nat) (s : State) : (putMux mux input s).lco = s.lco := rfl
@[simp] theorem putMux_lgv (mux input : Nat) (s : State) : (putMux mux input s).lgv = s.lgv := rfl
@[simp] theorem putMux_out (mux input : Nat) (s : State) : (putMux mux input s).out = s.out := rfl
@[simp] theorem putMux_free (mux input : Nat) (s : State) : (putMux mux input s).free = s.free := rfl
@[simp] theorem putMux_pending (mux input : Nat) (s : State) : (putMux mux input s).pending = s.pending := rfl

@[simp] theorem modCtiPort_cti (p : Nat) (f : CtiPort → CtiPort) (s : State) :
    (modCtiPort p f s).cti = { s.cti with ports := s.cti.ports.modify p f } := rfl
@[simp] theorem modCtiPort_cpx (p : Nat) (f : CtiPort → CtiPort) (s : State) : (modCtiPort p f s).cpx = s.cpx := rfl
@[simp] theorem modCtiPort_flash (p : Nat) (f : CtiPort → CtiPort) (s : State) : (modCtiPort p f s).flash = s.flash := rfl
@[simp] theorem modCtiPort_cpr (p : Nat) (f : CtiPort → CtiPort) (s : State) : (modCtiPort p f s).cpr = s.cpr := rfl
@[simp] theorem modCtiPort_hlp (p : Nat) (f : CtiPort → CtiPort) (s : State) : (modCtiPort p f s).hlp = s.hlp := rfl
@[simp] theorem modCtiPort_ptu (p : Nat) (f : CtiPort → CtiPort) (s : State) : (modCtiPort p f s).ptu = s.ptu := rfl
@[simp] theorem modCtiPort_tsu (p : Nat) (f : CtiPort → CtiPort) (s : State) : (modCtiPort p f s).tsu = s.tsu := rfl
@[simp] theorem modCtiPort_mss (p : Nat) (f : CtiPort → CtiPort) (s : State) : (modCtiPort p f s).mss = s.mss := rfl
@[simp] theorem modCtiPort_bpm (p : Nat) (f : CtiPort → CtiPort) (s : State) : (modCtiPort p f s).bpm = s.bpm := rfl
@[simp] theorem modCtiPort_fwe (p : Nat) (f : CtiPort → CtiPort) (s : State) : (modCtiPort p f s).fwe = s.fwe := rfl
@[simp] theorem modCtiPort_cpe (p : Nat) (f : CtiPort → CtiPort) (s : State) : (modCtiPort p f s).cpe = s.cpe := rfl
@[simp] theorem modCtiPort_tsh (p : Nat) (f : CtiPort → CtiPort) (s : State) : (modCtiPort p f s).tsh = s.tsh := rfl
@[simp] theorem modCtiPort_tds (p : Nat) (f : CtiPort → CtiPort) (s : State) : (modCtiPort p f s).tds = s.tds := rfl
@[simp] theorem modCtiPort_aue (p : Nat) (f : CtiPort → CtiPort) (s : State) : (modCtiPort p f s).aue = s.aue := rfl
@[simp] theorem modCtiPort_vca (p : Nat) (f : CtiPort → CtiPort) (s : State) : (modCtiPort p f s).vca = s.vca := rfl
@[simp] theorem modCtiPort_lco (p : Nat) (f : CtiPort → CtiPort) (s : State) : (modCtiPort p f s).lco = s.lco := rfl
@[simp] theorem modCtiPort_lgv (p : Nat) (f : CtiPort → CtiPort) (s : State) : (modCtiPort p f s).lgv = s.lgv := rfl
@[simp] theorem modCtiPort_out (p : Nat) (f : CtiPort → CtiPort) (s : State) : (modCtiPort p f s).out = s.out := rfl
@[simp] theorem modCtiPort_free (p : Nat) (f : CtiPort → CtiPort) (s : State) : (modCtiPort p f s).free = s.free := rfl
@[simp] theorem modCtiPort_pending (p : Nat) (f : CtiPort → CtiPort) (s : State) : (modCtiPort p f s).pending = s.pending := rfl

@[simp] theorem modCanvas_lco (k : Nat) (f : Canvas → Canvas) (s : State) :
    (modCanvas k f s).lco = { s.lco with canvases := tmod s.lco.canvases k f } := rfl
@[simp] theorem modCanvas_cpx (k : Nat) (f : Canvas → Canvas) (s : State) : (modCanvas k f s).cpx = s.cpx := rfl
@[simp] theorem modCanvas_flash (k : Nat) (f : Canvas → Canvas) (s : State) : (modCanvas k f s).flash = s.flash := rfl
@[simp] theorem modCanvas_cpr (k : Nat) (f : Canvas → Canvas) (s : State) : (modCanvas k f s).cpr = s.cpr := rfl
@[simp] theorem modCanvas_hlp (k : Nat) (f : Canvas → Canvas) (s : State) : (modCanvas k f s).hlp = s.hlp := rfl
@[simp] theorem modCanvas_ptu (k : Nat) (f : Canvas → Canvas) (s : State) : (modCanvas k f s).ptu = s.ptu := rfl
@[simp] theorem modCanvas_cti (k : Nat) (f : Canvas → Canvas) (s : State) : (modCanvas k f s).cti = s.cti := rfl
@[simp] theorem modCanvas_tsu (k : Nat) (f : Canvas → Canvas) (s : State) : (modCanvas k f s).tsu = s.tsu := rfl
@[simp] theorem modCanvas_mss (k : Nat) (f : Canvas → Canvas) (s : State) : (modCanvas k f s).mss = s.mss := rfl
@[simp] theorem modCanvas_bpm (k : Nat) (f : Canvas → Canvas) (s : State) : (modCanvas k f s).bpm = s.bpm := rfl
@[simp] theorem modCanvas_fwe (k : Nat) (f : Canvas → Canvas) (s : State) : (modCanvas k f s).fwe = s.fwe := rfl
@[simp] theorem modCanvas_cpe (k : Nat) (f : Canvas → Canvas) (s : State) : (modCanvas k f s).cpe = s.cpe := rfl
@[simp] theorem modCanvas_tsh (k : Nat) (f : Canvas → Canvas) (s : State) : (modCanvas k f s).tsh = s.tsh := rfl
@[simp] theorem modCanvas_tds (k : Nat) (f : Canvas → Canvas) (s : State) : (modCanvas k f s).tds = s.tds := rfl
@[simp] theorem modCanvas_aue (k : Nat) (f : Canvas → Canvas) (s : State) : (modCanvas k f s).aue = s.aue := rfl
@[simp] theorem modCanvas_vca (k : Nat) (f : Canvas → Canvas) (s : State) : (modCanvas k f s).vca = s.vca := rfl
@[simp] theorem modCanvas_lgv (k : Nat) (f : Canvas → Canvas) (s : State) : (modCanvas k f s).lgv = s.lgv := rfl
@[simp] theorem modCanvas_out (k : Nat) (f : Canvas → Canvas) (s : State) : (modCanvas k f s).out = s.out := rfl
@[simp] theorem modCanvas_free (k : Nat) (f : Canvas → Canvas) (s : State) : (modCanvas k f s).free = s.free := rfl
@[simp] theorem modCanvas_pending (k : Nat) (f : Canvas → Canvas) (s : State) : (modCanvas k f s).pending = s.pending := rfl

@[simp] theorem modDomain_cpr (d : Nat) (f : Domain → Domain) (s : State) :
    (modDomain d f s).cpr = { s.cpr with domains := s.cpr.domains.modify d f } := rfl
@[simp] theorem modDomain_cpx (d : Nat) (f : Domain → Domain) (s : State) : (modDomain d f s).cpx = s.cpx := rfl
@[simp] theorem modDomain_flash (d : Nat) (f : Domain → Domain) (s : State) : (modDomain d f s).flash = s.flash := rfl
@[simp] theorem modDomain_hlp (d : Nat) (f : Domain → Domain) (s : State) : (modDomain d f s).hlp = s.hlp := rfl
@[simp] theorem modDomain_ptu (d : Nat) (f : Domain → Domain) (s : State) : (modDomain d f s).ptu = s.ptu := rfl
@[simp] theorem modDomain_cti (d : Nat) (f : Domain → Domain) (s : State) : (modDomain d f s).cti = s.cti := rfl
@[simp] theorem modDomain_tsu (d : Nat) (f : Domain → Domain) (s : State) : (modDomain d f s).tsu = s.tsu := rfl
@[simp] theorem modDomain_mss (d : Nat) (f : Domain → Domain) (s : State) : (modDomain d f s).mss = s.mss := rfl
@[simp] theorem modDomain_bpm (d : Nat) (f : Domain → Domain) (s : State) : (modDomain d f s).bpm = s.bpm := rfl
@[simp] theorem modDomain_fwe (d : Nat) (f : Domain → Domain) (s : State) : (modDomain d f s).fwe = s.fwe := rfl
@[simp] theorem modDomain_cpe (d : Nat) (f : Domain → Domain) (s : State) : (modDomain d f s).cpe = s.cpe := rfl
@[simp] theorem modDomain_tsh (d : Nat) (f : Domain → Domain) (s : State) : (modDomain d f s).tsh = s.tsh := rfl
@[simp] theorem modDomain_tds (d : Nat) (f : Domain → Domain) (s : State) : (modDomain d f s).tds = s.tds := rfl
@[simp] theorem modDomain_aue (d : Nat) (f : Domain → Domain) (s : State) : (modDomain d f s).aue = s.aue := rfl
@[simp] theorem modDomain_vca (d : Nat) (f : Domain → Domain) (s : State) : (modDomain d f s).vca = s.vca := rfl
@[simp] theorem modDomain_lco (d : Nat) (f : Domain → Domain) (s : State) : (modDomain d f s).lco = s.lco := rfl
@[simp] theorem modDomain_lgv (d : Nat) (f : Domain → Domain) (s : State) : (modDomain d f s).lgv = s.lgv := rfl
@[simp] theorem modDomain_out (d : Nat) (f : Domain → Domain) (s : State) : (modDomain d f s).out = s.out := rfl
@[simp] theorem modDomain_free (d : Nat) (f : Domain → Domain) (s : State) : (modDomain d f s).free = s.free := rfl
@[simp] theorem modDomain_pending (d : Nat) (f : Domain → Domain) (s : State) : (modDomain d f s).pending = s.pending := rfl

@[simp] theorem modChan_mss (ch : Nat) (f : MemCh → MemCh) (s : State) :
    (modChan ch f s).mss = { s.mss with chans := s.mss.chans.modify ch f } := rfl
@[simp] theorem modChan_cpx (ch : Nat) (f : MemCh → MemCh) (s : State) : (modChan ch f s).cpx = s.cpx := rfl
@[simp] theorem modChan_flash (ch : Nat) (f : MemCh → MemCh) (s : State) : (modChan ch f s).flash = s.flash := rfl
@[simp] theorem modChan_cpr (ch : Nat) (f : MemCh → MemCh) (s : State) : (modChan ch f s).cpr = s.cpr := rfl
@[simp] theorem modChan_hlp (ch : Nat) (f : MemCh → MemCh) (s : State) : (modChan ch f s).hlp = s.hlp := rfl
@[simp] theorem modChan_ptu (ch : Nat) (f : MemCh → MemCh) (s : State) : (modChan ch f s).ptu = s.ptu := rfl
@[simp] theorem modChan_cti (ch : Nat) (f : MemCh → MemCh) (s : State) : (modChan ch f s).cti = s.cti := rfl
@[simp] theorem modChan_tsu (ch : Nat) (f : MemCh → MemCh) (s : State) : (modChan ch f s).tsu = s.tsu := rfl
@[simp] theorem modChan_bpm (ch : Nat) (f : MemCh → MemCh) (s : State) : (modChan ch f s).bpm = s.bpm := rfl
@[simp] theorem modChan_fwe (ch : Nat) (f : MemCh → MemCh) (s : State) : (modChan ch f s).fwe = s.fwe := rfl
@[simp] theorem modChan_cpe (ch : Nat) (f : MemCh → MemCh) (s : State) : (modChan ch f s).cpe = s.cpe := rfl
@[simp] theorem modChan_tsh (ch : Nat) (f : MemCh → MemCh) (s : State) : (modChan ch f s).tsh = s.tsh := rfl
@[simp] theorem modChan_tds (ch : Nat) (f : MemCh → MemCh) (s : State) : (modChan ch f s).tds = s.tds := rfl
@[simp] theorem modChan_aue (ch : Nat) (f : MemCh → MemCh) (s : State) : (modChan ch f s).aue = s.aue := rfl
@[simp] theorem modChan_vca (ch : Nat) (f : MemCh → MemCh) (s : State) : (modChan ch f s).vca = s.vca := rfl
@[simp] theorem modChan_lco (ch : Nat) (f : MemCh → MemCh) (s : State) : (modChan ch f s).lco = s.lco := rfl
@[simp] theorem modChan_lgv (ch : Nat) (f : MemCh → MemCh) (s : State) : (modChan ch f s).lgv = s.lgv := rfl
@[simp] theorem modChan_out (ch : Nat) (f : MemCh → MemCh) (s : State) : (modChan ch f s).out = s.out := rfl
@[simp] theorem modChan_free (ch : Nat) (f : MemCh → MemCh) (s : State) : (modChan ch f s).free = s.free := rfl
@[simp] theorem modChan_pending (ch : Nat) (f : MemCh → MemCh) (s : State) : (modChan ch f s).pending = s.pending := rfl

@[simp] theorem modGouge_vca (c : Nat) (f : Gouge → Gouge) (s : State) :
    (modGouge c f s).vca = { s.vca with cores := s.vca.cores.modify c f } := rfl
@[simp] theorem modGouge_cpx (c : Nat) (f : Gouge → Gouge) (s : State) : (modGouge c f s).cpx = s.cpx := rfl
@[simp] theorem modGouge_flash (c : Nat) (f : Gouge → Gouge) (s : State) : (modGouge c f s).flash = s.flash := rfl
@[simp] theorem modGouge_cpr (c : Nat) (f : Gouge → Gouge) (s : State) : (modGouge c f s).cpr = s.cpr := rfl
@[simp] theorem modGouge_hlp (c : Nat) (f : Gouge → Gouge) (s : State) : (modGouge c f s).hlp = s.hlp := rfl
@[simp] theorem modGouge_ptu (c : Nat) (f : Gouge → Gouge) (s : State) : (modGouge c f s).ptu = s.ptu := rfl
@[simp] theorem modGouge_cti (c : Nat) (f : Gouge → Gouge) (s : State) : (modGouge c f s).cti = s.cti := rfl
@[simp] theorem modGouge_tsu (c : Nat) (f : Gouge → Gouge) (s : State) : (modGouge c f s).tsu = s.tsu := rfl
@[simp] theorem modGouge_mss (c : Nat) (f : Gouge → Gouge) (s : State) : (modGouge c f s).mss = s.mss := rfl
@[simp] theorem modGouge_bpm (c : Nat) (f : Gouge → Gouge) (s : State) : (modGouge c f s).bpm = s.bpm := rfl
@[simp] theorem modGouge_fwe (c : Nat) (f : Gouge → Gouge) (s : State) : (modGouge c f s).fwe = s.fwe := rfl
@[simp] theorem modGouge_cpe (c : Nat) (f : Gouge → Gouge) (s : State) : (modGouge c f s).cpe = s.cpe := rfl
@[simp] theorem modGouge_tsh (c : Nat) (f : Gouge → Gouge) (s : State) : (modGouge c f s).tsh = s.tsh := rfl
@[simp] theorem modGouge_tds (c : Nat) (f : Gouge → Gouge) (s : State) : (modGouge c f s).tds = s.tds := rfl
@[simp] theorem modGouge_aue (c : Nat) (f : Gouge → Gouge) (s : State) : (modGouge c f s).aue = s.aue := rfl
@[simp] theorem modGouge_lco (c : Nat) (f : Gouge → Gouge) (s : State) : (modGouge c f s).lco = s.lco := rfl
@[simp] theorem modGouge_lgv (c : Nat) (f : Gouge → Gouge) (s : State) : (modGouge c f s).lgv = s.lgv := rfl
@[simp] theorem modGouge_out (c : Nat) (f : Gouge → Gouge) (s : State) : (modGouge c f s).out = s.out := rfl
@[simp] theorem modGouge_free (c : Nat) (f : Gouge → Gouge) (s : State) : (modGouge c f s).free = s.free := rfl
@[simp] theorem modGouge_pending (c : Nat) (f : Gouge → Gouge) (s : State) : (modGouge c f s).pending = s.pending := rfl

@[simp] theorem modVjob_vca (kind : JobKind) (key : Nat) (f : VJob → VJob) (s : State) :
    (modVjob kind key f s).vca = { s.vca with sched := s.vca.sched.map fun j => if j.kind = kind ∧ j.key = key then f j else j } := rfl
@[simp] theorem modVjob_cpx (kind : JobKind) (key : Nat) (f : VJob → VJob) (s : State) : (modVjob kind key f s).cpx = s.cpx := rfl
@[simp] theorem modVjob_flash (kind : JobKind) (key : Nat) (f : VJob → VJob) (s : State) : (modVjob kind key f s).flash = s.flash := rfl
@[simp] theorem modVjob_cpr (kind : JobKind) (key : Nat) (f : VJob → VJob) (s : State) : (modVjob kind key f s).cpr = s.cpr := rfl
@[simp] theorem modVjob_hlp (kind : JobKind) (key : Nat) (f : VJob → VJob) (s : State) : (modVjob kind key f s).hlp = s.hlp := rfl
@[simp] theorem modVjob_ptu (kind : JobKind) (key : Nat) (f : VJob → VJob) (s : State) : (modVjob kind key f s).ptu = s.ptu := rfl
@[simp] theorem modVjob_cti (kind : JobKind) (key : Nat) (f : VJob → VJob) (s : State) : (modVjob kind key f s).cti = s.cti := rfl
@[simp] theorem modVjob_tsu (kind : JobKind) (key : Nat) (f : VJob → VJob) (s : State) : (modVjob kind key f s).tsu = s.tsu := rfl
@[simp] theorem modVjob_mss (kind : JobKind) (key : Nat) (f : VJob → VJob) (s : State) : (modVjob kind key f s).mss = s.mss := rfl
@[simp] theorem modVjob_bpm (kind : JobKind) (key : Nat) (f : VJob → VJob) (s : State) : (modVjob kind key f s).bpm = s.bpm := rfl
@[simp] theorem modVjob_fwe (kind : JobKind) (key : Nat) (f : VJob → VJob) (s : State) : (modVjob kind key f s).fwe = s.fwe := rfl
@[simp] theorem modVjob_cpe (kind : JobKind) (key : Nat) (f : VJob → VJob) (s : State) : (modVjob kind key f s).cpe = s.cpe := rfl
@[simp] theorem modVjob_tsh (kind : JobKind) (key : Nat) (f : VJob → VJob) (s : State) : (modVjob kind key f s).tsh = s.tsh := rfl
@[simp] theorem modVjob_tds (kind : JobKind) (key : Nat) (f : VJob → VJob) (s : State) : (modVjob kind key f s).tds = s.tds := rfl
@[simp] theorem modVjob_aue (kind : JobKind) (key : Nat) (f : VJob → VJob) (s : State) : (modVjob kind key f s).aue = s.aue := rfl
@[simp] theorem modVjob_lco (kind : JobKind) (key : Nat) (f : VJob → VJob) (s : State) : (modVjob kind key f s).lco = s.lco := rfl
@[simp] theorem modVjob_lgv (kind : JobKind) (key : Nat) (f : VJob → VJob) (s : State) : (modVjob kind key f s).lgv = s.lgv := rfl
@[simp] theorem modVjob_out (kind : JobKind) (key : Nat) (f : VJob → VJob) (s : State) : (modVjob kind key f s).out = s.out := rfl
@[simp] theorem modVjob_free (kind : JobKind) (key : Nat) (f : VJob → VJob) (s : State) : (modVjob kind key f s).free = s.free := rfl
@[simp] theorem modVjob_pending (kind : JobKind) (key : Nat) (f : VJob → VJob) (s : State) : (modVjob kind key f s).pending = s.pending := rfl

@[simp] theorem openCoreEpoch_cpx (s : State) : (openCoreEpoch s).cpx = s.cpx := rfl
@[simp] theorem openCoreEpoch_flash (s : State) : (openCoreEpoch s).flash = s.flash := rfl
@[simp] theorem openCoreEpoch_cpr (s : State) : (openCoreEpoch s).cpr = s.cpr := rfl
@[simp] theorem openCoreEpoch_hlp (s : State) : (openCoreEpoch s).hlp = s.hlp := rfl
@[simp] theorem openCoreEpoch_ptu (s : State) : (openCoreEpoch s).ptu = s.ptu := rfl
@[simp] theorem openCoreEpoch_cti (s : State) : (openCoreEpoch s).cti = s.cti := rfl
@[simp] theorem openCoreEpoch_tsu (s : State) : (openCoreEpoch s).tsu = s.tsu := rfl
@[simp] theorem openCoreEpoch_mss (s : State) : (openCoreEpoch s).mss = s.mss := rfl
@[simp] theorem openCoreEpoch_bpm (s : State) : (openCoreEpoch s).bpm = s.bpm := rfl
@[simp] theorem openCoreEpoch_fwe (s : State) : (openCoreEpoch s).fwe = s.fwe := rfl
@[simp] theorem openCoreEpoch_cpe (s : State) : (openCoreEpoch s).cpe = s.cpe := rfl
@[simp] theorem openCoreEpoch_tsh (s : State) : (openCoreEpoch s).tsh = s.tsh := rfl
@[simp] theorem openCoreEpoch_tds (s : State) : (openCoreEpoch s).tds = s.tds := rfl
@[simp] theorem openCoreEpoch_aue (s : State) : (openCoreEpoch s).aue = s.aue := rfl
@[simp] theorem openCoreEpoch_lco (s : State) : (openCoreEpoch s).lco = s.lco := rfl
@[simp] theorem openCoreEpoch_lgv (s : State) : (openCoreEpoch s).lgv = s.lgv := rfl
@[simp] theorem openCoreEpoch_out (s : State) : (openCoreEpoch s).out = s.out := rfl
@[simp] theorem openCoreEpoch_free (s : State) : (openCoreEpoch s).free = s.free := rfl
@[simp] theorem openCoreEpoch_pending (s : State) : (openCoreEpoch s).pending = s.pending := rfl

@[simp] theorem modGov_lgv (i : Nat) (f : Gov → Gov) (s : State) : (modGov i f s).lgv = { s.lgv with legs := tmod s.lgv.legs i f } := rfl
@[simp] theorem modGov_cpx (i : Nat) (f : Gov → Gov) (s : State) : (modGov i f s).cpx = s.cpx := rfl
@[simp] theorem modGov_flash (i : Nat) (f : Gov → Gov) (s : State) : (modGov i f s).flash = s.flash := rfl
@[simp] theorem modGov_cpr (i : Nat) (f : Gov → Gov) (s : State) : (modGov i f s).cpr = s.cpr := rfl
@[simp] theorem modGov_hlp (i : Nat) (f : Gov → Gov) (s : State) : (modGov i f s).hlp = s.hlp := rfl
@[simp] theorem modGov_ptu (i : Nat) (f : Gov → Gov) (s : State) : (modGov i f s).ptu = s.ptu := rfl
@[simp] theorem modGov_cti (i : Nat) (f : Gov → Gov) (s : State) : (modGov i f s).cti = s.cti := rfl
@[simp] theorem modGov_tsu (i : Nat) (f : Gov → Gov) (s : State) : (modGov i f s).tsu = s.tsu := rfl
@[simp] theorem modGov_mss (i : Nat) (f : Gov → Gov) (s : State) : (modGov i f s).mss = s.mss := rfl
@[simp] theorem modGov_bpm (i : Nat) (f : Gov → Gov) (s : State) : (modGov i f s).bpm = s.bpm := rfl
@[simp] theorem modGov_fwe (i : Nat) (f : Gov → Gov) (s : State) : (modGov i f s).fwe = s.fwe := rfl
@[simp] theorem modGov_cpe (i : Nat) (f : Gov → Gov) (s : State) : (modGov i f s).cpe = s.cpe := rfl
@[simp] theorem modGov_tsh (i : Nat) (f : Gov → Gov) (s : State) : (modGov i f s).tsh = s.tsh := rfl
@[simp] theorem modGov_tds (i : Nat) (f : Gov → Gov) (s : State) : (modGov i f s).tds = s.tds := rfl
@[simp] theorem modGov_aue (i : Nat) (f : Gov → Gov) (s : State) : (modGov i f s).aue = s.aue := rfl
@[simp] theorem modGov_vca (i : Nat) (f : Gov → Gov) (s : State) : (modGov i f s).vca = s.vca := rfl
@[simp] theorem modGov_lco (i : Nat) (f : Gov → Gov) (s : State) : (modGov i f s).lco = s.lco := rfl
@[simp] theorem modGov_out (i : Nat) (f : Gov → Gov) (s : State) : (modGov i f s).out = s.out := rfl
@[simp] theorem modGov_free (i : Nat) (f : Gov → Gov) (s : State) : (modGov i f s).free = s.free := rfl
@[simp] theorem modGov_pending (i : Nat) (f : Gov → Gov) (s : State) : (modGov i f s).pending = s.pending := rfl

@[simp] theorem applyClasses_cpx (s : State) : (applyClasses s).cpx = s.cpx := rfl
@[simp] theorem applyClasses_flash (s : State) : (applyClasses s).flash = s.flash := rfl
@[simp] theorem applyClasses_cpr (s : State) : (applyClasses s).cpr = s.cpr := rfl
@[simp] theorem applyClasses_hlp (s : State) : (applyClasses s).hlp = s.hlp := rfl
@[simp] theorem applyClasses_ptu (s : State) : (applyClasses s).ptu = s.ptu := rfl
@[simp] theorem applyClasses_cti (s : State) : (applyClasses s).cti = s.cti := rfl
@[simp] theorem applyClasses_tsu (s : State) : (applyClasses s).tsu = s.tsu := rfl
@[simp] theorem applyClasses_mss (s : State) : (applyClasses s).mss = s.mss := rfl
@[simp] theorem applyClasses_bpm (s : State) : (applyClasses s).bpm = s.bpm := rfl
@[simp] theorem applyClasses_fwe (s : State) : (applyClasses s).fwe = s.fwe := rfl
@[simp] theorem applyClasses_cpe (s : State) : (applyClasses s).cpe = s.cpe := rfl
@[simp] theorem applyClasses_tsh (s : State) : (applyClasses s).tsh = s.tsh := rfl
@[simp] theorem applyClasses_tds (s : State) : (applyClasses s).tds = s.tds := rfl
@[simp] theorem applyClasses_aue (s : State) : (applyClasses s).aue = s.aue := rfl
@[simp] theorem applyClasses_vca (s : State) : (applyClasses s).vca = s.vca := rfl
@[simp] theorem applyClasses_lco (s : State) : (applyClasses s).lco = s.lco := rfl
@[simp] theorem applyClasses_out (s : State) : (applyClasses s).out = s.out := rfl
@[simp] theorem applyClasses_free (s : State) : (applyClasses s).free = s.free := rfl
@[simp] theorem applyClasses_pending (s : State) : (applyClasses s).pending = s.pending := rfl

@[simp] theorem hlpCount_hlp (i n : Nat) (s : State) :
    (hlpCount i n s).hlp = { s.hlp with counters := s.hlp.counters.modify i fun x => inc32 x n } := rfl
@[simp] theorem hlpCount_cpx (i n : Nat) (s : State) : (hlpCount i n s).cpx = s.cpx := rfl
@[simp] theorem hlpCount_flash (i n : Nat) (s : State) : (hlpCount i n s).flash = s.flash := rfl
@[simp] theorem hlpCount_cpr (i n : Nat) (s : State) : (hlpCount i n s).cpr = s.cpr := rfl
@[simp] theorem hlpCount_ptu (i n : Nat) (s : State) : (hlpCount i n s).ptu = s.ptu := rfl
@[simp] theorem hlpCount_cti (i n : Nat) (s : State) : (hlpCount i n s).cti = s.cti := rfl
@[simp] theorem hlpCount_tsu (i n : Nat) (s : State) : (hlpCount i n s).tsu = s.tsu := rfl
@[simp] theorem hlpCount_mss (i n : Nat) (s : State) : (hlpCount i n s).mss = s.mss := rfl
@[simp] theorem hlpCount_bpm (i n : Nat) (s : State) : (hlpCount i n s).bpm = s.bpm := rfl
@[simp] theorem hlpCount_fwe (i n : Nat) (s : State) : (hlpCount i n s).fwe = s.fwe := rfl
@[simp] theorem hlpCount_cpe (i n : Nat) (s : State) : (hlpCount i n s).cpe = s.cpe := rfl
@[simp] theorem hlpCount_tsh (i n : Nat) (s : State) : (hlpCount i n s).tsh = s.tsh := rfl
@[simp] theorem hlpCount_tds (i n : Nat) (s : State) : (hlpCount i n s).tds = s.tds := rfl
@[simp] theorem hlpCount_aue (i n : Nat) (s : State) : (hlpCount i n s).aue = s.aue := rfl
@[simp] theorem hlpCount_vca (i n : Nat) (s : State) : (hlpCount i n s).vca = s.vca := rfl
@[simp] theorem hlpCount_lco (i n : Nat) (s : State) : (hlpCount i n s).lco = s.lco := rfl
@[simp] theorem hlpCount_lgv (i n : Nat) (s : State) : (hlpCount i n s).lgv = s.lgv := rfl
@[simp] theorem hlpCount_out (i n : Nat) (s : State) : (hlpCount i n s).out = s.out := rfl
@[simp] theorem hlpCount_free (i n : Nat) (s : State) : (hlpCount i n s).free = s.free := rfl
@[simp] theorem hlpCount_pending (i n : Nat) (s : State) : (hlpCount i n s).pending = s.pending := rfl

@[simp] theorem laneSync_cpx (s : State) : (laneSync s).cpx = s.cpx := rfl
@[simp] theorem laneSync_flash (s : State) : (laneSync s).flash = s.flash := rfl
@[simp] theorem laneSync_cpr (s : State) : (laneSync s).cpr = s.cpr := rfl
@[simp] theorem laneSync_ptu (s : State) : (laneSync s).ptu = s.ptu := rfl
@[simp] theorem laneSync_cti (s : State) : (laneSync s).cti = s.cti := rfl
@[simp] theorem laneSync_tsu (s : State) : (laneSync s).tsu = s.tsu := rfl
@[simp] theorem laneSync_mss (s : State) : (laneSync s).mss = s.mss := rfl
@[simp] theorem laneSync_bpm (s : State) : (laneSync s).bpm = s.bpm := rfl
@[simp] theorem laneSync_fwe (s : State) : (laneSync s).fwe = s.fwe := rfl
@[simp] theorem laneSync_cpe (s : State) : (laneSync s).cpe = s.cpe := rfl
@[simp] theorem laneSync_tsh (s : State) : (laneSync s).tsh = s.tsh := rfl
@[simp] theorem laneSync_tds (s : State) : (laneSync s).tds = s.tds := rfl
@[simp] theorem laneSync_aue (s : State) : (laneSync s).aue = s.aue := rfl
@[simp] theorem laneSync_vca (s : State) : (laneSync s).vca = s.vca := rfl
@[simp] theorem laneSync_lco (s : State) : (laneSync s).lco = s.lco := rfl
@[simp] theorem laneSync_lgv (s : State) : (laneSync s).lgv = s.lgv := rfl
@[simp] theorem laneSync_out (s : State) : (laneSync s).out = s.out := rfl
@[simp] theorem laneSync_free (s : State) : (laneSync s).free = s.free := rfl
@[simp] theorem laneSync_pending (s : State) : (laneSync s).pending = s.pending := rfl

@[simp] theorem leaveLink_flash (s : State) : (leaveLink s).flash = s.flash := rfl
@[simp] theorem leaveLink_cpr (s : State) : (leaveLink s).cpr = s.cpr := rfl
@[simp] theorem leaveLink_ptu (s : State) : (leaveLink s).ptu = s.ptu := rfl
@[simp] theorem leaveLink_cti (s : State) : (leaveLink s).cti = s.cti := rfl
@[simp] theorem leaveLink_tsu (s : State) : (leaveLink s).tsu = s.tsu := rfl
@[simp] theorem leaveLink_mss (s : State) : (leaveLink s).mss = s.mss := rfl
@[simp] theorem leaveLink_bpm (s : State) : (leaveLink s).bpm = s.bpm := rfl
@[simp] theorem leaveLink_fwe (s : State) : (leaveLink s).fwe = s.fwe := rfl
@[simp] theorem leaveLink_cpe (s : State) : (leaveLink s).cpe = s.cpe := rfl
@[simp] theorem leaveLink_tsh (s : State) : (leaveLink s).tsh = s.tsh := rfl
@[simp] theorem leaveLink_tds (s : State) : (leaveLink s).tds = s.tds := rfl
@[simp] theorem leaveLink_aue (s : State) : (leaveLink s).aue = s.aue := rfl
@[simp] theorem leaveLink_vca (s : State) : (leaveLink s).vca = s.vca := rfl
@[simp] theorem leaveLink_lco (s : State) : (leaveLink s).lco = s.lco := rfl
@[simp] theorem leaveLink_lgv (s : State) : (leaveLink s).lgv = s.lgv := rfl
@[simp] theorem leaveLink_out (s : State) : (leaveLink s).out = s.out := rfl
@[simp] theorem leaveLink_free (s : State) : (leaveLink s).free = s.free := rfl
@[simp] theorem leaveLink_pending (s : State) : (leaveLink s).pending = s.pending := rfl

@[simp] theorem creditInit_flash (credits : List Nat) (s : State) : (creditInit credits s).flash = s.flash := rfl
@[simp] theorem creditInit_cpr (credits : List Nat) (s : State) : (creditInit credits s).cpr = s.cpr := rfl
@[simp] theorem creditInit_ptu (credits : List Nat) (s : State) : (creditInit credits s).ptu = s.ptu := rfl
@[simp] theorem creditInit_cti (credits : List Nat) (s : State) : (creditInit credits s).cti = s.cti := rfl
@[simp] theorem creditInit_tsu (credits : List Nat) (s : State) : (creditInit credits s).tsu = s.tsu := rfl
@[simp] theorem creditInit_mss (credits : List Nat) (s : State) : (creditInit credits s).mss = s.mss := rfl
@[simp] theorem creditInit_bpm (credits : List Nat) (s : State) : (creditInit credits s).bpm = s.bpm := rfl
@[simp] theorem creditInit_fwe (credits : List Nat) (s : State) : (creditInit credits s).fwe = s.fwe := rfl
@[simp] theorem creditInit_cpe (credits : List Nat) (s : State) : (creditInit credits s).cpe = s.cpe := rfl
@[simp] theorem creditInit_tsh (credits : List Nat) (s : State) : (creditInit credits s).tsh = s.tsh := rfl
@[simp] theorem creditInit_tds (credits : List Nat) (s : State) : (creditInit credits s).tds = s.tds := rfl
@[simp] theorem creditInit_aue (credits : List Nat) (s : State) : (creditInit credits s).aue = s.aue := rfl
@[simp] theorem creditInit_vca (credits : List Nat) (s : State) : (creditInit credits s).vca = s.vca := rfl
@[simp] theorem creditInit_lco (credits : List Nat) (s : State) : (creditInit credits s).lco = s.lco := rfl
@[simp] theorem creditInit_lgv (credits : List Nat) (s : State) : (creditInit credits s).lgv = s.lgv := rfl
@[simp] theorem creditInit_out (credits : List Nat) (s : State) : (creditInit credits s).out = s.out := rfl
@[simp] theorem creditInit_free (credits : List Nat) (s : State) : (creditInit credits s).free = s.free := rfl
@[simp] theorem creditInit_pending (credits : List Nat) (s : State) : (creditInit credits s).pending = s.pending := rfl

@[simp] theorem ackFlits_hlp (seq : Nat) (s : State) : (ackFlits seq s).hlp = { s.hlp with replay := afterSeq seq s.hlp.replay } := rfl
@[simp] theorem ackFlits_cpx (seq : Nat) (s : State) : (ackFlits seq s).cpx = s.cpx := rfl
@[simp] theorem ackFlits_flash (seq : Nat) (s : State) : (ackFlits seq s).flash = s.flash := rfl
@[simp] theorem ackFlits_cpr (seq : Nat) (s : State) : (ackFlits seq s).cpr = s.cpr := rfl
@[simp] theorem ackFlits_ptu (seq : Nat) (s : State) : (ackFlits seq s).ptu = s.ptu := rfl
@[simp] theorem ackFlits_cti (seq : Nat) (s : State) : (ackFlits seq s).cti = s.cti := rfl
@[simp] theorem ackFlits_tsu (seq : Nat) (s : State) : (ackFlits seq s).tsu = s.tsu := rfl
@[simp] theorem ackFlits_mss (seq : Nat) (s : State) : (ackFlits seq s).mss = s.mss := rfl
@[simp] theorem ackFlits_bpm (seq : Nat) (s : State) : (ackFlits seq s).bpm = s.bpm := rfl
@[simp] theorem ackFlits_fwe (seq : Nat) (s : State) : (ackFlits seq s).fwe = s.fwe := rfl
@[simp] theorem ackFlits_cpe (seq : Nat) (s : State) : (ackFlits seq s).cpe = s.cpe := rfl
@[simp] theorem ackFlits_tsh (seq : Nat) (s : State) : (ackFlits seq s).tsh = s.tsh := rfl
@[simp] theorem ackFlits_tds (seq : Nat) (s : State) : (ackFlits seq s).tds = s.tds := rfl
@[simp] theorem ackFlits_aue (seq : Nat) (s : State) : (ackFlits seq s).aue = s.aue := rfl
@[simp] theorem ackFlits_vca (seq : Nat) (s : State) : (ackFlits seq s).vca = s.vca := rfl
@[simp] theorem ackFlits_lco (seq : Nat) (s : State) : (ackFlits seq s).lco = s.lco := rfl
@[simp] theorem ackFlits_lgv (seq : Nat) (s : State) : (ackFlits seq s).lgv = s.lgv := rfl
@[simp] theorem ackFlits_out (seq : Nat) (s : State) : (ackFlits seq s).out = s.out := rfl
@[simp] theorem ackFlits_free (seq : Nat) (s : State) : (ackFlits seq s).free = s.free := rfl
@[simp] theorem ackFlits_pending (seq : Nat) (s : State) : (ackFlits seq s).pending = s.pending := rfl

@[simp] theorem modStream_fwe (st : Nat) (f : Stream → Stream) (s : State) :
    (modStream st f s).fwe = { s.fwe with streams := tmod s.fwe.streams st f } := rfl
@[simp] theorem modStream_cpx (st : Nat) (f : Stream → Stream) (s : State) : (modStream st f s).cpx = s.cpx := rfl
@[simp] theorem modStream_flash (st : Nat) (f : Stream → Stream) (s : State) : (modStream st f s).flash = s.flash := rfl
@[simp] theorem modStream_cpr (st : Nat) (f : Stream → Stream) (s : State) : (modStream st f s).cpr = s.cpr := rfl
@[simp] theorem modStream_hlp (st : Nat) (f : Stream → Stream) (s : State) : (modStream st f s).hlp = s.hlp := rfl
@[simp] theorem modStream_ptu (st : Nat) (f : Stream → Stream) (s : State) : (modStream st f s).ptu = s.ptu := rfl
@[simp] theorem modStream_cti (st : Nat) (f : Stream → Stream) (s : State) : (modStream st f s).cti = s.cti := rfl
@[simp] theorem modStream_tsu (st : Nat) (f : Stream → Stream) (s : State) : (modStream st f s).tsu = s.tsu := rfl
@[simp] theorem modStream_mss (st : Nat) (f : Stream → Stream) (s : State) : (modStream st f s).mss = s.mss := rfl
@[simp] theorem modStream_bpm (st : Nat) (f : Stream → Stream) (s : State) : (modStream st f s).bpm = s.bpm := rfl
@[simp] theorem modStream_cpe (st : Nat) (f : Stream → Stream) (s : State) : (modStream st f s).cpe = s.cpe := rfl
@[simp] theorem modStream_tsh (st : Nat) (f : Stream → Stream) (s : State) : (modStream st f s).tsh = s.tsh := rfl
@[simp] theorem modStream_tds (st : Nat) (f : Stream → Stream) (s : State) : (modStream st f s).tds = s.tds := rfl
@[simp] theorem modStream_aue (st : Nat) (f : Stream → Stream) (s : State) : (modStream st f s).aue = s.aue := rfl
@[simp] theorem modStream_vca (st : Nat) (f : Stream → Stream) (s : State) : (modStream st f s).vca = s.vca := rfl
@[simp] theorem modStream_lco (st : Nat) (f : Stream → Stream) (s : State) : (modStream st f s).lco = s.lco := rfl
@[simp] theorem modStream_lgv (st : Nat) (f : Stream → Stream) (s : State) : (modStream st f s).lgv = s.lgv := rfl
@[simp] theorem modStream_out (st : Nat) (f : Stream → Stream) (s : State) : (modStream st f s).out = s.out := rfl
@[simp] theorem modStream_free (st : Nat) (f : Stream → Stream) (s : State) : (modStream st f s).free = s.free := rfl
@[simp] theorem modStream_pending (st : Nat) (f : Stream → Stream) (s : State) : (modStream st f s).pending = s.pending := rfl

@[simp] theorem modEntry_fwe (i : Nat) (f : Entry → Entry) (s : State) :
    (modEntry i f s).fwe = { s.fwe with ledger := tmod s.fwe.ledger i f } := rfl
@[simp] theorem modEntry_cpx (i : Nat) (f : Entry → Entry) (s : State) : (modEntry i f s).cpx = s.cpx := rfl
@[simp] theorem modEntry_flash (i : Nat) (f : Entry → Entry) (s : State) : (modEntry i f s).flash = s.flash := rfl
@[simp] theorem modEntry_cpr (i : Nat) (f : Entry → Entry) (s : State) : (modEntry i f s).cpr = s.cpr := rfl
@[simp] theorem modEntry_hlp (i : Nat) (f : Entry → Entry) (s : State) : (modEntry i f s).hlp = s.hlp := rfl
@[simp] theorem modEntry_ptu (i : Nat) (f : Entry → Entry) (s : State) : (modEntry i f s).ptu = s.ptu := rfl
@[simp] theorem modEntry_cti (i : Nat) (f : Entry → Entry) (s : State) : (modEntry i f s).cti = s.cti := rfl
@[simp] theorem modEntry_tsu (i : Nat) (f : Entry → Entry) (s : State) : (modEntry i f s).tsu = s.tsu := rfl
@[simp] theorem modEntry_mss (i : Nat) (f : Entry → Entry) (s : State) : (modEntry i f s).mss = s.mss := rfl
@[simp] theorem modEntry_bpm (i : Nat) (f : Entry → Entry) (s : State) : (modEntry i f s).bpm = s.bpm := rfl
@[simp] theorem modEntry_cpe (i : Nat) (f : Entry → Entry) (s : State) : (modEntry i f s).cpe = s.cpe := rfl
@[simp] theorem modEntry_tsh (i : Nat) (f : Entry → Entry) (s : State) : (modEntry i f s).tsh = s.tsh := rfl
@[simp] theorem modEntry_tds (i : Nat) (f : Entry → Entry) (s : State) : (modEntry i f s).tds = s.tds := rfl
@[simp] theorem modEntry_aue (i : Nat) (f : Entry → Entry) (s : State) : (modEntry i f s).aue = s.aue := rfl
@[simp] theorem modEntry_vca (i : Nat) (f : Entry → Entry) (s : State) : (modEntry i f s).vca = s.vca := rfl
@[simp] theorem modEntry_lco (i : Nat) (f : Entry → Entry) (s : State) : (modEntry i f s).lco = s.lco := rfl
@[simp] theorem modEntry_lgv (i : Nat) (f : Entry → Entry) (s : State) : (modEntry i f s).lgv = s.lgv := rfl
@[simp] theorem modEntry_out (i : Nat) (f : Entry → Entry) (s : State) : (modEntry i f s).out = s.out := rfl
@[simp] theorem modEntry_free (i : Nat) (f : Entry → Entry) (s : State) : (modEntry i f s).free = s.free := rfl
@[simp] theorem modEntry_pending (i : Nat) (f : Entry → Entry) (s : State) : (modEntry i f s).pending = s.pending := rfl

@[simp] theorem setHeld_mss (link : Nat) (l : List ReplayFlit) (s : State) :
    (setHeld link l s).mss = { s.mss with linkReplay := if l.isEmpty then terase s.mss.linkReplay link else tset s.mss.linkReplay link l } := rfl
@[simp] theorem setHeld_cpx (link : Nat) (l : List ReplayFlit) (s : State) : (setHeld link l s).cpx = s.cpx := rfl
@[simp] theorem setHeld_flash (link : Nat) (l : List ReplayFlit) (s : State) : (setHeld link l s).flash = s.flash := rfl
@[simp] theorem setHeld_cpr (link : Nat) (l : List ReplayFlit) (s : State) : (setHeld link l s).cpr = s.cpr := rfl
@[simp] theorem setHeld_hlp (link : Nat) (l : List ReplayFlit) (s : State) : (setHeld link l s).hlp = s.hlp := rfl
@[simp] theorem setHeld_ptu (link : Nat) (l : List ReplayFlit) (s : State) : (setHeld link l s).ptu = s.ptu := rfl
@[simp] theorem setHeld_cti (link : Nat) (l : List ReplayFlit) (s : State) : (setHeld link l s).cti = s.cti := rfl
@[simp] theorem setHeld_tsu (link : Nat) (l : List ReplayFlit) (s : State) : (setHeld link l s).tsu = s.tsu := rfl
@[simp] theorem setHeld_bpm (link : Nat) (l : List ReplayFlit) (s : State) : (setHeld link l s).bpm = s.bpm := rfl
@[simp] theorem setHeld_fwe (link : Nat) (l : List ReplayFlit) (s : State) : (setHeld link l s).fwe = s.fwe := rfl
@[simp] theorem setHeld_cpe (link : Nat) (l : List ReplayFlit) (s : State) : (setHeld link l s).cpe = s.cpe := rfl
@[simp] theorem setHeld_tsh (link : Nat) (l : List ReplayFlit) (s : State) : (setHeld link l s).tsh = s.tsh := rfl
@[simp] theorem setHeld_tds (link : Nat) (l : List ReplayFlit) (s : State) : (setHeld link l s).tds = s.tds := rfl
@[simp] theorem setHeld_aue (link : Nat) (l : List ReplayFlit) (s : State) : (setHeld link l s).aue = s.aue := rfl
@[simp] theorem setHeld_vca (link : Nat) (l : List ReplayFlit) (s : State) : (setHeld link l s).vca = s.vca := rfl
@[simp] theorem setHeld_lco (link : Nat) (l : List ReplayFlit) (s : State) : (setHeld link l s).lco = s.lco := rfl
@[simp] theorem setHeld_lgv (link : Nat) (l : List ReplayFlit) (s : State) : (setHeld link l s).lgv = s.lgv := rfl
@[simp] theorem setHeld_out (link : Nat) (l : List ReplayFlit) (s : State) : (setHeld link l s).out = s.out := rfl
@[simp] theorem setHeld_free (link : Nat) (l : List ReplayFlit) (s : State) : (setHeld link l s).free = s.free := rfl
@[simp] theorem setHeld_pending (link : Nat) (l : List ReplayFlit) (s : State) : (setHeld link l s).pending = s.pending := rfl

@[simp] theorem modQueue_cpx (qi : Nat) (f : CmdQ → CmdQ) (s : State) :
    (modQueue qi f s).cpx = { s.cpx with queues := s.cpx.queues.modify qi f } := rfl
@[simp] theorem modQueue_flash (qi : Nat) (f : CmdQ → CmdQ) (s : State) : (modQueue qi f s).flash = s.flash := rfl
@[simp] theorem modQueue_cpr (qi : Nat) (f : CmdQ → CmdQ) (s : State) : (modQueue qi f s).cpr = s.cpr := rfl
@[simp] theorem modQueue_hlp (qi : Nat) (f : CmdQ → CmdQ) (s : State) : (modQueue qi f s).hlp = s.hlp := rfl
@[simp] theorem modQueue_ptu (qi : Nat) (f : CmdQ → CmdQ) (s : State) : (modQueue qi f s).ptu = s.ptu := rfl
@[simp] theorem modQueue_cti (qi : Nat) (f : CmdQ → CmdQ) (s : State) : (modQueue qi f s).cti = s.cti := rfl
@[simp] theorem modQueue_tsu (qi : Nat) (f : CmdQ → CmdQ) (s : State) : (modQueue qi f s).tsu = s.tsu := rfl
@[simp] theorem modQueue_mss (qi : Nat) (f : CmdQ → CmdQ) (s : State) : (modQueue qi f s).mss = s.mss := rfl
@[simp] theorem modQueue_bpm (qi : Nat) (f : CmdQ → CmdQ) (s : State) : (modQueue qi f s).bpm = s.bpm := rfl
@[simp] theorem modQueue_fwe (qi : Nat) (f : CmdQ → CmdQ) (s : State) : (modQueue qi f s).fwe = s.fwe := rfl
@[simp] theorem modQueue_cpe (qi : Nat) (f : CmdQ → CmdQ) (s : State) : (modQueue qi f s).cpe = s.cpe := rfl
@[simp] theorem modQueue_tsh (qi : Nat) (f : CmdQ → CmdQ) (s : State) : (modQueue qi f s).tsh = s.tsh := rfl
@[simp] theorem modQueue_tds (qi : Nat) (f : CmdQ → CmdQ) (s : State) : (modQueue qi f s).tds = s.tds := rfl
@[simp] theorem modQueue_aue (qi : Nat) (f : CmdQ → CmdQ) (s : State) : (modQueue qi f s).aue = s.aue := rfl
@[simp] theorem modQueue_vca (qi : Nat) (f : CmdQ → CmdQ) (s : State) : (modQueue qi f s).vca = s.vca := rfl
@[simp] theorem modQueue_lco (qi : Nat) (f : CmdQ → CmdQ) (s : State) : (modQueue qi f s).lco = s.lco := rfl
@[simp] theorem modQueue_lgv (qi : Nat) (f : CmdQ → CmdQ) (s : State) : (modQueue qi f s).lgv = s.lgv := rfl
@[simp] theorem modQueue_out (qi : Nat) (f : CmdQ → CmdQ) (s : State) : (modQueue qi f s).out = s.out := rfl
@[simp] theorem modQueue_free (qi : Nat) (f : CmdQ → CmdQ) (s : State) : (modQueue qi f s).free = s.free := rfl
@[simp] theorem modQueue_pending (qi : Nat) (f : CmdQ → CmdQ) (s : State) : (modQueue qi f s).pending = s.pending := rfl

@[simp] theorem emit_cpx (o : Output) (s : State) : (emit o s).cpx = s.cpx := rfl
@[simp] theorem emit_flash (o : Output) (s : State) : (emit o s).flash = s.flash := rfl
@[simp] theorem emit_cpr (o : Output) (s : State) : (emit o s).cpr = s.cpr := rfl
@[simp] theorem emit_hlp (o : Output) (s : State) : (emit o s).hlp = s.hlp := rfl
@[simp] theorem emit_ptu (o : Output) (s : State) : (emit o s).ptu = s.ptu := rfl
@[simp] theorem emit_cti (o : Output) (s : State) : (emit o s).cti = s.cti := rfl
@[simp] theorem emit_tsu (o : Output) (s : State) : (emit o s).tsu = s.tsu := rfl
@[simp] theorem emit_mss (o : Output) (s : State) : (emit o s).mss = s.mss := rfl
@[simp] theorem emit_bpm (o : Output) (s : State) : (emit o s).bpm = s.bpm := rfl
@[simp] theorem emit_fwe (o : Output) (s : State) : (emit o s).fwe = s.fwe := rfl
@[simp] theorem emit_cpe (o : Output) (s : State) : (emit o s).cpe = s.cpe := rfl
@[simp] theorem emit_tsh (o : Output) (s : State) : (emit o s).tsh = s.tsh := rfl
@[simp] theorem emit_tds (o : Output) (s : State) : (emit o s).tds = s.tds := rfl
@[simp] theorem emit_aue (o : Output) (s : State) : (emit o s).aue = s.aue := rfl
@[simp] theorem emit_vca (o : Output) (s : State) : (emit o s).vca = s.vca := rfl
@[simp] theorem emit_lco (o : Output) (s : State) : (emit o s).lco = s.lco := rfl
@[simp] theorem emit_lgv (o : Output) (s : State) : (emit o s).lgv = s.lgv := rfl
@[simp] theorem emit_free (o : Output) (s : State) : (emit o s).free = s.free := rfl
@[simp] theorem emit_pending (o : Output) (s : State) : (emit o s).pending = s.pending := rfl

@[simp] theorem svcCount_cti (i : Nat) (s : State) :
    (svcCount i s).cti = { s.cti with svc.counters := s.cti.svc.counters.modify i fun n => inc32 n } := rfl
@[simp] theorem svcCount_cpx (i : Nat) (s : State) : (svcCount i s).cpx = s.cpx := rfl
@[simp] theorem svcCount_flash (i : Nat) (s : State) : (svcCount i s).flash = s.flash := rfl
@[simp] theorem svcCount_cpr (i : Nat) (s : State) : (svcCount i s).cpr = s.cpr := rfl
@[simp] theorem svcCount_hlp (i : Nat) (s : State) : (svcCount i s).hlp = s.hlp := rfl
@[simp] theorem svcCount_ptu (i : Nat) (s : State) : (svcCount i s).ptu = s.ptu := rfl
@[simp] theorem svcCount_tsu (i : Nat) (s : State) : (svcCount i s).tsu = s.tsu := rfl
@[simp] theorem svcCount_mss (i : Nat) (s : State) : (svcCount i s).mss = s.mss := rfl
@[simp] theorem svcCount_bpm (i : Nat) (s : State) : (svcCount i s).bpm = s.bpm := rfl
@[simp] theorem svcCount_fwe (i : Nat) (s : State) : (svcCount i s).fwe = s.fwe := rfl
@[simp] theorem svcCount_cpe (i : Nat) (s : State) : (svcCount i s).cpe = s.cpe := rfl
@[simp] theorem svcCount_tsh (i : Nat) (s : State) : (svcCount i s).tsh = s.tsh := rfl
@[simp] theorem svcCount_tds (i : Nat) (s : State) : (svcCount i s).tds = s.tds := rfl
@[simp] theorem svcCount_aue (i : Nat) (s : State) : (svcCount i s).aue = s.aue := rfl
@[simp] theorem svcCount_vca (i : Nat) (s : State) : (svcCount i s).vca = s.vca := rfl
@[simp] theorem svcCount_lco (i : Nat) (s : State) : (svcCount i s).lco = s.lco := rfl
@[simp] theorem svcCount_lgv (i : Nat) (s : State) : (svcCount i s).lgv = s.lgv := rfl
@[simp] theorem svcCount_out (i : Nat) (s : State) : (svcCount i s).out = s.out := rfl
@[simp] theorem svcCount_free (i : Nat) (s : State) : (svcCount i s).free = s.free := rfl
@[simp] theorem svcCount_pending (i : Nat) (s : State) : (svcCount i s).pending = s.pending := rfl

@[simp] theorem bumpMib_ptu (s : State) :
    (bumpMib s).ptu = { s.ptu with mibSync := if s.ptu.mibSync = 255 then 1 else s.ptu.mibSync + 1 } := rfl
@[simp] theorem bumpMib_cpx (s : State) : (bumpMib s).cpx = s.cpx := rfl
@[simp] theorem bumpMib_flash (s : State) : (bumpMib s).flash = s.flash := rfl
@[simp] theorem bumpMib_cpr (s : State) : (bumpMib s).cpr = s.cpr := rfl
@[simp] theorem bumpMib_hlp (s : State) : (bumpMib s).hlp = s.hlp := rfl
@[simp] theorem bumpMib_cti (s : State) : (bumpMib s).cti = s.cti := rfl
@[simp] theorem bumpMib_tsu (s : State) : (bumpMib s).tsu = s.tsu := rfl
@[simp] theorem bumpMib_mss (s : State) : (bumpMib s).mss = s.mss := rfl
@[simp] theorem bumpMib_bpm (s : State) : (bumpMib s).bpm = s.bpm := rfl
@[simp] theorem bumpMib_fwe (s : State) : (bumpMib s).fwe = s.fwe := rfl
@[simp] theorem bumpMib_cpe (s : State) : (bumpMib s).cpe = s.cpe := rfl
@[simp] theorem bumpMib_tsh (s : State) : (bumpMib s).tsh = s.tsh := rfl
@[simp] theorem bumpMib_tds (s : State) : (bumpMib s).tds = s.tds := rfl
@[simp] theorem bumpMib_aue (s : State) : (bumpMib s).aue = s.aue := rfl
@[simp] theorem bumpMib_vca (s : State) : (bumpMib s).vca = s.vca := rfl
@[simp] theorem bumpMib_lco (s : State) : (bumpMib s).lco = s.lco := rfl
@[simp] theorem bumpMib_lgv (s : State) : (bumpMib s).lgv = s.lgv := rfl
@[simp] theorem bumpMib_out (s : State) : (bumpMib s).out = s.out := rfl
@[simp] theorem bumpMib_free (s : State) : (bumpMib s).free = s.free := rfl
@[simp] theorem bumpMib_pending (s : State) : (bumpMib s).pending = s.pending := rfl

@[simp] theorem modJob_vca (j : Nat) (f : Job → Job) (s : State) : (modJob j f s).vca = { s.vca with jobs := tmod s.vca.jobs j f } := rfl
@[simp] theorem modJob_cpx (j : Nat) (f : Job → Job) (s : State) : (modJob j f s).cpx = s.cpx := rfl
@[simp] theorem modJob_flash (j : Nat) (f : Job → Job) (s : State) : (modJob j f s).flash = s.flash := rfl
@[simp] theorem modJob_cpr (j : Nat) (f : Job → Job) (s : State) : (modJob j f s).cpr = s.cpr := rfl
@[simp] theorem modJob_hlp (j : Nat) (f : Job → Job) (s : State) : (modJob j f s).hlp = s.hlp := rfl
@[simp] theorem modJob_ptu (j : Nat) (f : Job → Job) (s : State) : (modJob j f s).ptu = s.ptu := rfl
@[simp] theorem modJob_cti (j : Nat) (f : Job → Job) (s : State) : (modJob j f s).cti = s.cti := rfl
@[simp] theorem modJob_tsu (j : Nat) (f : Job → Job) (s : State) : (modJob j f s).tsu = s.tsu := rfl
@[simp] theorem modJob_mss (j : Nat) (f : Job → Job) (s : State) : (modJob j f s).mss = s.mss := rfl
@[simp] theorem modJob_bpm (j : Nat) (f : Job → Job) (s : State) : (modJob j f s).bpm = s.bpm := rfl
@[simp] theorem modJob_fwe (j : Nat) (f : Job → Job) (s : State) : (modJob j f s).fwe = s.fwe := rfl
@[simp] theorem modJob_cpe (j : Nat) (f : Job → Job) (s : State) : (modJob j f s).cpe = s.cpe := rfl
@[simp] theorem modJob_tsh (j : Nat) (f : Job → Job) (s : State) : (modJob j f s).tsh = s.tsh := rfl
@[simp] theorem modJob_tds (j : Nat) (f : Job → Job) (s : State) : (modJob j f s).tds = s.tds := rfl
@[simp] theorem modJob_aue (j : Nat) (f : Job → Job) (s : State) : (modJob j f s).aue = s.aue := rfl
@[simp] theorem modJob_lco (j : Nat) (f : Job → Job) (s : State) : (modJob j f s).lco = s.lco := rfl
@[simp] theorem modJob_lgv (j : Nat) (f : Job → Job) (s : State) : (modJob j f s).lgv = s.lgv := rfl
@[simp] theorem modJob_out (j : Nat) (f : Job → Job) (s : State) : (modJob j f s).out = s.out := rfl
@[simp] theorem modJob_free (j : Nat) (f : Job → Job) (s : State) : (modJob j f s).free = s.free := rfl
@[simp] theorem modJob_pending (j : Nat) (f : Job → Job) (s : State) : (modJob j f s).pending = s.pending := rfl

@[simp] theorem portCount_fwe (port i : Nat) (s : State) :
    (portCount port i s).fwe = { s.fwe with portCnt := s.fwe.portCnt.modify port fun l => l.modify i fun n => inc32 n } := rfl
@[simp] theorem portCount_cpx (port i : Nat) (s : State) : (portCount port i s).cpx = s.cpx := rfl
@[simp] theorem portCount_flash (port i : Nat) (s : State) : (portCount port i s).flash = s.flash := rfl
@[simp] theorem portCount_cpr (port i : Nat) (s : State) : (portCount port i s).cpr = s.cpr := rfl
@[simp] theorem portCount_hlp (port i : Nat) (s : State) : (portCount port i s).hlp = s.hlp := rfl
@[simp] theorem portCount_ptu (port i : Nat) (s : State) : (portCount port i s).ptu = s.ptu := rfl
@[simp] theorem portCount_cti (port i : Nat) (s : State) : (portCount port i s).cti = s.cti := rfl
@[simp] theorem portCount_tsu (port i : Nat) (s : State) : (portCount port i s).tsu = s.tsu := rfl
@[simp] theorem portCount_mss (port i : Nat) (s : State) : (portCount port i s).mss = s.mss := rfl
@[simp] theorem portCount_bpm (port i : Nat) (s : State) : (portCount port i s).bpm = s.bpm := rfl
@[simp] theorem portCount_cpe (port i : Nat) (s : State) : (portCount port i s).cpe = s.cpe := rfl
@[simp] theorem portCount_tsh (port i : Nat) (s : State) : (portCount port i s).tsh = s.tsh := rfl
@[simp] theorem portCount_tds (port i : Nat) (s : State) : (portCount port i s).tds = s.tds := rfl
@[simp] theorem portCount_aue (port i : Nat) (s : State) : (portCount port i s).aue = s.aue := rfl
@[simp] theorem portCount_vca (port i : Nat) (s : State) : (portCount port i s).vca = s.vca := rfl
@[simp] theorem portCount_lco (port i : Nat) (s : State) : (portCount port i s).lco = s.lco := rfl
@[simp] theorem portCount_lgv (port i : Nat) (s : State) : (portCount port i s).lgv = s.lgv := rfl
@[simp] theorem portCount_out (port i : Nat) (s : State) : (portCount port i s).out = s.out := rfl
@[simp] theorem portCount_free (port i : Nat) (s : State) : (portCount port i s).free = s.free := rfl
@[simp] theorem portCount_pending (port i : Nat) (s : State) : (portCount port i s).pending = s.pending := rfl

@[simp] theorem frameDiscard_hlp (s : State) :
    (frameDiscard s).hlp = { s.hlp with counters := s.hlp.counters.modify 7 fun n => inc32 n } := rfl
@[simp] theorem frameDiscard_cpx (s : State) : (frameDiscard s).cpx = s.cpx := rfl
@[simp] theorem frameDiscard_flash (s : State) : (frameDiscard s).flash = s.flash := rfl
@[simp] theorem frameDiscard_cpr (s : State) : (frameDiscard s).cpr = s.cpr := rfl
@[simp] theorem frameDiscard_ptu (s : State) : (frameDiscard s).ptu = s.ptu := rfl
@[simp] theorem frameDiscard_cti (s : State) : (frameDiscard s).cti = s.cti := rfl
@[simp] theorem frameDiscard_tsu (s : State) : (frameDiscard s).tsu = s.tsu := rfl
@[simp] theorem frameDiscard_mss (s : State) : (frameDiscard s).mss = s.mss := rfl
@[simp] theorem frameDiscard_bpm (s : State) : (frameDiscard s).bpm = s.bpm := rfl
@[simp] theorem frameDiscard_fwe (s : State) : (frameDiscard s).fwe = s.fwe := rfl
@[simp] theorem frameDiscard_cpe (s : State) : (frameDiscard s).cpe = s.cpe := rfl
@[simp] theorem frameDiscard_tsh (s : State) : (frameDiscard s).tsh = s.tsh := rfl
@[simp] theorem frameDiscard_tds (s : State) : (frameDiscard s).tds = s.tds := rfl
@[simp] theorem frameDiscard_aue (s : State) : (frameDiscard s).aue = s.aue := rfl
@[simp] theorem frameDiscard_vca (s : State) : (frameDiscard s).vca = s.vca := rfl
@[simp] theorem frameDiscard_lco (s : State) : (frameDiscard s).lco = s.lco := rfl
@[simp] theorem frameDiscard_lgv (s : State) : (frameDiscard s).lgv = s.lgv := rfl
@[simp] theorem frameDiscard_out (s : State) : (frameDiscard s).out = s.out := rfl
@[simp] theorem frameDiscard_free (s : State) : (frameDiscard s).free = s.free := rfl
@[simp] theorem frameDiscard_pending (s : State) : (frameDiscard s).pending = s.pending := rfl

@[simp] theorem modSave_flash (f : SaveSlot → SaveSlot) (s : State) :
    (modSave f s).flash = { s.flash with saves := s.flash.saves.modify (saveSlotOf (nextSave s - 1)) f } := rfl
@[simp] theorem modSave_cpx (f : SaveSlot → SaveSlot) (s : State) : (modSave f s).cpx = s.cpx := rfl
@[simp] theorem modSave_cpr (f : SaveSlot → SaveSlot) (s : State) : (modSave f s).cpr = s.cpr := rfl
@[simp] theorem modSave_hlp (f : SaveSlot → SaveSlot) (s : State) : (modSave f s).hlp = s.hlp := rfl
@[simp] theorem modSave_ptu (f : SaveSlot → SaveSlot) (s : State) : (modSave f s).ptu = s.ptu := rfl
@[simp] theorem modSave_cti (f : SaveSlot → SaveSlot) (s : State) : (modSave f s).cti = s.cti := rfl
@[simp] theorem modSave_tsu (f : SaveSlot → SaveSlot) (s : State) : (modSave f s).tsu = s.tsu := rfl
@[simp] theorem modSave_mss (f : SaveSlot → SaveSlot) (s : State) : (modSave f s).mss = s.mss := rfl
@[simp] theorem modSave_bpm (f : SaveSlot → SaveSlot) (s : State) : (modSave f s).bpm = s.bpm := rfl
@[simp] theorem modSave_fwe (f : SaveSlot → SaveSlot) (s : State) : (modSave f s).fwe = s.fwe := rfl
@[simp] theorem modSave_cpe (f : SaveSlot → SaveSlot) (s : State) : (modSave f s).cpe = s.cpe := rfl
@[simp] theorem modSave_tsh (f : SaveSlot → SaveSlot) (s : State) : (modSave f s).tsh = s.tsh := rfl
@[simp] theorem modSave_tds (f : SaveSlot → SaveSlot) (s : State) : (modSave f s).tds = s.tds := rfl
@[simp] theorem modSave_aue (f : SaveSlot → SaveSlot) (s : State) : (modSave f s).aue = s.aue := rfl
@[simp] theorem modSave_vca (f : SaveSlot → SaveSlot) (s : State) : (modSave f s).vca = s.vca := rfl
@[simp] theorem modSave_lco (f : SaveSlot → SaveSlot) (s : State) : (modSave f s).lco = s.lco := rfl
@[simp] theorem modSave_lgv (f : SaveSlot → SaveSlot) (s : State) : (modSave f s).lgv = s.lgv := rfl
@[simp] theorem modSave_out (f : SaveSlot → SaveSlot) (s : State) : (modSave f s).out = s.out := rfl
@[simp] theorem modSave_free (f : SaveSlot → SaveSlot) (s : State) : (modSave f s).free = s.free := rfl
@[simp] theorem modSave_pending (f : SaveSlot → SaveSlot) (s : State) : (modSave f s).pending = s.pending := rfl

@[simp] theorem modPort_tsh (port : Nat) (f : PortShape → PortShape) (s : State) :
    (modPort port f s).tsh = { s.tsh with ports := s.tsh.ports.modify port f } := rfl
@[simp] theorem modPort_cpx (port : Nat) (f : PortShape → PortShape) (s : State) : (modPort port f s).cpx = s.cpx := rfl
@[simp] theorem modPort_flash (port : Nat) (f : PortShape → PortShape) (s : State) : (modPort port f s).flash = s.flash := rfl
@[simp] theorem modPort_cpr (port : Nat) (f : PortShape → PortShape) (s : State) : (modPort port f s).cpr = s.cpr := rfl
@[simp] theorem modPort_hlp (port : Nat) (f : PortShape → PortShape) (s : State) : (modPort port f s).hlp = s.hlp := rfl
@[simp] theorem modPort_ptu (port : Nat) (f : PortShape → PortShape) (s : State) : (modPort port f s).ptu = s.ptu := rfl
@[simp] theorem modPort_cti (port : Nat) (f : PortShape → PortShape) (s : State) : (modPort port f s).cti = s.cti := rfl
@[simp] theorem modPort_tsu (port : Nat) (f : PortShape → PortShape) (s : State) : (modPort port f s).tsu = s.tsu := rfl
@[simp] theorem modPort_mss (port : Nat) (f : PortShape → PortShape) (s : State) : (modPort port f s).mss = s.mss := rfl
@[simp] theorem modPort_bpm (port : Nat) (f : PortShape → PortShape) (s : State) : (modPort port f s).bpm = s.bpm := rfl
@[simp] theorem modPort_fwe (port : Nat) (f : PortShape → PortShape) (s : State) : (modPort port f s).fwe = s.fwe := rfl
@[simp] theorem modPort_cpe (port : Nat) (f : PortShape → PortShape) (s : State) : (modPort port f s).cpe = s.cpe := rfl
@[simp] theorem modPort_tds (port : Nat) (f : PortShape → PortShape) (s : State) : (modPort port f s).tds = s.tds := rfl
@[simp] theorem modPort_aue (port : Nat) (f : PortShape → PortShape) (s : State) : (modPort port f s).aue = s.aue := rfl
@[simp] theorem modPort_vca (port : Nat) (f : PortShape → PortShape) (s : State) : (modPort port f s).vca = s.vca := rfl
@[simp] theorem modPort_lco (port : Nat) (f : PortShape → PortShape) (s : State) : (modPort port f s).lco = s.lco := rfl
@[simp] theorem modPort_lgv (port : Nat) (f : PortShape → PortShape) (s : State) : (modPort port f s).lgv = s.lgv := rfl
@[simp] theorem modPort_out (port : Nat) (f : PortShape → PortShape) (s : State) : (modPort port f s).out = s.out := rfl
@[simp] theorem modPort_free (port : Nat) (f : PortShape → PortShape) (s : State) : (modPort port f s).free = s.free := rfl
@[simp] theorem modPort_pending (port : Nat) (f : PortShape → PortShape) (s : State) : (modPort port f s).pending = s.pending := rfl

@[simp] theorem putQ_tsh (k : Nat) (fs : List Frame) (deficit : Nat) (s : State) :
    (putQ k fs deficit s).tsh = { s.tsh with queues := if fs.isEmpty then terase s.tsh.queues k else tset s.tsh.queues k ⟨fs, deficit⟩ } := rfl
@[simp] theorem putQ_cpx (k : Nat) (fs : List Frame) (deficit : Nat) (s : State) : (putQ k fs deficit s).cpx = s.cpx := rfl
@[simp] theorem putQ_flash (k : Nat) (fs : List Frame) (deficit : Nat) (s : State) : (putQ k fs deficit s).flash = s.flash := rfl
@[simp] theorem putQ_cpr (k : Nat) (fs : List Frame) (deficit : Nat) (s : State) : (putQ k fs deficit s).cpr = s.cpr := rfl
@[simp] theorem putQ_hlp (k : Nat) (fs : List Frame) (deficit : Nat) (s : State) : (putQ k fs deficit s).hlp = s.hlp := rfl
@[simp] theorem putQ_ptu (k : Nat) (fs : List Frame) (deficit : Nat) (s : State) : (putQ k fs deficit s).ptu = s.ptu := rfl
@[simp] theorem putQ_cti (k : Nat) (fs : List Frame) (deficit : Nat) (s : State) : (putQ k fs deficit s).cti = s.cti := rfl
@[simp] theorem putQ_tsu (k : Nat) (fs : List Frame) (deficit : Nat) (s : State) : (putQ k fs deficit s).tsu = s.tsu := rfl
@[simp] theorem putQ_mss (k : Nat) (fs : List Frame) (deficit : Nat) (s : State) : (putQ k fs deficit s).mss = s.mss := rfl
@[simp] theorem putQ_bpm (k : Nat) (fs : List Frame) (deficit : Nat) (s : State) : (putQ k fs deficit s).bpm = s.bpm := rfl
@[simp] theorem putQ_fwe (k : Nat) (fs : List Frame) (deficit : Nat) (s : State) : (putQ k fs deficit s).fwe = s.fwe := rfl
@[simp] theorem putQ_cpe (k : Nat) (fs : List Frame) (deficit : Nat) (s : State) : (putQ k fs deficit s).cpe = s.cpe := rfl
@[simp] theorem putQ_tds (k : Nat) (fs : List Frame) (deficit : Nat) (s : State) : (putQ k fs deficit s).tds = s.tds := rfl
@[simp] theorem putQ_aue (k : Nat) (fs : List Frame) (deficit : Nat) (s : State) : (putQ k fs deficit s).aue = s.aue := rfl
@[simp] theorem putQ_vca (k : Nat) (fs : List Frame) (deficit : Nat) (s : State) : (putQ k fs deficit s).vca = s.vca := rfl
@[simp] theorem putQ_lco (k : Nat) (fs : List Frame) (deficit : Nat) (s : State) : (putQ k fs deficit s).lco = s.lco := rfl
@[simp] theorem putQ_lgv (k : Nat) (fs : List Frame) (deficit : Nat) (s : State) : (putQ k fs deficit s).lgv = s.lgv := rfl
@[simp] theorem putQ_out (k : Nat) (fs : List Frame) (deficit : Nat) (s : State) : (putQ k fs deficit s).out = s.out := rfl
@[simp] theorem putQ_free (k : Nat) (fs : List Frame) (deficit : Nat) (s : State) : (putQ k fs deficit s).free = s.free := rfl
@[simp] theorem putQ_pending (k : Nat) (fs : List Frame) (deficit : Nat) (s : State) : (putQ k fs deficit s).pending = s.pending := rfl

@[simp] theorem modStats_cpx (leg service port : Nat) (f : QStat → QStat) (s : State) : (modStats leg service port f s).cpx = s.cpx := rfl
@[simp] theorem modStats_flash (leg service port : Nat) (f : QStat → QStat) (s : State) : (modStats leg service port f s).flash = s.flash := rfl
@[simp] theorem modStats_cpr (leg service port : Nat) (f : QStat → QStat) (s : State) : (modStats leg service port f s).cpr = s.cpr := rfl
@[simp] theorem modStats_hlp (leg service port : Nat) (f : QStat → QStat) (s : State) : (modStats leg service port f s).hlp = s.hlp := rfl
@[simp] theorem modStats_ptu (leg service port : Nat) (f : QStat → QStat) (s : State) : (modStats leg service port f s).ptu = s.ptu := rfl
@[simp] theorem modStats_cti (leg service port : Nat) (f : QStat → QStat) (s : State) : (modStats leg service port f s).cti = s.cti := rfl
@[simp] theorem modStats_tsu (leg service port : Nat) (f : QStat → QStat) (s : State) : (modStats leg service port f s).tsu = s.tsu := rfl
@[simp] theorem modStats_mss (leg service port : Nat) (f : QStat → QStat) (s : State) : (modStats leg service port f s).mss = s.mss := rfl
@[simp] theorem modStats_bpm (leg service port : Nat) (f : QStat → QStat) (s : State) : (modStats leg service port f s).bpm = s.bpm := rfl
@[simp] theorem modStats_fwe (leg service port : Nat) (f : QStat → QStat) (s : State) : (modStats leg service port f s).fwe = s.fwe := rfl
@[simp] theorem modStats_cpe (leg service port : Nat) (f : QStat → QStat) (s : State) : (modStats leg service port f s).cpe = s.cpe := rfl
@[simp] theorem modStats_tds (leg service port : Nat) (f : QStat → QStat) (s : State) : (modStats leg service port f s).tds = s.tds := rfl
@[simp] theorem modStats_aue (leg service port : Nat) (f : QStat → QStat) (s : State) : (modStats leg service port f s).aue = s.aue := rfl
@[simp] theorem modStats_vca (leg service port : Nat) (f : QStat → QStat) (s : State) : (modStats leg service port f s).vca = s.vca := rfl
@[simp] theorem modStats_lco (leg service port : Nat) (f : QStat → QStat) (s : State) : (modStats leg service port f s).lco = s.lco := rfl
@[simp] theorem modStats_lgv (leg service port : Nat) (f : QStat → QStat) (s : State) : (modStats leg service port f s).lgv = s.lgv := rfl
@[simp] theorem modStats_out (leg service port : Nat) (f : QStat → QStat) (s : State) : (modStats leg service port f s).out = s.out := rfl
@[simp] theorem modStats_free (leg service port : Nat) (f : QStat → QStat) (s : State) : (modStats leg service port f s).free = s.free := rfl
@[simp] theorem modStats_pending (leg service port : Nat) (f : QStat → QStat) (s : State) : (modStats leg service port f s).pending = s.pending := rfl

@[simp] theorem legDrops_fwe (leg n : Nat) (s : State) :
    (legDrops leg n s).fwe = { s.fwe with legs := tmod s.fwe.legs leg fun l => { l with stats.drops := inc32 l.stats.drops n } } := rfl
@[simp] theorem legDrops_cpx (leg n : Nat) (s : State) : (legDrops leg n s).cpx = s.cpx := rfl
@[simp] theorem legDrops_flash (leg n : Nat) (s : State) : (legDrops leg n s).flash = s.flash := rfl
@[simp] theorem legDrops_cpr (leg n : Nat) (s : State) : (legDrops leg n s).cpr = s.cpr := rfl
@[simp] theorem legDrops_hlp (leg n : Nat) (s : State) : (legDrops leg n s).hlp = s.hlp := rfl
@[simp] theorem legDrops_ptu (leg n : Nat) (s : State) : (legDrops leg n s).ptu = s.ptu := rfl
@[simp] theorem legDrops_cti (leg n : Nat) (s : State) : (legDrops leg n s).cti = s.cti := rfl
@[simp] theorem legDrops_tsu (leg n : Nat) (s : State) : (legDrops leg n s).tsu = s.tsu := rfl
@[simp] theorem legDrops_mss (leg n : Nat) (s : State) : (legDrops leg n s).mss = s.mss := rfl
@[simp] theorem legDrops_bpm (leg n : Nat) (s : State) : (legDrops leg n s).bpm = s.bpm := rfl
@[simp] theorem legDrops_cpe (leg n : Nat) (s : State) : (legDrops leg n s).cpe = s.cpe := rfl
@[simp] theorem legDrops_tsh (leg n : Nat) (s : State) : (legDrops leg n s).tsh = s.tsh := rfl
@[simp] theorem legDrops_tds (leg n : Nat) (s : State) : (legDrops leg n s).tds = s.tds := rfl
@[simp] theorem legDrops_aue (leg n : Nat) (s : State) : (legDrops leg n s).aue = s.aue := rfl
@[simp] theorem legDrops_vca (leg n : Nat) (s : State) : (legDrops leg n s).vca = s.vca := rfl
@[simp] theorem legDrops_lco (leg n : Nat) (s : State) : (legDrops leg n s).lco = s.lco := rfl
@[simp] theorem legDrops_lgv (leg n : Nat) (s : State) : (legDrops leg n s).lgv = s.lgv := rfl
@[simp] theorem legDrops_out (leg n : Nat) (s : State) : (legDrops leg n s).out = s.out := rfl
@[simp] theorem legDrops_free (leg n : Nat) (s : State) : (legDrops leg n s).free = s.free := rfl
@[simp] theorem legDrops_pending (leg n : Nat) (s : State) : (legDrops leg n s).pending = s.pending := rfl

@[simp] theorem modCore_aue (c : Nat) (f : Core → Core) (s : State) :
    (modCore c f s).aue = { s.aue with cores := tmod s.aue.cores c f } := rfl
@[simp] theorem modCore_cpx (c : Nat) (f : Core → Core) (s : State) : (modCore c f s).cpx = s.cpx := rfl
@[simp] theorem modCore_flash (c : Nat) (f : Core → Core) (s : State) : (modCore c f s).flash = s.flash := rfl
@[simp] theorem modCore_cpr (c : Nat) (f : Core → Core) (s : State) : (modCore c f s).cpr = s.cpr := rfl
@[simp] theorem modCore_hlp (c : Nat) (f : Core → Core) (s : State) : (modCore c f s).hlp = s.hlp := rfl
@[simp] theorem modCore_ptu (c : Nat) (f : Core → Core) (s : State) : (modCore c f s).ptu = s.ptu := rfl
@[simp] theorem modCore_cti (c : Nat) (f : Core → Core) (s : State) : (modCore c f s).cti = s.cti := rfl
@[simp] theorem modCore_tsu (c : Nat) (f : Core → Core) (s : State) : (modCore c f s).tsu = s.tsu := rfl
@[simp] theorem modCore_mss (c : Nat) (f : Core → Core) (s : State) : (modCore c f s).mss = s.mss := rfl
@[simp] theorem modCore_bpm (c : Nat) (f : Core → Core) (s : State) : (modCore c f s).bpm = s.bpm := rfl
@[simp] theorem modCore_fwe (c : Nat) (f : Core → Core) (s : State) : (modCore c f s).fwe = s.fwe := rfl
@[simp] theorem modCore_cpe (c : Nat) (f : Core → Core) (s : State) : (modCore c f s).cpe = s.cpe := rfl
@[simp] theorem modCore_tsh (c : Nat) (f : Core → Core) (s : State) : (modCore c f s).tsh = s.tsh := rfl
@[simp] theorem modCore_tds (c : Nat) (f : Core → Core) (s : State) : (modCore c f s).tds = s.tds := rfl
@[simp] theorem modCore_vca (c : Nat) (f : Core → Core) (s : State) : (modCore c f s).vca = s.vca := rfl
@[simp] theorem modCore_lco (c : Nat) (f : Core → Core) (s : State) : (modCore c f s).lco = s.lco := rfl
@[simp] theorem modCore_lgv (c : Nat) (f : Core → Core) (s : State) : (modCore c f s).lgv = s.lgv := rfl
@[simp] theorem modCore_out (c : Nat) (f : Core → Core) (s : State) : (modCore c f s).out = s.out := rfl
@[simp] theorem modCore_free (c : Nat) (f : Core → Core) (s : State) : (modCore c f s).free = s.free := rfl
@[simp] theorem modCore_pending (c : Nat) (f : Core → Core) (s : State) : (modCore c f s).pending = s.pending := rfl

@[simp] theorem modRing_mss (conf : Nat) (f : Ring → Ring) (s : State) :
    (modRing conf f s).mss = { s.mss with rings := tmod s.mss.rings conf f } := rfl
@[simp] theorem modRing_cpx (conf : Nat) (f : Ring → Ring) (s : State) : (modRing conf f s).cpx = s.cpx := rfl
@[simp] theorem modRing_flash (conf : Nat) (f : Ring → Ring) (s : State) : (modRing conf f s).flash = s.flash := rfl
@[simp] theorem modRing_cpr (conf : Nat) (f : Ring → Ring) (s : State) : (modRing conf f s).cpr = s.cpr := rfl
@[simp] theorem modRing_hlp (conf : Nat) (f : Ring → Ring) (s : State) : (modRing conf f s).hlp = s.hlp := rfl
@[simp] theorem modRing_ptu (conf : Nat) (f : Ring → Ring) (s : State) : (modRing conf f s).ptu = s.ptu := rfl
@[simp] theorem modRing_cti (conf : Nat) (f : Ring → Ring) (s : State) : (modRing conf f s).cti = s.cti := rfl
@[simp] theorem modRing_tsu (conf : Nat) (f : Ring → Ring) (s : State) : (modRing conf f s).tsu = s.tsu := rfl
@[simp] theorem modRing_bpm (conf : Nat) (f : Ring → Ring) (s : State) : (modRing conf f s).bpm = s.bpm := rfl
@[simp] theorem modRing_fwe (conf : Nat) (f : Ring → Ring) (s : State) : (modRing conf f s).fwe = s.fwe := rfl
@[simp] theorem modRing_cpe (conf : Nat) (f : Ring → Ring) (s : State) : (modRing conf f s).cpe = s.cpe := rfl
@[simp] theorem modRing_tsh (conf : Nat) (f : Ring → Ring) (s : State) : (modRing conf f s).tsh = s.tsh := rfl
@[simp] theorem modRing_tds (conf : Nat) (f : Ring → Ring) (s : State) : (modRing conf f s).tds = s.tds := rfl
@[simp] theorem modRing_aue (conf : Nat) (f : Ring → Ring) (s : State) : (modRing conf f s).aue = s.aue := rfl
@[simp] theorem modRing_vca (conf : Nat) (f : Ring → Ring) (s : State) : (modRing conf f s).vca = s.vca := rfl
@[simp] theorem modRing_lco (conf : Nat) (f : Ring → Ring) (s : State) : (modRing conf f s).lco = s.lco := rfl
@[simp] theorem modRing_lgv (conf : Nat) (f : Ring → Ring) (s : State) : (modRing conf f s).lgv = s.lgv := rfl
@[simp] theorem modRing_out (conf : Nat) (f : Ring → Ring) (s : State) : (modRing conf f s).out = s.out := rfl
@[simp] theorem modRing_free (conf : Nat) (f : Ring → Ring) (s : State) : (modRing conf f s).free = s.free := rfl
@[simp] theorem modRing_pending (conf : Nat) (f : Ring → Ring) (s : State) : (modRing conf f s).pending = s.pending := rfl

@[simp] theorem recordsGone_cpx (conf : Nat) (gone : List CairnRec) (s : State) : (recordsGone conf gone s).cpx = s.cpx := rfl
@[simp] theorem recordsGone_flash (conf : Nat) (gone : List CairnRec) (s : State) : (recordsGone conf gone s).flash = s.flash := rfl
@[simp] theorem recordsGone_cpr (conf : Nat) (gone : List CairnRec) (s : State) : (recordsGone conf gone s).cpr = s.cpr := rfl
@[simp] theorem recordsGone_hlp (conf : Nat) (gone : List CairnRec) (s : State) : (recordsGone conf gone s).hlp = s.hlp := rfl
@[simp] theorem recordsGone_ptu (conf : Nat) (gone : List CairnRec) (s : State) : (recordsGone conf gone s).ptu = s.ptu := rfl
@[simp] theorem recordsGone_cti (conf : Nat) (gone : List CairnRec) (s : State) : (recordsGone conf gone s).cti = s.cti := rfl
@[simp] theorem recordsGone_tsu (conf : Nat) (gone : List CairnRec) (s : State) : (recordsGone conf gone s).tsu = s.tsu := rfl
@[simp] theorem recordsGone_bpm (conf : Nat) (gone : List CairnRec) (s : State) : (recordsGone conf gone s).bpm = s.bpm := rfl
@[simp] theorem recordsGone_fwe (conf : Nat) (gone : List CairnRec) (s : State) : (recordsGone conf gone s).fwe = s.fwe := rfl
@[simp] theorem recordsGone_cpe (conf : Nat) (gone : List CairnRec) (s : State) : (recordsGone conf gone s).cpe = s.cpe := rfl
@[simp] theorem recordsGone_tsh (conf : Nat) (gone : List CairnRec) (s : State) : (recordsGone conf gone s).tsh = s.tsh := rfl
@[simp] theorem recordsGone_tds (conf : Nat) (gone : List CairnRec) (s : State) : (recordsGone conf gone s).tds = s.tds := rfl
@[simp] theorem recordsGone_aue (conf : Nat) (gone : List CairnRec) (s : State) : (recordsGone conf gone s).aue = s.aue := rfl
@[simp] theorem recordsGone_vca (conf : Nat) (gone : List CairnRec) (s : State) : (recordsGone conf gone s).vca = s.vca := rfl
@[simp] theorem recordsGone_lco (conf : Nat) (gone : List CairnRec) (s : State) : (recordsGone conf gone s).lco = s.lco := rfl
@[simp] theorem recordsGone_lgv (conf : Nat) (gone : List CairnRec) (s : State) : (recordsGone conf gone s).lgv = s.lgv := rfl
@[simp] theorem recordsGone_out (conf : Nat) (gone : List CairnRec) (s : State) : (recordsGone conf gone s).out = s.out := rfl
@[simp] theorem recordsGone_free (conf : Nat) (gone : List CairnRec) (s : State) : (recordsGone conf gone s).free = s.free := rfl
@[simp] theorem recordsGone_pending (conf : Nat) (gone : List CairnRec) (s : State) : (recordsGone conf gone s).pending = s.pending := rfl

@[simp] theorem backupAck_cpx (queue code : Nat) (tag seq : Word) (s : State) :
    (backupAck queue code tag seq s).cpx = { s.cpx with backupUnacked := s.cpx.backupUnacked.filter fun e => !(e.queue = queue ∧ e.code = code ∧ e.tag = tag ∧ e.seq = seq) } := rfl
@[simp] theorem backupAck_flash (queue code : Nat) (tag seq : Word) (s : State) : (backupAck queue code tag seq s).flash = s.flash := rfl
@[simp] theorem backupAck_cpr (queue code : Nat) (tag seq : Word) (s : State) : (backupAck queue code tag seq s).cpr = s.cpr := rfl
@[simp] theorem backupAck_hlp (queue code : Nat) (tag seq : Word) (s : State) : (backupAck queue code tag seq s).hlp = s.hlp := rfl
@[simp] theorem backupAck_ptu (queue code : Nat) (tag seq : Word) (s : State) : (backupAck queue code tag seq s).ptu = s.ptu := rfl
@[simp] theorem backupAck_cti (queue code : Nat) (tag seq : Word) (s : State) : (backupAck queue code tag seq s).cti = s.cti := rfl
@[simp] theorem backupAck_tsu (queue code : Nat) (tag seq : Word) (s : State) : (backupAck queue code tag seq s).tsu = s.tsu := rfl
@[simp] theorem backupAck_mss (queue code : Nat) (tag seq : Word) (s : State) : (backupAck queue code tag seq s).mss = s.mss := rfl
@[simp] theorem backupAck_bpm (queue code : Nat) (tag seq : Word) (s : State) : (backupAck queue code tag seq s).bpm = s.bpm := rfl
@[simp] theorem backupAck_fwe (queue code : Nat) (tag seq : Word) (s : State) : (backupAck queue code tag seq s).fwe = s.fwe := rfl
@[simp] theorem backupAck_cpe (queue code : Nat) (tag seq : Word) (s : State) : (backupAck queue code tag seq s).cpe = s.cpe := rfl
@[simp] theorem backupAck_tsh (queue code : Nat) (tag seq : Word) (s : State) : (backupAck queue code tag seq s).tsh = s.tsh := rfl
@[simp] theorem backupAck_tds (queue code : Nat) (tag seq : Word) (s : State) : (backupAck queue code tag seq s).tds = s.tds := rfl
@[simp] theorem backupAck_aue (queue code : Nat) (tag seq : Word) (s : State) : (backupAck queue code tag seq s).aue = s.aue := rfl
@[simp] theorem backupAck_vca (queue code : Nat) (tag seq : Word) (s : State) : (backupAck queue code tag seq s).vca = s.vca := rfl
@[simp] theorem backupAck_lco (queue code : Nat) (tag seq : Word) (s : State) : (backupAck queue code tag seq s).lco = s.lco := rfl
@[simp] theorem backupAck_lgv (queue code : Nat) (tag seq : Word) (s : State) : (backupAck queue code tag seq s).lgv = s.lgv := rfl
@[simp] theorem backupAck_out (queue code : Nat) (tag seq : Word) (s : State) : (backupAck queue code tag seq s).out = s.out := rfl
@[simp] theorem backupAck_free (queue code : Nat) (tag seq : Word) (s : State) : (backupAck queue code tag seq s).free = s.free := rfl
@[simp] theorem backupAck_pending (queue code : Nat) (tag seq : Word) (s : State) : (backupAck queue code tag seq s).pending = s.pending := rfl

@[simp] theorem modLoad_tds (core : Nat) (f : CoreLoad → CoreLoad) (s : State) :
    (modLoad core f s).tds = { s.tds with loads := tset s.tds.loads core (f (loadOf s core)) } := rfl
@[simp] theorem modLoad_cpx (core : Nat) (f : CoreLoad → CoreLoad) (s : State) : (modLoad core f s).cpx = s.cpx := rfl
@[simp] theorem modLoad_flash (core : Nat) (f : CoreLoad → CoreLoad) (s : State) : (modLoad core f s).flash = s.flash := rfl
@[simp] theorem modLoad_cpr (core : Nat) (f : CoreLoad → CoreLoad) (s : State) : (modLoad core f s).cpr = s.cpr := rfl
@[simp] theorem modLoad_hlp (core : Nat) (f : CoreLoad → CoreLoad) (s : State) : (modLoad core f s).hlp = s.hlp := rfl
@[simp] theorem modLoad_ptu (core : Nat) (f : CoreLoad → CoreLoad) (s : State) : (modLoad core f s).ptu = s.ptu := rfl
@[simp] theorem modLoad_cti (core : Nat) (f : CoreLoad → CoreLoad) (s : State) : (modLoad core f s).cti = s.cti := rfl
@[simp] theorem modLoad_tsu (core : Nat) (f : CoreLoad → CoreLoad) (s : State) : (modLoad core f s).tsu = s.tsu := rfl
@[simp] theorem modLoad_mss (core : Nat) (f : CoreLoad → CoreLoad) (s : State) : (modLoad core f s).mss = s.mss := rfl
@[simp] theorem modLoad_bpm (core : Nat) (f : CoreLoad → CoreLoad) (s : State) : (modLoad core f s).bpm = s.bpm := rfl
@[simp] theorem modLoad_fwe (core : Nat) (f : CoreLoad → CoreLoad) (s : State) : (modLoad core f s).fwe = s.fwe := rfl
@[simp] theorem modLoad_cpe (core : Nat) (f : CoreLoad → CoreLoad) (s : State) : (modLoad core f s).cpe = s.cpe := rfl
@[simp] theorem modLoad_tsh (core : Nat) (f : CoreLoad → CoreLoad) (s : State) : (modLoad core f s).tsh = s.tsh := rfl
@[simp] theorem modLoad_aue (core : Nat) (f : CoreLoad → CoreLoad) (s : State) : (modLoad core f s).aue = s.aue := rfl
@[simp] theorem modLoad_vca (core : Nat) (f : CoreLoad → CoreLoad) (s : State) : (modLoad core f s).vca = s.vca := rfl
@[simp] theorem modLoad_lco (core : Nat) (f : CoreLoad → CoreLoad) (s : State) : (modLoad core f s).lco = s.lco := rfl
@[simp] theorem modLoad_lgv (core : Nat) (f : CoreLoad → CoreLoad) (s : State) : (modLoad core f s).lgv = s.lgv := rfl
@[simp] theorem modLoad_out (core : Nat) (f : CoreLoad → CoreLoad) (s : State) : (modLoad core f s).out = s.out := rfl
@[simp] theorem modLoad_free (core : Nat) (f : CoreLoad → CoreLoad) (s : State) : (modLoad core f s).free = s.free := rfl
@[simp] theorem modLoad_pending (core : Nat) (f : CoreLoad → CoreLoad) (s : State) : (modLoad core f s).pending = s.pending := rfl

@[simp] theorem modThread_tds (n : Nat) (f : Thread → Thread) (s : State) :
    (modThread n f s).tds = { s.tds with threads := tmod s.tds.threads n f } := rfl
@[simp] theorem modThread_cpx (n : Nat) (f : Thread → Thread) (s : State) : (modThread n f s).cpx = s.cpx := rfl
@[simp] theorem modThread_flash (n : Nat) (f : Thread → Thread) (s : State) : (modThread n f s).flash = s.flash := rfl
@[simp] theorem modThread_cpr (n : Nat) (f : Thread → Thread) (s : State) : (modThread n f s).cpr = s.cpr := rfl
@[simp] theorem modThread_hlp (n : Nat) (f : Thread → Thread) (s : State) : (modThread n f s).hlp = s.hlp := rfl
@[simp] theorem modThread_ptu (n : Nat) (f : Thread → Thread) (s : State) : (modThread n f s).ptu = s.ptu := rfl
@[simp] theorem modThread_cti (n : Nat) (f : Thread → Thread) (s : State) : (modThread n f s).cti = s.cti := rfl
@[simp] theorem modThread_tsu (n : Nat) (f : Thread → Thread) (s : State) : (modThread n f s).tsu = s.tsu := rfl
@[simp] theorem modThread_mss (n : Nat) (f : Thread → Thread) (s : State) : (modThread n f s).mss = s.mss := rfl
@[simp] theorem modThread_bpm (n : Nat) (f : Thread → Thread) (s : State) : (modThread n f s).bpm = s.bpm := rfl
@[simp] theorem modThread_fwe (n : Nat) (f : Thread → Thread) (s : State) : (modThread n f s).fwe = s.fwe := rfl
@[simp] theorem modThread_cpe (n : Nat) (f : Thread → Thread) (s : State) : (modThread n f s).cpe = s.cpe := rfl
@[simp] theorem modThread_tsh (n : Nat) (f : Thread → Thread) (s : State) : (modThread n f s).tsh = s.tsh := rfl
@[simp] theorem modThread_aue (n : Nat) (f : Thread → Thread) (s : State) : (modThread n f s).aue = s.aue := rfl
@[simp] theorem modThread_vca (n : Nat) (f : Thread → Thread) (s : State) : (modThread n f s).vca = s.vca := rfl
@[simp] theorem modThread_lco (n : Nat) (f : Thread → Thread) (s : State) : (modThread n f s).lco = s.lco := rfl
@[simp] theorem modThread_lgv (n : Nat) (f : Thread → Thread) (s : State) : (modThread n f s).lgv = s.lgv := rfl
@[simp] theorem modThread_out (n : Nat) (f : Thread → Thread) (s : State) : (modThread n f s).out = s.out := rfl
@[simp] theorem modThread_free (n : Nat) (f : Thread → Thread) (s : State) : (modThread n f s).free = s.free := rfl
@[simp] theorem modThread_pending (n : Nat) (f : Thread → Thread) (s : State) : (modThread n f s).pending = s.pending := rfl

@[simp] theorem writeIncr_cpx (v : Word) (s : State) : (writeIncr v s).cpx = s.cpx := rfl
@[simp] theorem writeIncr_flash (v : Word) (s : State) : (writeIncr v s).flash = s.flash := rfl
@[simp] theorem writeIncr_cpr (v : Word) (s : State) : (writeIncr v s).cpr = s.cpr := rfl
@[simp] theorem writeIncr_hlp (v : Word) (s : State) : (writeIncr v s).hlp = s.hlp := rfl
@[simp] theorem writeIncr_ptu (v : Word) (s : State) : (writeIncr v s).ptu = s.ptu := rfl
@[simp] theorem writeIncr_cti (v : Word) (s : State) : (writeIncr v s).cti = s.cti := rfl
@[simp] theorem writeIncr_mss (v : Word) (s : State) : (writeIncr v s).mss = s.mss := rfl
@[simp] theorem writeIncr_bpm (v : Word) (s : State) : (writeIncr v s).bpm = s.bpm := rfl
@[simp] theorem writeIncr_fwe (v : Word) (s : State) : (writeIncr v s).fwe = s.fwe := rfl
@[simp] theorem writeIncr_cpe (v : Word) (s : State) : (writeIncr v s).cpe = s.cpe := rfl
@[simp] theorem writeIncr_tsh (v : Word) (s : State) : (writeIncr v s).tsh = s.tsh := rfl
@[simp] theorem writeIncr_tds (v : Word) (s : State) : (writeIncr v s).tds = s.tds := rfl
@[simp] theorem writeIncr_aue (v : Word) (s : State) : (writeIncr v s).aue = s.aue := rfl
@[simp] theorem writeIncr_vca (v : Word) (s : State) : (writeIncr v s).vca = s.vca := rfl
@[simp] theorem writeIncr_lco (v : Word) (s : State) : (writeIncr v s).lco = s.lco := rfl
@[simp] theorem writeIncr_lgv (v : Word) (s : State) : (writeIncr v s).lgv = s.lgv := rfl
@[simp] theorem writeIncr_out (v : Word) (s : State) : (writeIncr v s).out = s.out := rfl
@[simp] theorem writeIncr_free (v : Word) (s : State) : (writeIncr v s).free = s.free := rfl
@[simp] theorem writeIncr_pending (v : Word) (s : State) : (writeIncr v s).pending = s.pending := rfl

@[simp] theorem writeDither_tsu (v : Word) (s : State) : (writeDither v s).tsu = { s.tsu with dither := field v 0 16 } := rfl
@[simp] theorem writeDither_cpx (v : Word) (s : State) : (writeDither v s).cpx = s.cpx := rfl
@[simp] theorem writeDither_flash (v : Word) (s : State) : (writeDither v s).flash = s.flash := rfl
@[simp] theorem writeDither_cpr (v : Word) (s : State) : (writeDither v s).cpr = s.cpr := rfl
@[simp] theorem writeDither_hlp (v : Word) (s : State) : (writeDither v s).hlp = s.hlp := rfl
@[simp] theorem writeDither_ptu (v : Word) (s : State) : (writeDither v s).ptu = s.ptu := rfl
@[simp] theorem writeDither_cti (v : Word) (s : State) : (writeDither v s).cti = s.cti := rfl
@[simp] theorem writeDither_mss (v : Word) (s : State) : (writeDither v s).mss = s.mss := rfl
@[simp] theorem writeDither_bpm (v : Word) (s : State) : (writeDither v s).bpm = s.bpm := rfl
@[simp] theorem writeDither_fwe (v : Word) (s : State) : (writeDither v s).fwe = s.fwe := rfl
@[simp] theorem writeDither_cpe (v : Word) (s : State) : (writeDither v s).cpe = s.cpe := rfl
@[simp] theorem writeDither_tsh (v : Word) (s : State) : (writeDither v s).tsh = s.tsh := rfl
@[simp] theorem writeDither_tds (v : Word) (s : State) : (writeDither v s).tds = s.tds := rfl
@[simp] theorem writeDither_aue (v : Word) (s : State) : (writeDither v s).aue = s.aue := rfl
@[simp] theorem writeDither_vca (v : Word) (s : State) : (writeDither v s).vca = s.vca := rfl
@[simp] theorem writeDither_lco (v : Word) (s : State) : (writeDither v s).lco = s.lco := rfl
@[simp] theorem writeDither_lgv (v : Word) (s : State) : (writeDither v s).lgv = s.lgv := rfl
@[simp] theorem writeDither_out (v : Word) (s : State) : (writeDither v s).out = s.out := rfl
@[simp] theorem writeDither_free (v : Word) (s : State) : (writeDither v s).free = s.free := rfl
@[simp] theorem writeDither_pending (v : Word) (s : State) : (writeDither v s).pending = s.pending := rfl

@[simp] theorem setLatch_tsu (l : TsuLatch) (s : State) :
    (setLatch l s).tsu = { s.tsu with latches := s.tsu.latches.filter (fun x => x.who ≠ l.who) ++ [l] } := rfl
@[simp] theorem setLatch_cpx (l : TsuLatch) (s : State) : (setLatch l s).cpx = s.cpx := rfl
@[simp] theorem setLatch_flash (l : TsuLatch) (s : State) : (setLatch l s).flash = s.flash := rfl
@[simp] theorem setLatch_cpr (l : TsuLatch) (s : State) : (setLatch l s).cpr = s.cpr := rfl
@[simp] theorem setLatch_hlp (l : TsuLatch) (s : State) : (setLatch l s).hlp = s.hlp := rfl
@[simp] theorem setLatch_ptu (l : TsuLatch) (s : State) : (setLatch l s).ptu = s.ptu := rfl
@[simp] theorem setLatch_cti (l : TsuLatch) (s : State) : (setLatch l s).cti = s.cti := rfl
@[simp] theorem setLatch_mss (l : TsuLatch) (s : State) : (setLatch l s).mss = s.mss := rfl
@[simp] theorem setLatch_bpm (l : TsuLatch) (s : State) : (setLatch l s).bpm = s.bpm := rfl
@[simp] theorem setLatch_fwe (l : TsuLatch) (s : State) : (setLatch l s).fwe = s.fwe := rfl
@[simp] theorem setLatch_cpe (l : TsuLatch) (s : State) : (setLatch l s).cpe = s.cpe := rfl
@[simp] theorem setLatch_tsh (l : TsuLatch) (s : State) : (setLatch l s).tsh = s.tsh := rfl
@[simp] theorem setLatch_tds (l : TsuLatch) (s : State) : (setLatch l s).tds = s.tds := rfl
@[simp] theorem setLatch_aue (l : TsuLatch) (s : State) : (setLatch l s).aue = s.aue := rfl
@[simp] theorem setLatch_vca (l : TsuLatch) (s : State) : (setLatch l s).vca = s.vca := rfl
@[simp] theorem setLatch_lco (l : TsuLatch) (s : State) : (setLatch l s).lco = s.lco := rfl
@[simp] theorem setLatch_lgv (l : TsuLatch) (s : State) : (setLatch l s).lgv = s.lgv := rfl
@[simp] theorem setLatch_out (l : TsuLatch) (s : State) : (setLatch l s).out = s.out := rfl
@[simp] theorem setLatch_free (l : TsuLatch) (s : State) : (setLatch l s).free = s.free := rfl
@[simp] theorem setLatch_pending (l : TsuLatch) (s : State) : (setLatch l s).pending = s.pending := rfl

@[simp] theorem modCmp_tsu (n : Nat) (f : Cmp → Cmp) (s : State) : (modCmp n f s).tsu = { s.tsu with cmps := s.tsu.cmps.modify n f } := rfl
@[simp] theorem modCmp_cpx (n : Nat) (f : Cmp → Cmp) (s : State) : (modCmp n f s).cpx = s.cpx := rfl
@[simp] theorem modCmp_flash (n : Nat) (f : Cmp → Cmp) (s : State) : (modCmp n f s).flash = s.flash := rfl
@[simp] theorem modCmp_cpr (n : Nat) (f : Cmp → Cmp) (s : State) : (modCmp n f s).cpr = s.cpr := rfl
@[simp] theorem modCmp_hlp (n : Nat) (f : Cmp → Cmp) (s : State) : (modCmp n f s).hlp = s.hlp := rfl
@[simp] theorem modCmp_ptu (n : Nat) (f : Cmp → Cmp) (s : State) : (modCmp n f s).ptu = s.ptu := rfl
@[simp] theorem modCmp_cti (n : Nat) (f : Cmp → Cmp) (s : State) : (modCmp n f s).cti = s.cti := rfl
@[simp] theorem modCmp_mss (n : Nat) (f : Cmp → Cmp) (s : State) : (modCmp n f s).mss = s.mss := rfl
@[simp] theorem modCmp_bpm (n : Nat) (f : Cmp → Cmp) (s : State) : (modCmp n f s).bpm = s.bpm := rfl
@[simp] theorem modCmp_fwe (n : Nat) (f : Cmp → Cmp) (s : State) : (modCmp n f s).fwe = s.fwe := rfl
@[simp] theorem modCmp_cpe (n : Nat) (f : Cmp → Cmp) (s : State) : (modCmp n f s).cpe = s.cpe := rfl
@[simp] theorem modCmp_tsh (n : Nat) (f : Cmp → Cmp) (s : State) : (modCmp n f s).tsh = s.tsh := rfl
@[simp] theorem modCmp_tds (n : Nat) (f : Cmp → Cmp) (s : State) : (modCmp n f s).tds = s.tds := rfl
@[simp] theorem modCmp_aue (n : Nat) (f : Cmp → Cmp) (s : State) : (modCmp n f s).aue = s.aue := rfl
@[simp] theorem modCmp_vca (n : Nat) (f : Cmp → Cmp) (s : State) : (modCmp n f s).vca = s.vca := rfl
@[simp] theorem modCmp_lco (n : Nat) (f : Cmp → Cmp) (s : State) : (modCmp n f s).lco = s.lco := rfl
@[simp] theorem modCmp_lgv (n : Nat) (f : Cmp → Cmp) (s : State) : (modCmp n f s).lgv = s.lgv := rfl
@[simp] theorem modCmp_out (n : Nat) (f : Cmp → Cmp) (s : State) : (modCmp n f s).out = s.out := rfl
@[simp] theorem modCmp_free (n : Nat) (f : Cmp → Cmp) (s : State) : (modCmp n f s).free = s.free := rfl
@[simp] theorem modCmp_pending (n : Nat) (f : Cmp → Cmp) (s : State) : (modCmp n f s).pending = s.pending := rfl

@[simp] theorem judgeFit_cti (s : State) : (judgeFit s).cti = { s.cti with fit := fitFlags s } := rfl
@[simp] theorem judgeFit_cpx (s : State) : (judgeFit s).cpx = s.cpx := rfl
@[simp] theorem judgeFit_flash (s : State) : (judgeFit s).flash = s.flash := rfl
@[simp] theorem judgeFit_cpr (s : State) : (judgeFit s).cpr = s.cpr := rfl
@[simp] theorem judgeFit_hlp (s : State) : (judgeFit s).hlp = s.hlp := rfl
@[simp] theorem judgeFit_ptu (s : State) : (judgeFit s).ptu = s.ptu := rfl
@[simp] theorem judgeFit_tsu (s : State) : (judgeFit s).tsu = s.tsu := rfl
@[simp] theorem judgeFit_mss (s : State) : (judgeFit s).mss = s.mss := rfl
@[simp] theorem judgeFit_bpm (s : State) : (judgeFit s).bpm = s.bpm := rfl
@[simp] theorem judgeFit_fwe (s : State) : (judgeFit s).fwe = s.fwe := rfl
@[simp] theorem judgeFit_cpe (s : State) : (judgeFit s).cpe = s.cpe := rfl
@[simp] theorem judgeFit_tsh (s : State) : (judgeFit s).tsh = s.tsh := rfl
@[simp] theorem judgeFit_tds (s : State) : (judgeFit s).tds = s.tds := rfl
@[simp] theorem judgeFit_aue (s : State) : (judgeFit s).aue = s.aue := rfl
@[simp] theorem judgeFit_vca (s : State) : (judgeFit s).vca = s.vca := rfl
@[simp] theorem judgeFit_lco (s : State) : (judgeFit s).lco = s.lco := rfl
@[simp] theorem judgeFit_lgv (s : State) : (judgeFit s).lgv = s.lgv := rfl
@[simp] theorem judgeFit_out (s : State) : (judgeFit s).out = s.out := rfl
@[simp] theorem judgeFit_free (s : State) : (judgeFit s).free = s.free := rfl
@[simp] theorem judgeFit_pending (s : State) : (judgeFit s).pending = s.pending := rfl

@[simp] theorem modDec_vca (k : Nat) (f : Dec → Dec) (s : State) : (modDec k f s).vca = { s.vca with decs := tmod s.vca.decs k f } := rfl
@[simp] theorem modDec_cpx (k : Nat) (f : Dec → Dec) (s : State) : (modDec k f s).cpx = s.cpx := rfl
@[simp] theorem modDec_flash (k : Nat) (f : Dec → Dec) (s : State) : (modDec k f s).flash = s.flash := rfl
@[simp] theorem modDec_cpr (k : Nat) (f : Dec → Dec) (s : State) : (modDec k f s).cpr = s.cpr := rfl
@[simp] theorem modDec_hlp (k : Nat) (f : Dec → Dec) (s : State) : (modDec k f s).hlp = s.hlp := rfl
@[simp] theorem modDec_ptu (k : Nat) (f : Dec → Dec) (s : State) : (modDec k f s).ptu = s.ptu := rfl
@[simp] theorem modDec_cti (k : Nat) (f : Dec → Dec) (s : State) : (modDec k f s).cti = s.cti := rfl
@[simp] theorem modDec_tsu (k : Nat) (f : Dec → Dec) (s : State) : (modDec k f s).tsu = s.tsu := rfl
@[simp] theorem modDec_mss (k : Nat) (f : Dec → Dec) (s : State) : (modDec k f s).mss = s.mss := rfl
@[simp] theorem modDec_bpm (k : Nat) (f : Dec → Dec) (s : State) : (modDec k f s).bpm = s.bpm := rfl
@[simp] theorem modDec_fwe (k : Nat) (f : Dec → Dec) (s : State) : (modDec k f s).fwe = s.fwe := rfl
@[simp] theorem modDec_cpe (k : Nat) (f : Dec → Dec) (s : State) : (modDec k f s).cpe = s.cpe := rfl
@[simp] theorem modDec_tsh (k : Nat) (f : Dec → Dec) (s : State) : (modDec k f s).tsh = s.tsh := rfl
@[simp] theorem modDec_tds (k : Nat) (f : Dec → Dec) (s : State) : (modDec k f s).tds = s.tds := rfl
@[simp] theorem modDec_aue (k : Nat) (f : Dec → Dec) (s : State) : (modDec k f s).aue = s.aue := rfl
@[simp] theorem modDec_lco (k : Nat) (f : Dec → Dec) (s : State) : (modDec k f s).lco = s.lco := rfl
@[simp] theorem modDec_lgv (k : Nat) (f : Dec → Dec) (s : State) : (modDec k f s).lgv = s.lgv := rfl
@[simp] theorem modDec_out (k : Nat) (f : Dec → Dec) (s : State) : (modDec k f s).out = s.out := rfl
@[simp] theorem modDec_free (k : Nat) (f : Dec → Dec) (s : State) : (modDec k f s).free = s.free := rfl
@[simp] theorem modDec_pending (k : Nat) (f : Dec → Dec) (s : State) : (modDec k f s).pending = s.pending := rfl

@[simp] theorem postRecord_vca (r : DecRecord) (s : State) : (postRecord r s).vca = { s.vca with records := s.vca.records ++ [{ r with atNs := nowNs s }] } := rfl
@[simp] theorem postRecord_cpx (r : DecRecord) (s : State) : (postRecord r s).cpx = s.cpx := rfl
@[simp] theorem postRecord_flash (r : DecRecord) (s : State) : (postRecord r s).flash = s.flash := rfl
@[simp] theorem postRecord_cpr (r : DecRecord) (s : State) : (postRecord r s).cpr = s.cpr := rfl
@[simp] theorem postRecord_hlp (r : DecRecord) (s : State) : (postRecord r s).hlp = s.hlp := rfl
@[simp] theorem postRecord_ptu (r : DecRecord) (s : State) : (postRecord r s).ptu = s.ptu := rfl
@[simp] theorem postRecord_cti (r : DecRecord) (s : State) : (postRecord r s).cti = s.cti := rfl
@[simp] theorem postRecord_tsu (r : DecRecord) (s : State) : (postRecord r s).tsu = s.tsu := rfl
@[simp] theorem postRecord_mss (r : DecRecord) (s : State) : (postRecord r s).mss = s.mss := rfl
@[simp] theorem postRecord_bpm (r : DecRecord) (s : State) : (postRecord r s).bpm = s.bpm := rfl
@[simp] theorem postRecord_fwe (r : DecRecord) (s : State) : (postRecord r s).fwe = s.fwe := rfl
@[simp] theorem postRecord_cpe (r : DecRecord) (s : State) : (postRecord r s).cpe = s.cpe := rfl
@[simp] theorem postRecord_tsh (r : DecRecord) (s : State) : (postRecord r s).tsh = s.tsh := rfl
@[simp] theorem postRecord_tds (r : DecRecord) (s : State) : (postRecord r s).tds = s.tds := rfl
@[simp] theorem postRecord_aue (r : DecRecord) (s : State) : (postRecord r s).aue = s.aue := rfl
@[simp] theorem postRecord_lco (r : DecRecord) (s : State) : (postRecord r s).lco = s.lco := rfl
@[simp] theorem postRecord_lgv (r : DecRecord) (s : State) : (postRecord r s).lgv = s.lgv := rfl
@[simp] theorem postRecord_out (r : DecRecord) (s : State) : (postRecord r s).out = s.out := rfl
@[simp] theorem postRecord_free (r : DecRecord) (s : State) : (postRecord r s).free = s.free := rfl
@[simp] theorem postRecord_pending (r : DecRecord) (s : State) : (postRecord r s).pending = s.pending := rfl

@[simp] theorem encSourceGone_vca (fromDec : Bool) (src : Nat) (s : State) :
    (encSourceGone fromDec src s).vca = { s.vca with encs := s.vca.encs.map fun (x : Nat × Enc) => if x.2.fromDec = fromDec ∧ x.2.src = src then (x.1, { x.2 with state := .ready, waitPic := none, keyNext := true, newSeq := true, divCount := 0, lastSrc := none }) else x } := rfl
@[simp] theorem encSourceGone_cpx (fromDec : Bool) (src : Nat) (s : State) : (encSourceGone fromDec src s).cpx = s.cpx := rfl
@[simp] theorem encSourceGone_flash (fromDec : Bool) (src : Nat) (s : State) : (encSourceGone fromDec src s).flash = s.flash := rfl
@[simp] theorem encSourceGone_cpr (fromDec : Bool) (src : Nat) (s : State) : (encSourceGone fromDec src s).cpr = s.cpr := rfl
@[simp] theorem encSourceGone_hlp (fromDec : Bool) (src : Nat) (s : State) : (encSourceGone fromDec src s).hlp = s.hlp := rfl
@[simp] theorem encSourceGone_ptu (fromDec : Bool) (src : Nat) (s : State) : (encSourceGone fromDec src s).ptu = s.ptu := rfl
@[simp] theorem encSourceGone_cti (fromDec : Bool) (src : Nat) (s : State) : (encSourceGone fromDec src s).cti = s.cti := rfl
@[simp] theorem encSourceGone_tsu (fromDec : Bool) (src : Nat) (s : State) : (encSourceGone fromDec src s).tsu = s.tsu := rfl
@[simp] theorem encSourceGone_mss (fromDec : Bool) (src : Nat) (s : State) : (encSourceGone fromDec src s).mss = s.mss := rfl
@[simp] theorem encSourceGone_bpm (fromDec : Bool) (src : Nat) (s : State) : (encSourceGone fromDec src s).bpm = s.bpm := rfl
@[simp] theorem encSourceGone_fwe (fromDec : Bool) (src : Nat) (s : State) : (encSourceGone fromDec src s).fwe = s.fwe := rfl
@[simp] theorem encSourceGone_cpe (fromDec : Bool) (src : Nat) (s : State) : (encSourceGone fromDec src s).cpe = s.cpe := rfl
@[simp] theorem encSourceGone_tsh (fromDec : Bool) (src : Nat) (s : State) : (encSourceGone fromDec src s).tsh = s.tsh := rfl
@[simp] theorem encSourceGone_tds (fromDec : Bool) (src : Nat) (s : State) : (encSourceGone fromDec src s).tds = s.tds := rfl
@[simp] theorem encSourceGone_aue (fromDec : Bool) (src : Nat) (s : State) : (encSourceGone fromDec src s).aue = s.aue := rfl
@[simp] theorem encSourceGone_lco (fromDec : Bool) (src : Nat) (s : State) : (encSourceGone fromDec src s).lco = s.lco := rfl
@[simp] theorem encSourceGone_lgv (fromDec : Bool) (src : Nat) (s : State) : (encSourceGone fromDec src s).lgv = s.lgv := rfl
@[simp] theorem encSourceGone_out (fromDec : Bool) (src : Nat) (s : State) : (encSourceGone fromDec src s).out = s.out := rfl
@[simp] theorem encSourceGone_free (fromDec : Bool) (src : Nat) (s : State) : (encSourceGone fromDec src s).free = s.free := rfl
@[simp] theorem encSourceGone_pending (fromDec : Bool) (src : Nat) (s : State) : (encSourceGone fromDec src s).pending = s.pending := rfl

@[simp] theorem layersLose_cpx (kind src : Nat) (s : State) : (layersLose kind src s).cpx = s.cpx := rfl
@[simp] theorem layersLose_flash (kind src : Nat) (s : State) : (layersLose kind src s).flash = s.flash := rfl
@[simp] theorem layersLose_cpr (kind src : Nat) (s : State) : (layersLose kind src s).cpr = s.cpr := rfl
@[simp] theorem layersLose_hlp (kind src : Nat) (s : State) : (layersLose kind src s).hlp = s.hlp := rfl
@[simp] theorem layersLose_ptu (kind src : Nat) (s : State) : (layersLose kind src s).ptu = s.ptu := rfl
@[simp] theorem layersLose_cti (kind src : Nat) (s : State) : (layersLose kind src s).cti = s.cti := rfl
@[simp] theorem layersLose_tsu (kind src : Nat) (s : State) : (layersLose kind src s).tsu = s.tsu := rfl
@[simp] theorem layersLose_mss (kind src : Nat) (s : State) : (layersLose kind src s).mss = s.mss := rfl
@[simp] theorem layersLose_bpm (kind src : Nat) (s : State) : (layersLose kind src s).bpm = s.bpm := rfl
@[simp] theorem layersLose_fwe (kind src : Nat) (s : State) : (layersLose kind src s).fwe = s.fwe := rfl
@[simp] theorem layersLose_cpe (kind src : Nat) (s : State) : (layersLose kind src s).cpe = s.cpe := rfl
@[simp] theorem layersLose_tsh (kind src : Nat) (s : State) : (layersLose kind src s).tsh = s.tsh := rfl
@[simp] theorem layersLose_tds (kind src : Nat) (s : State) : (layersLose kind src s).tds = s.tds := rfl
@[simp] theorem layersLose_aue (kind src : Nat) (s : State) : (layersLose kind src s).aue = s.aue := rfl
@[simp] theorem layersLose_vca (kind src : Nat) (s : State) : (layersLose kind src s).vca = s.vca := rfl
@[simp] theorem layersLose_lgv (kind src : Nat) (s : State) : (layersLose kind src s).lgv = s.lgv := rfl
@[simp] theorem layersLose_out (kind src : Nat) (s : State) : (layersLose kind src s).out = s.out := rfl
@[simp] theorem layersLose_free (kind src : Nat) (s : State) : (layersLose kind src s).free = s.free := rfl
@[simp] theorem layersLose_pending (kind src : Nat) (s : State) : (layersLose kind src s).pending = s.pending := rfl

@[simp] theorem modEnc_vca (k : Nat) (f : Enc → Enc) (s : State) : (modEnc k f s).vca = { s.vca with encs := tmod s.vca.encs k f } := rfl
@[simp] theorem modEnc_cpx (k : Nat) (f : Enc → Enc) (s : State) : (modEnc k f s).cpx = s.cpx := rfl
@[simp] theorem modEnc_flash (k : Nat) (f : Enc → Enc) (s : State) : (modEnc k f s).flash = s.flash := rfl
@[simp] theorem modEnc_cpr (k : Nat) (f : Enc → Enc) (s : State) : (modEnc k f s).cpr = s.cpr := rfl
@[simp] theorem modEnc_hlp (k : Nat) (f : Enc → Enc) (s : State) : (modEnc k f s).hlp = s.hlp := rfl
@[simp] theorem modEnc_ptu (k : Nat) (f : Enc → Enc) (s : State) : (modEnc k f s).ptu = s.ptu := rfl
@[simp] theorem modEnc_cti (k : Nat) (f : Enc → Enc) (s : State) : (modEnc k f s).cti = s.cti := rfl
@[simp] theorem modEnc_tsu (k : Nat) (f : Enc → Enc) (s : State) : (modEnc k f s).tsu = s.tsu := rfl
@[simp] theorem modEnc_mss (k : Nat) (f : Enc → Enc) (s : State) : (modEnc k f s).mss = s.mss := rfl
@[simp] theorem modEnc_bpm (k : Nat) (f : Enc → Enc) (s : State) : (modEnc k f s).bpm = s.bpm := rfl
@[simp] theorem modEnc_fwe (k : Nat) (f : Enc → Enc) (s : State) : (modEnc k f s).fwe = s.fwe := rfl
@[simp] theorem modEnc_cpe (k : Nat) (f : Enc → Enc) (s : State) : (modEnc k f s).cpe = s.cpe := rfl
@[simp] theorem modEnc_tsh (k : Nat) (f : Enc → Enc) (s : State) : (modEnc k f s).tsh = s.tsh := rfl
@[simp] theorem modEnc_tds (k : Nat) (f : Enc → Enc) (s : State) : (modEnc k f s).tds = s.tds := rfl
@[simp] theorem modEnc_aue (k : Nat) (f : Enc → Enc) (s : State) : (modEnc k f s).aue = s.aue := rfl
@[simp] theorem modEnc_lco (k : Nat) (f : Enc → Enc) (s : State) : (modEnc k f s).lco = s.lco := rfl
@[simp] theorem modEnc_lgv (k : Nat) (f : Enc → Enc) (s : State) : (modEnc k f s).lgv = s.lgv := rfl
@[simp] theorem modEnc_out (k : Nat) (f : Enc → Enc) (s : State) : (modEnc k f s).out = s.out := rfl
@[simp] theorem modEnc_free (k : Nat) (f : Enc → Enc) (s : State) : (modEnc k f s).free = s.free := rfl
@[simp] theorem modEnc_pending (k : Nat) (f : Enc → Enc) (s : State) : (modEnc k f s).pending = s.pending := rfl

end Sys2Proof.Machine
end

