-- ==== Sys2Proof/WellFormed.lean ====
section
/-!
DEFINITION. Which commands are well-formed: numbers of the module's objects lie in the ranges that the specification gives them.
-/

namespace Sys2Proof

/-- A command packet's header fields lie in their widths, and its parameters in the longest packet (R324, R327). -/
def Cmd.wf (c : Cmd) : Bool :=
  decide (c.queue < 4) && decide (c.qfield < 16) && decide (c.target < 4096) && decide (c.words.length ≤ 4096)

/-- A command is well-formed: legs below 16,384, streams and key slots below 65,536, conferences below 8,192, entries below 524,288
(R57, R70, R352), canvases below 1,024, contexts below 4,096 (R44), pools, PLLs below 8 (R81), queues and services below 4 (R327, R383),
memory channels below 16 (R254), power domains below 28 (R467), ports below 16, UDP ports below 65,536, multiplexers below 9, receive paths below 2,
comparators below 64 (R382), subsystems and mix rows below 16. -/
def Instr.wf (i : Instr) : Bool :=
  match i with
  | .nop c => c.wf
  | .getInfo c => c.wf
  | .setMode c => c.wf
  | .getStatus c => c.wf
  | .resetDomain c => c.wf
  | .resetDomainReady unit _ => decide (unit < 16)
  | .subscribeEvents c => c.wf
  | .imageWrite c => c.wf
  | .imageCommit c => c.wf
  | .imageCommitDone _ => true
  | .configRead c => c.wf
  | .configWrite c => c.wf
  | .configCommit c => c.wf
  | .configCommitDone => true
  | .ponStatus c => c.wf
  | .ponSetProfile c => c.wf
  | .ponOmciRelay c => c.wf
  | .ponPmRead c => c.wf
  | .ponProtectCtrl c => c.wf
  | .legCreate c => c.wf
  | .legModify c => c.wf
  | .legDelete c => c.wf
  | .streamAdd c => c.wf
  | .streamRemove c => c.wf
  | .subAdd c => c.wf
  | .subRemove c => c.wf
  | .confCreate c => c.wf
  | .confDelete c => c.wf
  | .legStats c => c.wf
  | .shaperSet c => c.wf
  | .audMixerSet c => c.wf
  | .audRouteSet c => c.wf
  | .audGainSet c => c.wf
  | .audBankSwap c => c.wf
  | .audMeterRead c => c.wf
  | .audProgramLoad c => c.wf
  | .vidDecoderBind c => c.wf
  | .vidEncoderSet c => c.wf
  | .vidKeyframe c => c.wf
  | .entryRepairDone entry _ => decide (entry < 524288)
  | .vidSynthPolicy c => c.wf
  | .vidCoreQuiesce c => c.wf
  | .coreQuiesced core => decide (core < 256)
  | .canvasSet c => c.wf
  | .layerSet c => c.wf
  | .layerImageLoad c => c.wf
  | .imageConversionDone slot => decide (slot < 65536)
  | .flipGroupSet c => c.wf
  | .govClassSet c => c.wf
  | .govOverride c => c.wf
  | .govRead c => c.wf
  | .keyLoad c => c.wf
  | .keyRetire c => c.wf
  | .keyStatus c => c.wf
  | .twinKeyLoad c => c.wf
  | .timeRead c => c.wf
  | .timeSourceSet c => c.wf
  | .timeStep c => c.wf
  | .timeThresholdSet c => c.wf
  | .clusterRoleSet c => c.wf
  | .coursePortSet c => c.wf
  | .twinPair c => c.wf
  | .pairingDone _ => true
  | .twinSwitch c => c.wf
  | .svcethSet c => c.wf
  | .storePolicySet c => c.wf
  | .storeExport c => c.wf
  | .exportDone _ => true
  | .storeReplay c => c.wf
  | .replayEnd _ _ => true
  | .memStatus c => c.wf
  | .powerStateSet c => c.wf
  | .sleepEntered => true
  | .perfLevelSet c => c.wf
  | .padRelease c => c.wf
  | .clockSelect c => c.wf
  | .resourceClaim c => c.wf
  | .traceCtrl c => c.wf
  | .traceRead c => c.wf
  | .counterRead c => c.wf
  | .faultLogRead c => c.wf
  | .loopback c => c.wf
  | .loopbackDone _ _ _ => true
  | .regRead c => c.wf
  | .regWrite c => c.wf
  | .backupAcknowledgement queue _ _ _ => decide (queue < 4)
  | .notACommandDiscard queue => decide (queue < 4)
  | .backupDatagram _ port _ => decide (port < 65536)
  | .backupEventResend => true
  | .fatalFaultReset => true
  | .sysResetReqWrite _ => true
  | .handoffSet => true
  | .trainReadySet => true
  | .hlpLanePolWrite _ _ => true
  | .tsuIncrWrite _ => true
  | .tsuIncrDitherWrite _ => true
  | .tsuTimeSecRead requester => decide (requester < 2)
  | .tsuCmpSecRead requester n => decide (requester < 2) && decide (n < 64)
  | .compareWordsWrite n _ _ _ => decide (n < 64)
  | .comparatorArmWrite n _ _ => decide (n < 64)
  | .comparatorFiredClear n _ _ => decide (n < 64)
  | .xingOverrunClear _ => true
  | .mssAgeLimitWrite _ => true
  | .puRegionWrite _ _ => true
  | .keyRegisterWrite _ _ _ => true
  | .rcCounterRead _ => true
  | .registerWritePlain _ _ _ => true
  | .fabricRequest _ => true
  | .fabricFlitArrival _ _ f =>
    decide (f.words.length = 16 ∧ f.req.master < 64 ∧ f.req.target < 16 ∧ f.req.len ≤ 64)
  | .dramRead _ _ _ => true
  | .retrainingPause ch _ => decide (ch < 16)
  | .ingressDatagram port _ => decide (port < 16)
  | .rtpPacketIngress stream _ => decide (stream < 65536)
  | .cairnAppendTimeout conf number => decide (conf < 8192 ∧ number < 2 ^ 32)
  | .bufferRelease pool _ => decide (pool < 8)
  | .chainWalk w => decide (w.stream < 65536) && w.poisoned.all fun i => decide (i < 524288)
  | .stunBindingRequest leg _ => decide (leg < 16384)
  | .consentResponse leg _ _ => decide (leg < 16384)
  | .consentCheckSend leg => decide (leg < 16384)
  | .consentExpiry leg => decide (leg < 16384)
  | .dtlsDatagramIngress leg _ => decide (leg < 16384)
  | .hostDataFrame _ => true
  | .rtcpSrRr leg _ => decide (leg < 16384)
  | .rtcpSdes leg _ => decide (leg < 16384)
  | .rtcpBye leg _ => decide (leg < 16384)
  | .genericNack leg _ _ => decide (leg < 16384)
  | .pliFir leg _ _ => decide (leg < 16384)
  | .congestionFeedback leg _ => decide (leg < 16384)
  | .rtcpOtherType port => decide (port < 16)
  | .flexfecRepairPacket stream _ => decide (stream < 65536)
  | .flexfecRecoveryTimeout stream _ => decide (stream < 65536)
  | .srSend leg _ => decide (leg < 16384)
  | .nackSend stream _ => decide (stream < 65536)
  | .feedbackSend stream => decide (stream < 65536)
  | .portReadyServe port => decide (port < 16)
  | .pacedLaunch port => decide (port < 16)
  | .launchTimeReached leg service port => decide (leg < 16384) && decide (service < 4) && decide (port < 16)
  | .audioBlockBoundary _ => true
  | .anchorWindowEnd stream => decide (stream < 65536)
  | .encodeGroupFrame conf _ => decide (conf < 8192)
  | .trimZeroCrossing conf row => decide (conf < 8192) && decide (row < 32)
  | .plumbEpochBoundary => true
  | .plumbPublication _ => true
  | .levelCellSend _ => true
  | .selectionCellSend _ => true
  | .clusterSumDeadline _ step => [2, 3, 5].contains step
  | .slotBlockMissed core => decide (core < 256)
  | .malletNop core => decide (core < 256)
  | .mac core => decide (core < 256)
  | .msu core => decide (core < 256)
  | .mpy core => decide (core < 256)
  | .clr core => decide (core < 256)
  | .asra core => decide (core < 256)
  | .sta core => decide (core < 256)
  | .add core => decide (core < 256)
  | .sub core => decide (core < 256)
  | .adds core => decide (core < 256)
  | .subs core => decide (core < 256)
  | .and core => decide (core < 256)
  | .or core => decide (core < 256)
  | .xor core => decide (core < 256)
  | .shl core => decide (core < 256)
  | .shr core => decide (core < 256)
  | .asr core => decide (core < 256)
  | .min core => decide (core < 256)
  | .max core => decide (core < 256)
  | .abs core => decide (core < 256)
  | .movi core => decide (core < 256)
  | .mov core => decide (core < 256)
  | .loop core => decide (core < 256)
  | .br core => decide (core < 256)
  | .call core => decide (core < 256)
  | .ret core => decide (core < 256)
  | .done core => decide (core < 256)
  | .halt core => decide (core < 256)
  | .illegalInstruction core => decide (core < 256)
  | .assemblyDeadline ctx => decide (ctx < 4096)
  | .decodeJobComplete ctx _ => decide (ctx < 4096)
  | .decodeWatchdog core => decide (core < 256)
  | .catchUpTimeout ctx => decide (ctx < 4096)
  | .encoderSourcePicture ctx _ => decide (ctx < 4096)
  | .encodeJobComplete ctx _ => decide (ctx < 4096)
  | .synthCatchUpDone _ _ => true
  | .synthEncodeDone _ _ => true
  | .synthNoTime _ => true
  | .bridgedLimitExpiry _ => true
  | .flipDeadline canvas _ => decide (canvas < 1024)
  | .compositionFinished canvas => decide (canvas < 1024)
  | .psyncCandidate path _ => decide (path < 2)
  | .expectedFramePosition path _ => decide (path < 2)
  | .xgemFrame _ => true
  | .burstProfile _ => true
  | .assignOnuId _ => true
  | .rangingTime _ => true
  | .deactivateOnuId _ => true
  | .disableSerialNumber _ => true
  | .requestRegistration _ => true
  | .assignAllocId _ => true
  | .keyControl _ => true
  | .sleepAllow _ => true
  | .changePowerLevel _ => true
  | .powerConsumptionInquire _ => true
  | .refusedPloam _ => true
  | .bwmapGrant _ => true
  | .upstreamBurst port => decide (port < 16)
  | .transmitMonitorTrip => true
  | .omciMessage _ => true
  | .omciRelayTimeout tid => decide (tid < 65536)
  | .timeOfDayPair _ _ _ => true
  | .to1Expiry => true
  | .to2Expiry => true
  | .protectionTimerExpiry => true
  | .rateNoCandidateTimeout => true
  | .iHoldExpiry => true
  | .watchPeekTick _ => true
  | .iLowpowerExpiry => true
  | .iAwareExpiry => true
  | .pmBinBoundary _ => true
  | .poll => true
  | .powerLoss => true
  | .train _ => true
  | .boot _ => true
  | .wakePattern => true
  | .sidebandCrcFail => true
  | .laneSymbolLock _ => true
  | .laneSyncTimeout => true
  | .equalizeDone _ => true
  | .fecAlignmentLock _ => true
  | .creditInit _ => true
  | .flitReceived f => decide (f.bytes.length ≤ 256)
  | .flitNak _ => true
  | .creditReturn ch _ => decide (ch < 16)
  | .linkRetrain => true
  | .retrainFailed => true
  | .sofMark _ => true
  | .sofMiss => true
  | .aonTrimWindow _ => true
  | .keyDelayedRetire slot => decide (slot < 65536)
  | .timeSourceUpdate _ _ _ => true
  | .stepApply => true
  | .sourceQualificationLoss _ => true
  | .ppsInputPulse => true
  | .comparatorFire n => decide (n < 64)
  | .evtInputEdge => true
  | .threadPost _ _ => true
  | .coreFreeDispatch core => decide (core < 256)
  | .threadComplete core => decide (core < 256)
  | .threadYield core => decide (core < 256)
  | .threadBlock core => decide (core < 256)
  | .runBudgetOverrun core => decide (core < 256)
  | .courseFrame port _ => decide (port < 16)
  | .containerReceived port _ => decide (port < 16)
  | .audioCell port _ => decide (port < 16)
  | .ipPacketCell port _ => decide (port < 16)
  | .hello port _ => decide (port < 16)
  | .timeCell port _ => decide (port < 16)
  | .groupCell port _ => decide (port < 16)
  | .helloSend port => decide (port < 16)
  | .timeCellSend port => decide (port < 16)
  | .groupCellSend => true
  | .managerPathLost => true
  | .heartbeat _ _ => true
  | .heartbeatSend => true
  | .heartbeatLoss => true
  | .mirror _ _ _ _ => true
  | .takeover _ => true
  | .takeoverAck => true
  | .yield _ => true
  | .hostLinkOutageTrigger => true
  | .switchPowered => true
  | .addressAnnounce => true
  | .switchComplete => true
  | .serviceEthernetFrame _ => true
  | .collision _ => true
  | .speedPolicyTimer _ => true
  | .transceiverHotPlug port _ _ => decide (port < 16)
  | .inputPowerApplied _ => true
  | .bankCharged _ => true
  | .holdupChargeTimeout => true
  | .crystalStable => true
  | .crystalTimeout => true
  | .bootRomHandoff => true
  | .bootWatchdog => true
  | .configurationChosen => true
  | .dramTrained _ => true
  | .moduleReady => true
  | .inputSag => true
  | .saveMarkerWritten => true
  | .bankAbortVoltage => true
  | .inputReturnHold => true
  | .inputOvervoltage => true
  | .overtemperatureTrip => true
  | .powerWindow _ => true
  | .admissionResume => true
  | .levelChangeComplete _ => true
  | .clockInputStopped _ => true
  | .switchStuckTimeout mux => decide (mux < 9)
  | .pllUnlock p => decide (p < 8)
  | .ponClockReturn => true
  | .drainEnd domain outstanding => decide (domain < 28) && outstanding.all fun m => decide (m < 64)
  | .domainPowered domain => decide (domain < 28)
  | .handshakeOverrun _ _ => true
  | .entryWindowEnd => true
  | .wakeEvent _ => true
  | .wakeComplete => true
  | .exportRecordSend _ => true
  | .replayRecordSend _ => true
  | .sidebandProtocolStart => true
  | .courseSyncTimeout port => decide (port < 16)
  | .fullResynchronisationDone => true
  | .serviceEthernetLinkChange _ _ => true
  | .frameBecomesEligible port => decide (port < 16)
  | .pulseWidthExpiry _ => true

end Sys2Proof
end

