-- ==== Sys2Proof/Tests/Slice0.lean ====
section
/-!
SUPPORT. Tests: one ill-formed command for each check of well-formedness, and for every statement of Obligations.lean that has
hypotheses a theorem that they are met, clause by clause: each names a state and operands, at a bound of their range where they have one.
The one witness that rests on a value Config leaves free (an image's signature) takes that value as its premise.
-/

open Sys2Proof.Machine
namespace Sys2Proof.Tests
/-- A command on queue 1. -/
def cmd (ws : List Word) : Cmd := { words := ws }
/-- A module in service: the link is active, every domain and channel is on. -/
def up : State := { State.reset with
  hlp.link := .active, hlp.handoff := true, cpx.ready := true, cpx.mode := .service, cpx.backupOn := true, cpr.boot := .trained
  cpr.domains := List.replicate 28 { Domain.reset with state := .on }, cti.svc.up := true
  bpm.pools := List.replicate 8 { Pool.reset with count := 16, free := 16 }
  mss.chans := List.replicate 16 { MemCh.reset with inService := true }, mss.workFree := 2 ^ 40 }
/-- A network leg that is active. -/
def network : Leg := { Leg.reset with kind := .network, state := .active }
/-- An audio stream. -/
def audio : Stream := { Stream.reset with codec := 3, ssrc := 7 }
/-- An entry from stream 4 to leg 1 at port 0. -/
def entry : Entry := { Entry.reset with source := 4, dest := 1 }
def decoder : Dec := Dec.reset
def encoder : Enc := Enc.reset
def canvas : Canvas := Canvas.reset
/-- A running customer core at address 0. -/
def core : Core := { Core.reset with state := .running }
def frame : Frame := { Frame.reset with leg := 1 }
/-- The module with a leg and a producer leg, a stream of each, an entry, a conference, a core, a decoder, an encoder and a canvas. -/
def busy : State := { up with
  fwe.legs := [(1, network), (2, { network with lport := 9 }), (3, { network with kind := .producer })]
  fwe.streams := [(4, audio), (12, { audio with origin := true })], fwe.ledger := [(0, entry)], aue.confs := [(1, Conf.reset)]
  aue.cores := [(224, core)], vca.decs := [(0, decoder)], vca.encs := [(0, encoder)], lco.canvases := [(0, canvas)] }
/-- The module with the leg's ingress key loaded. -/
def keyed : State := { busy with cpe.slots := [(4, { Slot.reset with state := .current })] }
/-- The module with a region that grants master 0 all of memory. -/
def open_ : State := { up with mss.regions := [{ Region.reset with base := 0, limit := 2 ^ 42, mask := 1, rd := true, wr := true, on := true }] }
/-- The module with a region that grants every core the fabric address of a register. -/
def granting (a : Nat) : State := { up with
  mss.regions := [{ Region.reset with base := 0, limit := (Config.registerFabric a).getD 0 + 64, mask := 0xFFFF, rd := true, wr := true, on := true }] }
/-- No access to that register is refused, whichever address it has and whichever core makes it. -/
theorem granted {s : State} (a : Nat) (w : Bool) (hs : s.mss.regions = (granting a).mss.regions) : deniedAccess s w [a] = none := by
  have hm : 0xFFFF / 2 ^ (Config.commandCore % 16) % 2 = 1 := by
    have : Config.commandCore % 16 < 16 := Nat.mod_lt _ (by omega)
    interval_cases Config.commandCore % 16 <;> rfl
  cases h : Config.registerFabric a <;> cases w <;>
    simp [deniedAccess, registerRequest, h, permitted, hs, granting, regionGrants, hm]
/-- An access to that register reaches it in a module where its unit is on. -/
theorem reaching {s : State} {a : Nat} {w : Bool} (h : accessStatus s a = none) (hs : s.mss.regions = (granting a).mss.regions) :
    Reaches w a s := ⟨h, granted a w hs⟩
/-- A capture half a second after a second's start is neither early nor late. -/
theorem half_second (u : Nat) (h : u < 131073) : (secUnits / 2 - 262144 - u + 262144 + u) % secUnits * 2 = secUnits := by
  unfold secUnits; omega
/-- Captures a second apart, the newest of them some ns late. -/
theorem seconds_apart (u : Nat) (h : u < 131073) : (5 * secUnits + 262144 + u) % secUnits * 2 < secUnits ∧
    secondsApart [5 * secUnits + 262144 + u, 4 * secUnits, 3 * secUnits, 2 * secUnits, secUnits] = true := by
  have : secondsApart [4 * secUnits, 3 * secUnits, 2 * secUnits, secUnits] = true := by decide
  constructor
  · unfold secUnits; omega
  · rw [secondsApart, this, oneSecondApart]; unfold secUnits; simp; omega
/-- A core that stands at an instruction word. -/
def coreOn (w : BitVec 64) : Core := { core with prog := [(0, w)] }
/-- The module with that core. -/
def standing (w : BitVec 64) : State := { busy with aue.cores := [(224, coreOn w)] }
/-- A check that passes leaves the answer to those after it. -/
theorem passes {b : Bool} {st : Status} {cs : List (Bool × Status)} (h : b = false) (g : firstFail cs = none) :
    firstFail ((b, st) :: cs) = none := by simp [firstFail, h, g]
/-- A pool that holds what is asked. -/
theorem enough (a b k : Nat) (h : a = b) : ¬ a + k < b := by omega
/-- An image that passes the boot ROM's checks if its signature does. -/
def image : List Byte := [0x4D, 0x49, 0x56, 0x4B, 1, 0, 0, 0] ++ List.replicate 312 0

/-! ### Well-formedness: a term for each check, which the check refuses -/

theorem test_wf_rejects_headers : [({ queue := 4 } : Cmd), { qfield := 16 }, { target := 4096 }, { words := List.replicate 4097 0 }].all
    (fun c => !c.wf) = true := by simp [Cmd.wf, -List.reduceReplicate]

theorem test_wf_rejects_numbers : [Instr.resetDomainReady 16 0, .entryRepairDone 524288 0, .coreQuiesced 256, .imageConversionDone 65536,
    .backupAcknowledgement 4 0 0 0, .notACommandDiscard 4, .backupDatagram {} 65536 [], .tsuTimeSecRead 2, .tsuCmpSecRead 0 64,
    .compareWordsWrite 64 0 0 .host, .retrainingPause 16 true, .ingressDatagram 16 {}, .rtpPacketIngress 65536 {},
    .cairnAppendTimeout 8192 0, .cairnAppendTimeout 0 (2 ^ 32), .bufferRelease 8 0, .chainWalk ⟨0, [524288]⟩, .consentExpiry 16384,
    .launchTimeReached 0 4 0, .encodeGroupFrame 8192 0, .trimZeroCrossing 0 32, .clusterSumDeadline 0 4, .assemblyDeadline 4096,
    .flipDeadline 1024 [], .psyncCandidate 2 0, .omciRelayTimeout 65536, .flitReceived ⟨0, List.replicate 257 0⟩, .creditReturn 16 0,
    .keyDelayedRetire 65536, .switchStuckTimeout 9, .pllUnlock 8, .drainEnd 28 [], .drainEnd 0 [64], .domainPowered 28,
    .fabricFlitArrival 0 0 {}].all (fun i => !i.wf) = true := by simp [Instr.wf, -List.reduceReplicate]

theorem test_wf_accepts_bounds : [Instr.nop {}, .cairnAppendTimeout 8191 (2 ^ 32 - 1), .chainWalk ⟨65535, [524287]⟩, .consentExpiry 16383,
    .backupDatagram {} 65535 [], .drainEnd 27 [63], .fabricFlitArrival 15 63 { words := List.replicate 16 (0, true) }].all (fun i => i.wf) = true := by simp [Instr.wf, Cmd.wf]

/-! ### The hypotheses of the statements -/

/-- The hypotheses of SystemCommandsComplete are met: one state and one choice of operands for each of its clauses. -/
theorem hypotheses_met_SystemCommandsComplete :
    (∃ c s, startsNow 0x0001 (between 0 4096) c s = true) ∧
    (∃ c s, startsNow 0x0002 (exactly 0) c s = true) ∧
    (∃ c s, startsNow 0x0003 (exactly 1) c s = true ∧ field (word c 0) 0 8 ≤ 5 ∧ field (word c 0) 0 8 ≠ 4 ∧ (begun c s).cpx.mode ≠
      .shadow ∧ (begun c s).cpx.pending = none ∧ modeOf (field (word c 0) 0 8) = (begun c s).cpx.mode) ∧
    (∃ c s, startsNow 0x0003 (exactly 1) c s = true ∧ field (word c 0) 0 8 ≤ 5 ∧ field (word c 0) 0 8 ≠ 4 ∧ (begun c s).cpx.mode ≠
      .shadow ∧ (begun c s).cpx.pending = none ∧ modeOf (field (word c 0) 0 8) ≠ (begun c s).cpx.mode ∧ modeOver (modeOf (field (word c
      0) 0 8)) (begun c s) = false ∧ (modeOf (field (word c 0) 0 8) = .studio ∨ (begun c s).aue.cores = [])) ∧
    (∃ c s, startsNow 0x0004 (exactly 0) c s = true) ∧
    (∃ c s, startsNow 0x0005 (exactly 1) c s = true ∧ 3 ≤ field (word c 0) 0 4 ∧ (field (word c 0) 4 12 = 0xFFF ∨ field (word c 0) 4 12
      < instGroups (field (word c 0) 0 4)) ∧ ∀ r ∈ (begun c s).cpx.resetting, r.1 ≠ field (word c 0) 0 4 ∧ (queueOf (begun c s) (qiOf
      c)).longOps.length < 64) ∧
    (∃ (sub : Nat) (s : State), (sub, 0xFFF) ∈ s.cpx.resetting) ∧
    (∃ (sub inst : Nat) (s : State), (sub, inst) ∈ s.cpx.resetting ∧ inst ≠ 0xFFF) ∧
    (∃ c s, startsNow 0x0006 (exactly 1) c s = true) :=
  ⟨⟨cmd [1, 2], up, by decide⟩,
   ⟨cmd [], up, by decide⟩,
   ⟨cmd [5], up, by decide⟩,
   ⟨cmd [2], up, by decide⟩,
   ⟨cmd [], up, by decide⟩,
   ⟨cmd [0xFFF4], up, by decide⟩,
   ⟨4, { up with cpx.resetting := [(4, 0xFFF)] }, by decide⟩,
   ⟨4, 0, { up with cpx.resetting := [(4, 0)] }, by decide⟩,
   ⟨cmd [0], up, by decide⟩⟩

/-- The hypotheses of ImageAndConfigComplete are met: one state and one choice of operands for each of its clauses. -/
theorem hypotheses_met_ImageAndConfigComplete :
    (∃ c s, startsNow 0x0101 (between 3 4096) c s = true ∧ (word c 1).toNat ≤ 2 ^ 26 ∧ (word c 0).toNat = 0 ∧ 0 < (word c 1).toNat ∧ 4 *
      (c.words.length - 2) ≤ (word c 1).toNat + 3 ∧ (begun c s).cpr.saving = false ∧ (begun c s).flash.commitImage = none) ∧
    (∃ c s, startsNow 0x0101 (between 3 4096) c s = true ∧ (word c 1).toNat ≤ 2 ^ 26 ∧ 0 < (word c 0).toNat ∧ (word c 0).toNat < (word c
      1).toNat ∧ (word c 0).toNat + 4 * (c.words.length - 2) ≤ (word c 1).toNat + 3 ∧ (word c 0).toNat = (fwOf (begun c s) (idleFw
      (begun c s))).content.length ∧ (word c 1).toNat = (fwOf (begun c s) (idleFw (begun c s))).total ∧ (begun c s).cpr.saving = false ∧
      (begun c s).flash.commitImage = none) ∧
    (∃ c s, startsNow 0x0102 (exactly 2) c s = true ∧ (word c 0).toNat ≤ 2 ^ 26 ∧ ((begun c s).cpx.mode = .service ∨ (begun c
      s).cpx.mode = .shadow) ∧ (begun c s).cpr.saving = false ∧ (begun c s).flash.commitImage = none ∧ (queueOf (begun c s) (qiOf
      c)).longOps.length < 64) ∧
    (∃ (len r : Nat) (act ok : Bool) (s : State), s.flash.commitImage = some (len, act) ∧ s.cpr.saving = false ∧ (r = (if len ≠ (fwOf s
      (idleFw s)).content.length ∨ len ≠ (fwOf s (idleFw s)).total then 1 else if ok = false then 2 else if imageVerified (fwOf s
      (idleFw s)).content = false then 3 else 0)) ∧ r ≠ 0) ∧
    (∃ c s, startsNow 0x0103 (exactly 1) c s = true ∧ (itemLen (field (word c 0) 0 16)).isSome) ∧
    (∃ c s, startsNow 0x0104 (between 1 256) c s = true ∧ itemReadOnly (field (word c 0) 0 16) = false ∧ itemLen (field (word c 0) 0 16)
      = some (field (word c 0) 16 12) ∧ c.words.length = field (word c 0) 16 12 + 1 ∧ longOpen 0x0105 (begun c s) = false) ∧
    (∃ c s, startsNow 0x0105 (exactly 0) c s = true ∧ commitBad (begun c s) = false ∧ (begun c s).cpr.saving = false ∧ (begun c
      s).cti.switching = none ∧ longOpen 0x0105 (begun c s) = false ∧ (queueOf (begun c s) (qiOf c)).longOps.length < 64) ∧
    (∃ (s : State), longOpen 0x0105 s = true ∧ s.cpr.saving = false) ∧
    (Config.imageSigned image = true → ∃ (len : Nat) (s : State), s.flash.commitImage = some (len, true) ∧ s.cpr.saving = false ∧ len =
      (fwOf s (idleFw s)).content.length ∧ len = (fwOf s (idleFw s)).total ∧ imageVerified (fwOf s (idleFw s)).content = true) :=
  ⟨⟨cmd [0, 8, 1, 2], up, by decide⟩,
   ⟨cmd [4, 8, 5], { up with flash.fwA.content := [1, 2, 3, 4], flash.fwA.total := 8 }, by decide⟩,
   ⟨cmd [320, 1], up, by decide⟩,
   ⟨8, 2, true, false, { up with flash.commitImage := some (8, true), flash.fwA.content := List.replicate 8 0, flash.fwA.total := 8 }, by decide⟩,
   ⟨cmd [0x0001], up, by decide⟩,
   ⟨cmd [0x00010001, 7], up, by decide⟩,
   ⟨cmd [], { up with cti.switching := none }, by decide⟩,
   ⟨{ up with cpx.queues := [{ CmdQ.reset with longOps := [{ LongOp.reset with op := 0x0105 }] }] }, by decide⟩,
   fun h => ⟨320, { up with flash.commitImage := some (320, true), flash.fwA.content := image, flash.fwA.total := 320 }, by decide, by decide, by decide +kernel, by decide, (show (_ && Config.imageSigned image) = true by rw [h, Bool.and_true]; decide +kernel)⟩⟩

/-- The hypotheses of DiagnosticsComplete are met: one state and one choice of operands for each of its clauses. -/
theorem hypotheses_met_DiagnosticsComplete :
    (∃ c s, startsNow 0x0D01 (exactly 2) c s = true ∧ field (word c 1) 0 2 ≠ 3) ∧
    (∃ c s, startsNow 0x0D02 (exactly 2) c s = true ∧ 1 ≤ (word c 1).toNat ∧ (word c 1).toNat ≤ 1023) ∧
    (∃ c s, startsNow 0x0D03 (exactly 1) c s = true ∧ (∃ n, familySize (field (word c 0) 0 16) = some n ∧ field (word c 0) 16 12 < n) ∧
      familyDown (svcDrain (rollLoads (begun c s))) (field (word c 0) 0 16) (field (word c 0) 16 12) = false) ∧
    (∃ c s, startsNow 0x0D04 (exactly 2) c s = true ∧ 1 ≤ (word c 1).toNat ∧ (word c 1).toNat ≤ 1000) ∧
    (∃ c s, startsNow 0x0D05 (exactly 2) c s = true ∧ loopTargetOk (field (word c 0) 0 8) = true ∧ 1 ≤ (word c 1).toNat ∧ (word c
      1).toNat ≤ 60000 ∧ (begun c s).cpx.mode = .service ∧ field (word c 0) 0 8 ∉ (begun c s).cpx.loopbacks ∧ (if field (word c 0) 0 8 ≤
      6 then domainDown (begun c s) (20 + field (word c 0) 0 8) = false ∧ subDown (begun c s) 4 = false else subDown (begun c s) 6 =
      false) ∧ (queueOf (begun c s) (qiOf c)).longOps.length < 64) ∧
    (∃ (target t : Nat) (s a : State), target ∈ s.cpx.loopbacks ∧ (s.cpx.loopEnds.find? fun e => e.1 = target) = some (target, t) ∧ a =
      advanceAon t s) :=
  ⟨⟨cmd [1, 0], up, by decide⟩,
   ⟨cmd [0, 1023], up, by decide⟩,
   ⟨cmd [0x0000], up, by decide⟩,
   ⟨cmd [0, 1], up, by decide⟩,
   ⟨cmd [0, 60000], up, by decide⟩,
   ⟨31, 0, { up with cpx.loopbacks := [31], cpx.loopEnds := [(31, 0)] }, _, by decide, by decide, rfl⟩⟩

/-- The hypotheses of TimeCommandsComplete are met: one state and one choice of operands for each of its clauses. -/
theorem hypotheses_met_TimeCommandsComplete :
    (∃ c s, startsNow 0x0901 (exactly 0) c s = true) ∧
    (∃ c s, startsNow 0x0902 (exactly 2) c s = true ∧ timeSourceBad (word c 0) (word c 1) = false ∧ (field (word c 1) 0 2 = 0 ∨ (begun c
      s).tsu.syncOwner = 1) ∧ (field (word c 1) 0 2 ≠ 2 ∨ (cmpOf (begun c s) (field (word c 1) 8 6)).owner = 1)) ∧
    (∃ c s, startsNow 0x0904 (exactly 2) c s = true ∧ 100 ≤ (word c 0).toNat ∧ (word c 0).toNat ≤ 1000000000 ∧ 1 ≤ (word c 1).toNat ∧
      (word c 1).toNat ≤ 1000000) ∧
    (∃ c s, startsNow 0x0903 (exactly 4) c s = true ∧ field (word c 0) 0 2 = 3 ∧ (begun c s).tsu.step = none) ∧
    (∃ c s, startsNow 0x0903 (exactly 4) c s = true ∧ (field (word c 0) 0 2 = 1 → (word c 3).toNat < 1000000000) ∧ field (word c 0) 0 2
      ≠ 3 ∧ (field (word c 0) 0 2 = 0 → (begun c s).tsu.lastRefused.isSome) ∧ (begun c s).tsu.step = none ∧ 0 ≤ ((begun c s).tsu.now :
      Int) + stepDelta c (begun c s) ∧ ((begun c s).tsu.now : Int) + stepDelta c (begun c s) < tsuRange) :=
  ⟨⟨cmd [], up, by decide⟩,
   ⟨cmd [0xFFF, 0], up, by decide⟩,
   ⟨cmd [100, 1000000], up, by decide⟩,
   ⟨cmd [3, 38, 0, 0], up, by decide⟩,
   ⟨cmd [1, 0, 5, 999999999], up, by decide⟩⟩

/-- The hypotheses of TimeEventsComplete are met: one state and one choice of operands for each of its clauses. -/
theorem hypotheses_met_TimeEventsComplete :
    (∃ (src : Nat) (s : State), s.tsu.qualified.getD src false = true ∧ bestSource s = src) ∧
    (∃ (src : Nat) (s : State), ¬ (s.tsu.qualified.getD src false = true ∧ bestSource s = src)) ∧
    (∃ (src : Nat) (s : State), s.tsu.qualified.getD src false = true) ∧
    (∃ (s : State), s.tsu.syncFn = 1 ∧ (capture s).1 % secUnits * 2 = secUnits) ∧
    (∃ (s : State), s.tsu.syncFn = 1 ∧ (capture s).1 % secUnits * 2 < secUnits ∧ s.tsu.state ≠ .unset ∧ ((capture s).1 ::
      s.tsu.ppsTimes).length = 5 ∧ secondsApart ((capture s).1 :: s.tsu.ppsTimes) = true) ∧
    (∃ (s : State), s.tsu.evtOwner = 1 ∧ s.tsu.evtSet = true ∧ s.tsu.evtOut = false) ∧
    (∃ (s : State), s.tsu.ppsHigh = true) ∧
    (∃ (s : State), s.tsu.evtHigh = true) ∧
    (∃ (s a : State) (fn qi : Nat), a = advanceTo (blockDue s * 65536) s ∧ s.tsu.step = some ⟨0, fn, some qi⟩ ∧ a.tsu.state ≠ .unset) ∧
    (∃ (s a m : State) (d : Int) (fn : Nat), a = advanceTo (blockDue s * 65536) s ∧ s.tsu.step = some ⟨d, fn, none⟩ ∧ d ≠ 0 ∧
      a.tsu.state ≠ .unset ∧ m = evtTime 2 (w32 fn :: ns64 d) (repend (jump d { a with tsu.step := none }))) ∧
    (∃ (n : Nat) (s a : State), n < 64 ∧ (cmpOf s n).armed = true ∧ a = modCmp n (fun c => { c with armed := false, fired := true })
      (advanceTo (cmpOf s n).value s) ∧ (a.tsu.syncFn ≠ 2 ∨ a.tsu.ppsCmp ≠ n) ∧ (a.tsu.evtSet = false ∨ a.tsu.evtOut = false ∨
      a.tsu.evtCmp ≠ n)) ∧
    (∃ (n : Nat) (s a p : State), n < 64 ∧ (cmpOf s n).armed = true ∧ (cmpOf s n).owner = 1 ∧ a = modCmp n (fun c =>
      { c with armed := false, fired := true }) (advanceTo (cmpOf s n).value s) ∧ a.tsu.syncFn = 2 ∧ a.tsu.ppsCmp = n ∧ a.tsu.state ≠
      .unset ∧ p = drivePin 0 true { a with tsu.ppsHigh := true, tsu.ppsRise := a.cpr.aonNs }) :=
  ⟨⟨2, { up with tsu.qualified := [false, false, true] }, by decide⟩,
   ⟨1, up, by decide⟩,
   ⟨0, { up with tsu.qualified := [true, false, false] }, by decide⟩,
   ⟨{ up with tsu.syncFn := 1, tsu.now := secUnits / 2 - 262144 - (drawBelow 131073 up).1 }, rfl, by simp only [capture, drawBelow, draw]; exact half_second _ (Nat.mod_lt _ (by decide))⟩,
   ⟨{ up with tsu.syncFn := 1, tsu.state := .tracking, tsu.now := 5 * secUnits, tsu.ppsTimes := [4 * secUnits, 3 * secUnits, 2 * secUnits, secUnits] }, rfl, (seconds_apart _ (Nat.mod_lt _ (by decide))).1, by decide, rfl, (seconds_apart _ (Nat.mod_lt _ (by decide))).2⟩,
   ⟨{ up with tsu.evtOwner := 1, tsu.evtSet := true }, by decide⟩,
   ⟨{ up with tsu.ppsHigh := true }, by decide⟩,
   ⟨{ up with tsu.evtHigh := true }, by decide⟩,
   ⟨{ up with tsu.state := .tracking, tsu.step := some ⟨0, 1, some 1⟩ }, _, 1, 1, rfl, by decide⟩,
   ⟨{ up with tsu.state := .tracking, tsu.step := some ⟨-5, 1, none⟩ }, _, _, -5, 1, rfl, by decide, by decide, by decide, rfl⟩,
   ⟨63, { up with tsu.cmps := List.replicate 64 { Cmp.reset with armed := true } }, _, by decide, by decide, rfl, by decide⟩,
   ⟨8, { up with tsu.state := .tracking, tsu.syncFn := 2, tsu.ppsCmp := 8, tsu.cmps := List.replicate 64 { Cmp.reset with armed := true, owner := 1 } }, _, _, by decide, by decide, by decide, rfl, by decide, by decide, by decide, rfl⟩⟩

/-- The hypotheses of TimeRegistersComplete are met: one state and one choice of operands for each of its clauses. -/
theorem hypotheses_met_TimeRegistersComplete :
    (∃ (s : State), Reaches true 0x50110 s) ∧
    (∃ (s : State), Reaches true 0x50114 s) ∧
    (∃ (s : State), Reaches false 0x50100 s) ∧
    (∃ (n : Nat) (s : State), n < 64 ∧ Reaches false (cmpAddr n 0) s) ∧
    (∃ (n which : Nat) (w : Writer) (s : State), n < 64 ∧ which < 3 ∧ ownsCmp (cmpOf s n) w = true ∧ Reaches true (cmpAddr n which) s) ∧
    (∃ (n : Nat) (w : Writer) (s : State), ownsCmp (cmpOf s n) w = false) ∧
    (∃ (n which : Nat) (s : State), subDown s 5 = true ∧ n < 64 ∧ which < 3) ∧
    (∃ (n : Nat) (v : Word) (w : Writer) (s : State), n < 64 ∧ ownsCmp (cmpOf s n) w = true ∧ v.getLsbD 0 = true ∧ Reaches true (cmpAddr
      n 3) s) ∧
    (∃ (n : Nat) (v : Word) (w : Writer) (s : State), n < 64 ∧ ownsCmp (cmpOf s n) w = true ∧ v.getLsbD 0 = false ∧ Reaches true
      (cmpAddr n 3) s) ∧
    (∃ (n : Nat) (v : Word) (w : Writer) (s : State), n < 64 ∧ ownsCmp (cmpOf s n) w = true ∧ v.getLsbD 1 = true ∧ v.getLsbD 0 = false ∧
      Reaches true (cmpAddr n 3) s) :=
  ⟨⟨granting 0x50110, reaching (by decide) rfl⟩,
   ⟨granting 0x50114, reaching (by decide) rfl⟩,
   ⟨granting 0x50100, reaching (by decide) rfl⟩,
   ⟨63, granting (cmpAddr 63 0), by decide, reaching (by decide) rfl⟩,
   ⟨63, 2, .host, { granting (cmpAddr 63 2) with tsu.cmps := List.replicate 64 { Cmp.reset with owner := 1 } }, by decide, by decide, by decide, reaching (by decide) rfl⟩,
   ⟨0, .boot, up, by decide⟩,
   ⟨63, 2, { up with cpr.fencedSubs := [5] }, by decide⟩,
   ⟨0, 3, .core, { granting (cmpAddr 0 3) with tsu.cmps := List.replicate 64 { Cmp.reset with owner := 2 } }, by decide, by decide, by decide, reaching (by decide) rfl⟩,
   ⟨0, 2, .core, { granting (cmpAddr 0 3) with tsu.cmps := List.replicate 64 { Cmp.reset with owner := 2 } }, by decide, by decide, by decide, reaching (by decide) rfl⟩,
   ⟨63, 2, .host, { granting (cmpAddr 63 3) with tsu.cmps := List.replicate 64 { Cmp.reset with owner := 1 } }, by decide, by decide, by decide, by decide, reaching (by decide) rfl⟩⟩

/-- The hypotheses of RegisterCommandsComplete are met: one state and one choice of operands for each of its clauses. -/
theorem hypotheses_met_RegisterCommandsComplete :
    (∃ c s, startsNow 0x0E01 (exactly 2) c s = true ∧ 1 ≤ (word c 1).toNat ∧ (word c 1).toNat ≤ 4096 ∧ rangeStatus (begun c s) (word c
      0).toNat (word c 1).toNat = none ∧ deniedAccess (begun c s) false (rangeAddrs (word c 0).toNat (word c 1).toNat) = none) ∧
    (∃ (c : Cmd) (s : State), startsNow 0x0E02 (between 3 4096) c s = true ∧ 1 ≤ (word c 1).toNat ∧ c.words.length = (word c 1).toNat +
      2 ∧ rangeStatus (begun c s) (word c 0).toNat (word c 1).toNat = none ∧ deniedAccess (begun c s) true (rangeAddrs (word c 0).toNat
      (word c 1).toNat) = none ∧ touchesKeys (word c 0).toNat (word c 1).toNat = false) ∧
    (∃ (s : State), Reaches true 0x1011C s) ∧
    (∃ (s : State), Reaches true 0x20108 s ∧ s.mss.locked = false) ∧
    (∃ (s : State), Reaches true 0x20108 s ∧ s.mss.locked = true) ∧
    (∃ (addr : Word) (s : State), 0x90100 ≤ addr.toNat ∧ addr.toNat < 0xA0000 ∧ addr.toNat % 4 = 0 ∧ Reaches true addr.toNat s) ∧
    (∃ (w : Writer), w ≠ .core) ∧
    (∃ (addr : Word) (s : State), Reaches false addr.toNat s) ∧
    (∃ (addr : Word) (s : State), Reaches true addr.toNat s) ∧
    (∃ (addr : Word) (s : State), subDown s (addr.toNat / 65536) = true ∧ addr.toNat / 65536 < 16 ∧ addr.toNat % 4 = 0 ∧ addr.toNat /
      65536 ≠ 1) ∧
    (∃ (v : Word), v ≠ 0xB007) :=
  ⟨⟨cmd [0x10000, 1], granting 0x10000, by decide, by decide, by decide, by decide, granted 0x10000 false rfl⟩,
   ⟨cmd [0x20000, 1, 5], granting 0x20000, by decide, by decide, by decide, by decide, granted 0x20000 true rfl, by decide⟩,
   ⟨granting 0x1011C, reaching (by decide) rfl⟩,
   ⟨granting 0x20108, reaching (by decide) rfl, rfl⟩,
   ⟨{ granting 0x20108 with mss.locked := true }, reaching (by decide) rfl, rfl⟩,
   ⟨0x90100, granting 0x90100, by decide, by decide, by decide, reaching (by decide) rfl⟩,
   ⟨.host, by decide⟩,
   ⟨0x10000, granting 0x10000, reaching (by decide) rfl⟩,
   ⟨0x20000, granting 0x20000, reaching (by decide) rfl⟩,
   ⟨0x50100, { up with cpr.fencedSubs := [5] }, by decide⟩,
   ⟨0, by decide⟩⟩

/-- The hypotheses of PonCommandsComplete are met: one state and one choice of operands for each of its clauses. -/
theorem hypotheses_met_PonCommandsComplete :
    (∃ c s, startsNow 0x0201 (exactly 1) c s = true) ∧
    (∃ c s, startsNow 0x0202 ((fnLens [13, 1]) c) c s = true ∧ field (word c 0) 16 4 = 1) ∧
    (∃ c s, startsNow 0x0202 ((fnLens [13, 1]) c) c s = true ∧ field (word c 0) 16 4 = 0 ∧ field (word c 1) 0 2 ≠ 3 ∧ bit (word c 1) 3 =
      false) ∧
    (∃ c s, startsNow 0x0202 ((fnLens [13, 1]) c) c s = true ∧ field (word c 0) 16 4 = 0 ∧ field (word c 1) 0 2 ≠ 3 ∧ bit (word c 1) 3 =
      true ∧ (begun c s).cpx.mode = .service ∧ (begun c s).cpr.saving = false) ∧
    (∃ c s, startsNow 0x0203 (relayLens c) c s = true ∧ field (word c 0) 16 4 = 0 ∧ ∀ k ∈ delegatedOf ((c.words.drop 1).take 8), k ≠ 0 →
      k ∉ omciClasses) ∧
    (∃ c s, startsNow 0x0203 (relayLens c) c s = true ∧ field (word c 0) 16 4 = 1 ∧ 48 ≤ field (word c 1) 0 16 ∧ field (word c 1) 0 16 ≤
      1980 ∧ ∃ r ∈ (begun c s).ptu.relays, r.trans = field (word c 2) 0 8 * 256 + field (word c 2) 8 8) ∧
    (∃ c s, startsNow 0x0203 (relayLens c) c s = true ∧ field (word c 0) 16 4 = 2) ∧
    (∃ (c : Cmd) (s b : State) (x : PmBin), startsNow 0x0204 (exactly 1) c s = true ∧ b = accruePon (begun c s) ∧ binOf b (field (word c
      0) 24 8) = some x ∧ (bit (word c 0) 0 = true → field (word c 0) 20 4 < 8)) ∧
    (∃ c s, startsNow 0x0205 (exactly 1) c s = true ∧ field (word c 0) 16 4 = 0) ∧
    (∃ c s, startsNow 0x0205 (exactly 1) c s = true ∧ field (word c 0) 16 4 = 1) ∧
    (∃ c s, startsNow 0x0205 (exactly 1) c s = true ∧ field (word c 0) 16 4 = 2) :=
  ⟨⟨cmd [0], up, by decide⟩,
   ⟨cmd [0x10000], up, by decide⟩,
   ⟨cmd (List.replicate 13 0), up, by decide⟩,
   ⟨cmd (0 :: 8 :: List.replicate 11 0), up, by decide⟩,
   ⟨cmd (List.replicate 9 0), up, by decide⟩,
   ⟨cmd ([0x10000, 48, 0x0201] ++ List.replicate 11 0), { up with ptu.relays := [{ Relay.reset with trans := 258 }] }, by decide⟩,
   ⟨cmd [0x20000], up, by decide⟩,
   ⟨cmd [0x20000000], up, _, _, by decide, rfl, rfl, by decide⟩,
   ⟨cmd [0], up, by decide⟩,
   ⟨cmd [0x10000], up, by decide⟩,
   ⟨cmd [0x20000], up, by decide⟩⟩

/-- The hypotheses of PonSynchronisationComplete are met: one state and one choice of operands for each of its clauses. -/
theorem hypotheses_met_PonSynchronisationComplete :
    (∃ (path : Nat) (s : State), path < 2 ∧ (pathOf s path).enabled = true ∧ (pathOf s path).sync = .hunt) ∧
    (∃ (path : Nat) (f : PhyFrame) (s c d : State), path < 2 ∧ (pathOf s path).enabled = true ∧ (pathOf s path).sync = .confirm1 ∧
      f.psyncErrors = 0 ∧ f.hec ≤ 1 ∧ f.counter = ((pathOf s path).counter + frameStep s) % 2 ^ 51 ∧ c = (if f.hec = 1 then ponCount 4 1
      s else s) ∧ d = (if path = 0 then { c with ptu.noCand50 := false, ptu.confNs := c.cpr.aonNs } else c)) ∧
    (∃ (path : Nat) (f : PhyFrame) (s c d : State), path < 2 ∧ (pathOf s path).enabled = true ∧ (pathOf s path).sync = .confirm2 ∧
      f.psyncErrors = 0 ∧ f.hec ≤ 1 ∧ f.counter = ((pathOf s path).counter + frameStep s) % 2 ^ 51 ∧ c = (if f.hec = 1 then ponCount 4 1
      s else s) ∧ d = (if path = 0 then { c with ptu.noCand50 := false, ptu.confNs := c.cpr.aonNs } else c)) ∧
    (∃ (path : Nat) (f : PhyFrame) (s c : State), path < 2 ∧ (pathOf s path).enabled = true ∧ ((pathOf s path).sync = .confirm1 ∨
      (pathOf s path).sync = .confirm2) ∧ (f.psyncErrors ≠ 0 ∨ 1 < f.hec ∨ f.counter ≠ ((pathOf s path).counter + frameStep s) % 2 ^ 51)
      ∧ c = (if f.hec = 1 then ponCount 4 1 s else if f.hec = 2 then ponCount 5 1 s else s)) ∧
    (∃ (path : Nat) (f : PhyFrame) (s c : State), path < 2 ∧ (pathOf s path).enabled = true ∧ inSync (pathOf s path) = true ∧ (2 <
      f.psyncErrors ∨ f.hec = 2) ∧ c = adoptCounter path (((pathOf s path).counter + frameStep s) % 2 ^ 51) f (if f.hec = 1 then
      ponCount 4 1 s else if f.hec = 2 then ponCount 5 1 s else s)) ∧
    (∃ (path : Nat) (f : PhyFrame) (s c : State), path < 2 ∧ (pathOf s path).enabled = true ∧ inSync (pathOf s path) = true ∧
      f.psyncErrors ≤ 2 ∧ f.hec ≤ 1 ∧ c = adoptCounter path (((pathOf s path).counter + frameStep s) % 2 ^ 51) f (if f.hec = 1 then
      ponCount 4 1 s else s)) ∧
    (∃ (s a : State), s.ptu.p50.enabled = true ∧ inSync s.ptu.p50 = false ∧ a = advanceAon (s.ptu.confNs + 1000000000) s) ∧
    (∃ (f : Xgem) (s : State), inSync (activePath s) = true ∧ s.ptu.wordLost = false ∧ f.hecBad = true) ∧
    (∃ (f : Xgem) (s : State), inSync (activePath s) = true ∧ s.ptu.wordLost = false ∧ f.hecBad = false ∧ s.ptu.uniPorts.contains
      f.portId = true ∧ s.ptu.broken.contains f.portId = true ∧ f.last = true) ∧
    (∃ (f : Xgem) (s : State), inSync (activePath s) = true ∧ s.ptu.wordLost = false ∧ f.hecBad = false ∧ s.ptu.uniPorts.contains
      f.portId = true ∧ s.ptu.broken.contains f.portId = false ∧ xgemKeyOk f s = false) ∧
    (∃ (f : Xgem) (d : Datagram) (s t : State), inSync (activePath s) = true ∧ s.ptu.wordLost = false ∧ f.hecBad = false ∧
      s.ptu.uniPorts.contains f.portId = true ∧ s.ptu.broken.contains f.portId = false ∧ xgemKeyOk f s = true ∧ f.last = true ∧ f.ownMac
      = false ∧ f.d = some d ∧ s.ptu.frag = [] ∧ f.bytes ≤ 2000 ∧ t = { ponCount 26 f.bytes (ponCount 25 1 s) with ptu.frag := [] }) ∧
    (∃ (s : State), inSync (activePath s) = true) :=
  ⟨⟨0, { up with ptu.p50.enabled := true, ptu.p50.sync := .hunt }, by decide⟩,
   ⟨1, { counter := 2, hec := 1 }, { up with ptu.pXgs.enabled := true, ptu.pXgs.sync := .confirm1, ptu.pXgs.counter := 1 }, _, _, by decide, by decide, by decide, by decide, by decide, by decide, rfl, rfl⟩,
   ⟨0, { counter := 1 }, { up with ptu.p50.enabled := true, ptu.p50.sync := .confirm2 }, _, _, by decide, by decide, by decide, by decide, by decide, by decide, rfl, rfl⟩,
   ⟨0, { psyncErrors := 1 }, { up with ptu.p50.enabled := true, ptu.p50.sync := .confirm1 }, _, by decide, by decide, by decide, by decide, rfl⟩,
   ⟨0, { psyncErrors := 3 }, { up with ptu.p50.enabled := true, ptu.p50.sync := .sync }, _, by decide, by decide, by decide, by decide, rfl⟩,
   ⟨0, { psyncErrors := 2 }, { up with ptu.p50.enabled := true, ptu.p50.sync := .syncMiss, ptu.p50.misses := 3 }, _, by decide, by decide, by decide, by decide, by decide, rfl⟩,
   ⟨{ up with ptu.p50.enabled := true, ptu.p50.sync := .hunt }, _, by decide, by decide, rfl⟩,
   ⟨{ hecBad := true }, { up with ptu.p50.enabled := true, ptu.p50.sync := .sync }, by decide⟩,
   ⟨{ portId := 9, last := true }, { up with ptu.p50.sync := .sync, ptu.uniPorts := [9], ptu.broken := [9] }, by decide⟩,
   ⟨{ portId := 9, keyIdx := 1 }, { up with ptu.p50.sync := .sync, ptu.uniPorts := [9] }, by decide⟩,
   ⟨{ portId := 9, bytes := 2000, last := true, d := some {} }, {}, { up with ptu.p50.sync := .sync, ptu.uniPorts := [9] }, _, by decide, by decide, by decide, by decide, by decide, by decide, by decide, by decide, by decide, by decide, by decide, rfl⟩,
   ⟨{ up with ptu.p50.enabled := true, ptu.p50.sync := .sync }, by decide⟩⟩

/-- The hypotheses of PonPloamComplete are met: one state and one choice of operands for each of its clauses. -/
theorem hypotheses_met_PonPloamComplete :
    (∃ (p : Ploam) (s : State), takePloam false p s = none) ∧
    (∃ (p : Ploam) (s t : State), takePloam false p s = some t ∧ p.micBad = true) ∧
    (∃ (p : Ploam) (s t : State), takePloam s.ptu.prot p s = some t ∧ p.micBad = false ∧ t.ptu.act ≠ .o7) ∧
    (∃ (p : Ploam) (s t : State), takePloam false p s = some t ∧ p.micBad = false) :=
  ⟨⟨{ forUs := false }, { up with ptu.p50.sync := .sync }, by decide⟩,
   ⟨{ micBad := true }, { up with ptu.p50.sync := .sync }, _, rfl, by decide⟩,
   ⟨{}, { up with ptu.prot := true }, _, rfl, rfl, by decide⟩,
   ⟨{}, { up with ptu.p50.sync := .sync }, _, rfl, by decide⟩⟩

/-- The hypotheses of PonUpstreamComplete are met: one state and one choice of operands for each of its clauses. -/
theorem hypotheses_met_PonUpstreamComplete :
    (∃ (g : Grant) (s : State), inSync (activePath s) = true ∧ s.ptu.rate ≠ 0 ∧ (g.bad = true ∨ profileUsable s g.profile = false)) ∧
    (∃ (g : Grant) (s b : State), inSync (activePath s) = true ∧ s.ptu.rate ≠ 0 ∧ g.bad = false ∧ profileUsable s g.profile = true ∧
      g.kind = 1 ∧ b = noteBurst g s ∧ s.ptu.act = .o23 ∧ s.ptu.laser = true) ∧
    (∃ (g : Grant) (s b : State), inSync (activePath s) = true ∧ s.ptu.rate ≠ 0 ∧ g.bad = false ∧ profileUsable s g.profile = true ∧
      g.kind = 2 ∧ b = noteBurst g s ∧ s.ptu.act = .o4 ∧ s.ptu.laser = true) ∧
    (∃ (g : Grant) (i : Nat) (s t : State), inSync (activePath s) = true ∧ s.ptu.rate ≠ 0 ∧ g.bad = false ∧ profileUsable s g.profile =
      true ∧ g.kind ≠ 1 ∧ g.kind ≠ 2 ∧ s.ptu.act = .o5 ∧ s.ptu.laser = true ∧ grantPort s g.alloc = some i ∧ t = ponPortCount i 1
      g.bytes (ponPortCount i 0 1 (ponCount 19 g.bytes (ponCount 18 1 (noteBurst g s))))) ∧
    (∃ (g : Grant) (s b : State), inSync (activePath s) = true ∧ s.ptu.rate ≠ 0 ∧ g.bad = false ∧ profileUsable s g.profile = true ∧
      g.kind ≠ 1 ∧ g.kind ≠ 2 ∧ s.ptu.act = .o5 ∧ s.ptu.laser = true ∧ grantPort s g.alloc = none ∧ s.ptu.defAlloc = true ∧ g.alloc =
      s.ptu.onuId ∧ b = noteBurst g s) ∧
    (∃ (port : Nat) (g : PonGrant) (rest : List PonGrant) (s a : State), s.ptu.act = .o5 ∧ s.ptu.laser = true ∧ port < 8 ∧
      (s.ptu.ports.getD port PonPort.reset).grants = g :: rest ∧ a = advanceAon g.dueNs s) ∧
    (∃ (g : PonGrant) (gs : List PonGrant) (s a : State), s.ptu.act = .o5 ∧ s.ptu.laser = true ∧ s.ptu.defGrants = g :: gs ∧ a =
      advanceAon g.dueNs s) ∧
    (∃ (s : State), s.ptu.txOff = false) ∧
    (∃ (s : State), s.ptu.to1 = true ∧ (s.ptu.act = .o23 ∨ s.ptu.act = .o4)) ∧
    (∃ (s : State), s.ptu.to2 = true ∧ s.ptu.act = .o6) :=
  ⟨⟨{ bad := true }, { up with ptu.p50.sync := .sync, ptu.rate := 1 }, by decide⟩,
   ⟨{ kind := 1 }, { up with ptu.p50.sync := .sync, ptu.rate := 1, ptu.laser := true, ptu.act := .o23, ptu.profiles := [{ Profile.reset with index := 0, rate := 1 }] }, _, by decide, by decide, by decide, by decide, by decide, rfl, by decide⟩,
   ⟨{ kind := 2 }, { up with ptu.p50.sync := .sync, ptu.rate := 1, ptu.laser := true, ptu.act := .o4, ptu.profiles := [{ Profile.reset with index := 0, rate := 1 }] }, _, by decide, by decide, by decide, by decide, by decide, rfl, by decide⟩,
   ⟨{ alloc := 1024, bytes := 100 }, 7, { up with ptu.p50.sync := .sync, ptu.rate := 1, ptu.laser := true, ptu.act := .o5, ptu.profiles := [{ Profile.reset with index := 0, rate := 1 }], ptu.allocs := [1024], ptu.ports := List.replicate 7 PonPort.reset ++ [{ PonPort.reset with alloc := 1024 }] }, _, by decide, by decide, by decide, by decide, by decide, by decide, by decide, by decide, by decide, rfl⟩,
   ⟨{ alloc := 5 }, { up with ptu.p50.sync := .sync, ptu.rate := 1, ptu.laser := true, ptu.act := .o5, ptu.profiles := [{ Profile.reset with index := 0, rate := 1 }], ptu.defAlloc := true, ptu.onuId := 5 }, _, by decide, by decide, by decide, by decide, by decide, by decide, by decide, by decide, by decide, by decide, by decide, rfl⟩,
   ⟨7, ⟨64, true, 0, 0⟩, [], { up with ptu.act := .o5, ptu.laser := true, ptu.ports := List.replicate 8 { PonPort.reset with grants := [⟨64, true, 0, 0⟩] } }, _, by decide, by decide, by decide, by decide, rfl⟩,
   ⟨⟨64, false, 0, 0⟩, [], { up with ptu.act := .o5, ptu.laser := true, ptu.defGrants := [⟨64, false, 0, 0⟩] }, _, by decide, by decide, by decide, rfl⟩,
   ⟨up, by decide⟩,
   ⟨{ up with ptu.to1 := true, ptu.act := .o4 }, by decide⟩,
   ⟨{ up with ptu.to2 := true, ptu.act := .o6 }, by decide⟩⟩

/-- The hypotheses of PonServicesComplete are met: one state and one choice of operands for each of its clauses. -/
theorem hypotheses_met_PonServicesComplete :
    (∃ (m : Omci) (s : State), s.ptu.act = .o5 ∧ m.cls ≠ 0 ∧ s.ptu.delegated.contains m.cls = true) ∧
    (∃ (m : Omci) (s : State), s.ptu.act = .o5 ∧ s.ptu.delegated.contains m.cls = false ∧ omciClasses.contains m.cls = true) ∧
    (∃ (m : Omci) (s : State), s.ptu.act = .o5 ∧ s.ptu.delegated.contains m.cls = false ∧ omciClasses.contains m.cls = false) ∧
    (∃ (trans : Nat) (r : Relay) (s a : State), (s.ptu.relays.find? fun r => r.trans = trans) = some r ∧ a = advanceAon (r.startNs +
      2000000000) s) ∧
    (∃ (n ns : Nat) (fr : Nat) (s : State), s.ptu.act = .o5 ∧ ns < 1000000000 ∧ nearestFrame (activePath s).counter n = (fr : Int) ∧
      (activePath s).counter < fr ∧ fr < (activePath s).counter + 80000) ∧
    (∃ (n ns fr path cap : Nat) (s : State), s.ptu.act = .o5 ∧ ns < 1000000000 ∧ nearestFrame (activePath s).counter n = (fr : Int) ∧ fr
      ≤ (activePath s).counter ∧ (activePath s).counter ≤ fr + 8000 ∧ s.ptu.frames.find? (fun x => rateOf x.1 = s.ptu.rate ∧ x.2.1 = fr)
      = some (path, fr, cap)) ∧
    (∃ (n ns fr : Nat) (s : State), s.ptu.act = .o5 ∧ ns < 1000000000 ∧ nearestFrame (activePath s).counter n = (fr : Int) ∧ fr ≤
      (activePath s).counter ∧ s.ptu.frames.find? (fun x => rateOf x.1 = s.ptu.rate ∧ x.2.1 = fr) = none) ∧
    (∃ (s : State), s.ptu.act = .o5 ∧ s.ptu.sleepSt = .awakeHeld) ∧
    (∃ (s a p : State), s.ptu.sleepSt = .watch ∧ a = advanceAon (s.ptu.peekNs + 1000000) s ∧ p = setSleep .watchPeek
      { a with ptu.peekNs := a.cpr.aonNs }) ∧
    (∃ (s : State), s.ptu.sleepSt = .aware) ∧
    (∃ (s a f : State), s.ptu.prot = true ∧ (activePath s).lods = true ∧ s.ptu.protFired = false ∧ a = advanceAon (s.ptu.protNs +
      4000000) s ∧ f = evtPon 4 []
      { a with ptu.prot := false, ptu.protFired := true, ptu.triggers := inc32 a.ptu.triggers, ptu.lastTrigNs := nowNs a }) ∧
    (∃ (s a : State), a = accruePon (advanceTo (binBoundary s.ptu.cur15 s) s)) ∧
    (∃ (s a : State), a = accruePon (advanceTo (binBoundary s.ptu.curDay s) s)) :=
  ⟨⟨{ cls := 11 }, { up with ptu.act := .o5, ptu.delegated := [11] }, by decide⟩,
   ⟨{ cls := 256 }, { up with ptu.act := .o5 }, by decide⟩,
   ⟨{ cls := 999 }, { up with ptu.act := .o5 }, by decide⟩,
   ⟨258, { Relay.reset with trans := 258 }, { up with ptu.relays := [{ Relay.reset with trans := 258 }] }, _, by decide, rfl⟩,
   ⟨8, 999999999, 8, { up with ptu.act := .o5 }, by decide⟩,
   ⟨0, 999999999, 0, 0, 77, { up with ptu.act := .o5, ptu.rate := 1, ptu.frames := [(0, 0, 77)] }, by decide⟩,
   ⟨0, 0, 0, { up with ptu.act := .o5, ptu.rate := 1 }, by decide⟩,
   ⟨{ up with ptu.act := .o5, ptu.sleepSt := .awakeHeld }, by decide⟩,
   ⟨{ up with ptu.sleepSt := .watch }, _, _, by decide, rfl, rfl⟩,
   ⟨{ up with ptu.sleepSt := .aware }, by decide⟩,
   ⟨{ up with ptu.prot := true, ptu.armed := false, ptu.p50.lods := true }, _, _, by decide, by decide, by decide, rfl, rfl⟩,
   ⟨up, _, rfl⟩,
   ⟨up, _, rfl⟩⟩

/-- The hypotheses of LegCommandsComplete are met: one state and one choice of operands for each of its clauses. -/
theorem hypotheses_met_LegCommandsComplete :
    (∃ c s, startsNow 0x0301 (exactly 28) c s = true ∧ firstFail (legCreateChecks c (begun c s)) = none) ∧
    (∃ c s, startsNow 0x0302 (exactly 30) c s = true ∧ firstFail (legModifyChecks c (begun c s)) = none) ∧
    (∃ c s, startsNow 0x0303 (exactly 1) c s = true ∧ thas (begun c s).fwe.legs (field (word c 0) 0 14) = true) ∧
    (∃ c s, startsNow 0x0304 (exactly 5) c s = true ∧ firstFail (streamAddChecks c (begun c s)) = none) ∧
    (∃ c s, startsNow 0x0305 (exactly 1) c s = true ∧ thas (begun c s).fwe.streams (field (word c 0) 0 16) = true) ∧
    (∃ c s, startsNow 0x0308 (exactly 2) c s = true ∧ firstFail (confCreateChecks c (begun c s)) = none) ∧
    (∃ c s, startsNow 0x0309 (exactly 1) c s = true ∧ thas (begun c s).aue.confs (field (word c 0) 0 13) = true) ∧
    (∃ c s, startsNow 0x030A (exactly 1) c s = true ∧ thas (begun c s).fwe.legs (field (word c 0) 0 14) = true ∧ bit (word c 0) 31 =
      false) ∧
    (∃ c s, startsNow 0x030A (exactly 1) c s = true ∧ tget (begun c s).fwe.legs (field (word c 0) 0 14) = none ∧ bit (word c 0) 31 =
      false) ∧
    (∃ c s, startsNow 0x030A (exactly 1) c s = true ∧ bit (word c 0) 31 = true) ∧
    (∃ c s, startsNow 0x030B (exactly 4) c s = true ∧ field (word c 0) 0 2 = 0 ∧ (word c 1).toNat ≠ 0 ∧ field (word c 3) 8 8 ≠ 0 ∧ thas
      (begun c s).fwe.legs (field (word c 0) 16 14) = true) ∧
    (∃ c s, startsNow 0x030B (exactly 4) c s = true ∧ field (word c 0) 0 2 = 1 ∧ field (word c 0) 16 14 ≤ 14) ∧
    (∃ c s, startsNow 0x030B (exactly 4) c s = true ∧ field (word c 0) 0 2 = 2 ∧ field (word c 0) 16 14 ≤ 14) :=
  ⟨⟨cmd (0xFFFFFFFF :: List.replicate 27 0), { up with cpx.mode := .converse }, by decide⟩,
   ⟨cmd (1 :: 63 :: 0xFFFF0000 :: List.replicate 27 0), { busy with fwe.legs := [(1, network)] }, by decide⟩,
   ⟨cmd [16383], { busy with fwe.legs := [(16383, network)] }, by decide⟩,
   ⟨cmd [0x00000005, 9, 0, 0, 0], busy, by decide⟩,
   ⟨cmd [4], busy, by decide⟩,
   ⟨cmd [0x0010FFFF, 0], { up with cpx.mode := .converse }, by decide⟩,
   ⟨cmd [1], busy, by decide⟩,
   ⟨cmd [1], busy, by decide⟩,
   ⟨cmd [9], busy, by decide⟩,
   ⟨cmd [0x80000000], up, by decide⟩,
   ⟨cmd [0x00010000, 1, 0, 0x100], busy, by decide⟩,
   ⟨cmd [0x000E0001, 0, 0, 0], up, by decide⟩,
   ⟨cmd [0x000E0002, 0, 0, 0], up, by decide⟩⟩

/-- The hypotheses of SubscriptionCommandsComplete are met: one state and one choice of operands for each of its clauses. -/
theorem hypotheses_met_SubscriptionCommandsComplete :
    (∃ (c : Cmd) (s f : State), startsNow 0x0306 (exactly 4) c s = true ∧ firstFail (subAddChecks c (begun c s)) = none ∧ f = inFlow
      (field (word c 0) 16 14) (begun c s) ∧ (chainOf f (field (word c 0) 0 16)).2 = false ∧ bit (word c 1) 16 = false ∧ findPair f
      (field (word c 0) 0 16) (field (word c 0) 16 14) (subPort c f) = none ∧ word c 3 ≠ 0) ∧
    (∃ (c : Cmd) (s f p : State) (ssrc : Word), startsNow 0x0306 (exactly 4) c s = true ∧ firstFail (subAddChecks c (begun c s)) = none
      ∧ f = inFlow (field (word c 0) 16 14) (begun c s) ∧ (chainOf f (field (word c 0) 0 16)).2 = false ∧ bit (word c 1) 16 = false ∧
      findPair f (field (word c 0) 0 16) (field (word c 0) 16 14) (subPort c f) = none ∧ word c 3 = 0 ∧ (ssrc, p) = pickSsrc (field
      (word c 0) 16 14) f) ∧
    (∃ (c : Cmd) (s f : State) (k : Nat), startsNow 0x0306 (exactly 4) c s = true ∧ firstFail (subAddChecks c (begun c s)) = none ∧ f =
      inFlow (field (word c 0) 16 14) (begun c s) ∧ (chainOf f (field (word c 0) 0 16)).2 = false ∧ bit (word c 1) 16 = false ∧ findPair
      f (field (word c 0) 0 16) (field (word c 0) 16 14) (subPort c f) = some k) ∧
    (∃ (c : Cmd) (s f : State) (k : Nat) (e : Entry), startsNow 0x0306 (exactly 4) c s = true ∧ firstFail (subAddChecks c (begun c s)) =
      none ∧ f = inFlow (field (word c 0) 16 14) (begun c s) ∧ (chainOf f (field (word c 0) 0 16)).2 = false ∧ bit (word c 1) 16 = true
      ∧ findPair f (field (word c 3) 0 16) (field (word c 0) 16 14) (subPort c f) = some k ∧ tget f.fwe.ledger k = some e) ∧
    (∃ (c : Cmd) (s : State) (e : Entry), startsNow 0x0307 (exactly 1) c s = true ∧ tget (begun c s).fwe.ledger (field (word c 0) 0 19)
      = some e) :=
  ⟨⟨cmd [0x00020004, 0xF11, 0, 7], busy, _, by decide, by decide, rfl, by decide⟩,
   ⟨cmd [0x00020004, 0xF11, 0, 0], busy, _, _, _, by decide, by decide, rfl, by decide, by decide, by decide, by decide, rfl⟩,
   ⟨cmd [0x00010004, 0x011, 0, 7], busy, _, 0, by decide, by decide, rfl, by decide⟩,
   ⟨cmd [0x00010008, 0x10011, 0, 4], { busy with fwe.streams := [(4, audio), (8, audio)] }, _, 0, entry, by decide, by decide, rfl, by decide⟩,
   ⟨cmd [0], busy, entry, by decide⟩⟩

/-- The hypotheses of IngressCompletes are met: one state and one choice of operands for each of its clauses. -/
theorem hypotheses_met_IngressCompletes :
    (∃ (d : Datagram) (s : State), legOfTuple s d = none ∧ 3 < d.first) ∧
    (∃ (leg : Nat) (l : Leg) (d : Datagram) (s : State), legOfTuple s d = some (leg, l) ∧ (d.first ≤ 3 ∨ (20 ≤ d.first ∧ d.first ≤ 63) ∨
      (128 ≤ d.first ∧ d.first ≤ 191 ∧ ((192 ≤ d.second ∧ d.second ≤ 223) ∨ (knownSsrcs s leg).contains d.ssrc = true)))) ∧
    (∃ (leg : Nat) (l : Leg) (d : Datagram) (s : State), legOfTuple s d = some (leg, l) ∧ 128 ≤ d.first ∧ d.first ≤ 191 ∧ (d.second <
      192 ∨ 223 < d.second) ∧ (knownSsrcs s leg).contains d.ssrc = false) ∧
    (∃ (leg : Nat) (l : Leg) (d : Datagram) (s : State), legOfTuple s d = some (leg, l) ∧ ((4 ≤ d.first ∧ d.first ≤ 19) ∨ (64 ≤ d.first
      ∧ d.first ≤ 127) ∨ 192 ≤ d.first)) ∧
    (∃ (port : Nat) (s : State), port < 4 ∧ relays s = false) ∧
    (∃ (leg b : Nat) (l : Leg) (bytes : List Byte) (s t : State), tget s.fwe.legs leg = some l ∧ l.kind = .network ∧ bufAlloc
      bytes.length true 4 1 s = (some b, t)) ∧
    (∃ (s : State), s.hlp.link = .active) ∧
    (∃ (leg b : Nat) (l : Leg) (s t : State), tget s.fwe.legs leg = some l ∧ l.kind = .network ∧ l.ice = true ∧ bufAlloc (stunBytes l
      true) true 4 1 s = (some b, t)) ∧
    (∃ (leg t : Nat) (l : Leg) (s a d : State) (w : Nat), tget s.fwe.legs leg = some l ∧ consentLeg l = true ∧ l.consentDue = some t ∧ a
      = advanceAon t s ∧ drawBelow 2000000001 a = (w, d)) ∧
    (∃ (leg b : Nat) (l : Leg) (s t : State), tget s.fwe.legs leg = some l ∧ consentLeg l = true ∧ bufAlloc (stunBytes l false) true 4 1
      s = (some b, t)) ∧
    (∃ (leg : Nat) (l : Leg) (s : State), tget s.fwe.legs leg = some l ∧ consentLeg l = true ∧ l.state = .active) :=
  ⟨⟨{ first := 4 }, up, by decide⟩,
   ⟨1, network, { first := 128, second := 192 }, busy, by decide⟩,
   ⟨1, network, { first := 191, second := 191, ssrc := 77 }, busy, by decide⟩,
   ⟨1, network, { first := 19 }, busy, by decide⟩,
   ⟨3, up, by decide⟩,
   ⟨1, _, network, [1, 2], busy, _, by decide, by decide, rfl⟩,
   ⟨up, by decide⟩,
   ⟨1, _, { network with ice := true }, { busy with fwe.legs := [(1, { network with ice := true })] }, _, by decide, by decide, by decide, rfl⟩,
   ⟨1, 0, { network with ice := true, consentDue := some 0 }, { busy with fwe.legs := [(1, { network with ice := true, consentDue := some 0 })] }, _, _, _, by decide, by decide, by decide, rfl, rfl⟩,
   ⟨1, _, { network with ice := true }, { busy with fwe.legs := [(1, { network with ice := true })] }, _, by decide, by decide, rfl⟩,
   ⟨1, { network with ice := true }, { busy with fwe.legs := [(1, { network with ice := true })] }, by decide⟩⟩

/-- The hypotheses of RtpPathCompletes are met: one state and one choice of operands for each of its clauses. -/
theorem hypotheses_met_RtpPathCompletes :
    (∃ (st : Nat) (x : Stream) (l : Leg) (p : RtpPkt) (s f b a c d : State) (k now : Nat), f = inFlow (st / 4) s ∧ tget f.fwe.streams st
      = some x ∧ tget f.fwe.legs (st / 4) = some l ∧ x.origin = false ∧ l.kind = .network ∧ l.state = .active ∧ subDown f 8 = false ∧
      bufAlloc p.bytes (isAudio x.codec) 4 1 f = (some k, b) ∧ p.poisoned = false ∧ ingressAuth (st / 4) p.ssrc p.seq.toNat false p.mki
      p.prot p.bytes b = (true, a) ∧ c = modLeg (st / 4) (fun l =>
      { l with stats.inPkts := inc64 l.stats.inPkts, stats.inBytes := inc64 l.stats.inBytes p.bytes }) a ∧ stamp c = (now, d)) ∧
    (∃ (st : Nat) (x : Stream) (l : Leg) (p : RtpPkt) (s f b : State) (k : Nat), f = inFlow (st / 4) s ∧ tget f.fwe.streams st = some x
      ∧ tget f.fwe.legs (st / 4) = some l ∧ x.origin = false ∧ l.kind = .network ∧ l.state = .active ∧ subDown f 8 = false ∧ bufAlloc
      p.bytes (isAudio x.codec) 4 1 f = (some k, b)) ∧
    (∃ (st : Nat) (x : Stream) (l : Leg) (s f : State), f = inFlow (st / 4) s ∧ tget f.fwe.streams st = some x ∧ tget f.fwe.legs (st /
      4) = some l ∧ x.origin = false ∧ l.kind = .network) ∧
    (∃ (st : Nat) (x y : Stream) (l : Leg) (s f : State), tget s.fwe.streams st = some x ∧ tget s.fwe.legs (st / 4) = some l ∧ x.fecPt ≠
      0 ∧ x.origin = false ∧ l.state = .active ∧ subDown s 8 = false ∧ f = inFlow (st / 4) s ∧ tget f.fwe.streams st = some y) ∧
    (∃ (st seq t n : Nat) (x : Stream) (s : State), tget s.fwe.streams st = some x ∧ x.fecPt ≠ 0 ∧ gapOf s st seq = some (t, n)) ∧
    (∃ (st seq t n : Nat) (x : Stream) (s : State), tget s.fwe.streams st = some x ∧ gapOf s st seq = some (t, n) ∧ n < 2) ∧
    (∃ (st seq t n : Nat) (s : State), gapOf s st seq = some (t, n) ∧ 2 ≤ n) ∧
    (∃ (st : Nat) (x : Stream) (l : Leg) (s a : State), tget s.fwe.streams st = some x ∧ tget s.fwe.legs (st / 4) = some l ∧ l.feedback
      = true ∧ x.origin = false ∧ a = (if x.fbNs = 0 then s else advanceTo ((x.fbNs + 20000000) * 65536) s)) ∧
    (∃ (st i : Nat) (w : WalkItem) (s : State), oldestWalk s (st / 4) = some (i, w) ∧ w.stream = st) ∧
    (∃ (pool index : Nat) (s : State), pool < 8 ∧ index < (poolOf s pool).count) ∧
    (∃ (n first t : Nat) (r : Replay) (g : Ring) (x : CairnRec) (p : RtpPkt) (y : Stream) (s a : State), tget s.mss.replays n = some r ∧
      r.firstNs = some first ∧ r.running = true ∧ 0 < r.sent ∧ tget s.mss.rings r.conf = some g ∧ g.recs.find? (replayOwes r) = some x ∧
      r.lost = false ∧ x.pkt = some p ∧ tget s.fwe.streams r.target = some y ∧ t = r.launchNs + (x.timeNs - first) ∧ a = engineTraffic
      .cairnRead (recBytes x.length) (advanceTo (t * 65536) s)) :=
  ⟨⟨4, audio, network, {}, keyed, _, _, _, _, _, _, _, rfl, by decide, by decide, by decide, by decide, by decide, by decide, rfl, by decide, rfl, rfl, rfl⟩,
   ⟨4, audio, network, { prot := { suite := 3 } }, keyed, _, _, _, rfl, by decide, by decide, by decide, by decide, by decide, by decide, rfl⟩,
   ⟨4, audio, { network with state := .created }, { busy with fwe.legs := [(1, { network with state := .created })] }, _, rfl, by decide⟩,
   ⟨4, { audio with fecPt := 100, gaps := [(7, 5, 1)] }, _, network, { busy with fwe.streams := [(4, { audio with fecPt := 100, gaps := [(7, 5, 1)] })] }, _, by decide, by decide, by decide, by decide, by decide, by decide, rfl, rfl⟩,
   ⟨4, 7, 5, 1, { audio with fecPt := 100, gaps := [(7, 5, 1)] }, { busy with fwe.streams := [(4, { audio with fecPt := 100, gaps := [(7, 5, 1)] })] }, by decide⟩,
   ⟨4, 7, 5, 1, { audio with fecPt := 100, gaps := [(7, 5, 1)] }, { busy with fwe.streams := [(4, { audio with fecPt := 100, gaps := [(7, 5, 1)] })] }, by decide⟩,
   ⟨4, 7, 5, 2, { busy with fwe.streams := [(4, { audio with gaps := [(7, 5, 2)] })] }, by decide⟩,
   ⟨4, audio, { network with feedback := true }, { busy with fwe.legs := [(1, { network with feedback := true })] }, _, by decide, by decide, by decide, by decide, rfl⟩,
   ⟨4, 0, { WalkItem.reset with stream := 4 }, { busy with fwe.walkQ := [{ WalkItem.reset with stream := 4 }] }, by decide⟩,
   ⟨7, 0, { up with bpm.pools := List.replicate 8 { Pool.reset with count := 16, free := 16 } }, by decide⟩,
   ⟨0, 0, _, { Replay.reset with running := true, firstNs := some 0, sent := 1 }, { Ring.reset with recs := [{ CairnRec.reset with pkt := some {} }] }, { CairnRec.reset with pkt := some {} }, {}, audio, { busy with mss.replays := [(0, { Replay.reset with running := true, firstNs := some 0, sent := 1 })], mss.rings := [(0, { Ring.reset with recs := [{ CairnRec.reset with pkt := some {} }] })], fwe.streams := [(0, audio)] }, _, by decide, by decide, by decide, by decide, by decide, by decide, by decide, by decide, by decide, rfl, rfl⟩⟩

/-- The hypotheses of RtcpCompletes are met: one state and one choice of operands for each of its clauses. -/
theorem hypotheses_met_RtcpCompletes :
    (∃ (leg : Nat) (l : Leg) (s : State), tget s.fwe.legs leg = some l ∧ l.kind = .network ∧ l.state ≠ .created ∧ l.state ≠ .deleting) ∧
    (∃ (leg : Nat) (l : Leg) (s : State), tget s.fwe.legs leg = some l ∧ l.kind = .network ∧ l.state = .created) ∧
    (∃ (leg i w t : Nat) (ssrc : Word) (e : Entry) (own : List (Nat × Stream)) (s a d : State), ((entriesTo s leg).find? fun e =>
      e.2.ssrcOut = ssrc) = some (i, e) ∧ e.srDue = some t ∧ a = advanceTo (t * 65536) s ∧ drawBelow 1000000001 a = (w, d) ∧ own =
      (d.fwe.streams.filter fun x => x.1 / 4 = leg ∧ x.2.origin = false)) :=
  ⟨⟨1, network, busy, by decide⟩,
   ⟨1, { network with state := .created }, { busy with fwe.legs := [(1, { network with state := .created })] }, by decide⟩,
   ⟨1, 0, _, 9, 7, { entry with ssrcOut := 7, srDue := some 9 }, _, { busy with fwe.ledger := [(0, { entry with ssrcOut := 7, srDue := some 9 })] }, _, _, by decide, by decide, rfl, rfl, rfl⟩⟩

/-- The hypotheses of ShaperCompletes are met: one state and one choice of operands for each of its clauses. -/
theorem hypotheses_met_ShaperCompletes :
    (∃ (s : State), s.cti.egressStopped = true) ∧
    (∃ (port : Nat) (s : State), port < 15 ∧ (portShape s port).paced = true ∧ s.cti.egressStopped = false) ∧
    (∃ (port : Nat) (f g : Frame) (fs : List Frame) (s t : State), port < 15 ∧ (portShape s port).paced = false ∧ s.cti.egressStopped =
      false ∧ (portShape s port).timed = f :: g :: fs ∧ t = modPort port (fun x => { x with timed := g :: fs }) s) ∧
    (∃ (port e : Nat) (s : State), port < 15 ∧ (portShape s port).paced = false ∧ (((List.range 4).flatMap fun v => portHeads s port
      v).filterMap fun h => eligibleAt s h.2.1).min? = some e) ∧
    (∃ (port : Nat) (f : Frame) (fs : List Frame) (s t : State), port < 15 ∧ (portShape s port).paced = true ∧ s.cti.egressStopped =
      false ∧ (portShape s port).timed = f :: fs ∧ t = modCmp (portShape s port).cmp (fun c => { c with armed := false, fired := true })
      (modPort port (fun x => { x with timed := fs }) (advanceTo (f.stamp * 65536) s))) ∧
    (∃ (leg service port l : Nat) (f : Frame) (fs : List Frame) (s a : State), port < 15 ∧ service < 4 ∧ (portShape s port).paced =
      false ∧ s.cti.egressStopped = false ∧ (frameQ s (qKey leg service port)).frames = f :: fs ∧ f.launch = some l ∧ a = advanceTo (l *
      65536) s ∧ isLate a f = true) ∧
    (∃ (leg service port l v : Nat) (f : Frame) (fs : List Frame) (s a : State), port < 15 ∧ service < 4 ∧ (portShape s port).paced =
      false ∧ s.cti.egressStopped = false ∧ (frameQ s (qKey leg service port)).frames = f :: fs ∧ f.launch = some l ∧ a = advanceTo (l *
      65536) s ∧ isLate a f = false ∧ (eligibleAt a f).any (fun e => e ≤ a.cpr.aonNs) = true ∧ v = (f.len - (frameQ a (qKey leg service
      port)).deficit + (legShape a leg).weight * 256 - 1) / ((legShape a leg).weight * 256)) :=
  ⟨⟨{ up with cti.egressStopped := true }, by decide⟩,
   ⟨14, { up with tsh.ports := List.replicate 15 { PortShape.reset with paced := true } }, by decide⟩,
   ⟨14, frame, frame, [], { up with tsh.ports := List.replicate 15 { PortShape.reset with timed := [frame, frame] } }, _, by decide, by decide, by decide, by decide, rfl⟩,
   ⟨0, 0, { up with tsh.queues := [(qKey 1 0 0, ⟨[frame], 0⟩)] }, by decide⟩,
   ⟨14, frame, [], { up with tsh.ports := List.replicate 15 { PortShape.reset with paced := true, timed := [frame] } }, _, by decide, by decide, by decide, by decide, rfl⟩,
   ⟨1, 0, 0, 0, { frame with launch := some 0 }, [], { up with tsu.now := 3000000 * 65536, tsu.late := 1, tsh.queues := [(qKey 1 0 0, ⟨[{ frame with launch := some 0 }], 0⟩)] }, _, by decide, by decide, by decide, by decide, by decide, by decide, rfl, by decide⟩,
   ⟨1, 0, 0, 0, _, { frame with launch := some 0 }, [], { up with tsu.late := 1000000, tsh.queues := [(qKey 1 0 0, ⟨[{ frame with launch := some 0 }], 0⟩)] }, _, by decide, by decide, by decide, by decide, by decide, by decide, rfl, by decide, by decide, rfl⟩⟩

/-- The hypotheses of GovernorCompletes are met: one state and one choice of operands for each of its clauses. -/
theorem hypotheses_met_GovernorCompletes :
    (∃ (s a p o c : State), a = settleChannels (advanceTo (epochDue s * 65536) s) ∧ p = (if a.lgv.computing = true ∧ a.lgv.epoch <
      epochDue s then publishEpoch [] a else a) ∧ o = openEpoch (endEpoch p) ∧ ((a.lgv.gap = false ∧ subDown a 15 = false ∧ c =
      computeEpoch (epochDue s) o) ∨ ((a.lgv.gap = true ∨ subDown a 15 = true) ∧ c = o))) ∧
    (∃ (s : State), s.lgv.computing = true) ∧
    (∃ c s, startsNow 0x0701 ((fnLens [7, 1, 1]) c) c s = true ∧ field (word c 0) 16 4 = 0 ∧ classBad (classOfWords c) = false) ∧
    (∃ c s, startsNow 0x0701 ((fnLens [7, 1, 1]) c) c s = true ∧ field (word c 0) 16 4 = 1) ∧
    (∃ c s, startsNow 0x0701 ((fnLens [7, 1, 1]) c) c s = true ∧ field (word c 0) 16 4 = 2) ∧
    (∃ c s, startsNow 0x0702 (exactly 2) c s = true ∧ field (word c 0) 16 4 = 4 ∧ thas (begun c s).vca.encs (field (word c 0) 0 10) =
      true) ∧
    (∃ c s, startsNow 0x0702 (exactly 2) c s = true ∧ field (word c 0) 16 4 = 5 ∧ thas (begun c s).vca.encs (field (word c 0) 0 10) =
      true) ∧
    (∃ c s, startsNow 0x0702 (exactly 2) c s = true ∧ field (word c 0) 16 4 ≤ 3 ∧ (∃ l, tget (begun c s).fwe.legs (field (word c 0) 0
      14) = some l ∧ l.kind ≠ .producer ∧ (field (word c 0) 16 4 = 2 → l.kind = .network → l.state ≠ .created))) ∧
    (∃ (c : Cmd) (s b : State) (l : Leg), startsNow 0x0703 (exactly 1) c s = true ∧ b = begun c s ∧ field (word c 0) 16 4 = 0 ∧ tget
      b.fwe.legs (field (word c 0) 0 14) = some l ∧ l.kind ≠ .producer) ∧
    (∃ (c : Cmd) (s b : State) (e : Enc), startsNow 0x0703 (exactly 1) c s = true ∧ b = begun c s ∧ field (word c 0) 16 4 = 1 ∧ tget
      b.vca.encs (field (word c 0) 0 14) = some e) ∧
    (∃ (c : Cmd) (s b : State) (on : Tbl Gov), startsNow 0x0703 (exactly 1) c s = true ∧ b = begun c s ∧ field (word c 0) 16 4 = 2 ∧
      field (word c 0) 0 14 ≤ 7 ∧ on = b.lgv.legs.filter (fun g => ((tget b.fwe.legs g.1).map fun l => decide (l.port = field (word c 0)
      0 14)).getD false)) :=
  ⟨⟨up, _, _, _, _, rfl, rfl, rfl, .inl ⟨by rw [settleChannels_fabric]; unfold advanceTo; split <;> rfl, by rw [settleChannels_fabric]; unfold advanceTo; split <;> rfl, rfl⟩⟩,
   ⟨{ up with lgv.computing := true }, by decide⟩,
   ⟨cmd [0, 8, 1000000, 8, 0x40000, 0xC06, 0x6405], up, by decide⟩,
   ⟨cmd [0x10000], up, by decide⟩,
   ⟨cmd [0x20000], up, by decide⟩,
   ⟨cmd [0x40000, 0], busy, by decide⟩,
   ⟨cmd [0x50000, 0], busy, by decide⟩,
   ⟨cmd [0x00001, 8], busy, by decide, by decide, _, rfl, by decide, by decide⟩,
   ⟨cmd [1], busy, _, network, by decide, rfl, by decide⟩,
   ⟨cmd [0x10000], busy, _, encoder, by decide, rfl, by decide⟩,
   ⟨cmd [0x20007], busy, _, _, by decide, rfl, by decide, by decide, rfl⟩⟩

/-- The hypotheses of KeyCommandsComplete are met: one state and one choice of operands for each of its clauses. -/
theorem hypotheses_met_KeyCommandsComplete :
    (∃ (c : Cmd) (s b : State) (leg : Leg) (y : Slot), startsNow 0x0801 (exactly 18) c s = true ∧ b = begun c s ∧ field (word c 0) 28 4
      = 0 ∧ keyLoadBad c = false ∧ tget b.fwe.legs (field (word c 0) 0 16 / 4) = some leg ∧ leg.kind ≠ .producer ∧ ¬ (leg.kind = .tree ∧
      field (word c 0) 0 16 / 2 % 2 = 0) ∧ y = slotOf b (otherSlot (field (word c 0) 0 16)) ∧ (y.state = .empty ∨ (y.mkiLen =
      (keyLoadSlot c).mkiLen ∧ (y.mkiLen = 0 ∨ y.mki ≠ (keyLoadSlot c).mki))) ∧ b.cpx.mode ≠ .shadow ∧ (slotOf b (field (word c 0) 0
      16)).state ≠ .current ∧ (slotOf b (field (word c 0) 0 16)).state ≠ .locked) ∧
    (∃ c s, startsNow 0x0801 (exactly 18) c s = true ∧ field (word c 0) 28 4 = 1 ∧ (begun c s).cpx.mode ≠ .shadow) ∧
    (∃ c s, startsNow 0x0801 (exactly 18) c s = true ∧ field (word c 0) 28 4 = 2 ∧ (begun c s).cpx.mode ≠ .shadow) ∧
    (∃ c s, startsNow 0x0802 (exactly 1) c s = true ∧ (slotOf (begun c s) (field (word c 0) 0 16)).state = .empty) ∧
    (∃ c s, startsNow 0x0802 (exactly 1) c s = true ∧ (slotOf (begun c s) (field (word c 0) 0 16)).state ≠ .empty) ∧
    (∃ c s, startsNow 0x0803 (exactly 1) c s = true ∧ thas (begun c s).fwe.legs (field (word c 0) 0 16 / 4) = true) ∧
    (∃ (c : Cmd) (s b t : State) (agree : Bool), startsNow 0x0804 (exactly 8) c s = true ∧ b = begun c s ∧ agree = ((b.cti.partnerHb.map
      fun h => decide (h.getD 4 0 = fingerprint 0xFF (wordsBytes c.words) [])).getD false) ∧ t =
      { b with cpe.twinKek := some c.words, cti.keyAgree := agree }) ∧
    (∃ (n t : Nat) (s a : State), (slotOf s n).retireNs = some t ∧ a = advanceAon t s) :=
  ⟨⟨cmd (4 :: List.replicate 17 0), busy, _, network, _, by decide, rfl, by decide, by decide, by decide, by decide, by decide, rfl, by decide⟩,
   ⟨cmd (0x10000000 :: List.replicate 17 0), up, by decide⟩,
   ⟨cmd (0x20000000 :: List.replicate 17 0), up, by decide⟩,
   ⟨cmd [4], up, by decide⟩,
   ⟨cmd [4], keyed, by decide⟩,
   ⟨cmd [4], busy, by decide⟩,
   ⟨cmd (List.replicate 8 1), up, _, _, _, by decide, rfl, rfl, rfl⟩,
   ⟨4, 9, { up with cpe.slots := [(4, { Slot.reset with state := .current, retireNs := some 9 })] }, _, by decide, rfl⟩⟩

/-- The hypotheses of MixerCommandsComplete are met: one state and one choice of operands for each of its clauses. -/
theorem hypotheses_met_MixerCommandsComplete :
    (∃ c s, startsNow 0x0401 (mixerLens c) c s = true ∧ field (word c 0) 16 4 = 0 ∧ firstFail (sizeChecks c (begun c s)) = none) ∧
    (∃ c s, startsNow 0x0401 (mixerLens c) c s = true ∧ field (word c 0) 16 4 = 1 ∧ firstFail (alwaysOnChecks c (begun c s)) = none) ∧
    (∃ c s, startsNow 0x0401 (mixerLens c) c s = true ∧ field (word c 0) 16 4 = 2 ∧ firstFail (groupChecks c (begun c s)) = none) ∧
    (∃ c s, startsNow 0x0401 (mixerLens c) c s = true ∧ field (word c 0) 16 4 = 3 ∧ firstFail (bindChecks c (begun c s)) = none) ∧
    (∃ c s, startsNow 0x0401 (mixerLens c) c s = true ∧ field (word c 0) 16 4 = 4 ∧ firstFail (bankSetChecks c (begun c s)) = none) ∧
    (∃ c s, startsNow 0x0401 (mixerLens c) c s = true ∧ field (word c 0) 16 4 = 5 ∧ firstFail (bankSetChecks c (begun c s)) = none) ∧
    (∃ c s, startsNow 0x0401 (mixerLens c) c s = true ∧ field (word c 0) 16 4 = 6 ∧ firstFail (bankSetChecks c (begun c s)) = none) ∧
    (∃ (c : Cmd) (s b : State) (x : Conf), startsNow 0x0402 (exactly 2) c s = true ∧ b = begun c s ∧ confUsed b (audConf c) = true ∧
      tget b.aue.confs (audConf c) = some x ∧ rowOk x (field (word c 1) 0 5) = true ∧ busOk x (field (word c 1) 5 3) = true) ∧
    (∃ (c : Cmd) (s b : State) (x : Conf), startsNow 0x0403 (exactly 2) c s = true ∧ b = begun c s ∧ confUsed b (audConf c) = true ∧
      tget b.aue.confs (audConf c) = some x ∧ rowOk x (field (word c 1) 0 5) = true) ∧
    (∃ (c : Cmd) (s b : State) (x : Conf), startsNow 0x0404 (exactly 1) c s = true ∧ b = begun c s ∧ confUsed b (audConf c) = true ∧
      tget b.aue.confs (audConf c) = some x ∧ x.swapAt = none) ∧
    (∃ (c : Cmd) (s b : State) (x : Conf) (m n : Nat), startsNow 0x0405 (exactly 2) c s = true ∧ b = begun c s ∧ confUsed b (audConf c)
      = true ∧ tget b.aue.confs (audConf c) = some x ∧ m = field (word c 1) 0 6 ∧ n = field (word c 1) 6 7 ∧ 1 ≤ n ∧ m + n ≤ 64) :=
  ⟨⟨cmd [0x00001, 0x28], busy, by decide⟩,
   ⟨cmd [0x10001, 0, 0], busy, by decide⟩,
   ⟨cmd [0x20001, 0, 0, 0], { busy with aue.confs := [(1, { Conf.reset with groups := [(0, Group.reset)] })] }, by decide⟩,
   ⟨cmd [0x30001, 1, 0], { busy with fwe.legs := [(1, { network with conf := some 1 })], aue.confs := [(1, { Conf.reset with groups := [(0, { Group.reset with codec := 3 })] })] }, by decide⟩,
   ⟨cmd [0x40001, 1, 0x8000], busy, by decide⟩,
   ⟨cmd (0x50001 :: 1 :: List.replicate 5 0), busy, by decide⟩,
   ⟨cmd [0x60001, 1, 0], busy, by decide⟩,
   ⟨cmd [1, 0], busy, _, Conf.reset, by decide, rfl, by decide⟩,
   ⟨cmd [1, 31], busy, _, Conf.reset, by decide, rfl, by decide⟩,
   ⟨cmd [1], busy, _, Conf.reset, by decide, rfl, by decide⟩,
   ⟨cmd [1, 0x1000], busy, _, Conf.reset, _, _, by decide, rfl, by decide, by decide, rfl, rfl, by decide⟩⟩

/-- The hypotheses of AudioBlocksComplete are met: one state and one choice of operands for each of its clauses. -/
theorem hypotheses_met_AudioBlocksComplete :
    (∃ (s a : State), a = sampleQueues (advanceTo (blockDue s * 65536) s) ∧ subDown a 12 = true) ∧
    (∃ (s a b : State), a = sampleQueues (advanceTo (blockDue s * 65536) s) ∧ subDown a 12 = false ∧ b =
      { a with aue.lastNs := a.aue.blockNs, aue.blockNs := blockDue s }) ∧
    (∃ (conf group ms n bytes data : Nat) (x : Conf) (g : Group) (y : Stream) (s a : State), tget s.aue.confs conf = some x ∧ tget
      x.groups group = some g ∧ ms = groupNs g / 1000000 ∧ n = ms * spb g.domain ∧ n ≤ g.fifo.length ∧ (bytes, data) = frameOf
      { g with fec := groupFec s g } ((g.comps.head?).getD g.compNow) ms (g.fifo.take n) ∧ a = (draw (modConf conf (fun y =>
      { y with groups := tmod y.groups group (frameTaken n (groupFec s g)) }) s)).2 ∧ tget a.fwe.streams g.stream = some y) ∧
    (∃ (conf row : Nat) (x : Conf) (s : State), tget s.aue.confs conf = some x ∧ directRow s x (x.rows.getD row Row.reset) = false) ∧
    (∃ (r : Row) (t ns : Nat), r.trimNew = some t ∧ r.trimNs ≤ ns) ∧
    (∃ (s a : State), a = advanceTo (atBoundaryNs 1000000000 s * 65536) s) ∧
    (∃ (core : Nat) (x : Core) (s : State), tget s.aue.cores core = some x ∧ slotServes x s.aue.blockNs = true ∧ x.counted = false ∧
      x.waiting = false) :=
  ⟨⟨{ up with cpr.fencedSubs := [12] }, _, rfl, by decide⟩,
   ⟨up, _, _, rfl, by decide, rfl⟩,
   ⟨1, 0, _, _, _, _, { Conf.reset with groups := [(0, { Group.reset with codec := 1, frame := 0, domain := 2, fifo := List.replicate 80 0, stream := 12 })] }, { Group.reset with codec := 1, frame := 0, domain := 2, fifo := List.replicate 80 0, stream := 12 }, _, { busy with aue.confs := [(1, { Conf.reset with groups := [(0, { Group.reset with codec := 1, frame := 0, domain := 2, fifo := List.replicate 80 0, stream := 12 })] })] }, _, rfl, rfl, rfl, rfl, by decide, rfl, rfl, rfl⟩,
   ⟨1, 31, Conf.reset, busy, by decide⟩,
   ⟨{ Row.reset with trimNew := some 5 }, 5, 9, by decide⟩,
   ⟨up, _, rfl⟩,
   ⟨224, { core with attached := some (1, false, 0) }, { busy with aue.cores := [(224, { core with attached := some (1, false, 0) })] }, by decide⟩⟩

/-- The hypotheses of AudioCellsComplete are met: one state and one choice of operands for each of its clauses. -/
theorem hypotheses_met_AudioCellsComplete :
    (∃ (group k : Nat) (x : Conf) (s : State), lockConf s group = some (k, x) ∧ s.cti.role = 2 ∧ childPorts s ≠ []) ∧
    (∃ (group k : Nat) (x : Conf) (s a : State), lockConf s group = some (k, x) ∧ s.cti.role = 1 ∧ a = advanceTo ((s.aue.blockNs +
      450000) * 65536) s) ∧
    (∃ (group k : Nat) (x : Conf) (s : State), lockConf s group = some (k, x) ∧ s.cti.role = 2) ∧
    (∃ (group k : Nat) (x : Conf) (s a : State), lockConf s group = some (k, x) ∧ a = afterEpoch 1000000 s) ∧
    (∃ (group k : Nat) (x : Conf) (s a : State), lockConf s group = some (k, x) ∧ s.cti.role = 1 ∧ a = afterEpoch 3000000 s) ∧
    (∃ (k : Nat) (c : AudioCell) (x : Conf) (s : State), relays s = false ∧ lockConf s c.group = some (k, x)) ∧
    (∃ (c : AudioCell) (s : State), relays s = false ∧ lockConf s c.group = none) ∧
    (∃ (s : State), relays s = true) :=
  ⟨⟨5, 1, { Conf.reset with lock := 5 }, { busy with cti.role := 2, cti.twin := 0, cti.groups := [⟨5, 1, none⟩], aue.confs := [(1, { Conf.reset with lock := 5 })], cti.ports := List.replicate 6 { CtiPort.reset with enabled := true, child := true, path.sync := .sync } }, by decide⟩,
   ⟨5, 1, { Conf.reset with lock := 5 }, { busy with cti.role := 1, cti.twin := 0, cti.groups := [⟨5, 1, none⟩], aue.confs := [(1, { Conf.reset with lock := 5 })] }, _, by decide, by decide, rfl⟩,
   ⟨5, 1, { Conf.reset with lock := 5 }, { busy with cti.role := 2, cti.twin := 0, cti.groups := [⟨5, 1, none⟩], aue.confs := [(1, { Conf.reset with lock := 5 })] }, by decide⟩,
   ⟨5, 1, { Conf.reset with lock := 5 }, { busy with cti.role := 1, cti.twin := 0, cti.groups := [⟨5, 1, none⟩], aue.confs := [(1, { Conf.reset with lock := 5 })] }, _, by decide, rfl⟩,
   ⟨5, 1, { Conf.reset with lock := 5 }, { busy with cti.role := 1, cti.twin := 0, cti.groups := [⟨5, 1, none⟩], aue.confs := [(1, { Conf.reset with lock := 5 })] }, _, by decide, by decide, rfl⟩,
   ⟨1, { group := 5 }, { Conf.reset with lock := 5 }, { busy with cti.role := 1, cti.twin := 0, cti.groups := [⟨5, 1, none⟩], aue.confs := [(1, { Conf.reset with lock := 5 })] }, by decide⟩,
   ⟨{ group := 6 }, { busy with cti.role := 1, cti.twin := 0, cti.groups := [⟨5, 1, none⟩], aue.confs := [(1, { Conf.reset with lock := 5 })] }, by decide⟩,
   ⟨{ busy with cti.twin := 2 }, by decide⟩⟩

/-- The hypotheses of MalletArithmeticComplete are met: one state and one choice of operands for each of its clauses. -/
theorem hypotheses_met_MalletArithmeticComplete :
    (∃ core s x w o, CoreAt core 0x00 s x w ∧ afterMoves true w x ((fun _ x s => { core := x, st := s }) w { x with pc := x.pc + 1 } s)
      = .ok o) ∧
    (∃ core s x w o, CoreAt core 0x01 s x w ∧ afterMoves true w x ((accOut fun acc p _ => wrap72 (acc.toInt + p)) w
      { x with pc := x.pc + 1 } s) = .ok o) ∧
    (∃ core s x w o, CoreAt core 0x02 s x w ∧ afterMoves true w x ((accOut fun acc p _ => wrap72 (acc.toInt - p)) w
      { x with pc := x.pc + 1 } s) = .ok o) ∧
    (∃ core s x w o, CoreAt core 0x03 s x w ∧ afterMoves true w x ((accOut fun _ p _ => (BitVec.ofInt 72 p, false)) w
      { x with pc := x.pc + 1 } s) = .ok o) ∧
    (∃ core s x w o, CoreAt core 0x04 s x w ∧ afterMoves true w x ((accOut fun _ _ _ => (0, false)) w { x with pc := x.pc + 1 } s) = .ok
      o) ∧
    (∃ core s x w o, CoreAt core 0x05 s x w ∧ afterMoves true w x ((accOut fun acc _ w => (acc.sshiftRight (immOf w % 64), false)) w
      { x with pc := x.pc + 1 } s) = .ok o) ∧
    (∃ core s x w o, CoreAt core 0x10 s x w ∧ afterMoves true w x ((aluOut fun a b _ => a + b) w { x with pc := x.pc + 1 } s) = .ok o) ∧
    (∃ core s x w o, CoreAt core 0x11 s x w ∧ afterMoves true w x ((aluOut fun a b _ => a - b) w { x with pc := x.pc + 1 } s) = .ok o) ∧
    (∃ core s x w o, CoreAt core 0x12 s x w ∧ afterMoves true w x ((satOut fun a b => a + b) w { x with pc := x.pc + 1 } s) = .ok o) ∧
    (∃ core s x w o, CoreAt core 0x13 s x w ∧ afterMoves true w x ((satOut fun a b => a - b) w { x with pc := x.pc + 1 } s) = .ok o) ∧
    (∃ core s x w o, CoreAt core 0x14 s x w ∧ afterMoves true w x ((aluOut fun a b _ => a &&& b) w { x with pc := x.pc + 1 } s) = .ok o) ∧
    (∃ core s x w o, CoreAt core 0x15 s x w ∧ afterMoves true w x ((aluOut fun a b _ => a ||| b) w { x with pc := x.pc + 1 } s) = .ok o) ∧
    (∃ core s x w o, CoreAt core 0x16 s x w ∧ afterMoves true w x ((aluOut fun a b _ => a ^^^ b) w { x with pc := x.pc + 1 } s) = .ok o) ∧
    (∃ core s x w o, CoreAt core 0x17 s x w ∧ afterMoves true w x ((aluOut fun a _ w => a <<< (immOf w % 32)) w
      { x with pc := x.pc + 1 } s) = .ok o) ∧
    (∃ core s x w o, CoreAt core 0x18 s x w ∧ afterMoves true w x ((aluOut fun a _ w => a >>> (immOf w % 32)) w
      { x with pc := x.pc + 1 } s) = .ok o) ∧
    (∃ core s x w o, CoreAt core 0x19 s x w ∧ afterMoves true w x ((aluOut fun a _ w => a.sshiftRight (immOf w % 32)) w
      { x with pc := x.pc + 1 } s) = .ok o) ∧
    (∃ core s x w o, CoreAt core 0x1A s x w ∧ afterMoves true w x ((aluOut fun a b _ => if a.toInt ≤ b.toInt then a else b) w
      { x with pc := x.pc + 1 } s) = .ok o) ∧
    (∃ core s x w o, CoreAt core 0x1B s x w ∧ afterMoves true w x ((aluOut fun a b _ => if a.toInt ≤ b.toInt then b else a) w
      { x with pc := x.pc + 1 } s) = .ok o) ∧
    (∃ core s x w o, CoreAt core 0x1C s x w ∧ afterMoves true w x (absOut w { x with pc := x.pc + 1 } s) = .ok o) ∧
    (∃ core s x w o, CoreAt core 0x20 s x w ∧ (immOf w ≠ 0x800 ∨ (x.pc + 1) < 4096) ∧ afterMoves true w x (moviOut w
      { x with pc := x.pc + 1 } s) = .ok o) ∧
    (∃ core s x w o, CoreAt core 0x21 s x w ∧ afterMoves true w x (movOut w { x with pc := x.pc + 1 } s) = .ok o) :=
  ⟨⟨224, standing 0x0000000000000000, coreOn 0x0000000000000000, 0x0000000000000000, _, ⟨rfl, rfl, rfl, rfl, by decide, rfl, by decide⟩, rfl⟩,
   ⟨224, standing 0x0100000000000000, coreOn 0x0100000000000000, 0x0100000000000000, _, ⟨rfl, rfl, rfl, rfl, by decide, rfl, by decide⟩, rfl⟩,
   ⟨224, standing 0x0200000000000000, coreOn 0x0200000000000000, 0x0200000000000000, _, ⟨rfl, rfl, rfl, rfl, by decide, rfl, by decide⟩, rfl⟩,
   ⟨224, standing 0x0300000000000000, coreOn 0x0300000000000000, 0x0300000000000000, _, ⟨rfl, rfl, rfl, rfl, by decide, rfl, by decide⟩, rfl⟩,
   ⟨224, standing 0x0400000000000000, coreOn 0x0400000000000000, 0x0400000000000000, _, ⟨rfl, rfl, rfl, rfl, by decide, rfl, by decide⟩, rfl⟩,
   ⟨224, standing 0x0500000000000000, coreOn 0x0500000000000000, 0x0500000000000000, _, ⟨rfl, rfl, rfl, rfl, by decide, rfl, by decide⟩, rfl⟩,
   ⟨224, standing 0x1000000000000000, coreOn 0x1000000000000000, 0x1000000000000000, _, ⟨rfl, rfl, rfl, rfl, by decide, rfl, by decide⟩, rfl⟩,
   ⟨224, standing 0x1100000000000000, coreOn 0x1100000000000000, 0x1100000000000000, _, ⟨rfl, rfl, rfl, rfl, by decide, rfl, by decide⟩, rfl⟩,
   ⟨224, standing 0x1200000000000000, coreOn 0x1200000000000000, 0x1200000000000000, _, ⟨rfl, rfl, rfl, rfl, by decide, rfl, by decide⟩, rfl⟩,
   ⟨224, standing 0x1300000000000000, coreOn 0x1300000000000000, 0x1300000000000000, _, ⟨rfl, rfl, rfl, rfl, by decide, rfl, by decide⟩, rfl⟩,
   ⟨224, standing 0x1400000000000000, coreOn 0x1400000000000000, 0x1400000000000000, _, ⟨rfl, rfl, rfl, rfl, by decide, rfl, by decide⟩, rfl⟩,
   ⟨224, standing 0x1500000000000000, coreOn 0x1500000000000000, 0x1500000000000000, _, ⟨rfl, rfl, rfl, rfl, by decide, rfl, by decide⟩, rfl⟩,
   ⟨224, standing 0x1600000000000000, coreOn 0x1600000000000000, 0x1600000000000000, _, ⟨rfl, rfl, rfl, rfl, by decide, rfl, by decide⟩, rfl⟩,
   ⟨224, standing 0x1700000000000000, coreOn 0x1700000000000000, 0x1700000000000000, _, ⟨rfl, rfl, rfl, rfl, by decide, rfl, by decide⟩, rfl⟩,
   ⟨224, standing 0x1800000000000000, coreOn 0x1800000000000000, 0x1800000000000000, _, ⟨rfl, rfl, rfl, rfl, by decide, rfl, by decide⟩, rfl⟩,
   ⟨224, standing 0x1900000000000000, coreOn 0x1900000000000000, 0x1900000000000000, _, ⟨rfl, rfl, rfl, rfl, by decide, rfl, by decide⟩, rfl⟩,
   ⟨224, standing 0x1A00000000000000, coreOn 0x1A00000000000000, 0x1A00000000000000, _, ⟨rfl, rfl, rfl, rfl, by decide, rfl, by decide⟩, rfl⟩,
   ⟨224, standing 0x1B00000000000000, coreOn 0x1B00000000000000, 0x1B00000000000000, _, ⟨rfl, rfl, rfl, rfl, by decide, rfl, by decide⟩, rfl⟩,
   ⟨224, standing 0x1C00000000000000, coreOn 0x1C00000000000000, 0x1C00000000000000, _, ⟨rfl, rfl, rfl, rfl, by decide, rfl, by decide⟩, rfl⟩,
   ⟨224, standing 0x2000000000000000, coreOn 0x2000000000000000, 0x2000000000000000, _, ⟨rfl, rfl, rfl, rfl, by decide, rfl, by decide⟩, by decide, rfl⟩,
   ⟨224, standing 0x2100000000000000, coreOn 0x2100000000000000, 0x2100000000000000, _, ⟨rfl, rfl, rfl, rfl, by decide, rfl, by decide⟩, rfl⟩⟩

/-- The hypotheses of MalletControlCompletes are met: one state and one choice of operands for each of its clauses. -/
theorem hypotheses_met_MalletControlCompletes :
    (∃ core s x w o, CoreAt core 0x30 s x w ∧ (loopCount w x = 0 ∨ x.loops.length < 4) ∧ afterMoves false w x (loopOut w
      { x with pc := x.pc + 1 } s) = .ok o) ∧
    (∃ core s x w o, CoreAt core 0x31 s x w ∧ afterMoves false w x (brOut w { x with pc := x.pc + 1 } s) = .ok o) ∧
    (∃ core s x w o, CoreAt core 0x32 s x w ∧ afterMoves false w x (callOut w { x with pc := x.pc + 1 } s) = .ok o) ∧
    (∃ core s x w o, CoreAt core 0x33 s x w ∧ afterMoves false w x ((fun _ => retOut) w { x with pc := x.pc + 1 } s) = .ok o) ∧
    (∃ core s x w o, CoreAt core 0x3E s x w ∧ afterMoves false w x ((fun _ x s =>
      { core := { x with waiting := true, doneNs := nowNs s }, st := s }) w { x with pc := x.pc + 1 } s) = .ok o) ∧
    (∃ (core : Nat) (s : State) (x : Core) (w : BitVec 64), CoreAt core 0x3F s x w) ∧
    (∃ (core : Nat) (s : State) (x : Core), tget s.aue.cores core = some x ∧ coreRuns s x = true ∧ 4096 ≤ x.pc) ∧
    (∃ (core : Nat) (s : State) (x : Core) (w : BitVec 64), CoreAt core (opOf w) s x w ∧ listedOps.contains (opOf w) = false) ∧
    (∃ (c : Cmd) (s b : State) (i : Nat) (x : Core), startsNow 0x0406 (programLens c) c s = true ∧ b = begun c s ∧ field (word c 0) 16 4
      = 0 ∧ i = field (word c 0) 20 8 ∧ tget b.aue.cores i = some x ∧ firstFail (chunkChecks x c) = none ∧ (heldImage x ++ chunkBytes
      c).length < (word c 2).toNat) ∧
    (∃ (c : Cmd) (s b : State) (i : Nat) (x : Core), startsNow 0x0406 (programLens c) c s = true ∧ b = begun c s ∧ field (word c 0) 16 4
      = 0 ∧ i = field (word c 0) 20 8 ∧ tget b.aue.cores i = some x ∧ firstFail (chunkChecks x c) = none ∧ (word c 2).toNat ≤ (heldImage
      x ++ chunkBytes c).length ∧ imageOk (heldImage x ++ chunkBytes c) = true) ∧
    (∃ (c : Cmd) (s b : State) (i : Nat) (x : Core), startsNow 0x0406 (programLens c) c s = true ∧ b = begun c s ∧ i = field (word c 0)
      20 8 ∧ tget b.aue.cores i = some x) :=
  ⟨⟨224, standing 0x3000000000000000, coreOn 0x3000000000000000, 0x3000000000000000, _, ⟨rfl, rfl, rfl, rfl, by decide, rfl, by decide⟩, by decide, rfl⟩,
   ⟨224, standing 0x3100000000000000, coreOn 0x3100000000000000, 0x3100000000000000, _, ⟨rfl, rfl, rfl, rfl, by decide, rfl, by decide⟩, rfl⟩,
   ⟨224, standing 0x3200000000000000, coreOn 0x3200000000000000, 0x3200000000000000, _, ⟨rfl, rfl, rfl, rfl, by decide, rfl, by decide⟩, rfl⟩,
   ⟨224, standing 0x3300000000000000, coreOn 0x3300000000000000, 0x3300000000000000, _, ⟨rfl, rfl, rfl, rfl, by decide, rfl, by decide⟩, rfl⟩,
   ⟨224, standing 0x3E00000000000000, coreOn 0x3E00000000000000, 0x3E00000000000000, _, ⟨rfl, rfl, rfl, rfl, by decide, rfl, by decide⟩, rfl⟩,
   ⟨224, { busy with aue.cores := [(224, { core with prog := [(0, 0x3F00000000000000)] })] }, { core with prog := [(0, 0x3F00000000000000)] }, 0x3F00000000000000, ⟨rfl, rfl, rfl, rfl, by decide, rfl, by decide⟩⟩,
   ⟨224, { busy with aue.cores := [(224, { core with pc := 4096 })] }, { core with pc := 4096 }, by decide⟩,
   ⟨224, { busy with aue.cores := [(224, { core with prog := [(0, 0x3D00000000000000)] })] }, { core with prog := [(0, 0x3D00000000000000)] }, 0x3D00000000000000, ⟨rfl, rfl, rfl, rfl, by decide, rfl, rfl⟩, by decide⟩,
   ⟨cmd [0x0E000000, 0, 64, 5], { busy with aue.cores := [(224, { core with state := .empty })] }, _, _, { core with state := .empty }, by decide, rfl, by decide, rfl, by decide⟩,
   ⟨cmd [0x0E000000, 0, 64, 0x4b4d4c54, 0x1, 0x40, 0x0, 0x40, 0x0, 0x40, 0x0, 0x0, 0x40, 0x10000, 0x0, 0x0, 0x0, 0x0, 0x65e88da3], { busy with aue.cores := [(224, { core with state := .empty })] }, _, _, { core with state := .empty }, by decide, rfl, by decide, rfl, rfl, by decide, by decide, by decide +kernel⟩,
   ⟨cmd [0x0E010000], busy, _, _, core, by decide, rfl, rfl, by decide⟩⟩

/-- The hypotheses of DecoderCompletes are met: one state and one choice of operands for each of its clauses. -/
theorem hypotheses_met_DecoderCompletes :
    (∃ c s, startsNow 0x0501 ((fnLens [4, 1, 2, 1]) c) c s = true ∧ field (word c 0) 16 4 = 0 ∧ firstFail (decBindChecks c (begun c s))
      = none) ∧
    (∃ c s, startsNow 0x0501 ((fnLens [4, 1, 2, 1]) c) c s = true ∧ field (word c 0) 16 4 = 1 ∧ field (word c 0) 0 16 ≤ 4095) ∧
    (∃ c s, startsNow 0x0501 ((fnLens [4, 1, 2, 1]) c) c s = true ∧ field (word c 0) 16 4 = 2 ∧ field (word c 0) 0 16 ≤ 4095 ∧ maskValid
      (field (word c 1) 0 8) = true ∧ thas (begun c s).vca.decs (field (word c 0) 0 16) = true) ∧
    (∃ c s, startsNow 0x0501 ((fnLens [4, 1, 2, 1]) c) c s = true ∧ field (word c 0) 16 4 = 3 ∧ field (word c 0) 0 16 ≤ 4095) ∧
    (∃ c s, startsNow 0x0505 (exactly 1) c s = true ∧ field (word c 0) 16 4 = 0 ∧ (begun c s).cpx.mode ≠ .shadow ∧ ((gougeOf (begun c s)
      (field (word c 0) 0 5)).svc = 0 → quiesceOver (begun c s) (field (word c 0) 0 5) = false ∧ ((begun c s).vca.cores.filter fun g =>
      g.svc ≠ 0).length < 4) ∧ (queueOf (begun c s) (qiOf c)).longOps.length < 64) ∧
    (∃ c s, startsNow 0x0505 (exactly 1) c s = true ∧ field (word c 0) 16 4 = 1 ∧ (begun c s).cpx.mode ≠ .shadow) ∧
    (∃ c s, startsNow 0x0505 (exactly 1) c s = true ∧ field (word c 0) 16 4 = 2 ∧ (begun c s).cpx.mode ≠ .shadow) ∧
    (∃ (core : Nat) (s : State), (gougeOf s core).svc = 1) ∧
    (∃ (ctx : Nat) (d : Dec) (p : Pic) (ps : List Pic) (s : State), tget s.vca.decs ctx = some d ∧ d.asm = p :: ps) ∧
    (∃ (core k held : Nat) (trips : List Nat) (d : Dec) (s a t : State), s.cpr.sleep = 0 ∧ (gougeOf s core).job = some (.decode, k) ∧
      held = ((vjobOf s .decode k).map (·.heldNs)).getD 0 ∧ a = advanceAon ((gougeOf s core).startNs + 50000000 - held) s ∧ trips =
      ((gougeOf a core).trips.filter fun t => a.cpr.aonNs < t + 3600000000000) ++ [a.cpr.aonNs] ∧ trips.length < 3 ∧ t = modGouge core
      (fun g => { g with trips := trips, wd := inc32 g.wd, svc := g.svc }) a ∧ tget t.vca.decs k = some d) ∧
    (∃ (core k held : Nat) (trips : List Nat) (d : Dec) (s a t : State), s.cpr.sleep = 0 ∧ (gougeOf s core).job = some (.decode, k) ∧
      held = ((vjobOf s .decode k).map (·.heldNs)).getD 0 ∧ a = advanceAon ((gougeOf s core).startNs + 50000000 - held) s ∧ (gougeOf a
      core).svc = 0 ∧ trips = ((gougeOf a core).trips.filter fun t => a.cpr.aonNs < t + 3600000000000) ++ [a.cpr.aonNs] ∧ 3 ≤
      trips.length ∧ t = modGouge core (fun g => { g with trips := trips, wd := inc32 g.wd, svc := 3 }) a ∧ tget t.vca.decs k = some d) ∧
    (∃ (ctx : Nat) (d : Dec) (s m : State), tget s.vca.decs ctx = some d ∧ d.state = .catchingUp ∧ d.hidden = false ∧ m = dropMissed ctx
      (dropVjob .decode ctx (advanceAon (d.catchNs + 500000000) s))) ∧
    (∃ (ctx c : Nat) (r : DecodeResult) (s t : State), runsOn s .decode ctx = some c ∧ t = endDecode ctx c r s ∧ (t.vca.jobs.find? (fun
      x => x.2.hidDec = ctx ∧ x.2.phase = .bridged) = none ∨ refreshPosted ctx s.vca.records.length t = none)) ∧
    (∃ (ctx c j : Nat) (ts : Word) (x : Job) (r : DecodeResult) (s t : State), runsOn s .decode ctx = some c ∧ t = endDecode ctx c r s ∧
      t.vca.jobs.find? (fun x => x.2.hidDec = ctx ∧ x.2.phase = .bridged) = some (j, x) ∧ refreshPosted ctx s.vca.records.length t =
      some ts) :=
  ⟨⟨cmd [0x0FFFF, 0x110004, 0x00100010, 0x0100001E], { busy with cpx.mode := .converse, fwe.streams := [(4, { audio with codec := 8 })], vca.decs := [], mss.workFree := decBufs 8 16 16 1 * pictureBytes 16 16 false }, by decide, by decide, passes (by decide) (passes (by decide) (passes (by decide) (passes (by decide) (passes (by decide) (passes (by rw [Bool.or_eq_false_iff]; exact ⟨by decide +kernel, decide_eq_false (Nat.lt_irrefl _)⟩) rfl)))))⟩,
   ⟨cmd [0x10FFF], up, by decide⟩,
   ⟨cmd [0x20000, 0x11], busy, by decide⟩,
   ⟨cmd [0x30FFF], up, by decide⟩,
   ⟨cmd [0x0001F], up, by decide⟩,
   ⟨cmd [0x10000], up, by decide⟩,
   ⟨cmd [0x20000], up, by decide⟩,
   ⟨255, { up with vca.cores := List.replicate 256 { Gouge.reset with svc := 1 } }, by decide⟩,
   ⟨0, { decoder with asm := [Pic.reset] }, Pic.reset, [], { busy with vca.decs := [(0, { decoder with asm := [Pic.reset] })] }, by decide⟩,
   ⟨0, 0, _, _, decoder, { busy with vca.cores := [{ Gouge.reset with job := some (.decode, 0) }] }, _, _, by decide, by decide, rfl, rfl, rfl, by decide, rfl, by decide⟩,
   ⟨0, 0, _, _, decoder, { busy with vca.cores := [{ Gouge.reset with job := some (.decode, 0), trips := [1, 2] }] }, _, _, by decide, by decide, rfl, rfl, by decide, rfl, by decide, rfl, by decide⟩,
   ⟨0, { decoder with state := .catchingUp }, { busy with vca.decs := [(0, { decoder with state := .catchingUp })] }, _, by decide, by decide, by decide, rfl⟩,
   ⟨0, 0, {}, { busy with vca.decs := [], vca.cores := [{ Gouge.reset with job := some (.decode, 0) }] }, _, rfl, rfl, .inl rfl⟩,
   ⟨0, 0, 0, 9, { Job.reset with phase := .bridged }, {}, { busy with vca.decs := [(0, { decoder with state := .decoding, ready := [{ Pic.reset with ts := 9, mask := 0x11, pkts := [{ rap := 1 }] }] })], vca.cores := [{ Gouge.reset with job := some (.decode, 0) }], vca.jobs := [(0, { Job.reset with phase := .bridged })] }, _, rfl, rfl, by decide +kernel, by decide +kernel⟩⟩

/-- The hypotheses of EncoderCompletes are met: one state and one choice of operands for each of its clauses. -/
theorem hypotheses_met_EncoderCompletes :
    (∃ c s, startsNow 0x0502 ((fnLens [8, 1, 1]) c) c s = true ∧ field (word c 0) 16 4 = 0 ∧ firstFail (encSetChecks c (begun c s)) =
      none) ∧
    (∃ c s, startsNow 0x0502 ((fnLens [8, 1, 1]) c) c s = true ∧ field (word c 0) 16 4 = 1 ∧ field (word c 0) 0 16 ≤ 1023 ∧ thas (begun
      c s).vca.encs (field (word c 0) 0 16) = true) ∧
    (∃ c s, startsNow 0x0502 ((fnLens [8, 1, 1]) c) c s = true ∧ field (word c 0) 16 4 = 2 ∧ field (word c 0) 0 16 ≤ 1023) ∧
    (∃ (ctx : Nat) (e : Enc) (s : State), tget s.vca.encs ctx = some e) ∧
    (∃ (ctx c : Nat) (r : EncodeResult) (e : Enc) (j : EncJob) (s t : State) (out : List CodedLayer), tget s.vca.encs ctx = some e ∧
      runsOn s .encode ctx = some c ∧ e.job = some j ∧ encodeDone ctx c j r s = (out, t)) ∧
    (∃ c s, startsNow 0x0503 ((fnLens [1, 2]) c) c s = true ∧ field (word c 0) 16 4 = 0 ∧ field (word c 0) 0 16 ≤ 1023 ∧ thas (begun c
      s).vca.encs (field (word c 0) 0 16) = true) ∧
    (∃ (c : Cmd) (s b : State), startsNow 0x0503 (fnLens [1, 2] c) c s = true ∧ b = begun c s ∧ field (word c 0) 16 4 = 1 ∧ field (word
      c 1) 20 2 ≠ 3 ∧ thas b.fwe.ledger (field (word c 1) 0 19) = true ∧ (queueOf b (qiOf c)).longOps.length < 64) ∧
    (∃ (entry result : Nat) (s : State), s.vca.results.contains (entry, result) = true) ∧
    (∃ c s, startsNow 0x0504 (exactly 2) c s = true ∧ (field (word c 0) 0 8 ≤ 50 ∨ field (word c 0) 0 8 = 255) ∧ 50 ≤ field (word c 1) 0
      16 ∧ field (word c 1) 0 16 ≤ 2000 ∧ 1 ≤ field (word c 1) 16 16 ∧ field (word c 1) 16 16 ≤ 60) ∧
    (∃ (job : Nat) (x : Job) (d : Dec) (live : Word) (recs : List CairnRec) (s : State), tget s.vca.jobs job = some x ∧ x.phase =
      .catchUp ∧ d = (tget s.vca.decs x.hidDec).getD Dec.reset ∧ d.state = .decoding ∧ live = d.lastRel.getD 0 ∧ recs = (cairnFrom s
      x.stream x.rap).take ((cairnFrom s x.stream x.rap).length - ((cairnFrom s x.stream x.rap).reverse.findIdx fun r => r.ts = live)) ∧
      recs.head?.map (·.number) = some x.rap) ∧
    (∃ (job : Nat) (x : Job) (s : State), tget s.vca.jobs job = some x ∧ x.phase = .catchUp ∧ ((tget s.vca.decs x.hidDec).getD
      Dec.reset).state = .waitingRap) ∧
    (∃ (job c pl pix : Nat) (r : EncodeResult) (x : Job) (live : Word) (bits : List Nat) (s f t d : State), tget s.vca.jobs job = some x
      ∧ runsOn s .synth job = some c ∧ x.phase = .encode ∧ x.live = some live ∧ bits = (x.held.mapIdx fun i _ => (((r.layers.getD i
      {}).rows).map fun row => row.getD 2 0).sum) ∧ pix = (x.held.map fun h => h.w * h.h).sum ∧ f = finishVjob .synth job c false s ∧ t
      = modStream x.stream (fun y => { y with bpp := if pix = 0 then y.bpp else some (bits.sum * 256 / pix) }) f ∧ drawBelow 825 t =
      (pl, d)) ∧
    (∃ (job : Nat) (x : Job) (s : State), tget s.vca.jobs job = some x ∧ x.phase = .catchUp) ∧
    (∃ (job : Nat) (x : Job) (s : State), tget s.vca.jobs job = some x ∧ x.phase = .bridged ∧ x.asked = false) :=
  ⟨⟨cmd [0x0FFFF, 12, 0, 0x00100010, 0x008, 100, 50, 0x00000240], { busy with cpx.mode := .converse, lco.canvases := [(0, { Canvas.reset with w := 16, h := 16 })], vca.encs := [], mss.workFree := encBytes (encOfWords (cmd [0x0FFFF, 12, 0, 0x00100010, 0x008, 100, 50, 0x00000240])) }, by decide, by decide, passes (by decide) (passes (by decide) (passes (by decide) (passes (by rw [Bool.or_eq_false_iff, decide_eq_false_iff_not]; exact ⟨by decide +kernel, enough _ _ _ rfl⟩) rfl)))⟩,
   ⟨cmd [0x10000], busy, by decide⟩,
   ⟨cmd [0x203FF], up, by decide⟩,
   ⟨0, encoder, busy, by decide⟩,
   ⟨0, 0, {}, { encoder with job := some EncJob.reset }, EncJob.reset, { busy with vca.encs := [(0, { encoder with job := some EncJob.reset })], vca.cores := [{ Gouge.reset with job := some (.encode, 0) }] }, _, _, by decide, by decide, by decide, rfl⟩,
   ⟨cmd [0], busy, by decide⟩,
   ⟨cmd [0x10000, 0], busy, _, by decide, rfl, by decide⟩,
   ⟨0, 1, { up with vca.results := [(0, 1)] }, by decide⟩,
   ⟨cmd [255, 0x00010032], up, by decide⟩,
   ⟨0, { Job.reset with phase := .catchUp, stream := 4, rap := 7 }, _, _, _, { busy with fwe.legs := [(1, { network with conf := some 0 })], mss.rings := [(0, { Ring.reset with recs := [{ CairnRec.reset with source := 4, number := 7, ts := 9 }] })], vca.decs := [(0, { decoder with state := .decoding, lastRel := some 9 })], vca.jobs := [(0, { Job.reset with phase := .catchUp, stream := 4, rap := 7 })] }, by decide, by decide, rfl, by decide, rfl, rfl, by decide⟩,
   ⟨0, { Job.reset with phase := .catchUp }, { busy with vca.jobs := [(0, { Job.reset with phase := .catchUp })], vca.decs := [(0, decoder)] }, by decide⟩,
   ⟨0, 0, _, _, {}, { Job.reset with phase := .encode, live := some 5 }, 5, _, { busy with vca.cores := [{ Gouge.reset with job := some (.synth, 0) }], vca.jobs := [(0, { Job.reset with phase := .encode, live := some 5 })] }, _, _, _, by decide, by decide, by decide, by decide, rfl, rfl, rfl, rfl, rfl⟩,
   ⟨0, { Job.reset with phase := .catchUp }, { busy with vca.jobs := [(0, { Job.reset with phase := .catchUp })] }, by decide⟩,
   ⟨0, { Job.reset with phase := .bridged }, { busy with vca.jobs := [(0, { Job.reset with phase := .bridged })] }, by decide⟩⟩

/-- The hypotheses of CompositorCompletes are met: one state and one choice of operands for each of its clauses. -/
theorem hypotheses_met_CompositorCompletes :
    (∃ c s, startsNow 0x0601 ((fnLens [6, 1, 1]) c) c s = true ∧ field (word c 0) 16 4 = 0 ∧ firstFail (canvasSetChecks c (begun c s)) =
      none) ∧
    (∃ c s, startsNow 0x0601 ((fnLens [6, 1, 1]) c) c s = true ∧ field (word c 0) 16 4 = 1 ∧ field (word c 0) 0 16 ≤ 1023 ∧ thas (begun
      c s).lco.canvases (field (word c 0) 0 16) = true) ∧
    (∃ (c : Cmd) (s b : State) (x : Canvas), startsNow 0x0601 (fnLens [6, 1, 1] c) c s = true ∧ b = begun c s ∧ field (word c 0) 16 4 =
      2 ∧ field (word c 0) 0 16 ≤ 1023 ∧ tget b.lco.canvases (field (word c 0) 0 16) = some x) ∧
    (∃ (c : Cmd) (s b : State) (x : Canvas), startsNow 0x0602 (fnLens [9, 1, 1] c) c s = true ∧ b = begun c s ∧ field (word c 0) 16 4 =
      0 ∧ firstFail (layerSetChecks c b) = none ∧ tget b.lco.canvases (field (word c 0) 0 10) = some x) ∧
    (∃ (c : Cmd) (s b : State) (x : Canvas), startsNow 0x0602 (fnLens [9, 1, 1] c) c s = true ∧ b = begun c s ∧ tget b.lco.canvases
      (field (word c 0) 0 10) = some x) ∧
    (∃ (c : Cmd) (s b t : State) (i : Nat) (m : Image) (bs : List Nat), startsNow 0x0603 (imageLens c) c s = true ∧ b = begun c s ∧
      field (word c 0) 16 4 = 0 ∧ i = field (word c 0) 0 12 ∧ m = (tget b.lco.images i).getD Image.reset ∧ firstFail (imageChunkChecks i
      c b) = none ∧ imageBuffers i c b = (some bs, t)) ∧
    (∃ (c : Cmd) (s b : State) (i : Nat) (m : Image), startsNow 0x0603 (imageLens c) c s = true ∧ b = begun c s ∧ i = field (word c 0) 0
      12 ∧ m = (tget b.lco.images i).getD Image.reset) ∧
    (∃ (c : Cmd) (s b : State) (k g : Nat) (x : Canvas) (grp : FlipGroup), startsNow 0x0604 (fnLens [2, 1, 1] c) c s = true ∧ b = begun
      c s ∧ k = field (word c 0) 0 10 ∧ g = field (word c 0) 10 5 ∧ tget b.lco.canvases k = some x ∧ grp = (tget x.groups g).getD
      FlipGroup.reset) ∧
    (∃ (slot : Nat) (m : Image) (s : State), tget s.lco.images slot = some m ∧ m.converting = true) ∧
    (∃ (canvas row : Nat) (late : Bool) (c : Canvas) (f : Nat × Nat × List Nat × List Nat × List Nat) (fs : List (Nat × Nat × List Nat ×
      List Nat × List Nat)) (s t u : State), tget s.lco.canvases canvas = some c ∧ s.cpr.sleep = 0 ∧ c.composing = f :: fs ∧ late =
      decide (f.1 ≤ s.tsu.now) ∧ row = (if late then c.lateRow + 1 else 0) ∧ t = modCanvas canvas (fun y =>
      { y with composing := fs, frame := f.2.2, frameAt := f.2.1, frameNs := s.tsu.now, frames := y.frames + 1, late := if late then inc32 y.late else y.late, lateRow := if 10 ≤ row then 0 else row })
      s ∧ u = offerPic (canvasPic canvas ((tget t.lco.canvases canvas).getD c)) 0 t) :=
  ⟨⟨cmd [0x0FFFF, 0x00100010, 1, 0, 0, 0], up, by decide⟩,
   ⟨cmd [0x10000], busy, by decide⟩,
   ⟨cmd [0x20000], busy, _, canvas, by decide, rfl, by decide⟩,
   ⟨cmd [0, 3, 0, 0, 0, 0, 0x00020002, 0, 0], { busy with lco.canvases := [(0, { canvas with w := 16, h := 16 })] }, _, { canvas with w := 16, h := 16 }, by decide, rfl, by decide⟩,
   ⟨cmd [0x10000], busy, _, canvas, by decide, rfl, by decide⟩,
   ⟨cmd [0, 0, 0x00020002, 5], busy, _, _, _, _, _, by decide, rfl, by decide, rfl, rfl, by decide, rfl⟩,
   ⟨cmd [0x10000], busy, _, _, _, by decide, rfl, rfl, rfl⟩,
   ⟨cmd [0x00400, 0], busy, _, _, _, canvas, _, by decide, rfl, rfl, rfl, by decide, rfl⟩,
   ⟨7, { Image.reset with converting := true }, { up with lco.images := [(7, { Image.reset with converting := true })] }, by decide⟩,
   ⟨0, _, _, { canvas with composing := [(9, 8, [], [], [])] }, (9, 8, [], [], []), [], { busy with lco.canvases := [(0, { canvas with composing := [(9, 8, [], [], [])] })] }, _, _, by decide, by decide, by decide, rfl, rfl, rfl, rfl⟩⟩

/-- The hypotheses of ClusterCompletes are met: one state and one choice of operands for each of its clauses. -/
theorem hypotheses_met_ClusterCompletes :
    (∃ c s, startsNow 0x0A01 ((fnLens [2, 2, 2, 1]) c) c s = true ∧ field (word c 0) 16 4 = 0 ∧ roleBad (word c 1) = false ∧
      (roleChanges (word c 1) (begun c s) = false ∨ (begun c s).cti.groups = [])) ∧
    (∃ c s, startsNow 0x0A01 ((fnLens [2, 2, 2, 1]) c) c s = true ∧ field (word c 0) 16 4 = 1 ∧ field (word c 1) 0 16 ≠ 0 ∧ confUsed
      (begun c s) (field (word c 1) 16 13) = true ∧ (((tget (begun c s).aue.confs (field (word c 1) 16 13)).map (·.lock)).getD 0 = 0 ∨
      ((tget (begun c s).aue.confs (field (word c 1) 16 13)).map (·.lock)).getD 0 = field (word c 1) 0 16) ∧ (begun c s).cti.role ≠ 0 ∧
      (begun c s).tsu.state ≠ .unset ∧ ((begun c s).cti.groups.any fun x => x.group = field (word c 1) 0 16) = false) ∧
    (∃ (c : Cmd) (s b t : State) (g k : Nat), startsNow 0x0A01 (fnLens [2, 2, 2, 1] c) c s = true ∧ b = begun c s ∧ field (word c 0) 16
      4 = 2 ∧ g = field (word c 1) 0 16 ∧ k = field (word c 1) 16 13 ∧ g ≠ 0 ∧ (b.cti.groups.any fun x => x.group = g ∧ x.conf = k) =
      true ∧ t =
      { b with cti.groups := b.cti.groups.filter fun x => x.group ≠ g, aue.confs := tmod b.aue.confs k fun x => { x with lock := 0 } }) ∧
    (∃ c s, startsNow 0x0A01 ((fnLens [2, 2, 2, 1]) c) c s = true ∧ field (word c 0) 16 4 = 3) ∧
    (∃ c s, startsNow 0x0A02 ((fnLens [2, 1]) c) c s = true ∧ field (word c 0) 16 4 = 0 ∧ field (word c 1) 2 5 ≤ 16) ∧
    (∃ c s, startsNow 0x0A02 ((fnLens [2, 1]) c) c s = true ∧ field (word c 0) 16 4 = 1) ∧
    (∃ (port : Nat) (c : Container) (s : State), portInSync s port = true ∧ (c.crcOk = false ∨ (ctiPort s port).contDrop = true)) ∧
    (∃ (port : Nat) (c : Container) (s : State), portInSync s port = true ∧ c.crcOk = true ∧ (ctiPort s port).contDrop = false) ∧
    (∃ (port : Nat) (ws : List Word) (s t : State), portInSync s port = true ∧ t = modCtiPort port (fun x =>
      { x with hello := some ws, rxSeq := (ws.getD 1 0).toNat }) s) ∧
    (∃ (port : Nat) (s a : State), portOn s port = true ∧ a = periodic (ctiPort s port).helloNs 100000000 s) ∧
    (∃ (port n d : Nat) (s a b t : State), portInSync s port = true ∧ a = periodic (ctiPort s port).timeNs 1000000000 s ∧ n = nowNs a /
      1280 ∧ drawBelow 1280 a = (d, b) ∧ t = modCtiPort port (fun x =>
      { x with timeNs := nowNs b, txTimes := ((n % 2 ^ 32, n * 1280 + d) :: x.txTimes).take 16 }) b) ∧
    (∃ (s a : State), s.cti.role = 1 ∧ relays s = false ∧ a = periodic s.cti.groupNs 1000000000 s) ∧
    (∃ (s a : State), s.cti.role = 2 ∧ (portInSync s s.cti.parent = false ∨ parentWorks s = true) ∧ a = (if portInSync s s.cti.parent
      then s else ((ctiPort s s.cti.parent).lostNs.map fun t => advanceAon (t + 10000000) s).getD s)) ∧
    (∃ (port : Nat) (s : State), portOn s port = true ∧ (ctiPort s port).syncWait = true) :=
  ⟨⟨cmd [0, 1], up, by decide⟩,
   ⟨cmd [0x10000, 0x00010007], { busy with cti.role := 1, tsu.state := .tracking }, by decide⟩,
   ⟨cmd [0x20000, 0x00010007], { busy with cti.groups := [⟨7, 1, none⟩] }, _, _, _, _, by decide, rfl, by decide, rfl, rfl, by decide, by decide, rfl⟩,
   ⟨cmd [0x30000], up, by decide⟩,
   ⟨cmd [0, 0x40], up, by decide⟩,
   ⟨cmd [0x10000], up, by decide⟩,
   ⟨0, { crcOk := false }, { up with cti.role := 1, cti.ports := List.replicate 6 { CtiPort.reset with enabled := true, path.sync := .sync } }, by decide⟩,
   ⟨3, {}, { up with cti.role := 1, cti.ports := List.replicate 6 { CtiPort.reset with enabled := true, path.sync := .sync } }, by decide⟩,
   ⟨3, [], { up with cti.role := 1, cti.ports := List.replicate 6 { CtiPort.reset with enabled := true, path.sync := .sync } }, _, by decide, rfl⟩,
   ⟨5, { up with cti.role := 1, cti.ports := List.replicate 6 { CtiPort.reset with enabled := true, path.sync := .sync } }, _, by decide, rfl⟩,
   ⟨3, _, _, { up with cti.role := 1, cti.ports := List.replicate 6 { CtiPort.reset with enabled := true, path.sync := .sync } }, _, _, _, by decide, rfl, rfl, rfl, rfl⟩,
   ⟨{ up with cti.role := 1 }, _, by decide, by decide, rfl⟩,
   ⟨{ up with cti.role := 2 }, _, by decide, by decide, rfl⟩,
   ⟨5, { up with cti.role := 1, cti.ports := List.replicate 6 { CtiPort.reset with enabled := true, syncWait := true, path.sync := .sync } }, by decide⟩⟩

/-- The hypotheses of TwinCompletes are met: one state and one choice of operands for each of its clauses. -/
theorem hypotheses_met_TwinCompletes :
    (∃ (c : Cmd) (s b : State), startsNow 0x0A03 (fnLens [3, 1, 1] c) c s = true ∧ b = begun c s ∧ field (word c 0) 16 4 = 0 ∧ (field
      (word c 2) 0 2 = 1 ∨ field (word c 2) 0 2 = 2) ∧ b.cti.forming = false ∧ b.cti.switching = none ∧ (b.cti.paired = false ∨
      b.cti.twin = 3) ∧ (field (word c 2) 0 2 = 1 ∨ b.cti.twin = 3 ∨ b.fwe.legs = []) ∧ (queueOf b (qiOf c)).longOps.length < 64) ∧
    (∃ c s, startsNow 0x0A03 ((fnLens [3, 1, 1]) c) c s = true ∧ field (word c 0) 16 4 = 1 ∧ (begun c s).cti.forming = false ∧ (begun c
      s).cti.switching = none) ∧
    (∃ c s, startsNow 0x0A03 ((fnLens [3, 1, 1]) c) c s = true ∧ field (word c 0) 16 4 = 2) ∧
    (∃ (c : Cmd) (s b : State), startsNow 0x0A04 (exactly 1) c s = true ∧ b = begun c s ∧ b.cti.switching = none ∧ longOpen 0x0A04 b =
      false ∧ (queueOf b (qiOf c)).longOps.length < 64) ∧
    (∃ (prefer : Nat) (s t : State), s.cti.forming = true ∧ partnerMet s = true ∧ t = joinPair prefer s) ∧
    (∃ (s t : State), s.cti.forming = true ∧ partnerMet s = false ∧ t = advanceAon (s.cti.formNs + 10000000000)
      { s with cti.forming := false }) ∧
    (∃ (s a b t : State), (s.cti.paired = true ∨ s.cti.forming = true) ∧ a = (if s.cti.hbSentNs = 0 then s else advanceAon
      (s.cti.hbSentNs + 1000000) s) ∧ b = switchRefused { a with cti.hbSentNs := a.cpr.aonNs } ∧ t = (if b.cti.twin = 1 ∧ b.cti.paired =
      true then (heartbeatRecords b).foldl (fun s (r : Nat × Nat × List Word) => sendMirror r.1 r.2.1 r.2.2 s) b else b)) ∧
    (∃ (s : State), (s.cti.paired = true ∨ s.cti.forming = true) ∧ (portInSync s 4 = true ∨ portInSync s 5 = true)) ∧
    (∃ (s : State), (s.cti.paired = true ∨ s.cti.forming = true) ∧ svcOn s = true) ∧
    (∃ (t : Nat) (s a b : State), s.cti.hbNs = some t ∧ a = advanceAon (t + 10000000) s ∧ b = evtTwin 2 [a.cti.partner]
      { a with cti.heartbeat := false, cti.hbNs := none, cti.quoinNs := none }) ∧
    (∃ (s : State), s.cti.twin = 2 ∧ s.cti.resync = true) ∧
    (∃ (code : Nat) (s : State), s.cti.paired = true ∧ s.cti.switching = none ∧ s.cti.twin = 2 ∧ mayTake code s = true) ∧
    (∃ (s : State), s.cti.twin = 1 ∧ s.cti.switching.isSome = true ∧ s.cti.taking = false) ∧
    (∃ (s : State), s.hlp.link ≠ .active ∧ s.hlp.outage = false) ∧
    (∃ (s : State), s.cti.paired = true) ∧
    (∃ (s t : State), s.cti.taking = true ∧ s.cti.twin = 2 ∧ computeDomains.any (fun d => (domainOf s d).state ≠ .on) = false ∧ t =
      materialise s) ∧
    (∃ (s a : State), s.cti.announce ≠ 0 ∧ s.cti.twin = 1 ∧
      a = (match s.cti.announceNs with | some t => advanceAon (t + 10000000) s | none => s)) ∧
    (∃ (s : State), s.cti.switching.isSome = true ∧ s.cti.twin = 1 ∧ s.cti.taking = true) ∧
    (∃ (s : State), s.cti.switching.isSome = true ∧ s.cti.twin = 1 ∧ s.cti.taking = false ∧ s.cti.ackSeen = true) :=
  ⟨⟨cmd [0, 9, 1], up, _, by decide, rfl, by decide⟩,
   ⟨cmd [0x10000], up, by decide⟩,
   ⟨cmd [0x20000], up, by decide⟩,
   ⟨cmd [0], up, _, by decide, rfl, by decide⟩,
   ⟨0, { up with cti.forming := true, cti.heartbeat := true, cti.ports := List.replicate 6 { CtiPort.reset with hello := some [] } }, _, by decide, by decide, rfl⟩,
   ⟨{ up with cti.forming := true }, _, by decide, by decide, rfl⟩,
   ⟨{ up with cti.paired := true }, _, _, _, by decide, rfl, rfl, rfl⟩,
   ⟨{ up with cti.paired := true, cti.ports := List.replicate 6 { CtiPort.reset with enabled := true, path.sync := .sync } }, by decide⟩,
   ⟨{ up with cti.forming := true }, by decide⟩,
   ⟨0, { up with cti.hbNs := some 0 }, _, _, by decide, rfl, rfl⟩,
   ⟨{ up with cti.twin := 2, cti.resync := true }, by decide⟩,
   ⟨0, { up with cti.paired := true, cti.twin := 2, cpx.mode := .shadow, ptu.act := .o5, cti.keyAgree := true }, by decide⟩,
   ⟨{ up with cti.twin := 1, cti.switching := some 0 }, by decide⟩,
   ⟨{ up with hlp.link := .detect }, by decide⟩,
   ⟨{ up with cti.paired := true }, by decide⟩,
   ⟨{ up with cti.taking := true, cti.twin := 2 }, _, by decide, by decide, by decide, rfl⟩,
   ⟨{ up with cti.announce := 1, cti.twin := 1 }, _, by decide, by decide, rfl⟩,
   ⟨{ up with cti.switching := some 0, cti.twin := 1, cti.taking := true }, by decide⟩,
   ⟨{ up with cti.switching := some 0, cti.twin := 1, cti.ackSeen := true }, by decide⟩⟩

/-- The hypotheses of ServiceEthernetCompletes are met: one state and one choice of operands for each of its clauses. -/
theorem hypotheses_met_ServiceEthernetCompletes :
    (∃ c s, startsNow 0x0A05 ((fnLens [12, 2, 7, 1]) c) c s = true ∧ field (word c 0) 16 4 = 0 ∧ field (word c 2) 0 6 ≤ 32 ∧ field (word
      c 2) 8 8 ≤ 128) ∧
    (∃ c s, startsNow 0x0A05 ((fnLens [12, 2, 7, 1]) c) c s = true ∧ field (word c 0) 16 4 = 1 ∧ field (word c 1) 16 2 ≠ 3) ∧
    (∃ c s, startsNow 0x0A05 ((fnLens [12, 2, 7, 1]) c) c s = true ∧ field (word c 0) 16 4 = 2) ∧
    (∃ c s, startsNow 0x0A05 ((fnLens [12, 2, 7, 1]) c) c s = true ∧ field (word c 0) 16 4 = 3) ∧
    (∃ (f : EthFrame) (n : Nat) (asleep : Bool) (s t u : State), svcOn s = true ∧ asleep = (decide (s.cpr.sleep ≠ 0) ||
      s.cpr.waking.isSome) ∧ t = (if 2 ≤ s.cpr.sleep ∧ s.cti.svc.filters.any fun x => filterMatches x f.head then wakeSource 2 s else s)
      ∧ n = (if asleep then t.cti.svc.rxBytes else 0) + f.len ∧ u = svcCount 1 { t with cti.svc.rxBytes := if asleep then n else 0 }) ∧
    (∃ (late : Bool) (s t u : State), t = svcDrain s ∧ svcOn t = true ∧ t.cti.svc.txq ≠ [] ∧ u = svcCount 2 (if late then svcCount 4 t
      else t)) ∧
    (∃ (s a : State), svcOn s = true ∧ s.cti.svc.fast = true ∧ s.cti.svc.policy = 0 ∧ a = advanceAon (s.cti.svc.fastNs + 10000000000) s) ∧
    (∃ (s : State), (domainOf s 26).state = .on ∧ (domainOf s 26).latched = false ∧ s.cpr.powered = true) ∧
    (∃ (s : State), s.cpx.backupOn = true ∧ svcOn s = true) ∧
    (∃ (src : Addr) (port : Nat) (key : List Word) (bytes body : List Byte) (p : RawPacket) (s t : State), s.cpx.backupOn = true ∧ svcOn
      s = true ∧ s.cpe.backupKey = some key ∧ body = bytes.take (bytes.length - 16) ∧ p = parsePacket body ∧ t =
      { s with cpx.backupPeer := some (src, port) }) ∧
    (∃ (q : Nat) (s : State), s.hlp.link = .active ∧ q < 4) ∧
    (∃ (e : BackupEvent) (es : List BackupEvent) (s a : State), s.cpx.backupUnacked = e :: es ∧ a = advanceAon (e.sentNs + 100000000) s) :=
  ⟨⟨cmd (0 :: 0 :: 0x8020 :: List.replicate 9 0), up, by decide⟩,
   ⟨cmd [0x10000, 0x20000], up, by decide⟩,
   ⟨cmd (0x20000 :: List.replicate 6 0), up, by decide⟩,
   ⟨cmd [0x30000], up, by decide⟩,
   ⟨{}, _, _, up, _, _, by decide, rfl, rfl, rfl, rfl⟩,
   ⟨true, { up with cti.svc.txq := [{ frame with stamp := 9 }] }, _, _, rfl, by decide, by decide, rfl⟩,
   ⟨{ up with cti.svc.fast := true, cti.svc.policy := 0 }, _, by decide, by decide, by decide, rfl⟩,
   ⟨up, by decide⟩,
   ⟨up, by decide⟩,
   ⟨{}, 47110, [], [], _, _, { up with cpe.backupKey := some [] }, _, by decide, by decide, by decide, rfl, rfl, rfl⟩,
   ⟨3, up, by decide⟩,
   ⟨BackupEvent.reset, [], { up with cpx.backupUnacked := [BackupEvent.reset] }, _, by decide, rfl⟩⟩

/-- The hypotheses of StoreCompletes are met: one state and one choice of operands for each of its clauses. -/
theorem hypotheses_met_StoreCompletes :
    (∃ c s, startsNow 0x0B01 (storePolicyLen c) c s = true ∧ field (word c 0) 16 4 = 0 ∧ (word c 1).toNat ≤ 1835008 ∧ 100 ≤ (word c
      2).toNat ∧ (word c 2).toNat ≤ 3600000 ∧ confUsed (begun c s) (field (word c 0) 0 13) = true ∧ ringTotal (begun c s) - ((tget
      (begun c s).mss.rings (field (word c 0) 0 13)).map (·.sizeMiB)).getD 0 + (word c 1).toNat ≤ areaMiB (begun c s)) ∧
    (∃ c s, startsNow 0x0B01 (storePolicyLen c) c s = true ∧ field (word c 0) 16 4 = 1 ∧ confUsed (begun c s) (field (word c 0) 0 13) =
      true ∧ streamUsed (begun c s) (field (word c 1) 0 16) = true) ∧
    (∃ c s, startsNow 0x0B01 (storePolicyLen c) c s = true ∧ field (word c 0) 16 4 = 2 ∧ confUsed (begun c s) (field (word c 0) 0 13) =
      true) ∧
    (∃ (c : Cmd) (s b : State) (conf st n : Nat), startsNow 0x0B02 (storeExportLen c) c s = true ∧ b = begun c s ∧ field (word c 0) 16 4
      = 0 ∧ conf = field (word c 0) 0 13 ∧ st = field (word c 1) 0 16 ∧ n = field (word c 0) 20 2 ∧ confUsed b conf = true ∧ (st =
      0xFFFF ∨ streamUsed b st = true) ∧ ((tget b.mss.exports n).map (·.running)).getD false = false ∧ (queueOf b (qiOf
      c)).longOps.length < 64) ∧
    (∃ c s, startsNow 0x0B02 (storeExportLen c) c s = true ∧ field (word c 0) 16 4 = 1) ∧
    (∃ c s, startsNow 0x0B02 (storeExportLen c) c s = true ∧ field (word c 0) 16 4 = 2) ∧
    (∃ (c : Cmd) (s b : State) (src tgt n : Nat), startsNow 0x0B03 (storeReplayLen c) c s = true ∧ b = begun c s ∧ field (word c 0) 16 4
      = 0 ∧ src = field (word c 1) 0 16 ∧ tgt = field (word c 1) 16 16 ∧ n = field (word c 0) 20 6 ∧ streamUsed b src = true ∧
      streamUsed b tgt = true ∧ ((tget b.fwe.streams tgt).map (·.origin)).getD false = true ∧ ((tget b.fwe.legs (tgt / 4)).map fun l =>
      decide (l.kind = .producer)).getD false = true ∧ indexOf b src ≠ [] ∧ ((tget b.mss.replays n).map (·.running)).getD false = false
      ∧ (queueOf b (qiOf c)).longOps.length < 64) ∧
    (∃ c s, startsNow 0x0B03 (storeReplayLen c) c s = true ∧ field (word c 0) 16 4 = 1) ∧
    (∃ (c : Cmd) (s b : State) (r : Replay), startsNow 0x0B03 (storeReplayLen c) c s = true ∧ b = begun c s ∧ field (word c 0) 16 4 = 2
      ∧ r = (tget b.mss.replays (field (word c 0) 20 6)).getD { Replay.reset with running := false, result := 0 }) ∧
    (∃ (n : Nat) (e : Export) (r : Ring) (x : CairnRec) (s : State), tget s.mss.exports n = some e ∧ tget s.mss.rings e.conf = some r ∧
      e.running = true ∧ exportNext e r = some x) ∧
    (∃ (n : Nat) (e : Export) (r : Ring) (s : State), tget s.mss.exports n = some e ∧ tget s.mss.rings e.conf = some r ∧ exportNext e r
      = none) ∧
    (∃ (n : Nat) (e : Export) (s : State), tget s.mss.exports n = some e ∧ tget s.mss.rings e.conf = none) ∧
    (∃ (n : Nat) (r : Replay) (s : State), tget s.mss.replays n = some r) ∧
    (∃ (conf n : Nat) (r : Ring) (x : CairnRec) (s a : State), tget s.mss.rings conf = some r ∧ r.recs.find? (fun y => y.number % 2 ^ 32
      = n) = some x ∧ x.kind = 0 ∧ a = advanceAon (x.atNs + 100000) s) :=
  ⟨⟨cmd [1, 1, 100], { busy with mss.area := 1 }, by decide⟩,
   ⟨cmd [0x10001, 4], busy, by decide⟩,
   ⟨cmd [0x20001], busy, by decide⟩,
   ⟨cmd [1, 0xFFFF, 0, 0, 0, 0, 0], busy, _, _, _, _, by decide, rfl, by decide, rfl, rfl, rfl, by decide⟩,
   ⟨cmd [0x10000], up, by decide⟩,
   ⟨cmd [0x20000], up, by decide⟩,
   ⟨cmd [0, 0x000C0004, 0, 0, 0, 0], { busy with mss.index := [(4, [{ RapEntry.reset with conf := 1 }])], fwe.legs := [(1, { network with conf := some 1 }), (3, { network with kind := .producer })] }, _, _, _, _, by decide, rfl, by decide, rfl, rfl, rfl, by decide⟩,
   ⟨cmd [0x10000], up, by decide⟩,
   ⟨cmd [0x20000], up, _, _, by decide, rfl, by decide, rfl⟩,
   ⟨0, { Export.reset with running := true, endNs := 1, stream := 0xFFFF }, { Ring.reset with recs := [CairnRec.reset] }, CairnRec.reset, { up with mss.exports := [(0, { Export.reset with running := true, endNs := 1, stream := 0xFFFF })], mss.rings := [(0, { Ring.reset with recs := [CairnRec.reset] })] }, by decide⟩,
   ⟨0, Export.reset, Ring.reset, { up with mss.exports := [(0, Export.reset)], mss.rings := [(0, Ring.reset)] }, by decide⟩,
   ⟨0, Export.reset, { up with mss.exports := [(0, Export.reset)] }, by decide⟩,
   ⟨0, Replay.reset, { up with mss.replays := [(0, Replay.reset)] }, by decide⟩,
   ⟨0, 0, { Ring.reset with recs := [CairnRec.reset] }, CairnRec.reset, { up with mss.rings := [(0, { Ring.reset with recs := [CairnRec.reset] })] }, _, by decide, by decide, by decide, rfl⟩⟩

/-- The hypotheses of MemoryCompletes are met: one state and one choice of operands for each of its clauses. -/
theorem hypotheses_met_MemoryCompletes :
    (∃ (r : FabReq) (x : HeldReq) (s c u : State), r.master < 64 ∧ r.target < 16 ∧ c = settleChannels s ∧ x = ⟨c.mss.issued, nowNs c, r⟩
      ∧ u = { c with mss.issued := c.mss.issued + 1 }) ∧
    (∃ (addr n : Nat), addr + 4 * n ≤ 2 ^ 41) ∧
    (∃ (addr n : Nat), 2 ^ 41 < addr + 4 * n) ∧
    (∃ (link number n : Nat) (f : FabFlit) (r : FabReq) (x : HeldReq) (s c u : State) (rest : List ReplayFlit), c = settleChannels s ∧
      rest = (linkHeld c link).filter (fun x => x.number ≠ number) ∧ r = flitReq f (flitBad f) ∧ n = (((linkHeld c link).find? fun x =>
      x.number = number).map (·.tries)).getD 0 ∧
      (match (linkHeld c link).find? fun x => x.number = number with | some o => ((⟨o.seq, nowNs c, r⟩ : HeldReq), c) | none => issue r c) =
        (x, u) ∧ f.words.length = 16 ∧ rest.length < 64 ∧ r.master < 64 ∧ r.target < 16) ∧
    (∃ (ch t : Nat) (s a : State), ch < 16 ∧ (chanOf s ch).inService = true ∧ (chanOf s ch).selfRef = false ∧ t = pauseStart s ch ∧ a =
      settleChannels (advanceTo (t * 65536) s)) ∧
    (∃ c s, startsNow 0x0B04 (exactly 1) c s = true ∧ field (word c 0) 16 4 = 0) ∧
    (∃ c s, startsNow 0x0B04 (exactly 1) c s = true ∧ field (word c 0) 16 4 = 1 ∧ field (word c 0) 20 8 ≤ 15) ∧
    (∃ c s, startsNow 0x0B04 (exactly 1) c s = true ∧ field (word c 0) 16 4 = 2 ∧ field (word c 0) 20 8 ≤ 15) ∧
    (∃ c s, startsNow 0x0B04 (exactly 1) c s = true ∧ field (word c 0) 16 4 = 3) ∧
    (∃ (s : State), Reaches true 0x60100 s) ∧
    (∃ (a : Word) (s : State), Reaches true a.toNat s) :=
  ⟨⟨{ master := 63, target := 15, len := 1 }, _, up, _, _, by decide, by decide, rfl, rfl, rfl⟩,
   ⟨2 ^ 41 - 64, 16, by decide⟩,
   ⟨2 ^ 41, 1, by decide⟩,
   ⟨0, 0, 0, { words := List.replicate 16 (0, true) }, _, _, up, up, _, [], (settleChannels_idle up (by decide) rfl).symm, rfl, rfl, rfl, rfl, rfl, by decide⟩,
   ⟨15, _, up, _, by decide, by decide, by decide, rfl, rfl⟩,
   ⟨cmd [0], up, by decide⟩,
   ⟨cmd [0x00F10000], up, by decide⟩,
   ⟨cmd [0x00F20000], up, by decide⟩,
   ⟨cmd [0x0FF30000], up, by decide⟩,
   ⟨granting 0x60100, reaching (by decide) rfl⟩,
   ⟨0x60104, granting 0x60104, reaching (by decide) rfl⟩⟩

/-- The hypotheses of PowerCommandsComplete are met: one state and one choice of operands for each of its clauses. -/
theorem hypotheses_met_PowerCommandsComplete :
    (∃ c s, startsNow 0x0C01 (exactly 1) c s = true ∧ field (word c 0) 0 2 = 0) ∧
    (∃ c s, startsNow 0x0C01 (exactly 1) c s = true ∧ field (word c 0) 0 2 ≠ 0 ∧ (begun c s).cpx.mode ≠ .shadow ∧ (begun c s).fwe.legs =
      [] ∧ (begun c s).cti.paired = false ∧ (begun c s).cti.forming = false ∧ (begun c s).cpr.entering = none ∧ (begun c
      s).cpx.queues.any (fun q => !q.longOps.isEmpty) = false ∧ (queueOf (begun c s) (qiOf c)).longOps.length < 64) ∧
    (∃ (c : Cmd) (s b : State) (g l : Nat), startsNow 0x0C02 (exactly 1) c s = true ∧ b = begun c s ∧ g = field (word c 0) 0 2 ∧ l =
      field (word c 0) 4 2 ∧ (g = 0 → l = 0 ∨ b.cpx.mode = .service) ∧ (g ≠ 0 → ceiling b.cpx.mode ≤ l) ∧ levelShort b g l = false ∧
      b.cpr.changing.any (fun x => x.1 = g) = false ∧ (stepped b g = false ∨ levelOf b g ≤ l ∨ b.cpr.powerStop = false)) ∧
    (∃ c s, startsNow 0x0C03 (exactly 1) c s = true ∧ field (word c 0) 0 4 ≤ 8 ∧ (domainOf (begun c s) (padDomain (field (word c 0) 0
      4))).state ≠ .off) ∧
    (∃ (c : Cmd) (s b : State) (mux input : Nat) (hung : Bool), startsNow 0x0C04 (exactly 1) c s = true ∧ b = begun c s ∧ mux = field
      (word c 0) 0 4 ∧ input = b1 (bit (word c 0) 4) ∧ firstFail (clockChecks mux input b) = none ∧ hung = (decide (b.cpr.cmux.getD mux
      0 ≠ input) && inputStopped b mux (b.cpr.cmux.getD mux 0))) ∧
    (∃ c s, startsNow 0x0C05 ((fnLens [1, 1, 1, 2]) c) c s = true ∧ field (word c 0) 16 4 = 0 ∧ firstFail (claimChecks (field (word c 0)
      0 4) (field (word c 0) 8 8) (begun c s)) = none) ∧
    (∃ c s, startsNow 0x0C05 ((fnLens [1, 1, 1, 2]) c) c s = true ∧ field (word c 0) 16 4 = 1 ∧ claimIndexBad (field (word c 0) 0 4)
      (field (word c 0) 8 8) = false ∧ ownerOf (begun c s) (field (word c 0) 0 4) (field (word c 0) 8 8) < 2) ∧
    (∃ c s, startsNow 0x0C05 ((fnLens [1, 1, 1, 2]) c) c s = true ∧ field (word c 0) 16 4 = 2 ∧ claimIndexBad (field (word c 0) 0 4)
      (field (word c 0) 8 8) = false) ∧
    (∃ c s, startsNow 0x0C05 ((fnLens [1, 1, 1, 2]) c) c s = true ∧ field (word c 0) 16 4 = 3 ∧ claimIndexBad (field (word c 0) 0 4)
      (field (word c 0) 8 8) = false ∧ field (word c 0) 0 4 = 1 ∧ (begun c s).tsu.evtOwner = 1 ∧ (bit (word c 1) 0 = true → 8 ≤ field
      (word c 1) 2 6 ∧ field (word c 1) 8 24 ≠ 0 ∧ (cmpOf (begun c s) (field (word c 1) 2 6)).owner = 1)) :=
  ⟨⟨cmd [0], up, by decide⟩,
   ⟨cmd [3], up, by decide⟩,
   ⟨cmd [0x30], up, _, _, _, by decide, rfl, rfl, rfl, by decide⟩,
   ⟨cmd [8], up, by decide⟩,
   ⟨cmd [0x18], up, _, _, _, _, by decide, rfl, rfl, rfl, by decide, rfl⟩,
   ⟨cmd [0x3F02], up, by decide⟩,
   ⟨cmd [0x10000], up, by decide⟩,
   ⟨cmd [0x20802], up, by decide⟩,
   ⟨cmd [0x30001, 0], { up with tsu.evtOwner := 1 }, by decide⟩⟩

/-- The hypotheses of PowerEventsComplete are met: one state and one choice of operands for each of its clauses. -/
theorem hypotheses_met_PowerEventsComplete :
    (∃ (t : Nat) (s a b : State), s.cpr.entering = some t ∧ s.cpr.window = false ∧ s.cpr.changing = [] ∧ (t < 2 ∨ (sleepDomains.any fun
      d => (domainOf s d).state ≠ .off) = false) ∧ a =
      { endLong 0x0C01 0 .ok [w32 t] s with cpr.sleep := t, cpr.window := true, cpr.windowNs := (endLong 0x0C01 0 .ok [w32 t] s).cpr.aonNs, hlp.wakePending := false }
      ∧ b = (if 2 ≤ t then selfRefresh (drainChannels a) else a)) ∧
    (∃ (s a : State), s.cpr.window = true ∧ a =
      { advanceAon (s.cpr.windowNs + 320) s with cpr.window := false, cpr.entering := none, cpr.wakeDue := none }) ∧
    (∃ (source : Nat) (s : State), source < 6 ∧ (source = 4 → commandWaits s = true) ∧ (s.cpr.wakeMask >>> source) % 2 = 1) ∧
    (∃ (left src : Nat) (s a w b d : State), s.cpr.waking = some (left, src) ∧ ((List.range 28).any fun d => (domainOf s d).state =
      .powering) = false ∧ a = { s with cpr.waking := none, cpr.sleep := 0, hlp.wakePending := false } ∧ w = (if 2 ≤ left then
      wakePauses a else a) ∧ b = (if left = 2 then { w with cpr.levels := w.cpr.levels.set 0 w.cpr.ctlBefore } else w) ∧ d = (if left =
      3 then { (ponWake (decide (src ≠ 3)) b) with hlp.trainReady := true } else b)) ∧
    (∃ (g l : Nat) (s a : State), s.cpr.changing.find? (fun x => x.1 = g) = some (g, l) ∧ a =
      { s with cpr.overWindows := if stepRuns s g then 0 else s.cpr.overWindows, cpr.levels := s.cpr.levels.set g l, cpr.changing := s.cpr.changing.filter fun x => x.1 ≠ g }) ∧
    (∃ (i : Nat) (s a : State), i < 18 ∧ s.cpr.stopped.getD i false = false ∧ a = raiseFault 0x1004 [w32 i] (decide (i < 8))
      { s with cpr.stopped := s.cpr.stopped.set i true }) ∧
    (∃ (mux i : Nat) (s t a : State), s.cpr.switching.find? (fun x => x.1 = mux) = some (mux, i) ∧ t = advanceAon (s.cpr.switchNs.getD
      mux 0 + switchLimit s mux i) s ∧ a = raiseFault 0x1003 [w32 mux] (decide (mux ≤ 3)) (recoverMux mux i
      { t with cpr.stuck := t.cpr.stuck.set mux true })) ∧
    (∃ (p : Nat), p < 8) ∧
    (∃ (d : Nat) (ms : List Nat) (s a : State), d < 28 ∧ (domainOf s d).state = .draining ∧ a = ms.foldl (fun s m => emit (.completion m
      2 [] []) s) (advanceAon ((domainOf s d).drainNs + 2000000) s)) ∧
    (∃ (d : Nat) (s : State), (domainOf s d).state = .powering) ∧
    (∃ (x y : Nat), x < 14 ∧ y < 14) ∧
    (∃ (dw : Nat) (s t a : State), t = advanceAon (s.cpr.powerNs + 1000000) s ∧ t.cpr.sleep = 0 ∧ t.cpr.entering = none ∧ a =
      { t with cpr.power := min dw 4095, cpr.powerNs := t.cpr.aonNs }) ∧
    (∃ (s : State), s.cpr.powerStop = true ∧ 1000 ≤ s.cpr.coolMs) :=
  ⟨⟨3, { up with cpr.entering := some 3, cpr.domains := List.replicate 28 { Domain.reset with state := .off } }, _, _, by decide, by decide, by decide, by decide, rfl, rfl⟩,
   ⟨{ up with cpr.window := true }, _, by decide, rfl⟩,
   ⟨5, { up with cpr.wakeMask := 63 }, by decide⟩,
   ⟨3, 0, { up with cpr.waking := some (3, 0) }, _, _, _, _, by decide, by decide, rfl, rfl, rfl, rfl⟩,
   ⟨1, 2, { up with cpr.changing := [(1, 2)] }, _, by decide, rfl⟩,
   ⟨17, up, _, by decide, by decide, rfl⟩,
   ⟨8, 1, { up with cpr.switching := [(8, 1)] }, _, _, by decide, rfl, rfl⟩,
   ⟨7, by decide⟩,
   ⟨27, [1], { up with cpr.domains := List.replicate 28 { Domain.reset with state := .draining } }, _, by decide, by decide, rfl⟩,
   ⟨27, { up with cpr.domains := List.replicate 28 { Domain.reset with state := .powering } }, by decide⟩,
   ⟨13, 13, by decide⟩,
   ⟨0, up, _, _, rfl, by decide, by decide, rfl⟩,
   ⟨{ up with cpr.powerStop := true, cpr.coolMs := 1000 }, by decide⟩⟩

/-- The hypotheses of DispatcherCompletes are met: one state and one choice of operands for each of its clauses. -/
theorem hypotheses_met_DispatcherCompletes :
    (∃ (n : Nat) (d : Desc), descOk n d = true) ∧
    (∃ (core n : Nat) (t : Thread) (s a : State), dispatchable s core = true ∧ thas s.tds.running core = false ∧ chooseThread s core =
      some (n, t) ∧ a = traceRec 11 (if core < 16 then 1 else 2) (traceCore core) n (flowWord t.d) (t.prio + 64 * b1 t.raised + 128 *
      min ((nowNs (rollLoads s) - t.readyNs) / 1000) 511) (rollLoads s)) :=
  ⟨⟨65535, { cls := 1, priority := 63, budgetUs := 100000 }, by decide⟩,
   ⟨0, 9, { Thread.reset with state := .ready, d.affinity := [0] }, { up with tds.threads := [(9, { Thread.reset with state := .ready, d.affinity := [0] })] }, _, by decide, by decide, by decide, rfl⟩⟩

/-- The hypotheses of HostLinkCompletes are met: one state and one choice of operands for each of its clauses. -/
theorem hypotheses_met_HostLinkCompletes :
    (∃ (s : State), sidebandOn s = true) ∧
    (∃ (s : State), sidebandOn s = true ∧ s.cpr.saving = false) ∧
    (∃ (p : Byte) (s a : State), sidebandOn s = true ∧ s.hlp.trainReady = true ∧ p.toNat / 2 % 4 ≠ 3 ∧ a = (if s.hlp.link = .active then
      hlpCount 4 1 s else s)) ∧
    (∃ (bytes : List Byte) (s : State), sidebandOn s = true ∧ bytes.length ≤ 64) ∧
    (∃ (s : State), s.hlp.link ≠ .active) ∧
    (∃ (s : State), s.hlp.link = .laneSync) ∧
    (∃ (good : Nat) (lanes : List Nat) (s a : State), s.hlp.link = .equalize ∧ a = (if good &&& s.hlp.locked = s.hlp.locked then s else
      trainTimeout (if s.hlp.full then 40 else 2) s) ∧ lanes = chooseWidth (good &&& s.hlp.locked) a.hlp.widest) ∧
    (∃ (s : State), s.hlp.link = .fecLock) ∧
    (∃ (s : State), s.hlp.link = .creditInit) ∧
    (∃ (s : State), s.hlp.link = .active) ∧
    (∃ (s : State), s.hlp.link = .active) ∧
    (∃ (s : State), s.hlp.retraining = true ∧ inTraining s = true) ∧
    (∃ (s a : State), a = advanceAon (s.cpr.trimNs + 8000000) s ∧ trimRef s ≠ 0 ∧ (a.cpr.windowMissed = false ∨ trimRef s ≠ 2)) ∧
    (∃ (s : State), s.cpr.boot ≠ .rom ∧ s.cpr.boot ≠ .romStopped ∧ Reaches true 0x20100 s) ∧
    (∃ (s : State), s.hlp.link = .power) :=
  ⟨⟨up, by decide⟩,
   ⟨up, by decide⟩,
   ⟨4, { up with hlp.trainReady := true }, _, by decide, by decide, by decide, rfl⟩,
   ⟨List.replicate 64 0, up, by decide⟩,
   ⟨{ up with hlp.link := .power }, by decide⟩,
   ⟨{ up with hlp.link := .laneSync }, by decide⟩,
   ⟨15, _, { up with hlp.link := .equalize, hlp.locked := 15 }, _, by decide, rfl, rfl⟩,
   ⟨{ up with hlp.link := .fecLock }, by decide⟩,
   ⟨{ up with hlp.link := .creditInit }, by decide⟩,
   ⟨up, by decide⟩,
   ⟨up, by decide⟩,
   ⟨{ up with hlp.retraining := true, hlp.link := .laneSync }, by decide⟩,
   ⟨up, _, rfl, by decide⟩,
   ⟨granting 0x20100, by decide, by decide, reaching (by decide) rfl⟩,
   ⟨{ up with hlp.link := .power }, by decide⟩⟩

/-- The hypotheses of BringUpCompletes are met: one state and one choice of operands for each of its clauses. -/
theorem hypotheses_met_BringUpCompletes :
    (∃ (dv : Nat) (s : State), s.cpr.powered = false ∧ s.cpr.saveAborted = false ∧ 440 ≤ dv ∧ dv ≤ 600) ∧
    (∃ (t c : Nat) (late : Bool) (s a : State), s.cpr.powered = true ∧ s.cpr.capValid = false ∧ c = min (t / 30) 65535 ∧ a = advanceAon
      (t * 1000) s ∧ late = (!a.cpr.holdDone && decide (400000000 < a.cpr.aonNs))) ∧
    (∃ (s : State), s.cpr.powered = true) ∧
    (∃ (s : State), s.cpr.powered = true ∧ s.cpr.crystal = true ∧ s.cpr.boot = .rom) ∧
    (∃ (s : State), s.hlp.handoff = false ∧ s.cpr.boot ≠ .rom ∧ s.cpr.boot ≠ .romStopped) ∧
    (∃ (s : State), s.cpr.boot = .firmware) ∧
    (∃ (s : State), s.cpr.boot = .configured) ∧
    (∃ (s : State), s.cpx.ready = false ∧ readyNow s = true) ∧
    (∃ (v : Nat) (s t : State), s.cpr.powered = true ∧ drawBelow 400 s = (v, t)) ∧
    (∃ (v : Nat) (s t : State), saveRuns s = true ∧ drawBelow 121 s = (v, t)) ∧
    (∃ (n : Nat) (s t : State), s.cpr.powered = true ∧ s.cpr.saving = true ∧ saveRuns s = true ∧ drawBelow (s.flash.saves.getD
      (saveSlotOf (nextSave s - 1)) SaveSlot.reset).planned s = (n, t)) ∧
    (∃ (s a : State), s.cpr.inputBack = true ∧ a = advanceAon (s.cpr.backNs + 100000000) s) ∧
    (∃ (s : State), s.cpr.powered = true) ∧
    (∃ (s : State), s.cpx.fatal = true) :=
  ⟨⟨440, { up with cpr.powered := false }, by decide⟩,
   ⟨1800, _, _, up, _, by decide, by decide, rfl, rfl, rfl⟩,
   ⟨up, by decide⟩,
   ⟨{ up with cpr.crystal := true, cpr.boot := .rom }, by decide⟩,
   ⟨{ up with hlp.handoff := false }, by decide⟩,
   ⟨{ up with cpr.boot := .firmware }, by decide⟩,
   ⟨{ up with cpr.boot := .configured }, by decide⟩,
   ⟨{ up with cpx.ready := false, cpr.aonNs := 30000000000 }, by decide⟩,
   ⟨_, up, _, by decide, rfl⟩,
   ⟨_, { up with cpr.saving := true }, _, by decide, rfl⟩,
   ⟨_, { up with cpr.saving := true }, _, by decide, by decide, by decide, rfl⟩,
   ⟨{ up with cpr.inputBack := true }, _, by decide, rfl⟩,
   ⟨up, by decide⟩,
   ⟨{ up with cpx.fatal := true }, by decide⟩⟩

/-- The hypotheses of IdleStepTicks are met: one state and one choice of operands for each of its clauses. -/
theorem hypotheses_met_IdleStepTicks :
    (∃ (s : State), s.pending = [] ∧ s.tsu.slew = 0) :=
  ⟨up, by decide⟩

/-- The hypotheses of MemoryFormKept are met: one state and one choice of operands for each of its clauses. -/
theorem hypotheses_met_MemoryFormKept :
    (∃ (s t : State), Memory.wf s.mss.dram = true ∧ step s = .next t) :=
  ⟨up, _, by decide, rfl⟩

/-- The hypotheses of FabricWriteStores are met: one state and one choice of operands for each of its clauses. -/
theorem hypotheses_met_FabricWriteStores :
    (∃ (r : FabReq) (s u : State), u = settleChannels s ∧ r.master < 64 ∧ r.target = 6 ∧ r.write = true ∧ permitted s r r.data.length =
      true ∧ r.addr + r.data.length ≤ dramBytes ∧ r.fenced = false ∧ portDown s 6 r.inst = false ∧ mustWait u ⟨u.mss.issued, nowNs u, r⟩
      = false ∧ pausedChannel u r = none ∧ Memory.wf s.mss.dram = true) ∧
    (∃ (r : FabReq) (ch : Nat) (s u : State), u = settleChannels s ∧ r.master < 64 ∧ r.target = 6 ∧ r.write = true ∧ permitted s r
      r.data.length = true ∧ r.addr + r.data.length ≤ dramBytes ∧ r.fenced = false ∧ portDown s 6 r.inst = false ∧ mustWait u
      ⟨u.mss.issued, nowNs u, r⟩ = false ∧ pausedChannel u r = some ch) :=
  ⟨⟨{ write := true, data := [1, 2], addr := 2 ^ 41 - 2, target := 6 }, open_, _, rfl, by decide, by decide, by decide, by decide, by decide, by decide, by decide, by rw [settleChannels_idle _ (by decide) rfl]; decide, by rw [settleChannels_idle _ (by decide) rfl]; decide, by decide⟩,
   ⟨{ write := true, data := [1, 2], addr := 2 ^ 41 - 2, target := 6 }, channelOf (2 ^ 41 - 2), { open_ with mss.pauseEnd := 5, mss.pauseCh := channelOf (2 ^ 41 - 2) }, _, rfl, by decide, by decide, by decide, by decide, by decide, by decide, by decide, by rw [settleChannels_idle _ (by decide) rfl]; decide, by rw [settleChannels_idle _ (by decide) rfl]; decide⟩⟩

/-- The hypotheses of DeniedRequestChangesNothing are met: one state and one choice of operands for each of its clauses. -/
theorem hypotheses_met_DeniedRequestChangesNothing :
    (∃ (r : FabReq) (s u : State), u = settleChannels s ∧ r.master < 64 ∧ r.target < 16 ∧ (permitted s r (reqBytes r) = false ∨
      (r.target = 6 ∧ dramBytes < r.addr + reqBytes r))) :=
  ⟨{ master := 63, target := 15, len := 1 }, { up with mss.regions := [] }, _, rfl, by decide⟩

/-- The hypotheses of PoisonedWriteReadsPoisoned are met: one state and one choice of operands for each of its clauses. -/
theorem hypotheses_met_PoisonedWriteReadsPoisoned :
    (∃ (r : FabReq) (s u : State), u = settleChannels s ∧ r.master < 64 ∧ r.target = 6 ∧ r.write = true ∧ permitted s r r.data.length =
      true ∧ r.addr + r.data.length ≤ dramBytes ∧ r.fenced = false ∧ portDown s 6 r.inst = false ∧ mustWait u ⟨u.mss.issued, nowNs u, r⟩
      = false ∧ pausedChannel u r = none) ∧
    (∃ (line w : Nat) (s : State), w / 16 = line ∧ w ∈ s.mss.badParity) ∧
    (∃ (addr n : Nat), addr + 4 * n ≤ dramBytes) ∧
    (∃ (r : FabReq) (s u : State) (i : Nat), u = settleChannels s ∧ r.master < 64 ∧ r.target = 6 ∧ r.write = false ∧ permitted s r r.len
      = true ∧ r.addr + r.len ≤ dramBytes ∧ r.fenced = false ∧ portDown s 6 r.inst = false ∧ mustWait u ⟨u.mss.issued, nowNs u, r⟩ =
      false ∧ pausedChannel u r = none ∧ i < wordsOf r.addr r.len ∧ (r.addr / 4 + i) ∈ u.mss.badParity) :=
  ⟨⟨{ write := true, data := [1, 2, 3, 4], poison := [0], target := 6 }, open_, _, rfl, by decide, by decide, by decide, by decide, by decide, by decide, by decide, by rw [settleChannels_idle _ (by decide) rfl]; decide, by rw [settleChannels_idle _ (by decide) rfl]; decide⟩,
   ⟨0, 15, { up with mss.badParity := [15] }, by decide⟩,
   ⟨2 ^ 41 - 64, 16, by decide⟩,
   ⟨{ len := 8, target := 6 }, { open_ with mss.badParity := [1] }, _, 1, rfl, by decide, by decide, by decide, by decide, by decide, by decide, by decide, by rw [settleChannels_idle _ (by decide) rfl]; decide, by rw [settleChannels_idle _ (by decide) rfl]; decide, by decide, by rw [settleChannels_idle _ (by decide) rfl]; decide⟩⟩

/-- The hypotheses of UnacceptedSequenceNotExecuted are met: one state and one choice of operands for each of its clauses. -/
theorem hypotheses_met_UnacceptedSequenceNotExecuted :
    (∃ (c : Cmd) (s : State), (seqCase (queueOf s (qiOf c)).lastSeq c.seq = .repeated ∨ seqCase (queueOf s (qiOf c)).lastSeq c.seq =
      .stale) ∧ (queueOf s (qiOf c)).waiting = []) :=
  ⟨cmd [], { up with cpx.queues := List.replicate 8 { CmdQ.reset with lastSeq := some 1 } }, .inr (by decide), by decide⟩

/-- The hypotheses of RefusedCommandHasNoEffect are met: one state and one choice of operands for each of its clauses. -/
theorem hypotheses_met_RefusedCommandHasNoEffect :
    (∃ (lens : Nat → Bool) (c : Cmd) (body : State → Res) (s : State), (queueOf s (qiOf c)).waiting = [] ∧ ((firstFail (headerChecks
      lens c)).isSome = true ∨ ∃ st, body (begun c s) = .refuse st)) :=
  ⟨exactly 0, cmd [1], fun _ => .refuse .badParam, up, by decide, .inl (by decide)⟩

/-- The hypotheses of LongOperationLimit are met: one state and one choice of operands for each of its clauses. -/
theorem hypotheses_met_LongOperationLimit :
    (∃ (op : Nat) (lens : Nat → Bool) (c : Cmd) (body : State → Res) (s u : State) (key : Nat), startsNow op lens c s = true ∧ body
      (begun c s) = .accepted key u) :=
  ⟨0x0005, exactly 0, cmd [], fun s => .accepted 0 s, up, _, _, by decide, rfl⟩

/-- The hypotheses of SerialNumberOrder are met: one state and one choice of operands for each of its clauses. -/
theorem hypotheses_met_SerialNumberOrder :
    (∃ (n : Nat), n < 2 ^ 32) :=
  ⟨2 ^ 32 - 1, by decide⟩

/-- The hypotheses of PoolReserve are met: one state and one choice of operands for each of its clauses. -/
theorem hypotheses_met_PoolReserve :
    (∃ (n limit refs p : Nat) (s : State), p < 8 ∧ (poolOf (bufAlloc n false limit refs s).2 p).free < (poolOf s p).free) ∧
    (∃ (n limit p : Nat) (s : State), p < 8 ∧ p ≤ limit ∧ n ≤ poolSize p ∧ 0 < (poolOf s p).free) :=
  ⟨⟨100, 4, 1, 0, up, by decide⟩,
   ⟨524288, 7, 7, up, by decide⟩⟩

/-- The hypotheses of FecRuns are met: one state and one choice of operands for each of its clauses. -/
theorem hypotheses_met_FecRuns :
    (∃ (i dest pc m : Nat) (lens : List Nat) (s : State) (e : Entry), tget s.fwe.ledger i = some e ∧ e.fec = true ∧ pc = ((tget
      s.lgv.legs dest).map (·.fecPc)).getD 0 ∧ pc ≠ 0 ∧ m = max 2 ((100 - pc) / pc) ∧ e.fecRun + lens.length < m) ∧
    (∃ (i dest len pc m k extra : Nat) (s t : State) (e : Entry) (x : Stream), tget s.fwe.ledger i = some e ∧ e.fec = true ∧ pc = ((tget
      s.lgv.legs dest).map (·.fecPc)).getD 0 ∧ pc ≠ 0 ∧ m = max 2 ((100 - pc) / pc) ∧ e.fecRun + 1 = m ∧ x = (tget s.fwe.streams
      e.source).getD Stream.reset ∧ egressProtect dest x.fecSsrc 0 false (max e.fecLen len + 20) (modEntry i (fun e =>
      { e with fecRun := 0, fecLen := 0 }) s) = (some (k, extra), t)) ∧
    (∃ (dest : Nat) (lens : List Nat) (s : State), lens ≠ [] ∧ ((tget s.lgv.legs dest).map (·.fecPc)).getD 0 = 0) :=
  ⟨⟨0, 1, _, _, [9], { keyed with lgv.legs := [(1, { Gov.reset with fecPc := 50 })], fwe.ledger := [(0, { entry with fec := true, fecRun := 0 })], cpe.slots := [(6, { Slot.reset with state := .current })] }, { entry with fec := true, fecRun := 0 }, by decide, by decide, rfl, by decide, rfl, by decide⟩,
   ⟨0, 1, 9, _, _, _, _, { keyed with lgv.legs := [(1, { Gov.reset with fecPc := 50 })], fwe.ledger := [(0, { entry with fec := true, fecRun := 1 })], cpe.slots := [(6, { Slot.reset with state := .current })] }, _, { entry with fec := true, fecRun := 1 }, _, by decide, by decide, rfl, by decide, rfl, by decide, rfl, rfl⟩,
   ⟨1, [9], up, by decide⟩⟩

/-- The hypotheses of RetrainingDiscards are met: one state and one choice of operands for each of its clauses. -/
theorem hypotheses_met_RetrainingDiscards :
    (∃ (ch : Nat) (s a : State), ch < 16 ∧ s.mss.chans.length = 16 ∧ (chanOf s ch).inService = true ∧ (chanOf s ch).selfRef = false ∧ a
      = settleChannels (advanceTo (pauseStart s ch * 65536) s)) ∧
    (∃ (ch : Nat) (s : State), ch < 16 ∧ s.mss.chans.length = 16 ∧ (chanOf s ch).inService = true ∧ (chanOf s ch).selfRef = false) ∧
    (∃ (ch : Nat) (s : State), ch < 16 ∧ s.mss.chans.length = 16 ∧ (chanOf s ch).inService = true ∧ (chanOf s ch).selfRef = false ∧
      (chanOf s ch).discRow = 0 ∧ (∀ k, k < 16 → (chanOf s k).queue = []) ∧ s.mss.behind = []) :=
  ⟨⟨15, up, _, by decide, by decide, by decide, by decide, rfl⟩,
   ⟨15, up, by decide⟩,
   ⟨15, up, by decide⟩⟩

/-- The hypotheses of RetiredKeyStopsEgress are met: one state and one choice of operands for each of its clauses. -/
theorem hypotheses_met_RetiredKeyStopsEgress :
    (∃ (leg k : Nat) (s : State), ptrSlot s leg 1 = k ∧ k / 4 = leg ∧ (slotOf s k).state ≠ .empty) ∧
    (∃ (k : Nat) (s : State), (slotOf s k).state = .empty) :=
  ⟨⟨16383, _, { up with cpe.slots := [(65534, { Slot.reset with state := .current })] }, rfl, by decide⟩,
   ⟨65535, up, by decide⟩⟩

/-- The hypotheses of PortServesHighestService are met: one state and one choice of operands for each of its clauses. -/
theorem hypotheses_met_PortServesHighestService :
    (∃ (port t : Nat) (f : Frame) (s u : State), portPick port t s = some (f, u)) ∧
    (∃ (port t : Nat) (s : State), portPick port t s = none) :=
  ⟨⟨0, 0, _, { up with tsh.queues := [(qKey 1 0 0, ⟨[frame], 5000⟩)] }, _, rfl⟩,
   ⟨0, 0, up, rfl⟩⟩

/-- The hypotheses of FaultFolding are met: one state and one choice of operands for each of its clauses. -/
theorem hypotheses_met_FaultFolding :
    (∃ (code i : Nat) (params : List Word) (s : State) (e : FaultEntry), s.cpx.faults[i]? = some e ∧ e.restored = false ∧ e.code = code
      ∧ e.params.getD 0 0 = params.getD 0 0 ∧ s.cpr.aonNs < e.bornNs + 1000000000 ∧ (∀ (j : Nat) (x : FaultEntry), j < i →
      s.cpx.faults[j]? = some x → x.restored = true ∨ x.code ≠ code ∨ x.params.getD 0 0 ≠ params.getD 0 0 ∨ x.bornNs + 1000000000 ≤
      s.cpr.aonNs)) ∧
    (∃ (code now : Nat) (params : List Word) (s t : State), stamp s = (now, t) ∧ (∀ x ∈ s.cpx.faults, x.restored = true ∨ x.code ≠ code
      ∨ x.params.getD 0 0 ≠ params.getD 0 0 ∨ x.bornNs + 1000000000 ≤ s.cpr.aonNs)) :=
  ⟨⟨0x6202, 0, [5], { up with cpx.faults := [{ FaultEntry.reset with code := 0x6202, params := [5] }], cpr.aonNs := 999999999 }, _, rfl, by decide, by decide, by decide, by decide, by simp⟩,
   ⟨0x6202, _, [5], { up with cpx.faults := [{ FaultEntry.reset with code := 0x6202, params := [5] }], cpr.aonNs := 1000000000 }, _, rfl, by decide⟩⟩

/-- The hypotheses of QueueLimits are met: one state and one choice of operands for each of its clauses. -/
theorem hypotheses_met_QueueLimits :
    (∃ (f : Frame) (s : State), f.service < 4 ∧ [64, 256, 4096, 1024].getD f.service 0 ≤ legDepth s f.leg f.service) ∧
    (∃ (f : Frame) (s : State), f.service < 4 ∧ f.port < 15 ∧ legDepth s f.leg f.service < [64, 256, 4096, 1024].getD f.service 0) ∧
    (∃ (f : Frame) (s : State) (leg service : Nat), f.service < 4 ∧ f.port < 15 ∧ service < 4 ∧ legDepth s leg service ≤ [64, 256, 4096,
      1024].getD service 0) :=
  ⟨⟨frame, { up with tsh.queues := [(qKey 1 0 0, ⟨List.replicate 64 frame, 0⟩)] }, by decide⟩,
   ⟨frame, { up with tsh.queues := [(qKey 1 0 0, ⟨List.replicate 63 frame, 0⟩)] }, by decide⟩,
   ⟨frame, { up with tsh.queues := [(qKey 1 0 0, ⟨List.replicate 64 frame, 0⟩)] }, 1, 0, by decide⟩⟩

end Sys2Proof.Tests
end

/-!
PROOFS. The buffer pools: what an allocation lowers, and when it finds a buffer (03 R82, R83).
-/

namespace Sys2Proof.Machine

/-- Reading a pool after one pool was modified: it is as it was, or it is the modified one. -/
theorem poolOf_of_pools_modify {s t : State} {p : Nat} {f : Pool → Pool} (h : t.bpm.pools = s.bpm.pools.modify p f) (q : Nat) :
    poolOf t q = poolOf s q ∨ q = p ∧ poolOf t q = f (poolOf s q) := by
  simp only [poolOf, h, List.getD_eq_getElem?_getD, List.getElem?_modify]
  by_cases hq : p = q
  · cases s.bpm.pools[q]? with
    | none => exact .inl rfl
    | some x => exact .inr ⟨hq.symm, by simp [hq]⟩
  · exact .inl (by simp [hq])

/-- An allocation lowers the free count only of a pool that serves it, and there by one (R82, R83). -/
theorem bufAlloc_lowers_free {n limit refs p : Nat} {urgent : Bool} {s : State}
    (h : (poolOf (bufAlloc n urgent limit refs s).2 p).free < (poolOf s p).free) :
    poolServes (poolOf s p) urgent = true ∧ (poolOf (bufAlloc n urgent limit refs s).2 p).free = (poolOf s p).free - 1 := by
  obtain ⟨-, hnone⟩ | ⟨q, k, -, -, -, hserves, -, -, -, hpools, -⟩ := bufAlloc_cases n urgent limit refs s
  · obtain hsame | ⟨-, hcounted⟩ := poolOf_of_pools_modify (s := s) (congrArg (·.2.bpm.pools) hnone) p
    · exact absurd h (by rw [hsame]; exact lt_irrefl _)
    · exact absurd h (by rw [hcounted]; exact lt_irrefl _)
  · obtain hsame | ⟨rfl, htaken⟩ := poolOf_of_pools_modify hpools p
    · exact absurd h (by rw [hsame]; exact lt_irrefl _)
    · exact ⟨hserves, by rw [htaken]; rfl⟩

/-- No pool whose buffers hold n bytes comes before the wanted one (R82). -/
theorem wantedPool_le {n p : Nat} (hp : p < 8) (hn : n ≤ poolSize p) : wantedPool n ≤ p := by
  unfold wantedPool
  cases h : (List.range 8).find? fun p => n ≤ poolSize p with
  | none => exact absurd hn (by simpa using List.find?_eq_none.mp h p (List.mem_range.mpr hp))
  | some w =>
    obtain ⟨-, -, hfirst⟩ := List.find?_range_eq_some.mp h
    exact Nat.le_of_not_lt fun hlt => absurd hn (by simpa using hfirst p hlt)

/-- An allocation finds a buffer where some pool that fits, up to the limit, serves it (R82). -/
theorem bufAlloc_isSome_of_poolServes {n limit p : Nat} {urgent : Bool} {s : State} (refs : Nat) (hp : p < 8) (hlimit : p ≤ limit)
    (hn : n ≤ poolSize p) (hserves : poolServes (poolOf s p) urgent = true) : (bufAlloc n urgent limit refs s).1.isSome = true := by
  obtain ⟨hnobody, -⟩ | ⟨_, k, -, -, -, -, -, hsome, -⟩ := bufAlloc_cases n urgent limit refs s
  · exact absurd hserves (by simp [hnobody p hp (wantedPool_le hp hn) hlimit])
  · rw [hsome]; rfl

/-- Settles O51: an allocation takes one buffer, and only of a pool that serves it, so one that may not draw on the reserve leaves
it whole; one that may is served by any pool that fits and has a free buffer (R82, R83). -/
theorem poolReserve : Obligations.PoolReserve := by
  refine ⟨fun n limit refs p s _ hlower => ?_, fun n limit refs p s hp hlimit hn hfree => ?_⟩
  · obtain ⟨hserves, htaken⟩ := bufAlloc_lowers_free hlower
    have habove : (poolOf s p).count / 16 < (poolOf s p).free := by simpa [poolServes] using hserves
    omega
  · have hserves : poolServes (poolOf s p) true = true := by simpa [poolServes] using hfree
    exact bufAlloc_isSome_of_poolServes refs hp hlimit hn hserves

end Sys2Proof.Machine

/-!
PROOFS. FlexFEC generation of an entry: what one protected packet does, within a run, at its end and while the share is 0 (09 R239,
R240).
-/

namespace Sys2Proof.Machine

/-! ### Changes of an entry -/

/-- A table that does not hold a key is left as it is by a change at that key. -/
theorem tmod_of_tget_eq_none {α : Type} {t : Tbl α} {n : Nat} (f : α → α) (h : tget t n = none) : tmod t n f = t := by
  induction t with
  | nil => rfl
  | cons e t ih =>
    obtain ⟨k, a⟩ := e
    by_cases hk : k = n
    · simp [tget, hk] at h
    · have htail : tmod t n f = t := ih (by simpa [tget, hk] using h)
      simpa [tmod, hk] using htail

/-- Two changes at the same key are one. -/
theorem tmod_tmod {α : Type} (t : Tbl α) (n : Nat) (f g : α → α) : tmod (tmod t n f) n g = tmod t n (g ∘ f) := by
  unfold tmod
  rw [List.map_map]
  refine List.map_congr_left fun e _ => ?_
  by_cases hk : e.1 = n <;> simp [hk]

theorem modEntry_of_tget_eq_none {i : Nat} {s : State} (g : Entry → Entry) (h : tget s.fwe.ledger i = none) : modEntry i g s = s := by
  simp only [modEntry, tmod_of_tget_eq_none g h]

theorem modEntry_modEntry (i : Nat) (g g' : Entry → Entry) (s : State) : modEntry i g' (modEntry i g s) = modEntry i (g' ∘ g) s := by
  simp only [modEntry, tmod_tmod]

theorem tget_modEntry_self {i : Nat} {s : State} {e : Entry} (g : Entry → Entry) (h : tget s.fwe.ledger i = some e) :
    tget (modEntry i g s).fwe.ledger i = some (g e) := by
  simp [tget_tmod, h]

/-- Where no buffer can be had, what was to be sent is dropped and counted for the leg (R82). -/
theorem withBuf_none {leg bytes service : Nat} {s u : State} {k : Nat → State → State}
    (h : bufAlloc bytes (decide (service ≤ 1)) 4 1 s = (none, u)) : withBuf leg bytes service s k = legDrops leg 1 u := by
  simp only [withBuf, h, legDrops]

theorem withBuf_some {leg bytes service b : Nat} {s u : State} {k : Nat → State → State}
    (h : bufAlloc bytes (decide (service ≤ 1)) 4 1 s = (some b, u)) : withBuf leg bytes service s k = k b u := by
  simp only [withBuf, h]

/-! ### One protected packet -/

/-- An entry at the start of a run. -/
def fecRunCleared (e : Entry) : Entry := { e with fecRun := 0, fecLen := 0 }

/-- An entry after one more protected packet of its run, with the longest packet so far. -/
def fecRunCounted (longest : Nat) (e : Entry) : Entry := { e with fecRun := e.fecRun + 1, fecLen := longest }

theorem fecRunCleared_comp_self : fecRunCleared ∘ fecRunCleared = fecRunCleared := rfl

/-- While the share is 0, a packet clears the run and does nothing else, whether or not the ledger holds the entry. -/
theorem fecStep_of_share_zero {dest : Nat} {s : State} (i len : Nat) (f : Frame)
    (hshare : ((tget s.lgv.legs dest).map (·.fecPc)).getD 0 = 0) : fecStep i dest len f s = modEntry i fecRunCleared s := by
  unfold fecStep
  cases he : tget s.fwe.ledger i with
  | none => exact (modEntry_of_tget_eq_none _ he).symm
  | some e =>
    simp only [hshare, or_true, if_true]
    rfl

section
variable {i dest pc : Nat} {s : State} {e : Entry} (hentry : tget s.fwe.ledger i = some e) (hfec : e.fec = true)
  (hpc : pc = ((tget s.lgv.legs dest).map (·.fecPc)).getD 0) (hpos : pc ≠ 0)
include hentry hfec hpc hpos

/-- Before the last packet of a run, a packet is counted and does nothing else. -/
theorem fecStep_within_run (len : Nat) (f : Frame) (hrun : e.fecRun + 1 < max 2 ((100 - pc) / pc)) :
    fecStep i dest len f s = modEntry i (fecRunCounted (max e.fecLen len)) s := by
  have hoff : ¬ ((!e.fec) = true ∨ pc = 0) := by simp [hfec, hpos]
  simp only [fecStep, hentry, ← hpc, if_neg hoff, if_pos hrun]
  rfl

/-- The last packet of a run starts a new one and, where the leg has a key, asks for a buffer for the repair packet. -/
theorem fecStep_ends_run {len k extra : Nat} {f : Frame} {t : State} {x : Stream} (hrun : ¬ e.fecRun + 1 < max 2 ((100 - pc) / pc))
    (hx : x = (tget s.fwe.streams e.source).getD Stream.reset)
    (hkey : egressProtect dest x.fecSsrc 0 false (max e.fecLen len + 20) (modEntry i fecRunCleared s) = (some (k, extra), t)) :
    fecStep i dest len f s = withBuf dest (max e.fecLen len + 20 + extra) f.service t fun b u =>
      queueUdp { f with proto := .fec, ssrc := x.fecSsrc, pt := x.fecPt, buf := some b, slot := some k }
        (((tget t.fwe.legs dest).map (·.ipv6)).getD false) (max e.fecLen len + 20 + extra) u := by
  have hoff : ¬ ((!e.fec) = true ∨ pc = 0) := by simp [hfec, hpos]
  unfold fecRunCleared at hkey
  subst hx
  simp only [fecStep, hentry, ← hpc, if_neg hoff, if_neg hrun, hkey]

end

/-! ### Runs -/

/-- Packets that do not reach the end of a run are counted in the entry, the longest is kept, and nothing is sent. -/
theorem foldl_fecStep_within_run {i dest pc : Nat} (f : Frame) (lens : List Nat) (hpos : pc ≠ 0) {s : State} {e : Entry}
    (hentry : tget s.fwe.ledger i = some e) (hfec : e.fec = true) (hpc : pc = ((tget s.lgv.legs dest).map (·.fecPc)).getD 0)
    (hrun : e.fecRun + lens.length < max 2 ((100 - pc) / pc)) :
    tget (lens.foldl (fun s n => fecStep i dest n f s) s).fwe.ledger i =
      some { e with fecRun := e.fecRun + lens.length, fecLen := lens.foldl max e.fecLen } ∧
    (lens.foldl (fun s n => fecStep i dest n f s) s).tsh = s.tsh ∧
    (lens.foldl (fun s n => fecStep i dest n f s) s).cpe = s.cpe ∧
    (lens.foldl (fun s n => fecStep i dest n f s) s).out = s.out := by
  induction lens generalizing s e with
  | nil => exact ⟨hentry, rfl, rfl, rfl⟩
  | cons n ns ih =>
    rw [List.length_cons, Nat.add_comm ns.length, ← Nat.add_assoc] at hrun ⊢
    rw [List.foldl_cons, fecStep_within_run hentry hfec hpc hpos n f (by omega)]
    exact ih (tget_modEntry_self _ hentry) hfec hpc hrun

/-- Once a run is cleared, further packets leave the state as it is while the share is 0. -/
theorem foldl_fecStep_of_share_zero {dest : Nat} {s : State} (i : Nat) (f : Frame) (lens : List Nat)
    (hshare : ((tget s.lgv.legs dest).map (·.fecPc)).getD 0 = 0) :
    lens.foldl (fun s n => fecStep i dest n f s) (modEntry i fecRunCleared s) = modEntry i fecRunCleared s := by
  induction lens with
  | nil => rfl
  | cons n ns ih =>
    rw [List.foldl_cons, fecStep_of_share_zero (s := modEntry i fecRunCleared s) i n f hshare, modEntry_modEntry, fecRunCleared_comp_self]
    exact ih

/-- Settles O52: by induction on the packets, a run only counts them until its last, which clears it and sends the one repair packet
where a buffer can be had; with the share at 0 the first packet clears the run and the others find it cleared (R82, R239, R240). -/
theorem fecRuns : Obligations.FecRuns := by
  refine ⟨?within, ?ends, ?stopped⟩
  case within =>
    intro i dest pc m f lens s e hentry hfec hpc hpos hm hrun
    exact foldl_fecStep_within_run f lens hpos hentry hfec hpc (hm ▸ hrun)
  case ends =>
    intro i dest len pc m k extra f s t e x hentry hfec hpc hpos hm hlast hx hkey
    have hstep := fecStep_ends_run (f := f) hentry hfec hpc hpos (by omega) hx hkey
    exact ⟨fun b u hbuf => hstep.trans (withBuf_some hbuf), fun u hbuf => hstep.trans (withBuf_none hbuf)⟩
  case stopped =>
    intro i dest f lens s hne hshare
    obtain ⟨n, ns, rfl⟩ := List.exists_cons_of_ne_nil hne
    rw [List.foldl_cons, fecStep_of_share_zero i n f hshare]
    exact foldl_fecStep_of_share_zero i f ns hshare

end Sys2Proof.Machine

/-!
PROOFS. Retraining pauses: what serving the channels' queues leaves of a channel, what the result of a pause does, and a row of discarded
pauses (10 R261, R262).
-/

namespace Sys2Proof.Machine

/-! ### Changes of a channel -/

theorem chanOf_of_chans {s t : State} (h : t.mss.chans = s.mss.chans) (k : Nat) : chanOf t k = chanOf s k := by
  simp only [chanOf, h]

theorem chanOf_modChan_self {ch : Nat} {s : State} (f : MemCh → MemCh) (h : ch < s.mss.chans.length) :
    chanOf (modChan ch f s) ch = f (chanOf s ch) := by
  simp [chanOf, h]

/-- What a change of a channel leaves alone in that channel, it leaves alone in every channel. -/
theorem chanOf_modChan_field {α : Type} (g : MemCh → α) {f : MemCh → MemCh} (hf : ∀ c, g (f c) = g c) (ch k : Nat) (s : State) :
    g (chanOf (modChan ch f s) k) = g (chanOf s k) := by
  simp only [chanOf, modChan_mss, List.getD_eq_getElem?_getD, List.getElem?_modify]
  by_cases hk : ch = k
  · cases s.mss.chans[k]? <;> simp [hk, hf]
  · simp [hk]

/-! ### Serving the queues takes no channel out of service -/

/-- Every channel is in service in t as it is in s. -/
structure ServiceKept (s t : State) : Prop where
  inService (k : Nat) : (chanOf t k).inService = (chanOf s k).inService

theorem ServiceKept.refl (s : State) : ServiceKept s s := ⟨fun _ => rfl⟩

theorem ServiceKept.trans {s t u : State} (h : ServiceKept s t) (k : ServiceKept t u) : ServiceKept s u :=
  ⟨fun c => (k.inService c).trans (h.inService c)⟩

theorem ServiceKept.of_chans {s t : State} (h : t.mss.chans = s.mss.chans) : ServiceKept s t :=
  ⟨fun k => congrArg MemCh.inService (chanOf_of_chans h k)⟩

theorem SendsOnly.serviceKept {s t : State} (h : SendsOnly s t) : ServiceKept s t := .of_chans (congrArg Mss.chans h.mss)

theorem modChan_serviceKept {f : MemCh → MemCh} (hf : ∀ c, (f c).inService = c.inService) (ch : Nat) (s : State) :
    ServiceKept s (modChan ch f s) :=
  ⟨fun k => chanOf_modChan_field MemCh.inService hf ch k s⟩

theorem foldl_serviceKept {α : Type} (f : State → α → State) (h : ∀ s a, ServiceKept s (f s a)) (l : List α) (s : State) :
    ServiceKept s (l.foldl f s) :=
  List.foldlRecOn l f (motive := ServiceKept s) (ServiceKept.refl s) fun _ hb a _ => hb.trans (h _ a)

theorem portWrite_chans (r : FabReq) (a : Nat) (bs : List Byte) (s : State) : (portWrite r a bs s).mss.chans = s.mss.chans := by
  induction bs generalizing a s with
  | nil => rfl
  | cons b bs ih => exact ih ..

theorem portRead_mss (master target a n : Nat) (s : State) : (portRead master target a n s).2.mss = s.mss := by
  induction n generalizing a s with
  | zero => rfl
  | succ n ih =>
    unfold portRead
    split
    rename_i v t h
    have ht : t.mss = s.mss := by
      split at h
      · split at h <;> cases h <;> rfl
      · cases h
        rfl
    exact (ih ..).trans ht

theorem recordRequest_chans (r : FabReq) (s : State) : (recordRequest r s).mss.chans = s.mss.chans := by
  have hbursts : ((linesOf r.addr (reqBytes r)).foldl
      (fun s l => recordBurst (reqClass r) (channelOf (64 * l)) (lineBytes r l) s) s).mss.chans = s.mss.chans :=
    List.foldlRecOn _ _ (motive := fun t : State => t.mss.chans = s.mss.chans) rfl fun _ hb _ _ => hb
  unfold recordRequest
  dsimp only
  split <;> exact hbursts

theorem readLine_serviceKept (bad : List (List Nat)) (line : Nat) (s : State) : ServiceKept s (readLine bad line s).2 := by
  unfold readLine
  dsimp only
  split
  · exact .refl s
  · split
    · exact modChan_serviceKept (fun _ => by rfl) ..
    · exact (modChan_serviceKept (fun _ => by rfl) (channelOf (64 * line)) s).trans (fault_sends ..).serviceKept

theorem readLines_serviceKept (bad : List (List Nat)) (ls : List Nat) (s : State) : ServiceKept s (readLines bad ls s).2 := by
  induction ls generalizing s with
  | nil => exact .refl s
  | cons l ls ih => exact (readLine_serviceKept ..).trans (ih _)

theorem readTarget_serviceKept (r : FabReq) (s : State) : ServiceKept s (readTarget r s).2.2 := by
  unfold readTarget
  split
  · exact (ServiceKept.of_chans (recordRequest_chans r s)).trans (readLines_serviceKept ..)
  · exact .of_chans (congrArg Mss.chans (portRead_mss ..))

theorem writeTarget_chans (r : FabReq) (s : State) : (writeTarget r s).mss.chans = s.mss.chans := by
  unfold writeTarget
  split
  · exact recordRequest_chans r s
  · exact portWrite_chans ..

theorem performRequest_serviceKept (r : FabReq) (s : State) : ServiceKept s (performRequest r s) := by
  unfold performRequest
  split
  · exact .of_chans (writeTarget_chans r s)
  · have hread := readTarget_serviceKept r s
    dsimp only
    split
    · exact hread.trans ((emit_sends ..).serviceKept.trans (coreLoadPoisoned_sends ..).serviceKept)
    · exact hread.trans (emit_sends ..).serviceKept

theorem serveRequest_serviceKept (x : HeldReq) (s : State) : ServiceKept s (serveRequest x s) := by
  unfold serveRequest
  dsimp only
  split
  · split <;> exact .of_chans rfl
  · split
    · exact .of_chans rfl
    · split
      · split
        · exact modChan_serviceKept (fun _ => by rfl) ..
        · exact .of_chans rfl
      · exact performRequest_serviceKept ..

theorem settleChannel_serviceKept (ch : Nat) (s : State) : ServiceKept s (settleChannel ch s) := by
  unfold settleChannel
  split
  · exact .refl s
  · exact (modChan_serviceKept (fun _ => by rfl) ch s).trans (foldl_serviceKept _ (fun s r => performRequest_serviceKept r s) ..)

theorem releaseBehind_serviceKept (s : State) : ServiceKept s (releaseBehind s) := by
  unfold releaseBehind
  refine foldl_serviceKept _ (fun s x => ?_) ..
  refine (ServiceKept.of_chans ?_).trans (serveRequest_serviceKept x _)
  rfl

theorem settleChannels_serviceKept (s : State) : ServiceKept s (settleChannels s) :=
  (foldl_serviceKept _ (fun s ch => settleChannel_serviceKept ch s) ..).trans (releaseBehind_serviceKept _)

/-! ### The start of a pause -/

/-- Time that passes touches the time base and the always-on count alone. -/
theorem advanceTo_frame (t : Nat) (s : State) : advanceTo t s = { s with tsu := (advanceTo t s).tsu, cpr := (advanceTo t s).cpr } := by
  unfold advanceTo runSlew setIncrement
  dsimp only
  split_ifs <;> rfl

@[simp] theorem advanceTo_mss (t : Nat) (s : State) : (advanceTo t s).mss = s.mss := by rw [advanceTo_frame]

@[simp] theorem advanceTo_cpx (t : Nat) (s : State) : (advanceTo t s).cpx = s.cpx := by rw [advanceTo_frame]

theorem settleChannels_advanceTo_length (t : Nat) (s : State) :
    (settleChannels (advanceTo t s)).mss.chans.length = s.mss.chans.length := by
  obtain ⟨-, -, -, hlength, -⟩ := settleChannels_kept (advanceTo t s)
  rw [hlength, advanceTo_mss]

theorem settleChannels_advanceTo_serviceKept (t : Nat) (s : State) : ServiceKept s (settleChannels (advanceTo t s)) :=
  (ServiceKept.of_chans (congrArg Mss.chans (advanceTo_mss t s))).trans (settleChannels_serviceKept _)

/-- With no request waiting, time passes and nothing is served. -/
theorem settleChannels_advanceTo_of_idle {s : State} (t : Nat) (hqueues : ∀ k, k < 16 → (chanOf s k).queue = [])
    (hbehind : s.mss.behind = []) : settleChannels (advanceTo t s) = advanceTo t s := by
  have hmss := advanceTo_mss t s
  refine settleChannels_idle _ (fun k hk => ?_) (by rw [hmss, hbehind])
  rw [chanOf_of_chans (congrArg Mss.chans hmss), hqueues k hk]

/-- A channel's pause begins at t: its slot and its end are set. -/
def pauseBegun (ch slot t : Nat) (a : State) : State :=
  modChan ch (fun c => { c with lastSlot := some slot, openNs := t + 600 }) { a with mss.pauseEnd := t + 600, mss.pauseCh := ch }

@[simp] theorem pauseBegun_cpx (ch slot t : Nat) (a : State) : (pauseBegun ch slot t a).cpx = a.cpx := rfl

theorem pauseBegun_chans_length (ch slot t : Nat) (a : State) : (pauseBegun ch slot t a).mss.chans.length = a.mss.chans.length :=
  List.length_modify ..

theorem chanOf_pauseBegun_self {ch : Nat} {a : State} (slot t : Nat) (h : ch < a.mss.chans.length) :
    chanOf (pauseBegun ch slot t a) ch = { chanOf a ch with lastSlot := some slot, openNs := t + 600 } :=
  chanOf_modChan_self (s := { a with mss.pauseEnd := t + 600, mss.pauseCh := ch }) _ h

theorem chanOf_pauseBegun_queue (ch slot t k : Nat) (a : State) : (chanOf (pauseBegun ch slot t a) k).queue = (chanOf a k).queue :=
  chanOf_modChan_field MemCh.queue (fun _ => by rfl) ch k { a with mss.pauseEnd := t + 600, mss.pauseCh := ch }

/-- A pause of a channel in service begins at its start, when what waited has been served, and its result is judged. -/
theorem exec_retrainingPause {ch : Nat} {s : State} (ok : Bool) (hch : ch < 16) (hservice : (chanOf s ch).inService = true)
    (hself : (chanOf s ch).selfRef = false) :
    exec (.retrainingPause ch ok) s = .next (pauseResult ch ok (pauseBegun ch (pauseSlot s ch) (pauseStart s ch)
      (settleChannels (advanceTo (pauseStart s ch * 65536) s)))) := by
  have hruns : ¬ (16 ≤ ch ∨ (!(chanOf s ch).inService) = true ∨ (chanOf s ch).selfRef = true) := by simp [hch, hservice, hself]
  exact if_neg hruns

/-! ### The result of a pause -/

/-- The discarded pauses in a row once the result of a pause is known. -/
def pauseRow (ok : Bool) (c : MemCh) : Nat := if ok then 0 else c.discRow + 1

/-- A channel once the result of its pause is counted. -/
def pauseCounted (doubled ok : Bool) (row : Nat) (c : MemCh) : MemCh :=
  { c with doubled, pauses := inc32 c.pauses, discards := if ok then c.discards else inc32 c.discards, discRow := if 3 ≤ row then 0 else row }

theorem pauseCounted_passed_discRow (doubled : Bool) (c c' : MemCh) : (pauseCounted doubled true (pauseRow true c) c').discRow = 0 := rfl

/-- The state once the result of a channel's pause is counted, before any fault. -/
def pauseJudged (ch : Nat) (ok : Bool) (s : State) : State :=
  modChan ch (pauseCounted (decide ((drawBelow 2 s).1 = 1)) ok (pauseRow ok (chanOf s ch))) (drawBelow 2 s).2

/-- Beyond the counts, the result of a pause raises a fault only when it is the third discarded one in a row. -/
theorem pauseResult_eq (ch : Nat) (ok : Bool) (s : State) : pauseResult ch ok s =
    if 3 ≤ pauseRow ok (chanOf s ch) then fault 0x6202 [w32 ch] (pauseJudged ch ok s) else pauseJudged ch ok s := rfl

theorem chanOf_pauseJudged {ch : Nat} {s : State} (ok : Bool) (h : ch < s.mss.chans.length) :
    chanOf (pauseJudged ch ok s) ch =
      pauseCounted (decide ((drawBelow 2 s).1 = 1)) ok (pauseRow ok (chanOf s ch)) (chanOf s ch) :=
  chanOf_modChan_self (s := (drawBelow 2 s).2) _ h

@[simp] theorem pauseJudged_cpx (ch : Nat) (ok : Bool) (s : State) : (pauseJudged ch ok s).cpx = s.cpx := rfl

theorem chanOf_pauseJudged_queue (ch k : Nat) (ok : Bool) (s : State) : (chanOf (pauseJudged ch ok s) k).queue = (chanOf s k).queue :=
  chanOf_modChan_field MemCh.queue (fun _ => by rfl) ch k (drawBelow 2 s).2

/-- The fault leaves the memory system alone. -/
theorem pauseResult_mss (ch : Nat) (ok : Bool) (s : State) : (pauseResult ch ok s).mss = (pauseJudged ch ok s).mss := by
  rw [pauseResult_eq]
  split
  · exact (fault_sends ..).mss
  · rfl

/-- A channel after its pause: as the pause began, with its slot, its end and its counts. -/
theorem chanOf_pauseResult_pauseBegun {ch : Nat} {a : State} (ok : Bool) (slot t : Nat) (h : ch < a.mss.chans.length) :
    ∃ d, chanOf (pauseResult ch ok (pauseBegun ch slot t a)) ch =
      pauseCounted d ok (pauseRow ok (chanOf a ch)) { chanOf a ch with lastSlot := some slot, openNs := t + 600 } := by
  rw [chanOf_of_chans (congrArg Mss.chans (pauseResult_mss ..)), chanOf_pauseJudged ok (by rwa [pauseBegun_chans_length]),
    chanOf_pauseBegun_self slot t h]
  exact ⟨_, rfl⟩

/-- The channel after its pause, from the state a in which the pause begins. -/
theorem exec_retrainingPause_chanOf {ch : Nat} {s a : State} (ok : Bool) (hch : ch < 16) (hlength : s.mss.chans.length = 16)
    (hservice : (chanOf s ch).inService = true) (hself : (chanOf s ch).selfRef = false)
    (ha : a = settleChannels (advanceTo (pauseStart s ch * 65536) s)) :
    ∃ t d, exec (.retrainingPause ch ok) s = .next t ∧ chanOf t ch = pauseCounted d ok (pauseRow ok (chanOf a ch))
      { chanOf a ch with lastSlot := some (pauseSlot s ch), openNs := pauseStart s ch + 600 } := by
  obtain ⟨d, hchan⟩ := chanOf_pauseResult_pauseBegun ok (pauseSlot s ch) (pauseStart s ch)
    (show ch < a.mss.chans.length by rwa [ha, settleChannels_advanceTo_length, hlength])
  exact ⟨_, d, ha ▸ exec_retrainingPause ok hch hservice hself, hchan⟩

/-! ### Discarded pauses in a row -/

/-- A channel in service after a row of discarded pauses, with no request waiting. -/
structure PauseReady (ch row : Nat) (s : State) : Prop where
  inRange : ch < 16
  channels : s.mss.chans.length = 16
  inService : (chanOf s ch).inService = true
  awake : (chanOf s ch).selfRef = false
  discRow : (chanOf s ch).discRow = row
  queues : ∀ k, k < 16 → (chanOf s k).queue = []
  behind : s.mss.behind = []

theorem PauseReady.in_chans {ch row : Nat} {s : State} (h : PauseReady ch row s) : ch < s.mss.chans.length :=
  h.channels ▸ h.inRange

/-- Readiness for a pause rests on the memory system alone. -/
theorem PauseReady.of_mss {ch row : Nat} {s t : State} (h : PauseReady ch row s) (hmss : t.mss = s.mss) : PauseReady ch row t := by
  have hchan := chanOf_of_chans (congrArg Mss.chans hmss)
  refine ⟨h.inRange, hmss ▸ h.channels, ?_, ?_, ?_, fun k hk => ?_, hmss ▸ h.behind⟩ <;> rw [hchan]
  exacts [h.inService, h.awake, h.discRow, h.queues k hk]

theorem PauseReady.begun {ch row : Nat} {s : State} (h : PauseReady ch row s) (slot t : Nat) :
    PauseReady ch row (pauseBegun ch slot t s) := by
  have hchan := chanOf_pauseBegun_self slot t h.in_chans
  refine ⟨h.inRange, (pauseBegun_chans_length ..).trans h.channels, ?service, ?awake, ?row,
    fun k hk => (chanOf_pauseBegun_queue ..).trans (h.queues k hk), h.behind⟩
  case service => rw [hchan]; exact h.inService
  case awake => rw [hchan]; exact h.awake
  case row => rw [hchan]; exact h.discRow

theorem PauseReady.discarded {ch row : Nat} {s : State} (h : PauseReady ch row s) :
    PauseReady ch (if 3 ≤ row + 1 then 0 else row + 1) (pauseJudged ch false s) := by
  have hchan := chanOf_pauseJudged false h.in_chans
  refine ⟨h.inRange, (List.length_modify ..).trans h.channels, ?service, ?awake, ?row,
    fun k hk => (chanOf_pauseJudged_queue ..).trans (h.queues k hk), h.behind⟩
  case service => rw [hchan]; exact h.inService
  case awake => rw [hchan]; exact h.awake
  case row => rw [hchan, ← h.discRow]; rfl

/-- A failed pause lengthens the row, and where that makes three it raises the fault; beyond that the log of faults stands. -/
theorem PauseReady.exec_failed {ch row : Nat} {s : State} (h : PauseReady ch row s) :
    ∃ w, exec (.retrainingPause ch false) s = .next (if 3 ≤ row + 1 then fault 0x6202 [w32 ch] w else w) ∧
      w.cpx.faults = s.cpx.faults ∧ PauseReady ch (if 3 ≤ row + 1 then 0 else row + 1) w := by
  have hbegun := (h.of_mss (advanceTo_mss (pauseStart s ch * 65536) s)).begun (pauseSlot s ch) (pauseStart s ch)
  refine ⟨_, ?_, by simp, hbegun.discarded⟩
  rw [exec_retrainingPause false h.inRange h.inService h.awake, settleChannels_advanceTo_of_idle _ h.queues h.behind, pauseResult_eq,
    show pauseRow false _ = row + 1 from congrArg (· + 1) hbegun.discRow]

/-- Settles O53: a pause is its result judged on the channel as the pause begins, and serving what waited takes no channel out of service;
from a row of none, two failed pauses only lengthen the row and the third raises the fault (R261, R262). -/
theorem retrainingDiscards : Obligations.RetrainingDiscards := by
  refine ⟨?discarded, ?passed, ?threeInARow⟩
  case discarded =>
    intro ch s a hch hlength hservice hself ha
    exact exec_retrainingPause_chanOf false hch hlength hservice hself ha
  case passed =>
    intro ch s hch hlength hservice hself
    obtain ⟨a, ha⟩ : ∃ a, a = settleChannels (advanceTo (pauseStart s ch * 65536) s) := ⟨_, rfl⟩
    have hkept : (chanOf a ch).inService = true := by rw [ha, (settleChannels_advanceTo_serviceKept ..).inService, hservice]
    obtain ⟨t, d, hexec, hchan⟩ := exec_retrainingPause_chanOf true hch hlength hservice hself ha
    exact ⟨t, hexec, by rw [hchan, pauseCounted_passed_discRow], by rw [hchan]; exact hkept⟩
  case threeInARow =>
    intro ch s hch hlength hservice hself hrow hqueues hbehind
    have hready : PauseReady ch 0 s := ⟨hch, hlength, hservice, hself, hrow, hqueues, hbehind⟩
    obtain ⟨t, hfirst, htfaults, hone⟩ := hready.exec_failed
    obtain ⟨u, hsecond, hufaults, htwo⟩ := hone.exec_failed
    obtain ⟨w, hthird, hwfaults, hagain⟩ := htwo.exec_failed
    have hu : u.cpx.faults = s.cpx.faults := hufaults.trans htfaults
    exact ⟨t, u, _, w, hfirst, hsecond, hthird, htfaults, hu, rfl, hwfaults.trans hu,
      ((fault_sends ..).serviceKept.inService ch).trans hagain.inService⟩

end Sys2Proof.Machine

/-!
PROOFS. The limits of a leg's service queues: what the arrival of a frame leaves of every queue, and the count of a leg's frames over all
ports (15 R387). That the limit counts a leg's service over all ports together is the model's reading (log 23).
-/

namespace Sys2Proof.Machine

theorem SendsOnly.tsh {s t : State} (h : SendsOnly s t) : t.tsh = s.tsh := by rw [h]

@[simp] theorem bufSetRefs_tsh (k n : Nat) (s : State) : (bufSetRefs k n s).tsh = s.tsh := by
  unfold bufSetRefs
  split
  · rfl
  · split <;> rfl

@[simp] theorem bufRelease_tsh (k : Nat) (s : State) : (bufRelease k s).tsh = s.tsh := by
  unfold bufRelease
  split
  · split
    · exact (fault_sends ..).tsh
    · exact bufSetRefs_tsh ..
  · exact (fault_sends ..).tsh

@[simp] theorem bufReleaseOpt_tsh (k : Option Nat) (s : State) : (bufReleaseOpt k s).tsh = s.tsh := by
  cases k with
  | none => rfl
  | some k => exact bufRelease_tsh k s

@[simp] theorem modStats_queues (leg service port : Nat) (f : QStat → QStat) (s : State) :
    (modStats leg service port f s).tsh.queues = s.tsh.queues := rfl

/-- The count of a leg's frames rests on the queues alone. -/
theorem legDepth_of_queues {s t : State} (h : t.tsh.queues = s.tsh.queues) (leg service : Nat) :
    legDepth t leg service = legDepth s leg service := by
  simp only [legDepth, frameQ, h]

theorem legDepth_eq_sum (s : State) (leg service : Nat) :
    legDepth s leg service = ∑ p ∈ Finset.range 15, (frameQ s (qKey leg service p)).frames.length := rfl

section
variable {f : Frame} {s : State}

theorem queueFrame_of_full (h : queueLimit f.service ≤ legDepth s f.leg f.service) : queueFrame f s =
    bufReleaseOpt f.buf (modStats f.leg f.service f.port (fun q => { q with overflow := inc16 q.overflow }) s) := by
  obtain ⟨-, hdropped⟩ | ⟨hroom, -⟩ := queueFrame_cases f s
  · exact hdropped
  · exact absurd h (Nat.not_le_of_lt hroom)

theorem queueFrame_of_room (h : legDepth s f.leg f.service < queueLimit f.service) : queueFrame f s =
    putQ (qKey f.leg f.service f.port)
      ((frameQ s (qKey f.leg f.service f.port)).frames ++ [{ f with queuedNs := s.cpr.aonNs, tags := portTags s f.port }])
      (frameQ s (qKey f.leg f.service f.port)).deficit s := by
  obtain ⟨hfull, -⟩ | ⟨-, hqueued⟩ := queueFrame_cases f s
  · exact absurd hfull (Nat.not_le_of_lt h)
  · exact hqueued

theorem queueFrame_queues_of_full (h : queueLimit f.service ≤ legDepth s f.leg f.service) :
    (queueFrame f s).tsh.queues = s.tsh.queues := by
  simp [queueFrame_of_full h]

theorem frameQ_queueFrame_self (h : legDepth s f.leg f.service < queueLimit f.service) :
    (frameQ (queueFrame f s) (qKey f.leg f.service f.port)).frames =
      (frameQ s (qKey f.leg f.service f.port)).frames ++ [{ f with queuedNs := s.cpr.aonNs, tags := portTags s f.port }] := by
  rw [queueFrame_of_room h, frameQ_putQ_self _ _ _ _ (by simp)]

theorem frameQ_queueFrame_ne {k : Nat} (h : legDepth s f.leg f.service < queueLimit f.service)
    (hk : k ≠ qKey f.leg f.service f.port) : frameQ (queueFrame f s) k = frameQ s k := by
  rw [queueFrame_of_room h, frameQ_putQ_ne _ _ _ _ _ hk]

/-- A frame queued lengthens the queue of its port alone. -/
theorem length_frameQ_queueFrame {p : Nat} (h : legDepth s f.leg f.service < queueLimit f.service) (hservice : f.service < 4)
    (hport : f.port < 15) (hp : p < 15) : (frameQ (queueFrame f s) (qKey f.leg f.service p)).frames.length =
      (frameQ s (qKey f.leg f.service p)).frames.length + if p = f.port then 1 else 0 := by
  by_cases hself : p = f.port
  · rw [hself, frameQ_queueFrame_self h]
    simp
  · rw [if_neg hself, frameQ_queueFrame_ne h fun hk => hself (qKey_inj hservice hservice (by omega) (by omega) hk).2.2]
    rfl

/-- A frame queued counts once at its leg's service. -/
theorem legDepth_queueFrame_self (h : legDepth s f.leg f.service < queueLimit f.service) (hservice : f.service < 4)
    (hport : f.port < 15) : legDepth (queueFrame f s) f.leg f.service = legDepth s f.leg f.service + 1 := by
  calc legDepth (queueFrame f s) f.leg f.service
      = ∑ p ∈ Finset.range 15, ((frameQ s (qKey f.leg f.service p)).frames.length + if p = f.port then 1 else 0) :=
        (legDepth_eq_sum ..).trans <| Finset.sum_congr rfl fun p hp => length_frameQ_queueFrame h hservice hport (Finset.mem_range.mp hp)
    _ = legDepth s f.leg f.service + 1 := by
        rw [Finset.sum_add_distrib, ← legDepth_eq_sum, Finset.sum_ite_eq', if_pos (Finset.mem_range.mpr hport)]

/-- A frame queued counts at no other service and at no other leg. -/
theorem legDepth_queueFrame_ne {leg service : Nat} (h : legDepth s f.leg f.service < queueLimit f.service) (hservice : f.service < 4)
    (hport : f.port < 15) (hservice' : service < 4) (hne : ¬ (leg = f.leg ∧ service = f.service)) :
    legDepth (queueFrame f s) leg service = legDepth s leg service := by
  rw [legDepth_eq_sum, legDepth_eq_sum]
  refine Finset.sum_congr rfl fun p hp => ?_
  have hp := Finset.mem_range.mp hp
  rw [frameQ_queueFrame_ne h fun hk => hne ?_]
  obtain ⟨hleg, hserv, -⟩ := qKey_inj hservice' hservice (by omega) (by omega) hk
  exact ⟨hleg, hserv⟩

/-- No arrival takes a leg's service beyond its limit (R387). -/
theorem legDepth_queueFrame_le {leg service : Nat} (hservice : f.service < 4) (hport : f.port < 15) (hservice' : service < 4)
    (h : legDepth s leg service ≤ queueLimit service) : legDepth (queueFrame f s) leg service ≤ queueLimit service := by
  by_cases hfull : queueLimit f.service ≤ legDepth s f.leg f.service
  · exact (legDepth_of_queues (queueFrame_queues_of_full hfull) ..).trans_le h
  · have hroom := Nat.lt_of_not_le hfull
    by_cases hown : leg = f.leg ∧ service = f.service
    · obtain ⟨rfl, rfl⟩ := hown
      exact (legDepth_queueFrame_self hroom hservice hport).trans_le hroom
    · exact (legDepth_queueFrame_ne hroom hservice hport hservice' hown).trans_le h

end

/-- Settles O59: a full queue's arrival is released and counted and touches no queue, an arrival with room is appended to one queue, and a
leg's count over its ports rises by one only where it was below the limit (R387). -/
theorem queueLimits : Obligations.QueueLimits := by
  refine ⟨?full, ?room, ?limit⟩
  case full => exact fun f s _ hfull => ⟨queueFrame_of_full hfull, queueFrame_queues_of_full hfull⟩
  case room =>
    exact fun f s _ _ hroom =>
      ⟨frameQ_queueFrame_self hroom, fun k hk => frameQ_queueFrame_ne hroom hk, by rw [queueFrame_of_room hroom, putQ_bpm]⟩
  case limit => exact fun f s leg service hservice hport hservice' h => legDepth_queueFrame_le hservice hport hservice' h

end Sys2Proof.Machine

/-!
PROOFS. The folding of faults: when a logged entry takes a fault, and what a fault does to an entry that takes it and to a log where none
does (20 R484). That an entry restored from a save takes none is the model's reading (log 46).
-/

namespace Sys2Proof.Machine

section

variable {code i : Nat} {params : List Word} {aonNs : Nat} {s : State} {e : FaultEntry}

theorem folds_iff : folds code params aonNs e = true ↔
    e.restored = false ∧ e.code = code ∧ e.params.getD 0 0 = params.getD 0 0 ∧ aonNs < e.bornNs + 1000000000 := by
  have hage : aonNs - e.bornNs < 1000000000 ↔ aonNs < e.bornNs + 1000000000 := by omega
  simp [folds, hage]

theorem folds_eq_false_iff : folds code params aonNs e = false ↔
    e.restored = true ∨ e.code ≠ code ∨ e.params.getD 0 0 ≠ params.getD 0 0 ∨ e.bornNs + 1000000000 ≤ aonNs := by
  rw [← Bool.not_eq_true, folds_iff]
  simp only [not_and_or, Bool.not_eq_false, not_lt, ne_eq]

/-- The place of the first entry that a fault folds into. -/
theorem findIdx_folds_eq {es : List FaultEntry} (he : es[i]? = some e) (hfolds : folds code params aonNs e = true)
    (hfirst : ∀ (j : Nat) (x : FaultEntry), j < i → es[j]? = some x → folds code params aonNs x = false) :
    es.findIdx (folds code params aonNs) = i := by
  obtain ⟨hi, rfl⟩ := List.getElem?_eq_some_iff.mp he
  exact (List.findIdx_eq hi).mpr ⟨hfolds, fun j hj => hfirst j _ hj (List.getElem?_eq_getElem (hj.trans hi))⟩

/-- The marks of the newest fault, of the module and of the owning subsystem, which a fault sets whether it folds or not. -/
def markFault (code : Nat) (s : State) : State :=
  { s with cpx.faultLast := code, cpx.hdrFault := s.cpx.hdrFault.set (code / 4096) code }

/-- An entry with one repeat more folded into it. -/
def FaultEntry.repeated (e : FaultEntry) : FaultEntry := { e with repeats := min (e.repeats + 1) 255 }

/-- The entry that a recoverable fault makes with the time of its capture. -/
def newFaultEntry (code : Nat) (params : List Word) (now : Nat) (s : State) : FaultEntry where
  timeNs := now
  code := code
  fatal := false
  restored := false
  unset := decide (s.tsu.state = .unset)
  repeats := 0
  number := (s.cpx.faultNum + 1) % 2 ^ 32
  params := params
  bornNs := s.cpr.aonNs

/-- A fault that a logged entry takes repeats that entry; the number, the outputs and every other entry stand. -/
theorem fault_of_folded (he : s.cpx.faults[i]? = some e) (hi : s.cpx.faults.findIdx (folds code params s.cpr.aonNs) = i) :
    fault code params s = { markFault code s with cpx.faults := s.cpx.faults.set i e.repeated } := by
  obtain ⟨hlt, rfl⟩ := List.getElem?_eq_some_iff.mp he
  have hset : s.cpx.faults.modify i FaultEntry.repeated = s.cpx.faults.set i s.cpx.faults[i].repeated := by
    rw [List.modify_eq_set_getElem?, List.getElem?_eq_getElem hlt]
    rfl
  rw [← hset]
  unfold fault raiseFault
  dsimp only
  rw [if_neg Bool.false_ne_true, hi, if_pos hlt]
  rfl

/-- A fault that no logged entry takes is logged as the newest entry, with the time of its capture, and its event is raised. -/
theorem fault_of_not_folded (hnone : ∀ x ∈ s.cpx.faults, folds code params s.cpr.aonNs x = false) :
    fault code params s = raiseEvent 0x8001 0 (faultWords (newFaultEntry code params (stamp s).1 s)) { markFault code (stamp s).2 with
      cpx.faultNum := (newFaultEntry code params (stamp s).1 s).number
      cpx.faults := (newFaultEntry code params (stamp s).1 s :: s.cpx.faults).take 1000 } := by
  have hend : s.cpx.faults.findIdx (folds code params s.cpr.aonNs) = s.cpx.faults.length := List.findIdx_eq_length.mpr hnone
  unfold fault raiseFault
  dsimp only
  rw [if_neg Bool.false_ne_true, hend, if_neg (lt_irrefl _)]
  rfl

end

/-- Settles O58: the first entry that a fault folds into is the one that takes it, and where none does the log and the event take a new
entry (R484). -/
theorem faultFolding : Obligations.FaultFolding := by
  refine ⟨?folded, ?fresh⟩
  case folded =>
    intro code i params s e he hrestored hcode hparam hage hfirst
    exact fault_of_folded he <| findIdx_folds_eq he (folds_iff.mpr ⟨hrestored, hcode, hparam, hage⟩)
      fun j x hj hx => folds_eq_false_iff.mpr (hfirst j x hj hx)
  case fresh =>
    intro code now params s t hstamp hnone
    obtain ⟨rfl, rfl⟩ := Prod.mk.inj hstamp
    exact ⟨newFaultEntry code params (stamp s).1 s, rfl, rfl, rfl, rfl, rfl, rfl,
      fault_of_not_folded fun x hx => folds_eq_false_iff.mpr (hnone x hx)⟩

end Sys2Proof.Machine

/-!
PROOFS. Commands that are not executed: the order of sequences, the limit of long operations, and what a refused or unaccepted command touches
(13 R329, R330, R333).
-/

namespace Sys2Proof.Machine

/-- Settles O50: n is the signed difference of the two sequences when it is below 2^31. -/
theorem serialNumberOrder : Obligations.SerialNumberOrder := by
  unfold Obligations.SerialNumberOrder
  refine ⟨fun l n hn => ?_, fun q => rfl⟩
  have hnext : l + BitVec.ofNat 32 n = l ↔ n = 0 := by
    constructor <;> intro h <;> bv_omega
  have hgap : l + BitVec.ofNat 32 n = l + 1 ↔ n = 1 := by
    constructor <;> intro h <;> bv_omega
  have hdiff : l + BitVec.ofNat 32 n - l = BitVec.ofNat 32 n := by bv_omega
  have hpos : n ≠ 0 → (0 < (BitVec.ofNat 32 n).toInt ↔ n < 2 ^ 31) := by
    intro h0
    rw [BitVec.toInt_eq_toNat_cond, BitVec.toNat_ofNat, Nat.mod_eq_of_lt hn]
    omega
  simp only [seqCase, hnext, hdiff, ne_eq, hgap]
  by_cases h0 : n = 0
  · simp [h0]
  · simp only [h0, if_false, hpos h0]

theorem takeCredit_sends (qi : Nat) (s : State) : SendsOnly s (takeCredit qi s) := by
  unfold takeCredit
  split <;> rfl

theorem begun_sends (c : Cmd) (s : State) : SendsOnly s (begun c s) := by
  unfold begun
  split
  · exact (takeCredit_sends ..).trans (modQueue_sends ..)
  · rfl

/-- Settles O49: the long operation's own checks pass, so the limit alone decides. -/
theorem longOperationLimit : Obligations.LongOperationLimit := by
  unfold Obligations.LongOperationLimit
  intro op lens c body s u key h hb
  refine ⟨fun hl => ?_, serve_accepted h hb⟩
  have heq : serve op lens c s body = finish c op .resourceBusy [] (begun c s) := by
    obtain ⟨hh, hd⟩ := start_ready h
    rw [serve_begun body h]
    simp only [start, hh, hb, if_neg hd, if_pos hl]
  exact ⟨heq, heq ▸ (begun_sends c s).trans (finish_sends ..)⟩

theorem enqueue_sends (op : Nat) (c : Cmd) (r : Option Status) (s : State) : SendsOnly s (enqueue op c r s) := by
  unfold enqueue
  split <;> exact modQueue_sends ..

theorem repeatReply_sends (c : Cmd) (s : State) : SendsOnly s (repeatReply c s) := by
  unfold repeatReply
  dsimp only
  split
  · split
    · exact (modQueue_sends ..).trans ((reply_sends ..).trans (modQueue_sends ..))
    · exact (modQueue_sends ..).trans (returnCredit_sends ..)
  · exact (modQueue_sends ..).trans (returnCredit_sends ..)

theorem acceptSeq_sends (c : Cmd) (gap : Bool) (s : State) : SendsOnly s (acceptSeq c gap s) := modQueue_sends ..

theorem arrive_sends (op : Nat) (c : Cmd) (s : State) : SendsOnly s (arrive op c s) := by
  unfold arrive
  split
  · exact enqueue_sends ..
  · split
    · exact (acceptSeq_sends ..).trans (enqueue_sends ..)
    · exact repeatReply_sends ..
    · split
      · exact replyUnaccepted_sends ..
      · exact enqueue_sends ..

/-- A command that fails a header check, or that its own checks refuse, is answered and does nothing else. -/
theorem start_refused_sends (op : Nat) (lens : Nat → Bool) (c : Cmd) (body : State → Res) (s : State)
    (h : (firstFail (headerChecks lens c)).isSome = true ∨ ∃ st, body s = .refuse st) : SendsOnly s (start op lens c body s) := by
  unfold start
  split
  · exact finish_sends ..
  · obtain h | ⟨st, hb⟩ := h
    · simp_all
    · rw [hb]
      exact finish_sends ..

/-- Settles O48: on an empty queue a command is begun and refused, or arrives without being started. -/
theorem refusedCommandHasNoEffect : Obligations.RefusedCommandHasNoEffect := by
  unfold Obligations.RefusedCommandHasNoEffect
  intro op lens c body s hw h
  unfold begun at h
  unfold serve
  rw [hw]
  split
  · rfl
  · split
    · dsimp only
      cases hs : seqCase (queueOf s (qiOf c)).lastSeq c.seq with
      | accept gap =>
        rw [hs] at h
        exact ((takeCredit_sends ..).trans (acceptSeq_sends ..)).trans (start_refused_sends _ _ _ _ _ h)
      | repeated => exact (takeCredit_sends ..).trans (repeatReply_sends ..)
      | stale => exact (takeCredit_sends ..).trans (replyUnaccepted_sends ..)
    · exact (takeCredit_sends ..).trans (arrive_sends ..)

end Sys2Proof.Machine

/-!
PROOFS. The last accepted sequence of a queue: what a reply and an arrival leave of it (13 R329).
-/

namespace Sys2Proof.Machine

/-- The last accepted sequence of every queue is the same in both states. -/
structure SeqKept (s t : State) : Prop where
  lastSeq : ∀ qi, (queueOf t qi).lastSeq = (queueOf s qi).lastSeq

namespace SeqKept

variable {s t u : State}

theorem trans (h : SeqKept s t) (k : SeqKept t u) : SeqKept s u :=
  ⟨fun qi => (k.lastSeq qi).trans (h.lastSeq qi)⟩

theorem of_cpx (h : t.cpx = s.cpx) : SeqKept s t := ⟨fun qi => by simp only [queueOf, h]⟩

end SeqKept

theorem modQueue_seqKept (qi : Nat) (f : CmdQ → CmdQ) (s : State) 
    (h : ∀ q, (f q).lastSeq = q.lastSeq := by intro q; rfl) : SeqKept s (modQueue qi f s) := by
  constructor
  intro j
  simp only [queueOf, modQueue_cpx, List.getD_eq_getElem?_getD, List.getElem?_modify]
  cases s.cpx.queues[j]? with
  | none => simp
  | some q =>
    by_cases hj : qi = j
    · simp [hj, h]
    · simp [hj]

theorem returnCredit_seqKept (qi : Nat) (s : State) : SeqKept s (returnCredit qi s) := by
  unfold returnCredit
  split <;> exact .of_cpx rfl

theorem takeCredit_seqKept (qi : Nat) (s : State) : SeqKept s (takeCredit qi s) := .of_cpx (takeCredit_cpx qi s)

@[simp] theorem sendFlits_cpx (chan n : Nat) (s : State) : (sendFlits chan n s).cpx = s.cpx := by
  induction n generalizing s with
  | zero => rfl
  | succ n ih => exact ih _

@[simp] theorem svcDrain_cpx (s : State) : (svcDrain s).cpx = s.cpx := by
  unfold svcDrain
  dsimp only
  split <;> rfl

@[simp] theorem svcPlace_cpx (f : Frame) (s : State) : (svcPlace f s).cpx = s.cpx := by
  unfold svcPlace svcSpeedUp
  dsimp only
  split <;> rfl

@[simp] theorem svcSend_cpx (d : Addr) (n : Nat) (s : State) : (svcSend d n s).2.cpx = s.cpx := by
  unfold svcSend
  dsimp only
  split
  · exact svcDrain_cpx s
  · exact (svcPlace_cpx ..).trans (svcDrain_cpx s)

@[simp] theorem sendBackup_cpx (o : Output) (d : Option (Addr × Nat)) (p : Packet) (s : State) : (sendBackup o d p s).cpx = s.cpx := by
  unfold sendBackup
  split
  · rfl
  · dsimp only
    split <;> simp

theorem sendPacket_seqKept (qi : Nat) (d : Option (Addr × Nat)) (p : Packet) (s : State) : SeqKept s (sendPacket qi d p s) := by
  unfold sendPacket
  dsimp only
  split
  · exact (modQueue_seqKept ..).trans (.of_cpx (sendFlits_cpx ..))
  · exact (modQueue_seqKept ..).trans (.of_cpx (sendBackup_cpx ..))

theorem pumpLink_seqKept (qi n : Nat) (s : State) : SeqKept s (pumpLink qi n s) := by
  induction n generalizing s with
  | zero => exact .of_cpx rfl
  | succ n ih =>
    unfold pumpLink
    dsimp only
    split
    · exact .of_cpx rfl
    · split
      · exact ((sendPacket_seqKept ..).trans (modQueue_seqKept ..)).trans (ih _)
      · split
        · exact ((sendPacket_seqKept ..).trans (modQueue_seqKept ..)).trans (ih _)
        · exact .of_cpx rfl

theorem sendAll_seqKept (qi : Nat) (d : Option (Addr × Nat)) (ps : List Packet) (s : State) :
    SeqKept s (ps.foldl (fun s p => sendPacket qi d p s) s) := by
  induction ps generalizing s with
  | nil => exact .of_cpx rfl
  | cons p ps ih => exact (sendPacket_seqKept ..).trans (ih _)

theorem pump_seqKept (qi : Nat) (s : State) : SeqKept s (pump qi s) := by
  unfold pump
  dsimp only
  split
  · exact pumpLink_seqKept ..
  · exact (sendAll_seqKept ..).trans (modQueue_seqKept ..)

theorem reply_seqKept (c : Cmd) (op : Nat) (st : Status) (ws : List Word) (s : State) : SeqKept s (reply c op st ws s) := by
  unfold reply
  exact ((modQueue_seqKept ..).trans (returnCredit_seqKept ..)).trans (pump_seqKept ..)

theorem replyUnaccepted_seqKept (c : Cmd) (op : Nat) (st : Status) (s : State) : SeqKept s (replyUnaccepted c op st s) :=
  (reply_seqKept ..).trans (modQueue_seqKept ..)

theorem repeatReply_seqKept (c : Cmd) (s : State) : SeqKept s (repeatReply c s) := by
  have hcount := modQueue_seqKept (qiOf c) (fun q => { q with cntRepeated := inc32 q.cntRepeated }) s
  unfold repeatReply
  dsimp only
  split
  · split
    · exact hcount.trans ((reply_seqKept ..).trans (modQueue_seqKept ..))
    · exact hcount.trans (returnCredit_seqKept ..)
  · exact hcount.trans (returnCredit_seqKept ..)

theorem enqueue_seqKept (op : Nat) (c : Cmd) (r : Option Status) (s : State) : SeqKept s (enqueue op c r s) := by
  unfold enqueue
  split <;> exact modQueue_seqKept ..

theorem arrive_unaccepted (op : Nat) (c : Cmd) (s : State)
    (h : seqCase (queueOf s (qiOf c)).lastSeq c.seq = .repeated ∨ seqCase (queueOf s (qiOf c)).lastSeq c.seq = .stale) :
    SendsOnly s (arrive op c s) ∧ SeqKept s (arrive op c s) := by
  unfold arrive
  split
  · exact ⟨enqueue_sends .., enqueue_seqKept ..⟩
  · obtain h | h := h <;> rw [h]
    · exact ⟨repeatReply_sends .., repeatReply_seqKept ..⟩
    · dsimp only
      split
      · exact ⟨replyUnaccepted_sends .., replyUnaccepted_seqKept ..⟩
      · exact ⟨enqueue_sends .., enqueue_seqKept ..⟩

/-- Settles O47: the command's sequence decides the branch, before its body is reached. -/
theorem unacceptedSequenceNotExecuted : Obligations.UnacceptedSequenceNotExecuted := by
  unfold Obligations.UnacceptedSequenceNotExecuted
  intro op lens c body s h hw
  suffices hk : SendsOnly s (serve op lens c s body) ∧ SeqKept s (serve op lens c s body) from ⟨hk.1, hk.2.lastSeq _⟩
  have ht : ∀ t, SendsOnly (takeCredit (qiOf c) s) t ∧ SeqKept (takeCredit (qiOf c) s) t → SendsOnly s t ∧ SeqKept s t :=
    fun t ⟨hs, hq⟩ => ⟨(takeCredit_sends ..).trans hs, (takeCredit_seqKept ..).trans hq⟩
  unfold serve
  rw [hw]
  split
  · exact ⟨rfl, .of_cpx rfl⟩
  · split
    · obtain h | h := h <;> rw [h]
      · exact ht _ ⟨repeatReply_sends .., repeatReply_seqKept ..⟩
      · exact ht _ ⟨replyUnaccepted_sends .., replyUnaccepted_seqKept ..⟩
    · exact ht _ (arrive_unaccepted op c _ (by simpa only [queueOf, takeCredit_cpx] using h))

end Sys2Proof.Machine

/-!
PROOFS. A retired egress key: what a change of a key slot and the flush of a leg leave (14 R358, R359).
-/

namespace Sys2Proof.Machine

@[simp] theorem bufSetRefs_cpe (k n : Nat) (s : State) : (bufSetRefs k n s).cpe = s.cpe := by
  unfold bufSetRefs
  split
  · rfl
  · split <;> rfl

theorem SendsOnly.cpe {s t : State} (h : SendsOnly s t) : t.cpe = s.cpe := by rw [h]

@[simp] theorem bufRelease_cpe (k : Nat) (s : State) : (bufRelease k s).cpe = s.cpe := by
  unfold bufRelease
  split
  · split
    · exact (fault_sends ..).cpe
    · exact bufSetRefs_cpe ..
  · exact (fault_sends ..).cpe

@[simp] theorem bufReleaseOpt_cpe (k : Option Nat) (s : State) : (bufReleaseOpt k s).cpe = s.cpe := by
  cases k with
  | none => rfl
  | some k => exact bufRelease_cpe k s

theorem releaseFrames_cpe (fs : List Frame) (s : State) : (fs.foldl (fun s f => bufReleaseOpt f.buf s) s).cpe = s.cpe := by
  induction fs generalizing s with
  | nil => rfl
  | cons f fs ih => exact (ih _).trans (bufReleaseOpt_cpe ..)

theorem releaseFrames_tsh (fs : List Frame) (s : State) : (fs.foldl (fun s f => bufReleaseOpt f.buf s) s).tsh = s.tsh := by
  induction fs generalizing s with
  | nil => rfl
  | cons f fs ih => exact (ih _).trans (bufReleaseOpt_tsh ..)

theorem armPort_cpe (p : Nat) (s : State) : (armPort p s).cpe = s.cpe := by
  unfold armPort
  dsimp only
  split <;> rfl

theorem armPort_tsh (p : Nat) (s : State) : (armPort p s).tsh = s.tsh := by
  unfold armPort
  dsimp only
  split <;> rfl

theorem armPorts_cpe (ps : List Nat) (s : State) :
    (ps.foldl (fun s p => if (portShape s p).paced then armPort p s else s) s).cpe = s.cpe := by
  induction ps generalizing s with
  | nil => rfl
  | cons p ps ih =>
    refine (ih _).trans ?_
    dsimp only
    split
    · exact armPort_cpe ..
    · rfl

theorem armPorts_tsh (ps : List Nat) (s : State) :
    (ps.foldl (fun s p => if (portShape s p).paced then armPort p s else s) s).tsh = s.tsh := by
  induction ps generalizing s with
  | nil => rfl
  | cons p ps ih =>
    refine (ih _).trans ?_
    dsimp only
    split
    · exact armPort_tsh ..
    · rfl

@[simp] theorem flushLeg_cpe (leg : Nat) (p : Frame → Bool) (s : State) : (flushLeg leg p s).cpe = s.cpe :=
  (releaseFrames_cpe ..).trans (armPorts_cpe ..)

/-- No frame of a leg that a flush names is left in a queue. -/
theorem flushLeg_queues (leg : Nat) (p : Frame → Bool) (s : State) :
    ∀ q ∈ (flushLeg leg p s).tsh.queues, ∀ f ∈ q.2.frames, ¬ (f.leg = leg ∧ p f = true) := by
  have hq : (flushLeg leg p s).tsh.queues = ((s.tsh.queues.map fun q =>
      (q.1, { q.2 with frames := q.2.frames.filter fun f => !(decide (f.leg = leg) && p f) })).filter
        fun q => !q.2.frames.isEmpty) :=
    congrArg Tsh.queues ((releaseFrames_tsh ..).trans (armPorts_tsh ..))
  rw [hq]
  rintro q hmem f hf ⟨rfl, hp⟩
  obtain ⟨q₀, -, rfl⟩ := List.mem_map.mp (List.mem_of_mem_filter hmem)
  have := (List.mem_filter.mp hf).2
  simp [hp] at this

@[simp] theorem legCheck_cpe (leg : Nat) (s : State) : (legCheck leg s).cpe = s.cpe := by
  unfold legCheck
  split
  · rfl
  · split
    · unfold setLegState
      dsimp only
      split
      · rfl
      · exact (raiseEvent_sends ..).cpe
    · rfl

theorem slotOf_putSlot_reset (k : Nat) (s : State) : slotOf (putSlot k Slot.reset s) k = Slot.reset := by
  simp [slotOf, Slot.reset]

/-- Settles O54: the slot that the leg's egress pointer names is zero, so nothing is protected, and the leg's frames are flushed. -/
theorem retiredKeyStopsEgress : Obligations.RetiredKeyStopsEgress := by
  unfold Obligations.RetiredKeyStopsEgress
  refine ⟨fun leg k s hptr hleg hst => ?_, fun k s h => if_pos h⟩
  have hslot : ∀ t : State, t.cpe = (putSlot k Slot.reset s).cpe → slotOf t (ptrSlot t leg 1) = Slot.reset := by
    intro t ht
    have hp : ptrSlot t leg 1 = k := by rw [← hptr, ptrSlot, ptrSlot, ht]; rfl
    rw [hp, slotOf, ht]
    exact slotOf_putSlot_reset k s
  have hcur : Slot.reset.state ≠ .current := by decide
  have heq : retireSlot k s = flushLeg leg isSrtp (legCheck leg (putSlot k Slot.reset s)) := by
    rw [retireSlot, if_neg hst, hleg, keyChanged, hslot _ (legCheck_cpe ..), if_neg hcur]
  have hcpe : (retireSlot k s).cpe = (putSlot k Slot.reset s).cpe := by rw [heq, flushLeg_cpe, legCheck_cpe]
  refine ⟨?_, fun ssrc seq rtcp n => ?_, ?_⟩
  · rw [slotOf, hcpe]
    exact slotOf_putSlot_reset k s
  · rw [egressProtect]
    rw [hslot _ hcpe, if_pos hcur]
  · rw [heq]
    exact flushLeg_queues leg isSrtp _

end Sys2Proof.Machine

/-!
PROOFS. The choice of a port among the eligible head frames (15 R386).
-/

namespace Sys2Proof.Machine

theorem mem_roundOrder (last : Nat) (hs : List (Nat × Frame × Nat)) (x : Nat × Frame × Nat) : x ∈ roundOrder last hs ↔ x ∈ hs := by
  unfold roundOrder
  grind

/-- Of some eligible head frames one is picked: the fewest visits of the round belong to one of them. -/
theorem dwrrPick_none {port v t : Nat} {s : State} (h : dwrrPick port v t s = none) : eligibleHeads s port v t = [] := by
  unfold dwrrPick at h
  dsimp only at h
  split at h
  · cases h
  · split at h
    · next hk =>
      rw [List.min?_eq_none_iff, List.map_eq_nil_iff] at hk
      refine List.eq_nil_iff_forall_not_mem.mpr fun x hx => ?_
      rw [← mem_roundOrder ((portShape s port).round.getD v 0), hk] at hx
      cases hx
    · next k hk =>
      split at h
      · next hn =>
        obtain ⟨x, hx, hxk⟩ := List.mem_map.mp (List.min?_mem hk)
        have := List.find?_eq_none.mp hn x hx
        simp [hxk] at this
      · cases h

/-- What is picked is an eligible head frame of the service. -/
theorem dwrrPick_some {port v t : Nat} {s u : State} {f : Frame} (h : dwrrPick port v t s = some (f, u)) :
    ∃ x ∈ eligibleHeads s port v t, x.2.1 = f := by
  unfold dwrrPick at h
  dsimp only at h
  split at h
  · next x hx =>
    simp only [Option.some.injEq, Prod.mk.injEq] at h
    exact ⟨x, List.mem_of_find?_eq_some hx, h.1⟩
  · split at h
    · cases h
    · split at h
      · cases h
      · next x hx =>
        simp only [Option.some.injEq, Prod.mk.injEq] at h
        exact ⟨x, (mem_roundOrder ..).mp (List.mem_of_find?_eq_some hx), h.1⟩

/-- Settles O56: the services are tried in their order, and one with an eligible head frame always gives one. -/
theorem portServesHighestService : Obligations.PortServesHighestService := by
  unfold Obligations.PortServesHighestService
  constructor
  · intro port t f s u h
    unfold portPick at h
    split at h
    · cases h
    · obtain ⟨before, v, after, hl, hv, hbefore⟩ := List.findSome?_eq_some_iff.mp h
      have hmem : ∀ w, w < 4 → w ∈ before ++ v :: after := fun w hw => hl ▸ List.mem_range.mpr hw
      have hsorted : (before ++ v :: after).Pairwise (· < ·) := hl ▸ List.pairwise_lt_range
      have hv4 : v < 4 := List.mem_range.mp (hl ▸ by simp)
      refine ⟨v, hv4, dwrrPick_some hv, fun w hw => dwrrPick_none (hbefore w ?_)⟩
      have hafter : w ∉ after := fun hm => absurd ((List.pairwise_cons.mp (List.pairwise_append.mp hsorted).2.1).1 w hm) (by omega)
      simpa [hafter, hw.ne] using hmem w (hw.trans hv4)
  · intro port t s h
    unfold portPick at h
    split at h
    · exact .inl ‹_›
    · exact .inr fun w hw => dwrrPick_none (List.findSome?_eq_none_iff.mp h w (List.mem_range.mpr hw))

end Sys2Proof.Machine

/-!
PROOFS. The sum of a mixer stage, sample by sample, and its scaled output (04 R103, R105).
-/

namespace Sys2Proof.Machine

/-- One row's part of sample j of a sum. -/
def rowShare (n j : Nat) (r : List Int) (g : Nat) : Int := (contribution (padBlock n r) g).getD j 0

/-- The step of sumRows: a row that is routed adds its contribution. -/
def addRow (n : Nat) (acc : List Int) (rg : List Int × Nat) : List Int :=
  if rg.2 = 0 then acc else addBlocks acc (contribution (padBlock n rg.1) rg.2)

theorem sumRows_eq (n : Nat) (rows : List (List Int)) (gains : List Nat) :
    sumRows n rows gains = (List.zip rows gains).foldl (addRow n) (silence n) := rfl

@[simp] theorem silence_length (n : Nat) : (silence n).length = n := by simp [silence]

@[simp] theorem padBlock_length (n : Nat) (xs : List Int) : (padBlock n xs).length = n := by simp [padBlock]

@[simp] theorem contribution_length (xs : List Int) (g : Nat) : (contribution xs g).length = xs.length := by simp [contribution]

theorem contribution_zero (n : Nat) (r : List Int) : contribution (padBlock n r) 0 = silence n :=
  List.ext_getElem (by simp) fun j _ _ => by simp [contribution, silence]

theorem rowShare_zero (n j : Nat) (r : List Int) : rowShare n j r 0 = 0 := by
  rw [rowShare, contribution_zero, silence]
  grind

theorem contribution_silent (n g : Nat) : contribution (padBlock n []) g = silence n :=
  List.ext_getElem (by simp) fun j _ _ => by simp [contribution, padBlock, silence]

theorem rowShare_nil (n j g : Nat) : rowShare n j [] g = 0 := by
  rw [rowShare, contribution_silent, silence]
  grind

theorem addRow_length (n : Nat) (acc : List Int) (rg : List Int × Nat) (h : acc.length = n) : (addRow n acc rg).length = n := by
  unfold addRow
  split <;> simp [addBlocks, h]

theorem addRow_getD (n j : Nat) (acc : List Int) (rg : List Int × Nat) (h : acc.length = n) :
    (addRow n acc rg).getD j 0 = acc.getD j 0 + rowShare n j rg.1 rg.2 := by
  unfold addRow
  split
  · rw [‹rg.2 = 0›, rowShare_zero, add_zero]
  · by_cases hj : j < n
    · simp [addBlocks, rowShare, h, hj]
    · simp [addBlocks, rowShare, h, hj]

theorem foldl_addRow_length (n : Nat) (l : List (List Int × Nat)) (acc : List Int) (h : acc.length = n) :
    (l.foldl (addRow n) acc).length = n := by
  induction l generalizing acc with
  | nil => exact h
  | cons rg l ih => exact ih _ (addRow_length n acc rg h)

theorem foldl_addRow_getD (n j : Nat) (l : List (List Int × Nat)) (acc : List Int) (h : acc.length = n) :
    (l.foldl (addRow n) acc).getD j 0 = acc.getD j 0 + (l.map fun rg => rowShare n j rg.1 rg.2).sum := by
  induction l generalizing acc with
  | nil => simp
  | cons rg l ih =>
    rw [List.foldl_cons, ih _ (addRow_length n acc rg h), addRow_getD n j acc rg h, List.map_cons, List.sum_cons, add_assoc]

@[simp] theorem sumRows_length (n : Nat) (rows : List (List Int)) (gains : List Nat) : (sumRows n rows gains).length = n :=
  foldl_addRow_length n _ _ (silence_length n)

/-- Sample j of a sum is the sum of the rows' shares of it. -/
theorem sumRows_getD (n j : Nat) (rows : List (List Int)) (gains : List Nat) :
    (sumRows n rows gains).getD j 0 = (List.zipWith (rowShare n j) rows gains).sum := by
  rw [sumRows_eq, foldl_addRow_getD n j _ _ (silence_length n), ← List.map_uncurry_zip_eq_zipWith]
  have : (silence n).getD j 0 = 0 := by grind [silence]
  rw [this, zero_add]
  rfl

/-- With one row's gain at zero a sum lacks that row's share alone. -/
theorem shares_set_zero (n j i : Nat) (rows : List (List Int)) (gains : List Nat) :
    (List.zipWith (rowShare n j) rows (gains.set i 0)).sum =
      (List.zipWith (rowShare n j) rows gains).sum - rowShare n j (rows.getD i []) (gains.getD i 0) := by
  induction rows generalizing gains i with
  | nil => simp [rowShare_nil]
  | cons r rows ih =>
    cases gains with
    | nil => simp [rowShare_zero]
    | cons g gains =>
      cases i with
      | zero => simp [rowShare_zero]
      | succ i =>
        simp only [List.set_cons_succ, List.zipWith_cons_cons, List.sum_cons, List.getD_cons_succ, ih i gains]
        omega

theorem subBlocks_getD (n j : Nat) (a b : List Int) (ha : a.length = n) (hb : b.length = n) :
    (subBlocks a b).getD j 0 = a.getD j 0 - b.getD j 0 := by
  by_cases hj : j < n
  · simp [subBlocks, ha, hb, hj]
  · simp [subBlocks, ha, hb, hj]

/-- Blocks of one length that agree at every sample are equal. -/
theorem block_ext (n : Nat) (a b : List Int) (ha : a.length = n) (hb : b.length = n) (h : ∀ j, a.getD j 0 = b.getD j 0) : a = b :=
  List.ext_getElem (ha.trans hb.symm) fun j h₁ h₂ => by simpa [h₁, h₂] using h j

/-- Settles O55: sample by sample, the row's own contribution taken from the sum leaves the sum of the other rows' shares. -/
theorem mixMinusExact : Obligations.MixMinusExact := by
  unfold Obligations.MixMinusExact
  intro n i rs act g
  simp only [stageSum]
  generalize rs.mapIdx (fun i r => rowSamples r (rowVersion r (g.vers.getD i 0))) = rows
  refine block_ext n _ _ (by simp [subBlocks]) (by simp [subBlocks]) fun j => ?_
  rw [subBlocks_getD n j _ _ (by simp) (by simp), subBlocks_getD n j _ _ (by simp) (by simp), sumRows_getD, sumRows_getD,
    shares_set_zero]
  have : (silence n).getD j 0 = 0 := by grind [silence]
  rw [this, sub_zero]
  rfl

/-- Settles O57, by induction on the block. -/
theorem scaledOutputRange : Obligations.ScaledOutputRange := by
  unfold Obligations.ScaledOutputRange
  intro n left g xs
  induction xs generalizing left with
  | nil => simp [scaleGo]
  | cons x xs ih =>
    obtain ⟨hlen, hrange, hcount⟩ := ih (left - 1)
    have hb : ∀ b, b1 b ≤ 1 := by decide
    have hsat : ∀ y, -8388608 ≤ sat24 y ∧ sat24 y ≤ 8388607 := by intro y; unfold sat24; omega
    simp only [scaleGo, List.length_cons, hlen, List.forall_mem_cons, true_and]
    exact ⟨⟨hsat _, hrange⟩, Nat.add_le_add hcount (hb _)⟩

end Sys2Proof.Machine

/-!
PROOFS. Requests of the fabric to memory: the bytes and the parity that a performed write leaves, what a denied request leaves alone, and
how a word of inverted parity is read (10 R255 to R259, R267; 01 R23, R24). The outputs that a reply or a fault adds to those already made.
-/

namespace Sys2Proof.Machine

/-! ### The place of a request in the order of issue -/

/-- The state in which the next request has taken its place in the order of issue. -/
def issuedNext (u : State) : State := { u with mss.issued := u.mss.issued + 1 }

theorem exec_fabricRequest {r : FabReq} {s : State} (hm : r.master < 64) (ht : r.target < 16) :
    exec (.fabricRequest r) s =
      .next (checkedRequest ⟨(settleChannels s).mss.issued, nowNs (settleChannels s), r⟩ (issuedNext (settleChannels s))) :=
  if_neg (by omega)

section
variable {r : FabReq} {s u : State}

theorem permittedRequest_issuedNext (u : State) (r : FabReq) : permittedRequest (issuedNext u) r = permittedRequest u r := rfl

theorem mustWait_issuedNext (u : State) (x : HeldReq) : mustWait (issuedNext u) x = mustWait u x := rfl

theorem pausedChannel_issuedNext (u : State) (r : FabReq) : pausedChannel (issuedNext u) r = pausedChannel u r := rfl

theorem chanOf_issuedNext (u : State) (ch : Nat) : chanOf (issuedNext u) ch = chanOf u ch := rfl

theorem portDown_issuedNext (u : State) (sub inst : Nat) : portDown (issuedNext u) sub inst = portDown u sub inst := rfl

/-- A request to memory that is permitted and lies within it. -/
theorem permittedRequest_memory (ht : r.target = 6) (hp : permitted s r (reqBytes r) = true) (hr : r.addr + reqBytes r ≤ dramBytes) :
    permittedRequest s r = true := by
  simp [permittedRequest, ht, hp, hr]

/-- A permitted request to memory whose port is up and which nothing earlier holds up waits for a channel that pauses, behind when that
channel's queue is full, and else is performed. -/
theorem exec_fabricRequest_memory (hu : u = settleChannels s) (hm : r.master < 64) (ht : r.target = 6)
    (hp : permitted s r (reqBytes r) = true) (hr : r.addr + reqBytes r ≤ dramBytes) (hf : r.fenced = false)
    (hd : portDown s 6 r.inst = false) (hw : mustWait u ⟨u.mss.issued, nowNs u, r⟩ = false) :
    exec (.fabricRequest r) s = .next (match pausedChannel u r with
      | some ch =>
        if (chanOf u ch).queue.length < 2048 then
          modChan ch (fun c => { c with queue := c.queue ++ [⟨u.mss.issued, nowNs u, r⟩] }) (issuedNext u)
        else { issuedNext u with mss.behind := u.mss.behind ++ [⟨u.mss.issued, nowNs u, r⟩] }
      | none => performRequest r (issuedNext u)) := by
  have hpr : permittedRequest (issuedNext u) r = true := by
    rw [permittedRequest_issuedNext, hu, settleChannels_permitted]
    exact permittedRequest_memory ht hp hr
  have hdown : portDown (issuedNext u) r.target r.inst = false := by
    rw [portDown_issuedNext, hu, settleChannels_portDown, ht]
    exact hd
  rw [exec_fabricRequest hm (by omega), ← hu, checkedRequest, hpr]
  simp only [Bool.not_true, Bool.false_eq_true, if_false, serveRequest, hf, hdown, Bool.or_self, mustWait_issuedNext, hw,
    pausedChannel_issuedNext, chanOf_issuedNext]
  cases pausedChannel u r with
  | none => rfl
  | some ch => rfl

/-! ### What a performed write leaves -/

theorem readCell_writeBytes_in (m : List Host.Cell) (a : Nat) (bs : List Byte) (w : Memory.wf m = true) (i : Nat) (h : i < bs.length) :
    readCell (writeBytes m a bs) (a + i) = bs.getD i 0 := by
  induction bs generalizing m a i with
  | nil => simp at h
  | cons b bs ih =>
    cases i with
    | zero =>
      rw [writeBytes, add_zero, readCell_writeBytes_out _ _ _ _ (by omega)]
      exact readCell_writeCell_self m a b w
    | succ i =>
      rw [writeBytes, show a + (i + 1) = a + 1 + i by omega, ih _ _ (writeCell_wf m a b w) i (by simpa using h)]
      rfl

theorem readBytes_eq_of_readCell (m : List Host.Cell) (a : Nat) (bs : List Byte)
    (h : ∀ i, i < bs.length → readCell m (a + i) = bs.getD i 0) : readBytes m a bs.length = bs := by
  induction bs generalizing a with
  | nil => rfl
  | cons b bs ih =>
    have hb : readCell m a = b := h 0 (by simp)
    have hbs : readBytes m (a + 1) bs.length = bs := ih (a + 1) fun i hi => by
      rw [Nat.succ_add_eq_add_succ]
      exact h (i + 1) (by simpa using hi)
    rw [List.length_cons, readBytes, hb, hbs]

theorem recordBursts_mss (f : Nat → Nat × Nat × Nat) (ls : List Nat) (s : State) :
    ∃ t, (ls.foldl (fun s l => recordBurst (f l).1 (f l).2.1 (f l).2.2 s) s).mss = { s.mss with traffic := t } := by
  induction ls generalizing s with
  | nil => exact ⟨_, rfl⟩
  | cons l ls ih =>
    obtain ⟨t, ht⟩ := ih (recordBurst (f l).1 (f l).2.1 (f l).2.2 s)
    exact ⟨t, ht⟩

/-- The figures of a request are records of traffic and latency alone. -/
theorem recordRequest_mss (r : FabReq) (s : State) : ∃ t c m, (recordRequest r s).mss = { s.mss with traffic := t, c0Lats := c, c0MaxClear := m } := by
  obtain ⟨t, ht⟩ := recordBursts_mss (fun l => (reqClass r, channelOf (64 * l), lineBytes r l)) (linesOf r.addr (reqBytes r)) s
  unfold recordRequest
  dsimp only at ht ⊢
  split
  · rw [recordLatency]
    dsimp only
    rw [drawBelow_frame]
    dsimp only
    rw [ht]
    exact ⟨t, _, _, rfl⟩
  · exact ⟨t, s.mss.c0Lats, s.mss.c0MaxClear, ht⟩

@[simp] theorem recordRequest_dram (r : FabReq) (s : State) : (recordRequest r s).mss.dram = s.mss.dram := by
  obtain ⟨t, c, m, h⟩ := recordRequest_mss r s
  rw [h]

@[simp] theorem recordRequest_badParity (r : FabReq) (s : State) : (recordRequest r s).mss.badParity = s.mss.badParity := by
  obtain ⟨t, c, m, h⟩ := recordRequest_mss r s
  rw [h]

/-- A performed write to memory stores its bytes and the parity of its words. -/
theorem performRequest_write_mss (ht : r.target = 6) (hw : r.write = true) :
    (performRequest r s).mss = (memWrite r (recordRequest r s)).mss := by
  rw [performRequest, if_pos hw, writeTarget, if_pos ht]
  rfl

end

/-- Settles O44: the request takes its place, and memory holds its bytes or its channel holds it. -/
theorem fabricWriteStores : Obligations.FabricWriteStores := by
  unfold Obligations.FabricWriteStores
  constructor
  case left =>
    intro r s u hu hm ht hw hp hr hf hd hwait hpause hwf
    have hn : reqBytes r = r.data.length := if_pos hw
    have hexec := exec_fabricRequest_memory hu hm ht (hn ▸ hp) (hn ▸ hr) hf hd hwait
    rw [hpause] at hexec
    have hdram : (performRequest r (issuedNext u)).mss.dram = writeBytes u.mss.dram r.addr r.data := by
      rw [performRequest_write_mss ht hw, memWrite, recordRequest_dram]
      rfl
    have hwfu : Memory.wf u.mss.dram = true := hu ▸ (settleChannels_kept s).2.2.2.2 hwf
    have hin := readCell_writeBytes_in u.mss.dram r.addr r.data hwfu
    have hfab := performRequest_fabric r (issuedNext u)
    refine ⟨_, hexec, ?_, ?_, ?_, ?_, ?_, ?_, ?_, ?_⟩
    · rw [hdram]
      exact hin
    · rw [hdram]
      exact fun a ha => readCell_writeBytes_out _ _ _ _ ha
    · rw [hdram]
      exact readBytes_eq_of_readCell _ _ _ hin
    all_goals
      rw [hfab]
      rfl
  case right =>
    intro r ch s u hu hm ht hw hp hr hf hd hwait hpause
    have hn : reqBytes r = r.data.length := if_pos hw
    have hexec := exec_fabricRequest_memory hu hm ht (hn ▸ hp) (hn ▸ hr) hf hd hwait
    rw [hpause] at hexec
    constructor
    · intro hroom hch
      dsimp only at hexec
      rw [if_pos hroom] at hexec
      refine ⟨_, hexec, rfl, ?_⟩
      simp [chanOf, issuedNext, hch]
    · intro hfull
      dsimp only at hexec
      rw [if_neg (Nat.not_lt.mpr hfull)] at hexec
      exact ⟨_, hexec, rfl, rfl⟩

/-! ### A denied request -/

/-- What a denied request makes of the customer core that made it: released when no slot holds it, else FAULTED with its slot to be
detached. -/
def stoppedCore (x : Core) : Option Core :=
  if x.attached = none then none
  else some { x with state := .faulted, lastFault := 0x6102, detach := true, inBlock := false }

/-- A denied core's fault touches the cores and what its event touches on its way out. -/
theorem coreFault_denied (c : Nat) (a : Word) (s : State) :
    ∃ t, SendsOnly t (coreFault c (.denied a) s) ∧ t = { s with aue.cores := t.aue.cores } ∧
      ∀ x, tget s.aue.cores c = some x → tget t.aue.cores c = stoppedCore x := by
  unfold coreFault
  dsimp only
  refine ⟨_, fault_sends .., ?_, fun x hx => ?_⟩
  · split <;> rfl
  · simp only [modCore_aue, tget_tmod, hx, if_true, Option.map_some, Option.getD_some, stoppedCore]
    cases h : x.attached <;> simp [tget_tmod, hx, h]

/-- Settles O45: the request is denied before anything of it is performed, and a customer core that made it is stopped. -/
theorem deniedRequestChangesNothing : Obligations.DeniedRequestChangesNothing := by
  unfold Obligations.DeniedRequestChangesNothing
  intro r s u hu hm ht hden
  have hpr : permittedRequest (issuedNext u) r = false := by
    rw [permittedRequest_issuedNext, hu, settleChannels_permitted, permittedRequest]
    obtain h | ⟨h6, h⟩ := hden
    · rw [h, Bool.false_and]
    · simp [h6, h]
  have hexec := exec_fabricRequest (s := s) hm ht
  rw [← hu, checkedRequest, hpr] at hexec
  refine ⟨_, hexec, ?_⟩
  have hemit := emit_sends (.completion r.master 4 (if r.write then [] else List.replicate (reqBytes r) 0) [])
  rw [Bool.not_false, if_pos rfl, denyRequest]
  by_cases hcore : 32 ≤ r.master ∧ thas (issuedNext u).aue.cores (192 + r.master) = true
  · rw [if_pos hcore]
    obtain ⟨t, hsends, ht, hstop⟩ := coreFault_denied (192 + r.master) (w32 r.addr) (issuedNext u)
    have hs := hsends.trans (hemit _)
    have hkept : t.mss = (issuedNext u).mss ∧ t.bpm = u.bpm ∧ t.fwe = u.fwe ∧ t.cpe = u.cpe ∧ t.tsu = u.tsu := by
      rw [ht]
      exact ⟨rfl, rfl, rfl, rfl, rfl⟩
    obtain ⟨hmss, hbpm, hfwe, hcpe, htsu⟩ := hkept
    refine ⟨hs.mss.trans hmss, ?_, ?_, ?_, ?_, fun h => ?_, fun x hx hx' => ?_⟩
    · rw [hs]; exact hbpm
    · rw [hs]; exact hfwe
    · rw [hs]; exact hcpe
    · rw [hs]; exact htsu
    · obtain h | h := h
      · exact absurd hcore.1 (by omega)
      · exact absurd hcore.2 (by rw [issuedNext, h]; simp)
    · have := hstop x hx'
      rw [hs]
      exact ⟨fun h => this.trans (if_pos h), fun h => this.trans (if_neg h)⟩
  · rw [if_neg hcore]
    have hs := (fault_sends 0x6102 (w32 r.master :: w64 r.addr) (issuedNext u)).trans (hemit _)
    refine ⟨hs.mss, ?_, ?_, ?_, ?_, fun _ => ?_, fun x hx hx' => ?_⟩
    · rw [hs]; rfl
    · rw [hs]; rfl
    · rw [hs]; rfl
    · rw [hs]; rfl
    · rw [hs]; rfl
    · exact absurd ⟨hx, by simp [thas, issuedNext, hx']⟩ hcore

/-! ### Poisoned words -/

theorem readLine_badParity (bad : List (List Nat)) (line : Nat) (s : State) : (readLine bad line s).2.mss.badParity = s.mss.badParity := by
  unfold readLine
  dsimp only
  split
  · rfl
  · split
    · rfl
    · unfold poisonRead
      rw [(fault_sends ..).mss]
      rfl

theorem readLines_badParity (bad : List (List Nat)) (ls : List Nat) (s : State) :
    (readLines bad ls s).2.mss.badParity = s.mss.badParity := by
  induction ls generalizing s with
  | nil => rfl
  | cons l ls ih => exact (ih _).trans (readLine_badParity ..)

/-- A word of inverted parity fails both replays of its burst, which is then delivered with the word poisoned. -/
theorem readLine_of_badParity {line w : Nat} (bad : List (List Nat)) {s : State} (hl : w / 16 = line) (hw : w ∈ s.mss.badParity) :
    w ∈ (readLine bad line s).1 ∧ (readLine bad line s).2 = poisonRead line s := by
  have hfails : ∀ i, w ∈ ((List.range 16).map (16 * line + ·)).filter fun w => s.mss.badParity.contains w || (bad.getD i []).contains w := by
    intro i
    simp only [List.mem_filter, List.mem_map, List.mem_range, List.contains_iff_mem, Bool.or_eq_true]
    exact ⟨⟨w % 16, by omega, by omega⟩, .inl hw⟩
  unfold readLine
  dsimp only
  rw [if_neg (List.ne_nil_of_mem (hfails 0)), if_neg (by
    rintro (h | h)
    · exact List.ne_nil_of_mem (hfails 1) h
    · exact List.ne_nil_of_mem (hfails 2) h)]
  exact ⟨hfails 2, rfl⟩

/-- A word of inverted parity in one of the bursts read is among the words that fail. -/
theorem mem_readLines_of_badParity (bad : List (List Nat)) {w : Nat} (ls : List Nat) (s : State) (hl : w / 16 ∈ ls)
    (hw : w ∈ s.mss.badParity) : w ∈ (readLines bad ls s).1 := by
  induction ls generalizing s with
  | nil => cases hl
  | cons l ls ih =>
    simp only [readLines, List.mem_append]
    obtain rfl | hl := List.mem_cons.mp hl
    · exact .inl (readLine_of_badParity bad rfl hw).1
    · exact .inr (ih _ hl (by rwa [readLine_badParity]))

/-- The burst of a word of a read is among the bursts read. -/
theorem line_mem_linesOf {addr n i : Nat} (h : i < wordsOf addr n) : (addr / 4 + i) / 16 ∈ linesOf addr n := by
  unfold wordsOf at h
  unfold linesOf
  split
  · simp_all
  · rw [if_neg ‹_›] at h
    refine List.mem_map.mpr ⟨(addr / 4 + i) / 16 - addr / 64, List.mem_range.mpr ?_, ?_⟩ <;> omega

/-- A word of a write stands with inverted parity when it arrived poisoned, or stood so and was not written whole. -/
theorem memWrite_badParity_in {r : FabReq} {s : State} (hw : r.write = true) {i : Nat} (hi : i < wordsOf r.addr r.data.length) :
    (r.addr / 4 + i) ∈ (memWrite r s).mss.badParity ↔ (i ∈ r.poison ∨
      ((4 * (r.addr / 4 + i) < r.addr ∨ r.addr + r.data.length < 4 * (r.addr / 4 + i) + 4) ∧ (r.addr / 4 + i) ∈ s.mss.badParity)) := by
  have hp : r.addr / 4 + i ∈ (reqPoison r).map (r.addr / 4 + ·) ↔ i ∈ r.poison := by
    simp [reqPoison, reqBytes, hw, hi]
  simp only [memWrite, List.mem_append, List.mem_filter, hp, Bool.and_eq_true, Bool.not_eq_true', decide_eq_false_iff_not,
    List.contains_eq_mem]
  by_cases h : i ∈ r.poison
  · simp [h]
  · simp only [h, not_false_eq_true, and_true, or_false, false_or]
    constructor
    · exact fun ⟨hb, hn⟩ => ⟨by omega, hb⟩
    · exact fun ⟨hn, hb⟩ => ⟨hb, by omega⟩

theorem memWrite_badParity_out {r : FabReq} {s : State} (hw : r.write = true) {w : Nat}
    (h : w < r.addr / 4 ∨ r.addr / 4 + wordsOf r.addr r.data.length ≤ w) :
    w ∈ (memWrite r s).mss.badParity ↔ w ∈ s.mss.badParity := by
  have hp : w ∉ (reqPoison r).map (r.addr / 4 + ·) := by
    simp only [reqPoison, reqBytes, hw, if_true, List.mem_map, List.mem_filter, List.mem_range]
    rintro ⟨i, ⟨hi, -⟩, rfl⟩
    omega
  have hwhole : ¬ (r.addr ≤ 4 * w ∧ 4 * w + 4 ≤ r.addr + r.data.length) := by
    unfold wordsOf at h
    split at h <;> omega
  simp only [memWrite, List.mem_append, List.mem_filter, hp, hwhole, Bool.and_eq_true, Bool.not_eq_true', decide_eq_false_iff_not,
    List.contains_eq_mem, not_false_eq_true, and_true, or_false]

/-! ### The outputs that a reply, an event or a fault adds -/

/-- Every output of the first state is an output of the second. -/
structure OutGrows (s t : State) : Prop where
  out : s.out ⊆ t.out

namespace OutGrows

variable {s t u : State}

theorem refl (s : State) : OutGrows s s := ⟨fun _ h => h⟩

theorem trans (h : OutGrows s t) (k : OutGrows t u) : OutGrows s u := ⟨fun _ ho => k.out (h.out ho)⟩

theorem of_out (h : t.out = s.out) : OutGrows s t := ⟨h ▸ fun _ h => h⟩

end OutGrows

theorem emit_outGrows (o : Output) (s : State) : OutGrows s (emit o s) := ⟨fun _ h => List.mem_append_left _ h⟩

theorem modQueue_outGrows (qi : Nat) (f : CmdQ → CmdQ) (s : State) : OutGrows s (modQueue qi f s) := .of_out rfl

theorem sendFlits_out (chan n : Nat) (s : State) : (sendFlits chan n s).out = s.out := by
  induction n generalizing s with
  | zero => rfl
  | succ n ih => exact ih _

theorem svcDrain_out (s : State) : (svcDrain s).out = s.out := by
  unfold svcDrain
  dsimp only
  split <;> rfl

theorem svcPlace_out (f : Frame) (s : State) : (svcPlace f s).out = s.out := by
  unfold svcPlace svcSpeedUp
  dsimp only
  split <;> rfl

theorem svcSend_outGrows (d : Addr) (n : Nat) (s : State) : OutGrows s (svcSend d n s).2 := by
  unfold svcSend
  dsimp only
  split
  · exact .of_out (svcDrain_out s)
  · exact .of_out ((svcPlace_out ..).trans (svcDrain_out s))

theorem sendBackup_outGrows (o : Output) (d : Option (Addr × Nat)) (p : Packet) (s : State) : OutGrows s (sendBackup o d p s) := by
  unfold sendBackup
  split
  · exact .refl s
  · dsimp only
    split
    · exact (svcSend_outGrows ..).trans (emit_outGrows ..)
    · exact svcSend_outGrows ..

theorem sendPacket_outGrows (qi : Nat) (d : Option (Addr × Nat)) (p : Packet) (s : State) : OutGrows s (sendPacket qi d p s) := by
  unfold sendPacket
  dsimp only
  split
  · exact (modQueue_outGrows ..).trans ((OutGrows.of_out (sendFlits_out ..)).trans (emit_outGrows ..))
  · exact (modQueue_outGrows ..).trans (sendBackup_outGrows ..)

theorem pumpLink_outGrows (qi n : Nat) (s : State) : OutGrows s (pumpLink qi n s) := by
  induction n generalizing s with
  | zero => exact .refl s
  | succ n ih =>
    unfold pumpLink
    dsimp only
    split
    · exact .refl s
    · split
      · exact (sendPacket_outGrows ..).trans ((modQueue_outGrows ..).trans (ih _))
      · split
        · exact (sendPacket_outGrows ..).trans ((modQueue_outGrows ..).trans (ih _))
        · exact .refl s

theorem sendAll_outGrows (qi : Nat) (d : Option (Addr × Nat)) (ps : List Packet) (s : State) :
    OutGrows s (ps.foldl (fun s p => sendPacket qi d p s) s) := by
  induction ps generalizing s with
  | nil => exact .refl s
  | cons p ps ih => exact (sendPacket_outGrows ..).trans (ih _)

theorem pump_outGrows (qi : Nat) (s : State) : OutGrows s (pump qi s) := by
  unfold pump
  dsimp only
  split
  · exact pumpLink_outGrows ..
  · exact (sendAll_outGrows ..).trans (modQueue_outGrows ..)

theorem storeEvent_outGrows (qi : Nat) (e : EvRec) (s : State) : OutGrows s (storeEvent qi e s) :=
  (modQueue_outGrows ..).trans (pump_outGrows ..)

theorem sendBackupEvent_outGrows (q : Nat) (e : EvRec) (s : State) : OutGrows s (sendBackupEvent q e s) := by
  unfold sendBackupEvent
  dsimp only
  split
  · exact .refl s
  · exact (sendPacket_outGrows ..).trans (t := sendPacket _ _ _ s) (.of_out rfl)

theorem raiseEvent_outGrows (code detail : Nat) (ws : List Word) (s : State) : OutGrows s (raiseEvent code detail ws s) := by
  unfold raiseEvent
  split
  · exact .refl s
  · dsimp only
    split
    · exact (modQueue_outGrows ..).trans ((storeEvent_outGrows ..).trans ((modQueue_outGrows ..).trans (sendBackupEvent_outGrows ..)))
    · exact (modQueue_outGrows ..).trans (storeEvent_outGrows ..)

theorem fault_outGrows (code : Nat) (ps : List Word) (s : State) : OutGrows s (fault code ps s) := by
  unfold fault raiseFault
  dsimp only
  rw [if_neg (by decide)]
  split
  · exact .of_out rfl
  · refine OutGrows.trans ?_ (raiseEvent_outGrows ..)
    exact .of_out rfl

theorem returnCredit_outGrows (qi : Nat) (s : State) : OutGrows s (returnCredit qi s) := by
  unfold returnCredit
  split <;> exact .of_out rfl

theorem reply_outGrows (c : Cmd) (op : Nat) (st : Status) (ws : List Word) (s : State) : OutGrows s (reply c op st ws s) := by
  unfold reply
  exact (modQueue_outGrows ..).trans ((returnCredit_outGrows ..).trans (pump_outGrows ..))

theorem replyUnaccepted_outGrows (c : Cmd) (op : Nat) (st : Status) (s : State) : OutGrows s (replyUnaccepted c op st s) :=
  (reply_outGrows ..).trans (modQueue_outGrows ..)

theorem drainRefused_outGrows (qi : Nat) (ws : List QCmd) (s : State) : OutGrows s (drainRefused qi ws s) := by
  induction ws generalizing s with
  | nil => exact .refl s
  | cons w ws ih =>
    unfold drainRefused
    split
    · split
      · refine OutGrows.trans ?_ (ih _)
        split
        · exact (modQueue_outGrows ..).trans (reply_outGrows ..)
        · exact (modQueue_outGrows ..).trans (replyUnaccepted_outGrows ..)
      · exact .refl s
    · exact .refl s

theorem finishDeferred_outGrows (qi : Nat) (st : Status) (ws : List Word) (s : State) : OutGrows s (finishDeferred qi st ws s) := by
  unfold finishDeferred
  split
  · exact (reply_outGrows ..).trans (drainRefused_outGrows ..)
  · exact .refl s

theorem coreLoadPoisoned_outGrows (addr : Nat) (s : State) : OutGrows s (coreLoadPoisoned addr s) := by
  unfold coreLoadPoisoned
  dsimp only
  split
  · exact (fault_outGrows ..).trans (finishDeferred_outGrows ..)
  · exact fault_outGrows ..

/-- A read of memory that meets words of inverted parity is answered POISONED with the words in its mask, and leaves their parity. -/
theorem performRequest_read_poisoned {r : FabReq} {s : State} (ht : r.target = 6) (hw : r.write = false) {i : Nat}
    (hi : i < wordsOf r.addr r.len) (hb : (r.addr / 4 + i) ∈ s.mss.badParity) :
    ∃ bs bad, i ∈ bad ∧ Output.completion r.master 3 bs bad ∈ (performRequest r s).out ∧
      (performRequest r s).mss.badParity = s.mss.badParity := by
  obtain ⟨bs, bad, t, hread⟩ : ∃ bs bad t, memRead r (recordRequest r s) = (bs, bad, t) := ⟨_, _, _, rfl⟩
  have hbad : i ∈ bad ∧ t.mss.badParity = s.mss.badParity := by
    unfold memRead at hread
    obtain ⟨-, rfl, rfl⟩ := Prod.mk.inj hread |>.imp id Prod.mk.inj
    rw [readLines_badParity, recordRequest_badParity]
    refine ⟨?_, rfl⟩
    simp only [List.mem_filter, List.mem_range, List.contains_iff_mem]
    exact ⟨hi, mem_readLines_of_badParity _ _ _ (line_mem_linesOf hi) (by rwa [recordRequest_badParity])⟩
  have hne : bad ≠ [] := List.ne_nil_of_mem hbad.1
  have hmem : Output.completion r.master 3 bs bad ∈ (complete r bs bad t).out := by
    rw [complete, if_neg hne]
    exact List.mem_append_right _ (List.mem_singleton.mpr rfl)
  have hform : performRequest r s =
      if bad ≠ [] ∧ r.master < 16 then coreLoadPoisoned r.addr (complete r bs bad t) else complete r bs bad t := by
    rw [performRequest, if_neg (by simp [hw]), readTarget, if_pos ht, hread]
  refine ⟨bs, bad, hbad.1, ?_⟩
  rw [hform]
  split
  · exact ⟨(coreLoadPoisoned_outGrows ..).out hmem, by rw [(coreLoadPoisoned_sends ..).mss]; exact hbad.2⟩
  · exact ⟨hmem, hbad.2⟩

/-- Settles O46: parity follows the words of a performed write, and every read of a burst leaves it. -/
theorem poisonedWriteReadsPoisoned : Obligations.PoisonedWriteReadsPoisoned := by
  unfold Obligations.PoisonedWriteReadsPoisoned
  refine ⟨?write, ?burst, ?dramRead, ?read⟩
  case write =>
    intro r s u hu hm ht hw hp hr hf hd hwait hpause
    have hn : reqBytes r = r.data.length := if_pos hw
    have hexec := exec_fabricRequest_memory hu hm ht (hn ▸ hp) (hn ▸ hr) hf hd hwait
    rw [hpause] at hexec
    refine ⟨_, hexec, ?_⟩
    rw [performRequest_write_mss ht hw]
    have hbad : (recordRequest r (issuedNext u)).mss.badParity = u.mss.badParity := recordRequest_badParity ..
    rw [← hbad]
    exact ⟨fun i hi => memWrite_badParity_in hw hi, fun w h => memWrite_badParity_out hw h⟩
  case burst =>
    intro line w bad s hl hw
    obtain ⟨hmem, heq⟩ := readLine_of_badParity bad hl hw
    exact ⟨hmem, heq, heq ▸ readLine_badParity bad line s⟩
  case dramRead =>
    intro addr n k bad s hn
    exact ⟨_, if_neg (Nat.not_lt.mpr hn), (readLines_badParity ..).trans (recordRequest_badParity ..)⟩
  case read =>
    intro r s u i hu hm ht hw hp hr hf hd hwait hpause hi hb
    have hn : reqBytes r = r.len := if_neg (by simp [hw])
    have hexec := exec_fabricRequest_memory hu hm ht (hn ▸ hp) (hn ▸ hr) hf hd hwait
    rw [hpause] at hexec
    obtain ⟨bs, bad, hmem, hout, hpar⟩ := performRequest_read_poisoned (s := issuedNext u) ht hw hi hb
    exact ⟨_, bs, bad, hexec, hmem, hout, hpar⟩
end Sys2Proof.Machine

/-!
PROOFS. The front of the queue, the idle tick, and the state after reset.
-/

namespace Sys2Proof.Machine

/-- Settles O39: a step runs the command at the front. -/
theorem stepRunsFront : Obligations.StepRunsFront := by
  unfold Obligations.StepRunsFront
  intro c rest s
  rfl

theorem runSlew_of_none {n : Nat} {s : State} (h : s.tsu.slew = 0) : runSlew n s = s := by
  unfold runSlew
  simp [h]

/-- Settles O40: with no slew the tick moves the time, its dither accumulator and the always-on count alone. -/
theorem idleStepTicks : Obligations.IdleStepTicks := by
  unfold Obligations.IdleStepTicks
  intro s hpending hslew
  have htick : idleTick s = { s with
      tsu.now := (s.tsu.now + s.tsu.incr + (s.tsu.acc + s.tsu.dither) / 65536) % tsuRange
      tsu.acc := (s.tsu.acc + s.tsu.dither) % 65536
      cpr.aonNs := s.cpr.aonNs + 2 } := runSlew_of_none hslew
  rw [← htick, step, hpending]

/-- Settles O41, by evaluation of the state after reset. -/
theorem resetState : Obligations.ResetState := by
  unfold Obligations.ResetState
  have hqueues : ∀ q ∈ State.reset.cpx.queues, q.lastSeq = none ∧ q.sendSeq = 0 ∧ q.waiting = [] ∧ q.longOps = [] := by
    intro q hq
    obtain rfl := List.eq_of_mem_replicate hq
    exact ⟨rfl, rfl, rfl, rfl⟩
  exact ⟨rfl, rfl, rfl, rfl, rfl, rfl, rfl, rfl, rfl, rfl, hqueues, rfl, rfl, rfl, rfl, rfl, rfl⟩

/-- Settles O42: memory holds nothing at reset. -/
theorem memoryFormAtReset : Obligations.MemoryFormAtReset := by
  unfold Obligations.MemoryFormAtReset
  rfl
end Sys2Proof.Machine

/-!
PROOFS. How the completion of a host command follows from what its own checks and its body answer in the state in which it begins
(13 R330, R333): one rule for each way a command completes.
-/

namespace Sys2Proof.Machine

section
variable {mk : Cmd → Instr} {op : Nat} {lens : Nat → Bool} {lensOf : Cmd → Nat → Bool} {cond : Cmd → State → Prop}
  {ws : Cmd → State → List Word} {key : Cmd → State → Nat} {eff : Cmd → State → State} (body : Cmd → State → Res)

theorem completesOkBy_of_body (hx : ∀ c s, exec (mk c) s = .next (serve op (lensOf c) c s (body c)))
    (hb : ∀ c b, cond c b → body c b = .done (ws c b) (eff c b)) : CompletesOkBy mk op lensOf cond ws eff :=
  fun c s h hc => (hx c s).trans (congrArg _ (serve_done h (hb c _ hc)))

theorem completesOk_of_body (hx : ∀ c s, exec (mk c) s = .next (serve op lens c s (body c)))
    (hb : ∀ c b, cond c b → body c b = .done (ws c b) (eff c b)) : CompletesOk mk op lens cond ws eff :=
  completesOkBy_of_body body hx hb

theorem completesLong_of_body (hx : ∀ c s, exec (mk c) s = .next (serve op lens c s (body c)))
    (hb : ∀ c b, cond c b → body c b = .accepted (key c b) (eff c b)) : CompletesLong mk op lens cond key eff :=
  fun c s h hc hl => (hx c s).trans (congrArg _ (serve_accepted h (hb c _ hc) hl))

theorem completesLater_of_body (hx : ∀ c s, exec (mk c) s = .next (serve op lens c s (body c)))
    (hb : ∀ c b, cond c b → body c b = .deferred (eff c b)) : CompletesLater mk op lens cond eff :=
  fun c s h hc => (hx c s).trans (congrArg _ (serve_deferred h (hb c _ hc)))

end

@[simp] theorem checks_nil (r : Res) : checks [] r = r := rfl

@[simp] theorem checks_cons (b : Bool) (st : Status) (cs : List (Bool × Status)) (r : Res) :
    checks ((b, st) :: cs) r = if b then .refuse st else checks cs r := by
  cases b <;> rfl

end Sys2Proof.Machine

/-!
PROOFS. The commands of the system, of images and configuration, and of diagnostics (13 R339 to R348, 18, 20).
-/

namespace Sys2Proof.Machine

/-- Settles O1. -/
theorem systemCommandsComplete : Obligations.SystemCommandsComplete := by
  unfold Obligations.SystemCommandsComplete
  refine ⟨?nop, ?getInfo, ?sameMode, ?setMode, ?getStatus, ?resetDomain, ?readySub, ?readyInst, ?subscribe⟩
  case nop => exact completesOk_of_body nop (fun _ _ => rfl) fun _ _ _ => rfl
  case getInfo => exact completesOk_of_body (fun _ s => .done (infoWords false s) s) (fun _ _ => rfl) fun _ _ _ => rfl
  case sameMode =>
    refine completesOk_of_body setMode (fun _ _ => rfl) fun c b ⟨hrange, hmap, hshadow, hpending, hsame⟩ => ?_
    simp [setMode, hmap, hshadow, hpending, hsame, Nat.not_lt.mpr hrange]
  case setMode =>
    refine completesOk_of_body setMode (fun _ _ => rfl) fun c b ⟨hrange, hmap, hshadow, hpending, hother, hfits, hcores⟩ => ?_
    have hfree : (!decide (modeOf (field (word c 0) 0 8) = .studio) && !b.aue.cores.isEmpty) = false := by
      obtain h | h := hcores <;> simp [h]
    simp [setMode, hmap, hshadow, hpending, hother, hfits, hfree, Nat.not_lt.mpr hrange]
  case getStatus => exact completesOk_of_body (fun _ s => .done (statusWords s) s) (fun _ _ => rfl) fun _ _ _ => rfl
  case resetDomain =>
    refine completesLong_of_body resetDomain (fun _ _ => rfl) fun c b ⟨hsub, hinst, hfree⟩ => ?_
    have hbad : (decide (field (word c 0) 0 4 ≤ 2) || (decide (field (word c 0) 4 12 ≠ 0xFFF) &&
        decide (instGroups (field (word c 0) 0 4) ≤ field (word c 0) 4 12))) = false := by
      simp
      omega
    have hany : (b.cpx.resetting.any fun r => r.1 = field (word c 0) 0 4) = false := by
      simpa using fun x y h => hfree (x, y) h
    simp only [resetDomain, checks_cons, hbad, hany, checks_nil, Bool.false_eq_true, if_false]
  case readySub =>
    intro sub s hmem
    simp [exec, execResetDomainReady, hmem]
  case readyInst =>
    intro sub inst s hmem hinst
    simp [exec, execResetDomainReady, hmem, hinst]
  case subscribe => exact completesOk_of_body subscribe (fun _ _ => rfl) fun _ _ _ => rfl

/-- Settles O2. -/
theorem imageAndConfigComplete : Obligations.ImageAndConfigComplete := by
  unfold Obligations.ImageAndConfigComplete
  refine ⟨?first, ?following, ?commit, ?verified, ?failed, ?read, ?write, ?configCommit, ?configDone⟩
  case first =>
    refine completesOk_of_body imageWrite (fun _ _ => rfl) fun c b ⟨hmax, hoff, htotal, hlen, hsaving, hopen⟩ => ?_
    simp [imageWrite, hoff, hsaving, hopen, not_lt.mpr hlen]
    omega
  case following =>
    refine completesOk_of_body imageWrite (fun _ _ => rfl) fun c b ⟨hmax, hoff, hin, hlen, hnext, htotal, hsaving, hopen⟩ => ?_
    have hbad : ¬ (2 ^ 26 < (word c 1).toNat ∨ (word c 1).toNat ≤ (word c 0).toNat ∨
        (word c 1).toNat + 3 < (word c 0).toNat + 4 * (c.words.length - 2)) := by omega
    have hoff' : (word c 0).toNat ≠ 0 := by omega
    simp only [imageWrite, checks_cons, checks_nil, hbad, ← hnext, ← htotal, hsaving, hopen, hoff', ne_eq, not_true_eq_false, or_self,
      and_false, decide_false, Bool.false_eq_true, if_false, Option.isSome_none, not_false_eq_true, decide_true, Bool.and_true]
  case commit =>
    refine completesLong_of_body imageCommit (fun _ _ => rfl) fun c b ⟨hmax, hmode, hsaving, hopen⟩ => ?_
    have hm : ¬ (b.cpx.mode ≠ .service ∧ b.cpx.mode ≠ .shadow) := by tauto
    simp only [imageCommit, checks_cons, checks_nil, not_lt.mpr hmax, hm, hsaving, hopen, decide_false, Bool.false_eq_true, if_false,
      Option.isSome_none]
  case verified =>
    intro len act s t hc hsaving hlen htotal hver ht
    subst ht
    simp only [exec, execImageCommitDone, hc, hsaving, hver, ← hlen, ← htotal, ne_eq, not_true_eq_false, or_self, if_false,
      Bool.not_true, Bool.false_eq_true]
    rfl
  case failed =>
    intro len r act ok s hc hsaving hr hr0
    simp only [exec, execImageCommitDone, hc, hsaving]
    cases ok <;> cases hv : imageVerified (fwOf s (idleFw s)).content <;> simp_all
  case read => 
    refine completesOk_of_body configRead (fun _ _ => rfl) fun c b h => ?_
    simp [configRead, Option.isSome_iff_ne_none.mp h]
  case write =>
    refine completesOk_of_body configWrite (fun _ _ => rfl) fun c b ⟨hro, hlen, hwords, hopen⟩ => ?_
    simp [configWrite, hro, hlen, hwords, hopen]
  case configCommit =>
    refine completesLong_of_body (fun _ => configCommit) (fun _ _ => rfl) fun c b ⟨hbad, hsaving, hswitch, hopen⟩ => ?_
    simp [configCommit, hbad, hsaving, hswitch, hopen]
  case configDone =>
    intro s hopen hsaving
    simp [exec, execConfigCommitDone, hopen, hsaving]

/-- Settles O3. -/
theorem diagnosticsComplete : Obligations.DiagnosticsComplete := by
  unfold Obligations.DiagnosticsComplete
  refine ⟨?traceCtrl, ?traceRead, ?counterRead, ?faultLogRead, ?loopback, ?loopbackDone⟩
  case traceCtrl =>
    refine completesOk_of_body traceCtrl (fun _ _ => rfl) fun c b hmode => ?_
    simp [traceCtrl, hmode]
  case traceRead =>
    refine completesOk_of_body traceRead (fun _ _ => rfl) fun c b ⟨hmin, hmax⟩ => ?_
    have hrange : ¬ ((word c 1).toNat < 1 ∨ 1023 < (word c 1).toNat) := by omega
    simp only [traceRead, checks_cons, hrange, decide_false, Bool.false_eq_true, if_false, checks_nil]
  case counterRead =>
    refine completesOk_of_body counterRead (fun _ _ => rfl) fun c b ⟨⟨n, hsize, hinst⟩, hup⟩ => ?_
    simp [counterRead, hsize, not_le.mpr hinst, hup]
  case faultLogRead =>
    refine completesOk_of_body faultLogRead (fun _ _ => rfl) fun c b ⟨hmin, hmax⟩ => ?_
    have hrange : ¬ ((word c 1).toNat < 1 ∨ 1000 < (word c 1).toNat) := by omega
    simp only [faultLogRead, checks_cons, hrange, decide_false, Bool.false_eq_true, if_false, checks_nil]
  case loopback =>
    refine completesLong_of_body loopback (fun _ _ => rfl) fun c b ⟨htarget, hmin, hmax, hmode, hfree, hup⟩ => ?_
    have hrange : ¬ ((word c 1).toNat < 1 ∨ 60000 < (word c 1).toNat) := by omega
    have hdown : (if field (word c 0) 0 8 ≤ 6 then domainDown b (20 + field (word c 0) 0 8) || subDown b 4 else subDown b 6) = false := by
      split at hup <;> simp_all
    simp only [loopback, checks_cons, htarget, hrange, hmode, hdown, Bool.not_true, decide_false, Bool.or_self, Bool.false_eq_true,
      if_false, ne_eq, not_true_eq_false, List.contains_eq_mem, hfree, checks_nil]
  case loopbackDone =>
    intro target errors mib t s a hmem hend ha
    simp [exec, execLoopbackDone, hmem, hend, ha]

end Sys2Proof.Machine

/-!
PROOFS. The time base: its commands, its sources, pulses, steps and comparators, and the registers (15 R369 to R393, 21).
-/

namespace Sys2Proof.Machine

/-- Settles O4. -/
theorem timeCommandsComplete : Obligations.TimeCommandsComplete := by
  unfold Obligations.TimeCommandsComplete
  refine ⟨?read, ?source, ?threshold, ?utc, ?step⟩
  case read => exact completesOk_of_body _ (fun _ _ => rfl) fun _ _ _ => rfl
  case source =>
    refine completesOk_of_body _ (fun _ _ => rfl) fun c b ⟨hrange, howner, hcmp⟩ => ?_
    have hsync : ¬ (field (word c 1) 0 2 ≠ 0 ∧ b.tsu.syncOwner ≠ 1) := by tauto
    have hclaim : ¬ (field (word c 1) 0 2 = 2 ∧ (cmpOf b (field (word c 1) 8 6)).owner ≠ 1) := by tauto
    simp only [checks_cons, hrange, hsync, hclaim, decide_false, Bool.false_eq_true, if_false, checks_nil]
    rfl
  case threshold =>
    refine completesOk_of_body _ (fun _ _ => rfl) fun c b ⟨hjumpMin, hjumpMax, hlateMin, hlateMax⟩ => ?_
    have hbad : timeThresholdBad (word c 0) (word c 1) = false := by
      simp [timeThresholdBad]
      omega
    simp only [checks_cons, hbad, Bool.false_eq_true, if_false, checks_nil]
  case utc =>
    refine completesOk_of_body _ (fun _ _ => rfl) fun c b ⟨hfn, hstep⟩ => ?_
    simp [hfn, hstep, setUtcOffset]
  case step =>
    refine completesLater_of_body _ (fun _ _ => rfl) fun c b ⟨hns, hfn, hrefused, hstep, hmin, hmax⟩ => ?_
    have hnone : ¬ (field (word c 0) 0 2 = 0 ∧ b.tsu.lastRefused = none) := by
      rintro ⟨h, hn⟩
      simpa [hn] using hrefused h
    have hnano : ¬ (field (word c 0) 0 2 = 1 ∧ 1000000000 ≤ (word c 3).toNat) := fun ⟨h, hle⟩ => absurd (hns h) (Nat.not_lt.mpr hle)
    have hrange : ¬ ((b.tsu.now : Int) + stepDelta c b < 0 ∨ (tsuRange : Int) ≤ b.tsu.now + stepDelta c b) := by omega
    simp only [checks_cons, hnone, hnano, hrange, hstep, hfn, decide_false, Bool.and_false, Bool.false_eq_true, if_false,
      Option.isSome_none, checks_nil]

/-- Settles O5. -/
theorem timeEventsComplete : Obligations.TimeEventsComplete := by
  unfold Obligations.TimeEventsComplete
  refine ⟨?update, ?ignored, ?loss, ?halfSecond, ?pulse, ?edge, ?ppsWidth, ?evtWidth, ?stepZero, ?step, ?fire, ?firePps⟩
  case update => exact fun src tSrc tCap s hq hb => congrArg _ (if_pos ⟨hq, hb⟩)
  case ignored => exact fun src tSrc tCap s h => congrArg _ (if_neg h)
  case loss => exact fun src s hq => congrArg _ (if_pos hq)
  case halfSecond =>
    intro s hfn hhalf
    simp only [exec, execPpsInputPulse, hfn, ne_eq, not_true_eq_false, if_false, if_pos hhalf]
  case pulse =>
    intro s hfn hbelow hset hlen hapart
    have hnot : ¬ ((capture s).1 % secUnits * 2 = secUnits) := by omega
    have htake : ((capture s).1 :: s.tsu.ppsTimes).take 5 = (capture s).1 :: s.tsu.ppsTimes := List.take_of_length_le hlen.le
    have hframe : (capture s).2.tsu = s.tsu ∧ (capture s).2.cpr = s.cpr := ⟨rfl, rfl⟩
    simp only [exec, execPpsInputPulse, hfn, ne_eq, not_true_eq_false, if_false, if_neg hnot, if_pos hbelow, hframe, htake, hlen, hapart,
      hset, not_false_eq_true, decide_true, Bool.and_self, if_true]
  case edge =>
    intro s howner hset hin
    simp [exec, execEvtInputEdge, howner, hset, hin]
  case ppsWidth =>
    intro s h
    simp [exec, execPulseWidthExpiry, h]
  case evtWidth =>
    intro s h
    simp [exec, execPulseWidthExpiry, h]
  case stepZero =>
    intro s a fn qi ha hstep hset
    simp only [exec, execStepApply, hstep, ← ha, hset, decide_false, Bool.not_false, if_true, Bool.false_eq_true, if_false, and_self]
  case step =>
    intro s a m d fn ha hstep hd hset hm
    simp only [exec, execStepApply, hstep, ← ha, hset, hd, decide_false, Bool.false_eq_true, if_false, false_and, ← hm]
  case fire =>
    intro n s a hn harmed ha hpps hevt
    have h64 : ¬ 64 ≤ n := by omega
    have hp : ¬ (a.tsu.syncFn = 2 ∧ a.tsu.ppsCmp = n ∧ (cmpOf s n).owner = 1) := by tauto
    have he : ¬ (a.tsu.evtSet = true ∧ a.tsu.evtOut = true ∧ a.tsu.evtCmp = n ∧ a.tsu.evtOwner = 1) := by
      rintro ⟨h1, h2, h3, -⟩
      simp_all
    simp only [exec, execComparatorFire, h64, harmed, Bool.not_true, Bool.false_eq_true, or_self, if_false, ← ha, hp, fireEvt, he]
  case firePps =>
    intro n s a p hn harmed howner ha hfn hcmp hset hp
    have h64 : ¬ 64 ≤ n := by omega
    have hfire : Machine.firePps n a = armCmp n (nextSecond p) p := by rw [Machine.firePps, if_neg hset, hp]
    simp only [exec, execComparatorFire, h64, harmed, Bool.not_true, Bool.false_eq_true, or_self, if_false, ← ha, hfn, hcmp, howner,
      and_self, if_true, hfire]

/-- An access that is let through has its effect. -/
theorem regAccess_of_reaches {write : Bool} {addr : Nat} {s : State} (eff : State → State) (h : Reaches write addr s) :
    regAccess write addr eff s = eff s := by
  obtain ⟨hstatus, hdenied⟩ := h
  simp [regAccess, hstatus, hdenied]

/-- Nothing of a window that is down is reached. -/
theorem regAccess_of_down {write : Bool} {addr : Nat} {s : State} (eff : State → State) (h : accessStatus s addr ≠ none) :
    regAccess write addr eff s = s :=
  if_pos h

theorem accessStatus_of_subDown {addr : Nat} {s : State} (hword : addr % 4 = 0) (hwin : addr / 65536 < 16) (hcpr : addr / 65536 ≠ 1)
    (hdown : subDown s (addr / 65536) = true) : accessStatus s addr ≠ none := by
  have h16 : ¬ 16 < addr / 65536 := by omega
  have hne : addr / 65536 ≠ 16 := by omega
  simp [accessStatus, windowOf, hword, h16, hne, hcpr, hdown]

/-- The words of a comparator are registers of TSU. -/
theorem cmpAddr_down {n which : Nat} {s : State} (hn : n < 64) (hwhich : which < 4) (hdown : subDown s 5 = true) :
    accessStatus s (cmpAddr n which) ≠ none := by
  have hwin : cmpAddr n which / 65536 = 5 := by unfold cmpAddr; omega
  exact accessStatus_of_subDown (by unfold cmpAddr; omega) (by omega) (by omega) (by rw [hwin]; exact hdown)

theorem modCmp_congr {n : Nat} {f g : Cmp → Cmp} (s : State) (h : ∀ c, f c = g c) : modCmp n f s = modCmp n g s := by
  rw [funext h]

/-- The control word of a comparator takes its owner's writes alone: bit 0 arms it with its words, and bit 1 clears fired. -/
theorem writeCmpCtrl_of_owns {n : Nat} {v : Word} {w : Writer} {s : State} (hn : n < 64) (howns : ownsCmp (cmpOf s n) w = true) :
    writeCmpCtrl n v w s = modCmp n (fun c =>
      if v.getLsbD 0 = true then { c with armed := true, value := cmpValue c, dirty := false, fired := c.fired && !v.getLsbD 1 }
      else { c with armed := false, fired := c.fired && !v.getLsbD 1 }) s := by
  rw [writeCmpCtrl, if_pos ⟨hn, howns⟩]
  refine modCmp_congr s fun c => ?_
  rcases Bool.eq_false_or_eq_true (v.getLsbD 0) with h0 | h0 <;> rcases Bool.eq_false_or_eq_true (v.getLsbD 1) with h1 | h1 <;>
    simp only [bit, h0, h1, if_true, Bool.false_eq_true, if_false, Bool.not_true, Bool.not_false, Bool.and_true, Bool.and_false, cmpValue]

theorem writeCmpCtrl_of_not_owns {n : Nat} {v : Word} {w : Writer} {s : State} (howns : ownsCmp (cmpOf s n) w = false) :
    writeCmpCtrl n v w s = s :=
  if_neg (by simp [howns])

theorem writeCmpWord_of_not_owns {n which : Nat} {v : Word} {w : Writer} {s : State} (howns : ownsCmp (cmpOf s n) w = false) :
    writeCmpWord n which v w s = s :=
  if_neg (by simp [howns])

/-- Settles O6. -/
theorem timeRegistersComplete : Obligations.TimeRegistersComplete := by
  unfold Obligations.TimeRegistersComplete
  refine ⟨?incr, ?dither, ?timeRead, ?cmpRead, ?words, ?foreign, ?down, ?arm, ?disarm, ?clear⟩
  case incr => exact fun v s h => congrArg _ (regAccess_of_reaches _ h)
  case dither => exact fun v s h => congrArg _ (regAccess_of_reaches _ h)
  case timeRead => exact fun who s h => congrArg _ (regAccess_of_reaches _ h)
  case cmpRead => exact fun who n s hn h => congrArg _ ((if_pos hn).trans (regAccess_of_reaches _ h))
  case words =>
    intro n which v w s hn hwhich howns h
    refine congrArg _ ((if_pos hwhich).trans ((regAccess_of_reaches _ h).trans ?_))
    rw [writeCmpWord, if_pos ⟨hn, howns⟩]
    refine modCmp_congr s fun c => ?_
    obtain rfl | rfl | rfl : which = 0 ∨ which = 1 ∨ which = 2 := by omega
    · simp
    · have hfrac : field v 16 16 = v.toNat / 65536 := by
        have := v.isLt
        simp only [field, Nat.shiftRight_eq_div_pow]
        omega
      rw [hfrac]
      rfl
    · simp
  case foreign =>
    intro n which v w s howns
    refine ⟨fun h => congrArg Host.Outcome.next ?_, fun h => ?_⟩
    · split
      · exact (regAccess_of_reaches _ h).trans (writeCmpWord_of_not_owns howns)
      · rfl
    · have hctrl : regAccess true (cmpAddr n 3) (writeCmpCtrl n v w) s = s :=
        (regAccess_of_reaches _ h).trans (writeCmpCtrl_of_not_owns howns)
      exact ⟨congrArg _ hctrl, congrArg _ hctrl⟩
  case down =>
    intro n which v w s hdown hn hwhich
    have hctrl : regAccess true (cmpAddr n 3) (writeCmpCtrl n v w) s = s := regAccess_of_down _ (cmpAddr_down hn (by omega) hdown)
    refine ⟨congrArg _ (regAccess_of_down _ ?_), congrArg _ (regAccess_of_down _ ?_), congrArg Host.Outcome.next ?_, congrArg _ hctrl, congrArg _ hctrl⟩
    · exact accessStatus_of_subDown (by decide) (by decide) (by decide) hdown
    · exact accessStatus_of_subDown (by decide) (by decide) (by decide) hdown
    · exact (if_pos hwhich).trans (regAccess_of_down _ (cmpAddr_down hn (by omega) hdown))
  case arm =>
    intro n v w s hn howns h0 h
    refine congrArg _ ((regAccess_of_reaches _ h).trans ?_)
    rw [writeCmpCtrl_of_owns hn howns]
    exact modCmp_congr s fun c => if_pos h0
  case disarm =>
    intro n v w s hn howns h0 h
    refine congrArg _ ((regAccess_of_reaches _ h).trans ?_)
    rw [writeCmpCtrl_of_owns hn howns]
    exact modCmp_congr s fun c => if_neg (h0 ▸ Bool.false_ne_true)
  case clear =>
    intro n v w s hn howns h1 h0 h
    refine congrArg _ ((regAccess_of_reaches _ h).trans ?_)
    rw [writeCmpCtrl_of_owns hn howns]
    exact modCmp_congr s fun c => by simp only [h0, h1, Bool.false_eq_true, if_false, Bool.not_true, Bool.and_false]

/-- Settles O7. -/
theorem registerCommandsComplete : Obligations.RegisterCommandsComplete := by
  unfold Obligations.RegisterCommandsComplete
  refine ⟨?read, ?write, ?xing, ?lanePol, ?lanePolLocked, ?key, ?keyForeign, ?counter, ?plain, ?down, ?reset, ?noReset⟩
  case read =>
    refine completesOk_of_body regRead (fun _ _ => rfl) fun c b ⟨hmin, hmax, hrange, hdenied⟩ => ?_
    have hn : ¬ ((word c 1).toNat < 1 ∨ 4096 < (word c 1).toNat) := by omega
    simp only [regRead, checks_cons, hn, decide_false, Bool.false_eq_true, if_false, checks_nil, hrange, hdenied]
  case write =>
    intro c s h hmin hlen hrange hdenied hkeys
    have hwords : c.words.length ≤ 4096 := by
      obtain ⟨hh, -⟩ := start_ready h
      by_contra hlong
      have : between 3 4096 c.words.length = false := by simp [between]; omega
      simp [headerChecks, firstFail, this] at hh
      split at hh <;> simp at hh
    have hn : ¬ ((word c 1).toNat < 1 ∨ 4094 < (word c 1).toNat) := by omega
    refine congrArg (fun t => Host.Outcome.next (settleReset t)) (serve_done h ?_)
    simp only [regWrite, checks_cons, hn, hlen, hkeys, ne_eq, not_true_eq_false, decide_false, Bool.false_eq_true, if_false, checks_nil,
      hrange, hdenied]
  case xing => exact fun v s h => congrArg _ (regAccess_of_reaches _ h)
  case lanePol =>
    intro v s h hlocked
    refine congrArg _ ((regAccess_of_reaches _ h).trans ?_)
    simp [writeLanePol, hlocked, field, Nat.shiftRight_eq_div_pow]
  case lanePolLocked =>
    intro v w s h hlocked
    refine congrArg _ ((regAccess_of_reaches _ h).trans ?_)
    simp [writeLanePol, hlocked, rwlFault, windowOf]
  case key =>
    intro addr v s hlow hhigh hword h
    have hwin : addr.toNat / 65536 = 9 := by omega
    have hoff : addr.toNat % 65536 = addr.toNat - 0x90000 := by omega
    have hmin : 0x100 ≤ addr.toNat % 65536 := by omega
    rw [exec, execKeyRegisterWrite]
    rw [if_pos ⟨rfl, hwin, hmin, hword⟩, regAccess_of_reaches _ h, hoff]
  case keyForeign => exact fun addr v w s hw => congrArg _ (if_neg fun h => hw h.1)
  case counter => exact fun addr s h => congrArg _ (regAccess_of_reaches _ h)
  case plain => exact fun addr v w s h => congrArg (fun t => Host.Outcome.next (settleReset t)) (regAccess_of_reaches _ h)
  case down =>
    intro addr v w s hdown hwin hword hcpr
    have hst := accessStatus_of_subDown hword hwin hcpr hdown
    refine ⟨congrArg _ (regAccess_of_down _ hst), congrArg (fun t => Host.Outcome.next (settleReset t)) (regAccess_of_down _ hst), congrArg Host.Outcome.next ?_⟩
    split
    · exact regAccess_of_down _ hst
    · rfl
  case reset => exact fun s => by rw [exec, execSysResetReqWrite, if_pos rfl]
  case noReset => exact fun v s hv => by rw [exec, execSysResetReqWrite, if_neg hv]

end Sys2Proof.Machine

/-!
PROOFS. The PON terminal: its commands, synchronisation, PLOAM, grants, and services (11 R271 to R315).
-/

namespace Sys2Proof.Machine

theorem SendsOnly.ptu {s t : State} (h : SendsOnly s t) : t.ptu = s.ptu := by rw [h]

/-- A count touches the counters of the running bins and the totals, and nothing else of the terminal. -/
theorem ponCount_ptu (i k : Nat) (s : State) : ∃ a b c, (ponCount i k s).ptu =
    { s.ptu with cur15.counters := a, curDay.counters := b, total := c } := by
  unfold ponCount
  dsimp only
  split
  · have h : (evtPon 11 [w32 i] s).ptu = s.ptu := (raiseEvent_sends ..).ptu
    rw [h]
    exact ⟨_, _, _, rfl⟩
  · exact ⟨_, _, _, rfl⟩

@[simp] theorem pathOf_ponCount (i k path : Nat) (s : State) : pathOf (ponCount i k s) path = pathOf s path := by
  obtain ⟨a, b, c, h⟩ := ponCount_ptu i k s
  unfold pathOf
  rw [h]

@[simp] theorem ponCount_frag (i k : Nat) (s : State) : (ponCount i k s).ptu.frag = s.ptu.frag := by
  obtain ⟨a, b, c, h⟩ := ponCount_ptu i k s
  rw [h]

/-- Settles O8. -/
theorem ponCommandsComplete : Obligations.PonCommandsComplete := by
  unfold Obligations.PonCommandsComplete
  refine ⟨?status, ?profileRead, ?profileSet, ?profileRestart, ?delegate, ?answer, ?delegated, ?pmRead, ?arm, ?disarm, ?protect⟩
  case status => exact completesOk_of_body _ (fun _ _ => rfl) fun _ _ _ => rfl
  case profileRead =>
    refine completesOkBy_of_body ponSetProfile (fun _ _ => rfl) fun c b hfn => ?_
    simp [ponSetProfile, hfn]
  case profileSet =>
    refine completesOkBy_of_body ponSetProfile (fun _ _ => rfl) fun c b ⟨hfn, hrate, hrestart⟩ => ?_
    simp [ponSetProfile, hfn, hrate, hrestart]
  case profileRestart =>
    refine completesOkBy_of_body ponSetProfile (fun _ _ => rfl) fun c b ⟨hfn, hrate, hrestart, hmode, hsaving⟩ => ?_
    simp [ponSetProfile, hfn, hrate, hrestart, hmode, hsaving, restartPon]
  case delegate =>
    refine completesOkBy_of_body ponOmciRelay (fun _ _ => rfl) fun c b ⟨hfn, hclasses⟩ => ?_
    have hany : ((delegatedOf ((c.words.drop 1).take 8)).any fun k => decide (k ≠ 0) && omciClasses.contains k) = false := by
      simpa using hclasses
    simp only [ponOmciRelay, hfn, checks_cons, hany, Bool.false_eq_true, if_false, checks_nil]
  case answer =>
    refine completesOkBy_of_body ponOmciRelay (fun _ _ => rfl) fun c b ⟨hfn, hmin, hmax, r, hmem, htrans⟩ => ?_
    have hrange : ¬ (field (word c 1) 0 16 < 48 ∨ 1980 < field (word c 1) 0 16) := by omega
    have hwaits : (b.ptu.relays.all fun r => decide (r.trans ≠ field (word c 2) 0 8 * 256 + field (word c 2) 8 8)) = false := by
      simpa using ⟨r, hmem, htrans⟩
    simp only [ponOmciRelay, hfn, checks_cons, hrange, hwaits, decide_false, Bool.false_eq_true, if_false, checks_nil]
  case delegated =>
    refine completesOkBy_of_body ponOmciRelay (fun _ _ => rfl) fun c b hfn => ?_
    simp only [ponOmciRelay, hfn]
  case pmRead =>
    intro c s b x h hb hbin hport
    refine congrArg _ (serve_done h ?_)
    have hp : (bit (word c 0) 0 && decide (8 ≤ field (word c 0) 20 4)) = false := by
      by_cases h0 : bit (word c 0) 0 = true
      · simp [hport h0]
      · simp [h0]
    simp only [ponPmRead, ← hb, hbin, checks_cons, hp, Bool.false_eq_true, if_false, checks_nil, decide_eq_true_eq]
  case arm =>
    refine completesOk_of_body ponProtectCtrl (fun _ _ => rfl) fun c b hfn => ?_
    simp only [ponProtectCtrl, hfn]
  case disarm =>
    refine completesOk_of_body ponProtectCtrl (fun _ _ => rfl) fun c b hfn => ?_
    simp only [ponProtectCtrl, hfn]
  case protect =>
    refine completesOk_of_body ponProtectCtrl (fun _ _ => rfl) fun c b hfn => ?_
    simp only [ponProtectCtrl, hfn]

/-- The state in which a frame at its expected position is judged: its HEC counted. -/
def hecCounted (f : PhyFrame) (s : State) : State := if f.hec = 1 then ponCount 4 1 s else if f.hec = 2 then ponCount 5 1 s else s

@[simp] theorem pathOf_hecCounted (f : PhyFrame) (path : Nat) (s : State) : pathOf (hecCounted f s) path = pathOf s path := by
  unfold hecCounted
  split
  · simp
  · split <;> simp

theorem hecCounted_of_good {f : PhyFrame} (s : State) (h : f.hec ≤ 1) : hecCounted f s = if f.hec = 1 then ponCount 4 1 s else s := by
  unfold hecCounted
  rw [if_neg (show ¬ f.hec = 2 by omega)]

/-- A frame at its expected position on an enabled path out of HUNT is judged in SYNC, and else confirms a candidate. -/
theorem exec_expectedFramePosition {path : Nat} {s : State} (f : PhyFrame) (hpath : path < 2) (hen : (pathOf s path).enabled = true)
    (hsync : (pathOf s path).sync ≠ .hunt) : exec (.expectedFramePosition path f) s =
      .next (if inSync (pathOf s path) then judgeAt path (((pathOf s path).counter + frameStep s) % 2 ^ 51) f (hecCounted f s)
        else confirmAt path (((pathOf s path).counter + frameStep s) % 2 ^ 51) f (hecCounted f s)) := by
  have h : ¬ (2 ≤ path ∨ (!(pathOf s path).enabled) = true ∨ (pathOf s path).sync = .hunt) := by simp [hen, hsync]; omega
  rw [exec, execExpectedFramePosition]
  exact if_neg h

/-- The state in which a confirming frame of the 50G-PON path is noted. -/
def candidateNoted (path : Nat) (s : State) : State :=
  if path = 0 then { s with ptu.noCand50 := false, ptu.confNs := s.cpr.aonNs } else s

theorem pathOf_candidateNoted (path : Nat) (s : State) : pathOf (candidateNoted path s) path = pathOf s path := by
  unfold candidateNoted
  split <;> rfl

theorem confirmAt_of_confirm1 {path expected : Nat} {f : PhyFrame} {s : State} (hps : f.psyncErrors = 0) (hhec : f.hec ≤ 1)
    (hctr : f.counter = expected) (hsync : (pathOf s path).sync = .confirm1) :
    confirmAt path expected f s = modPath path (fun p => { p with sync := .confirm2, counter := f.counter }) (candidateNoted path s) := by
  have h : ¬ (f.psyncErrors ≠ 0 ∨ 1 < f.hec ∨ f.counter ≠ expected) := by omega
  rw [← pathOf_candidateNoted path s] at hsync
  rw [confirmAt, if_neg h]
  exact if_pos hsync

theorem confirmAt_of_confirm2 {path expected : Nat} {f : PhyFrame} {s : State} (hps : f.psyncErrors = 0) (hhec : f.hec ≤ 1)
    (hctr : f.counter = expected) (hsync : (pathOf s path).sync = .confirm2) :
    confirmAt path expected f s = (frameCaptured path f <| frameDelivered path f
      (syncGained path (modPath path (fun p => { p with counter := f.counter }) (candidateNoted path s)))) := by
  have h : ¬ (f.psyncErrors ≠ 0 ∨ 1 < f.hec ∨ f.counter ≠ expected) := by omega
  rw [← pathOf_candidateNoted path s] at hsync
  rw [confirmAt, if_neg h]
  exact if_neg (by rw [← candidateNoted, hsync]; decide)

/-- Settles O9. -/
theorem ponSynchronisationComplete : Obligations.PonSynchronisationComplete := by
  unfold Obligations.PonSynchronisationComplete
  refine ⟨?candidate, ?confirm1, ?confirm2, ?lost, ?miss, ?good, ?noCandidate, ?headerBad, ?broken, ?noKey, ?piece, ?clock⟩
  case candidate =>
    intro path counter s hpath hen hsync
    exact congrArg Host.Outcome.next (if_pos ⟨hpath, hen, hsync⟩)
  case confirm1 =>
    intro path f s c d hpath hen hsync hps hhec hctr hc hd
    rw [exec_expectedFramePosition f hpath hen (by simp [hsync]), inSync, hsync]
    rw [← hecCounted_of_good s hhec] at hc
    simp only [decide_false, reduceCtorEq, or_self, Bool.false_eq_true, if_false]
    rw [confirmAt_of_confirm1 hps hhec hctr (by simpa using hsync), ← hc, hd, candidateNoted]
  case confirm2 =>
    intro path f s c d hpath hen hsync hps hhec hctr hc hd
    rw [exec_expectedFramePosition f hpath hen (by simp [hsync]), inSync, hsync]
    rw [← hecCounted_of_good s hhec] at hc
    simp only [decide_false, reduceCtorEq, or_self, Bool.false_eq_true, if_false]
    rw [confirmAt_of_confirm2 hps hhec hctr (by simpa using hsync), ← hc, hd, candidateNoted]
  case lost =>
    intro path f s c hpath hen hsync hbad hc
    have hnot : inSync (pathOf s path) = false := by obtain h | h := hsync <;> simp [inSync, h]
    have hhunt : (pathOf s path).sync ≠ .hunt := by obtain h | h := hsync <;> simp [h]
    rw [exec_expectedFramePosition f hpath hen hhunt, hnot, hc, if_neg (by decide), confirmAt, if_pos hbad]
    rfl
  case miss =>
    intro path f s c hpath hen hsync hbad hc
    have hhunt : (pathOf s path).sync ≠ .hunt := by rintro h; simp [inSync, h] at hsync
    rw [exec_expectedFramePosition f hpath hen hhunt, if_pos hsync, judgeAt, if_pos hbad, pathOf_hecCounted]
    constructor
    · intro hm
      rw [if_neg (not_le.mpr hm), hc]
      rfl
    · intro hm
      rw [if_pos hm, hc]
      rfl
  case good =>
    intro path f s c hpath hen hsync hps hhec hc
    have hhunt : (pathOf s path).sync ≠ .hunt := by rintro h; simp [inSync, h] at hsync
    have hgood : ¬ (2 < f.psyncErrors ∨ f.hec = 2) := by omega
    rw [exec_expectedFramePosition f hpath hen hhunt, if_pos hsync, judgeAt, if_neg hgood, hecCounted_of_good s hhec, hc]
  case noCandidate =>
    intro s a hen hsync ha
    simp [exec, execRateNoCandidateTimeout, hen, hsync, ha]
  case headerBad =>
    intro f s hsync hword hbad
    simp [exec, execXgemFrame, hsync, hword, hbad]
  case broken =>
    intro f s hsync hword hgood huni hbroken hlast
    simp only [exec, execXgemFrame, hsync, hword, hgood, huni, hbroken, hlast, Bool.not_true, Bool.false_eq_true, or_self, false_and,
      and_false, if_true, if_false]
  case noKey =>
    intro f s hsync hword hgood huni hbroken hkey
    simp only [exec, execXgemFrame, hsync, hword, hgood, huni, hbroken, hkey, Bool.not_true, Bool.not_false, Bool.false_eq_true, or_self,
      false_and, and_false, if_true, if_false]
  case piece =>
    intro f d s t hsync hword hgood huni hbroken hkey hlast hmac hd hfrag hbytes ht
    have hlong : ¬ 2000 < f.bytes := by omega
    simp only [exec, execXgemFrame, hsync, hword, hgood, huni, hbroken, hkey, hlast, hmac, hd, hlong, ponCount_frag, hfrag, Bool.not_true,
      Bool.false_eq_true, or_self, false_and, and_false, if_false, List.find?_nil, Option.map_none, Option.getD_none,
      zero_add, List.filter_nil, ht]
  case clock =>
    intro s hsync
    exact congrArg Host.Outcome.next (if_pos hsync)

theorem ploamWhen_of_not_taken {always : Bool} {p : Ploam} {s : State} (f : State → State) (h : takePloam always p s = none) :
    ploamWhen always p s f = .next s := by
  simp only [ploamWhen, h]

theorem ploamWhen_of_micBad {always : Bool} {p : Ploam} {s t : State} (f : State → State) (h : takePloam always p s = some t)
    (hm : p.micBad = true) : ploamWhen always p s f = .next (ponCount 14 1 s) := by
  simp only [ploamWhen, h, hm, if_true]

theorem ploamWhen_of_taken {always : Bool} {p : Ploam} {s t : State} (f : State → State) (h : takePloam always p s = some t)
    (hm : p.micBad = false) : ploamWhen always p s f = .next (f t) := by
  simp only [ploamWhen, h, hm, Bool.false_eq_true, if_false]

/-- What a message taken with a good MIC does follows from its effect on the state in which it is taken. -/
theorem ploam_next {p : Ploam} {s t u : State} {f : State → State} (h : takePloam false p s = some t) (hm : p.micBad = false)
    (hf : f t = u) : ploam p s f = .next u :=
  (ploamWhen_of_taken f h hm).trans (congrArg _ hf)

/-- Settles O10. -/
theorem ponPloamComplete : Obligations.PonPloamComplete := by
  unfold Obligations.PonPloamComplete
  refine ⟨?notTaken, ?micBad, ?deactivate, ?taken⟩
  case notTaken =>
    exact fun p s h => ⟨ploamWhen_of_not_taken _ h, ploamWhen_of_not_taken _ h, ploamWhen_of_not_taken _ h, ploamWhen_of_not_taken _ h⟩
  case micBad => exact fun p s t h hm => ⟨ploamWhen_of_micBad _ h hm, ploamWhen_of_micBad _ h hm, ploamWhen_of_micBad _ h hm⟩
  case deactivate => exact fun p s t h hm hact => (ploamWhen_of_taken _ h hm).trans (congrArg Host.Outcome.next (if_neg hact))
  case taken =>
    intro p s t h hm
    refine ⟨fun hindex hmin hmax => ?profile, fun hact hserial => ?assign, fun hact => ?rangingO4, fun hact => ?rangingO5,
      fun hopt hserial h7 h1 => ?disable, fun hopt hact hserial => ?enable, fun hact => ?registration, fun hact hopt => ?allocAdd,
      fun hact hopt => ?allocRemove, fun hact hmin hmax hopt => ?keyNew, fun hact hmin hmax hopt hidx => ?keySwitch,
      fun hact hmin hmax hopt => ?keyRetire, fun hans hopt => ?sleepOn, fun hans hopt => ?sleepOff, ?power, ?inquire, fun hans => ?refused⟩
    case profile =>
      have hok : ¬ (4 ≤ p.value ∨ p.rate < 1 ∨ 3 < p.rate) := by omega
      exact ploam_next h hm (if_neg hok)
    case assign => exact ploam_next h hm (if_pos ⟨hact, hserial⟩)
    case rangingO4 => exact ploam_next h hm (if_pos hact)
    case rangingO5 => exact ploam_next h hm (by simp [hact, ackPloam])
    case disable => exact ploam_next h hm (by simp [hopt, hserial, h7, h1])
    case enable =>
      refine ploam_next h hm ?_
      obtain hs | hs := hserial <;> simp [hopt, hact, hs]
    case registration => exact ploam_next h hm (if_pos hact)
    case allocAdd => exact ploam_next h hm (by simp [hact, hopt, ackPloam])
    case allocRemove => exact ploam_next h hm (by simp [hact, hopt, ackPloam])
    case keyNew =>
      have hok : ¬ (t.ptu.act ≠ .o5 ∨ p.value < 1 ∨ 2 < p.value) := by simp [hact]; omega
      exact ploam_next h hm ((if_neg hok).trans (if_pos hopt))
    case keySwitch =>
      have hok : ¬ (t.ptu.act ≠ .o5 ∨ p.value < 1 ∨ 2 < p.value) := by simp [hact]; omega
      have h0 : p.option ≠ 0 := by omega
      exact ploam_next h hm ((if_neg hok).trans ((if_neg h0).trans ((if_pos hopt).trans (if_neg hidx))))
    case keyRetire =>
      have hok : ¬ (t.ptu.act ≠ .o5 ∨ p.value < 1 ∨ 2 < p.value) := by simp [hact]; omega
      have h0 : p.option ≠ 0 := by omega
      have h1 : p.option ≠ 1 := by omega
      exact ploam_next h hm ((if_neg hok).trans ((if_neg h0).trans (if_neg h1)))
    case sleepOn => exact ploam_next h hm (by simp [hans, hopt])
    case sleepOff => exact ploam_next h hm (by simp [hans, hopt])
    case power => exact ploam_next h hm rfl
    case inquire => exact ploam_next h hm rfl
    case refused => exact ploam_next h hm (if_pos hans)

/-- The first grant of a burst leaves the terminal's state but for the burst's instant and profile. -/
theorem noteBurst_frame (g : Grant) (s : State) : noteBurst g s =
    { s with ptu.burstNs := (noteBurst g s).ptu.burstNs, ptu.burstProf := (noteBurst g s).ptu.burstProf } := by
  unfold noteBurst
  split <;> rfl

@[simp] theorem noteBurst_act (g : Grant) (s : State) : (noteBurst g s).ptu.act = s.ptu.act := by rw [noteBurst_frame]

@[simp] theorem noteBurst_laser (g : Grant) (s : State) : (noteBurst g s).ptu.laser = s.ptu.laser := by rw [noteBurst_frame]

@[simp] theorem noteBurst_defAlloc (g : Grant) (s : State) : (noteBurst g s).ptu.defAlloc = s.ptu.defAlloc := by rw [noteBurst_frame]

@[simp] theorem noteBurst_onuId (g : Grant) (s : State) : (noteBurst g s).ptu.onuId = s.ptu.onuId := by rw [noteBurst_frame]

@[simp] theorem noteBurst_regInUse (g : Grant) (s : State) : (noteBurst g s).ptu.regInUse = s.ptu.regInUse := by rw [noteBurst_frame]

@[simp] theorem noteBurst_flash (g : Grant) (s : State) : (noteBurst g s).flash = s.flash := by rw [noteBurst_frame]

@[simp] theorem grantPort_noteBurst (g : Grant) (s : State) (alloc : Nat) : grantPort (noteBurst g s) alloc = grantPort s alloc := by
  rw [noteBurst_frame]
  rfl

/-- Settles O11. -/
theorem ponUpstreamComplete : Obligations.PonUpstreamComplete := by
  unfold Obligations.PonUpstreamComplete
  refine ⟨?bad, ?serial, ?ranging, ?data, ?default, ?portBurst, ?defBurst, ?trip, ?to1, ?to2⟩
  case bad =>
    intro g s hsync hrate hbad
    have h : g.bad = true ∨ (!profileUsable s g.profile) = true := by simpa using hbad
    simp only [exec, execBwmapGrant, hsync, hrate, Bool.not_true, Bool.false_eq_true, or_self, if_false, if_pos h]
  case serial =>
    intro g s b hsync hrate hgood hprof hkind hb hact hlaser
    subst hb
    simp only [exec, execBwmapGrant, hsync, hrate, hgood, hprof, Bool.not_true, Bool.false_eq_true, or_self, if_false, hkind, if_true,
      noteBurst_act, hact, noteBurst_laser, hlaser, and_self, draw, noteBurst_flash]
  case ranging =>
    intro g s b hsync hrate hgood hprof hkind hb hact hlaser
    subst hb
    simp [exec, execBwmapGrant, hsync, hrate, hgood, hprof, hkind, hact, hlaser]
  case data =>
    intro g i s t hsync hrate hgood hprof h1 h2 hact hlaser hport ht
    simp [exec, execBwmapGrant, hsync, hrate, hgood, hprof, h1, h2, hact, hlaser, hport, ht]
  case default =>
    intro g s b hsync hrate hgood hprof h1 h2 hact hlaser hport hdef halloc hb
    rw [halloc] at hport
    simp [exec, execBwmapGrant, hsync, hrate, hgood, hprof, h1, h2, hact, hlaser, hport, hdef, halloc, hb]
  case portBurst =>
    intro port g rest s a hact hlaser hport hgrants ha
    simp only [exec, execUpstreamBurst, hact, hlaser, ne_eq, not_true_eq_false, Bool.not_true, Bool.false_eq_true, or_self, if_false,
      hport, if_true, hgrants, ← ha]
    rfl
  case defBurst =>
    intro g gs s a hact hlaser hgrants ha
    simp only [exec, execUpstreamBurst, hact, hlaser, ne_eq, not_true_eq_false, Bool.not_true, Bool.false_eq_true, or_self, if_false,
      lt_irrefl, hgrants, ← ha]
    rfl
  case trip => exact fun s h => congrArg Host.Outcome.next (if_neg (by simp [h]))
  case to1 => exact fun s h hact => congrArg Host.Outcome.next (if_pos ⟨h, hact⟩)
  case to2 => exact fun s h hact => congrArg Host.Outcome.next (if_pos ⟨h, hact⟩)

/-- Settles O12. -/
theorem ponServicesComplete : Obligations.PonServicesComplete := by
  unfold Obligations.PonServicesComplete
  refine ⟨?relayed, ?performed, ?unknown, ?timeout, ?todWaits, ?todPassed, ?todNone, ?hold, ?peek, ?aware, ?protection, ?bin15, ?binDay⟩
  case relayed =>
    intro m s hact hcls hdel
    simp only [exec, execOmciMessage, hact, ne_eq, not_true_eq_false, if_false, hcls, not_false_eq_true, hdel, and_self, if_true]
  case performed =>
    intro m s hact hdel himpl
    simp only [exec, execOmciMessage, hact, ne_eq, not_true_eq_false, if_false, hdel, himpl, Bool.false_eq_true, and_false, if_true]
  case unknown =>
    intro m s hact hdel himpl
    simp only [exec, execOmciMessage, hact, ne_eq, not_true_eq_false, if_false, hdel, himpl, Bool.false_eq_true, and_false, if_true]
  case timeout =>
    intro trans r s a hr ha
    simp only [exec, execOmciRelayTimeout, hr, ← ha]
  case todWaits =>
    intro n sec ns fr s hact hns hfr hlater hsoon
    have hok : ¬ ((fr : Int) < ((activePath s).counter : Int) - 8000 ∨ ((activePath s).counter : Int) + 80000 ≤ (fr : Int) ∨ (fr : Int) < 0) := by omega
    have hl : ((activePath s).counter : Int) < fr := by omega
    simp only [exec, execTimeOfDayPair, hact, hfr, ne_eq, not_true_eq_false, not_le.mpr hns, or_self, if_false, hok, hl, if_true,
      Int.toNat_natCast]
  case todPassed =>
    intro n sec ns fr path cap s hact hns hfr hle hrecent hfind
    have hok : ¬ ((fr : Int) < ((activePath s).counter : Int) - 8000 ∨ ((activePath s).counter : Int) + 80000 ≤ (fr : Int) ∨ (fr : Int) < 0) := by omega
    have hl : ¬ ((activePath s).counter : Int) < fr := by omega
    simp only [exec, execTimeOfDayPair, hact, hfr, ne_eq, not_true_eq_false, not_le.mpr hns, or_self, if_false, hok, hl,
      Int.toNat_natCast, hfind]
  case todNone =>
    intro n sec ns fr s hact hns hfr hle hfind
    have hl : ¬ ((activePath s).counter : Int) < fr := by omega
    simp only [exec, execTimeOfDayPair, hact, hfr, ne_eq, not_true_eq_false, not_le.mpr hns, or_self, if_false, hl,
      Int.toNat_natCast, hfind, ite_self]
  case hold => exact fun s hact hsleep => congrArg Host.Outcome.next (if_pos ⟨hact, hsleep⟩)
  case peek =>
    intro s a p hsleep ha hp
    refine ⟨?_, ?_, ?_, congrArg Host.Outcome.next (if_pos hsleep)⟩
    · simp only [exec, execWatchPeekTick, hsleep, ne_eq, not_true_eq_false, if_false, if_true, ← ha, ← hp]
    · simp only [exec, execWatchPeekTick, hsleep, ne_eq, not_true_eq_false, if_false, one_ne_zero, OfNat.one_ne_ofNat, ← ha, ← hp]
    · simp only [exec, execWatchPeekTick, hsleep, ne_eq, not_true_eq_false, if_false, OfNat.ofNat_ne_zero, if_true, ← ha, ← hp]
  case aware => exact fun s h => congrArg Host.Outcome.next (if_pos h)
  case protection =>
    intro s a f hprot hlods hfired ha hf
    have hexec : exec .protectionTimerExpiry s = .next (if f.ptu.armed = true ∧ f.cti.twin = 1 ∧ f.cti.paired = true then twinTrigger 0 f
        else { f with ptu.trigCount := inc32 f.ptu.trigCount }) := by
      simp only [exec, execProtectionTimerExpiry, hprot, hlods, hfired, Bool.not_false, and_self, if_true, ← ha, ← hf]
    rw [hexec]
    constructor
    · intro h
      rw [if_neg]
      rintro ⟨h1, h2, h3⟩
      simp_all
    · exact fun h1 h2 h3 => congrArg _ (if_pos ⟨h1, h2, h3⟩)
  case bin15 =>
    intro s a ha
    simp only [exec, execPmBinBoundary, Bool.false_eq_true, if_false, ← ha]
  case binDay =>
    intro s a ha
    simp only [exec, execPmBinBoundary, if_true, ← ha]

end Sys2Proof.Machine

/-!
PROOFS. The commands of legs, streams, subscriptions, conferences and shaper nodes (03, 13 R49, R88).
-/

namespace Sys2Proof.Machine

/-- Checks of which none fails let the command through. -/
theorem checks_of_pass {cs : List (Bool × Status)} {r : Res} (h : firstFail cs = none) : checks cs r = r := by
  simp only [checks, h]

/-- Settles O13. -/
theorem legCommandsComplete : Obligations.LegCommandsComplete := by
  unfold Obligations.LegCommandsComplete
  refine ⟨?create, ?modify, ?delete, ?streamAdd, ?streamRemove, ?confCreate, ?confDelete, ?stats, ?statsFree, ?statsClear, ?shapeLeg,
    ?shapeService, ?shapePort⟩
  case create => exact completesOk_of_body legCreate (fun _ _ => rfl) fun c b h => checks_of_pass h
  case modify => exact completesOk_of_body legModify (fun _ _ => rfl) fun c b h => checks_of_pass h
  case delete =>
    refine completesOk_of_body legDelete (fun _ _ => rfl) fun c b h => ?_
    simp [legDelete, h]
  case streamAdd => exact completesOk_of_body streamAdd (fun _ _ => rfl) fun c b h => checks_of_pass h
  case streamRemove =>
    refine completesOk_of_body streamRemove (fun _ _ => rfl) fun c b h => ?_
    simp [streamRemove, streamUsed, h]
  case confCreate => exact completesOk_of_body confCreate (fun _ _ => rfl) fun c b h => checks_of_pass h
  case confDelete =>
    refine completesOk_of_body confDelete (fun _ _ => rfl) fun c b h => ?_
    simp [confDelete, confUsed, h]
  case stats =>
    refine completesOk_of_body _ (fun _ _ => rfl) fun c b ⟨_, h⟩ => ?_
    simp only [h, Bool.false_eq_true, if_false]
  case statsFree =>
    refine completesOk_of_body _ (fun _ _ => rfl) fun c b ⟨hfree, h⟩ => ?_
    simp only [h, Bool.false_eq_true, if_false, legStatsWords, hfree]
  case statsClear =>
    refine completesOk_of_body _ (fun _ _ => rfl) fun c b h => ?_
    simp only [h, if_true]
  case shapeLeg =>
    refine completesOk_of_body shaperSet (fun _ _ => rfl) fun c b ⟨hlevel, hrate, hweight, hleg⟩ => ?_
    simp [shaperSet, hlevel, hrate, hweight, hleg]
  case shapeService =>
    refine completesOk_of_body shaperSet (fun _ _ => rfl) fun c b ⟨hlevel, hport⟩ => ?_
    simp [shaperSet, hlevel, not_lt.mpr hport]
  case shapePort =>
    refine completesOk_of_body shaperSet (fun _ _ => rfl) fun c b ⟨hlevel, hport⟩ => ?_
    simp [shaperSet, hlevel, not_lt.mpr hport]

/-- SUB_ADD whose checks pass applies itself in the flow of its destination leg. -/
theorem exec_subAdd {c : Cmd} {s t : State} {ws : List Word} (h : startsNow 0x0306 (exactly 4) c s = true)
    (hc : firstFail (subAddChecks c (begun c s)) = none)
    (ha : subApply c (inFlow (field (word c 0) 16 14) (begun c s)) = .done ws t) :
    exec (.subAdd c) s = .next (answered 0x0306 c ws t) :=
  congrArg Host.Outcome.next (serve_done h ((checks_of_pass hc).trans ha))

/-- Settles O14. -/
theorem subscriptionCommandsComplete : Obligations.SubscriptionCommandsComplete := by
  unfold Obligations.SubscriptionCommandsComplete
  refine ⟨?given, ?picked, ?settings, ?replace, ?remove⟩
  case given =>
    intro c s f h hc hf hchain hreplace hpair hssrc
    refine exec_subAdd h hc ?_
    simp only [← hf, subApply, hchain, hreplace, hpair, hssrc, Bool.false_eq_true, if_false]
  case picked =>
    intro c s f p ssrc h hc hf hchain hreplace hpair hssrc hpick
    refine exec_subAdd h hc ?_
    simp only [← hf, subApply, hchain, hreplace, hpair, hssrc, Bool.false_eq_true, if_false, if_true, ← hpick]
  case settings =>
    intro c s f k h hc hf hchain hreplace hpair
    refine exec_subAdd h hc ?_
    simp only [← hf, subApply, hchain, hreplace, hpair, Bool.false_eq_true, if_false]
  case replace =>
    intro c s f k e h hc hf hchain hreplace hpair hentry
    refine exec_subAdd h hc ?_
    simp only [← hf, subApply, hchain, hreplace, hpair, hentry, Bool.false_eq_true, if_false, if_true, Option.bind_some, Option.map_some]
  case remove =>
    intro c s e h he
    refine congrArg Host.Outcome.next (serve_done h ?_)
    simp [subRemove, thas, he]

end Sys2Proof.Machine

/-!
PROOFS. Arrivals of datagrams, RTP and RTCP, and the service of the ports (03, 12, 15 R386 to R390).
-/

namespace Sys2Proof.Machine

/-- A packet that finds a buffer is read in it. -/
theorem withBuf_of_some {leg n service b : Nat} {s t : State} (k : Nat → State → State) (hs : service ≤ 1)
    (h : bufAlloc n true 4 1 s = (some b, t)) : withBuf leg n service s k = k b t := by
  simp only [withBuf, hs, decide_true, h]

/-- A packet that finds no buffer is dropped and counted for its leg. -/
theorem withBuf_of_none {leg n service : Nat} {s t : State} (k : Nat → State → State) (hs : service ≤ 1)
    (h : bufAlloc n true 4 1 s = (none, t)) : withBuf leg n service s k = legDrops leg 1 t := by
  simp only [withBuf, hs, decide_true, h]
  rfl

/-- Settles O15. -/
theorem ingressCompletes : Obligations.IngressCompletes := by
  unfold Obligations.IngressCompletes
  refine ⟨?noLeg, ?goesOn, ?unknown, ?otherByte, ?cell, ?dtls, ?hostData, ?stun, ?checkSend, ?response, ?expiry⟩
  case noLeg =>
    intro port d s hleg hfirst
    have hf : ¬ d.first ≤ 3 := by omega
    simp only [exec, execIngressDatagram, classify, hleg, hf, if_false, portCount]
  case goesOn =>
    intro port leg l d s hleg hfirst
    refine congrArg Host.Outcome.next ?_
    simp only [classify, hleg]
    obtain h | h | ⟨h1, h2, h3⟩ := hfirst
    · exact if_pos (.inl h)
    · exact if_pos (.inr h)
    · rw [if_neg (by omega), if_pos ⟨h1, h2⟩]
      obtain h | h := h3
      · exact if_pos h
      · rw [if_pos h, ite_self]
  case unknown =>
    intro port leg l d s hleg h1 h2 hsecond hunk
    refine congrArg Host.Outcome.next ?_
    simp only [classify, hleg]
    rw [if_neg (by omega), if_pos ⟨h1, h2⟩, if_neg (by omega), if_neg (by simp only [hunk, Bool.false_eq_true, not_false_eq_true])]
  case otherByte =>
    intro port leg l d s hleg hfirst
    refine congrArg Host.Outcome.next ?_
    simp only [classify, hleg]
    rw [if_neg (by omega), if_neg (by omega), portCount]
  case cell =>
    intro port d s hport hrelay
    simp only [exec, execIpPacketCell, execIngressDatagram, not_le.mpr hport, hrelay, Bool.false_eq_true, if_false]
  case dtls =>
    intro leg b l bytes s t hleg hkind hbuf
    simp only [exec, execDtlsDatagramIngress, hleg, hkind, if_true, withBuf_of_some _ (le_refl 1) hbuf]
  case hostData => exact fun bytes s h => congrArg Host.Outcome.next (if_pos h)
  case stun =>
    intro leg b l r s t hleg hkind hice hbuf
    have hin : ¬ (l.kind ≠ .network ∨ (!l.ice) = true) := by simp [hkind, hice]
    have hexec : exec (.stunBindingRequest leg r) s = .next (bufRelease b
        (if r.user ≠ l.rufrag ∨ r.password ≠ l.lpwd then modLeg leg (fun l => { l with stunIgnored := l.stunIgnored + 1 }) t
        else if (!r.nominate) = true then sendPlain leg .stun (stunBytes l false) [] t
        else legCheck leg (if r.raddr = l.raddr ∧ r.rport = l.rport then
            modLeg leg (fun l => { l with confirmed := true }) (sendPlain leg .stun (stunBytes l false) [] t)
          else evtLeg 5 leg [] (modLeg leg (fun l => { l with raddr := r.raddr, rport := r.rport }) (inFlow leg
            (modLeg leg (fun l => { l with confirmed := true }) (sendPlain leg .stun (stunBytes l false) [] t))))))) := by
      simp only [exec, execStunBindingRequest, hleg, hin, if_false, withBuf_of_some _ (le_refl 1) hbuf]
    rw [hexec]
    refine ⟨fun hbad => ?_, fun hu hp hn => ?_, fun hu hp hn ha hport => ?_, fun hu hp hn hmoved => ?_⟩
    · rw [if_pos hbad]
    · rw [if_neg (by simp [hu, hp]), if_pos (by simp [hn])]
    · rw [if_neg (by simp [hu, hp]), if_neg (by simp [hn]), if_pos ⟨ha, hport⟩]
    · rw [if_neg (by simp [hu, hp]), if_neg (by simp [hn]), if_neg (by tauto)]
  case checkSend =>
    intro leg t l s a d w hleg hconsent hdue ha hdraw
    simp only [exec, execConsentCheckSend, hleg, hconsent, if_true, hdue, ← ha, hdraw]
  case response =>
    intro leg b rttUs l s t hleg hconsent hbuf
    simp only [exec, execConsentResponse, hleg, hconsent, Bool.not_true, Bool.false_eq_true, or_self, if_false,
      withBuf_of_some _ (le_refl 1) hbuf]
  case expiry =>
    intro leg l s hleg hconsent hactive
    simp only [exec, execConsentExpiry, hleg, hconsent, hactive, and_self, if_true]

theorem exec_rtpPacketIngress {st : Nat} {p : RtpPkt} {s f : State} (hf : f = inFlow (st / 4) s) :
    exec (.rtpPacketIngress st p) s = .next (rtpArrives st p f) :=
  hf ▸ rfl

/-- A packet of a stream that the module sends itself, or of a leg that is no network leg, is no arrival. -/
theorem not_foreign {x : Stream} {l : Leg} (horigin : x.origin = false) (hkind : l.kind = .network) :
    ¬ (x.origin = true ∨ l.kind ≠ .network) := by
  simp [horigin, hkind]

/-- Settles O16. -/
theorem rtpPathCompletes : Obligations.RtpPathCompletes := by
  unfold Obligations.RtpPathCompletes
  refine ⟨?taken, ?refused, ?dropped, ?repair, ?recovery, ?nack, ?nackTwice, ?feedback, ?walk, ?release, ?replay⟩
  case taken =>
    intro st x l p s f b a c d k now hf hx hl horigin hkind hactive hup hbuf hgood hauth hc hstamp
    have hlive : ¬ (l.state = .created ∨ l.state = .deleting ∨ subDown f 8 = true) := by simp [hactive, hup]
    rw [exec_rtpPacketIngress hf]
    simp only [rtpArrives, hx, hl, if_neg (not_foreign horigin hkind), if_neg hlive, hbuf, hgood, hauth, Bool.false_eq_true, if_false,
      ← hc, hstamp]
    refine ⟨fun hfec hssrc => ?_, fun hfec hrtx => ?_, fun hfec hrtx hssrc => ?_⟩
    · rw [if_pos ⟨hfec, hssrc⟩]
    · have h1 : ¬ (x.fecPt ≠ 0 ∧ p.ssrc = x.fecSsrc) := by tauto
      have h2 : (decide (x.rtxPt ≠ 0) && decide (p.ssrc = x.rtxSsrc)) = false := by
        simp only [Bool.and_eq_false_iff, decide_eq_false_iff_not]
        tauto
      simp only [if_neg h1, h2, Bool.false_eq_true, if_false]
    · have h1 : ¬ (x.fecPt ≠ 0 ∧ p.ssrc = x.fecSsrc) := by tauto
      have h2 : (decide (x.rtxPt ≠ 0) && decide (p.ssrc = x.rtxSsrc)) = true := by simp [hrtx, hssrc]
      simp only [if_neg h1, h2, if_true]
  case refused =>
    intro st x l p s f b a k hf hx hl horigin hkind hactive hup hbuf
    have hlive : ¬ (l.state = .created ∨ l.state = .deleting ∨ subDown f 8 = true) := by simp [hactive, hup]
    rw [exec_rtpPacketIngress hf]
    simp only [rtpArrives, hx, hl, if_neg (not_foreign horigin hkind), if_neg hlive]
    refine ⟨fun hbad => ?_, fun hgood hauth => ?_⟩
    · simp only [hbuf, hbad, if_true]
    · simp only [hbuf, hgood, hauth, Bool.false_eq_true, if_false]
  case dropped =>
    intro st x l p s f b hf hx hl horigin hkind
    rw [exec_rtpPacketIngress hf]
    simp only [rtpArrives, hx, hl, if_neg (not_foreign horigin hkind)]
    refine ⟨fun hcreated => ?_, fun hactive hup hbuf => ?_⟩
    · rw [if_pos (.inl hcreated)]
    · rw [if_neg (by simp [hactive, hup])]
      simp only [hbuf]
  case repair =>
    intro st x y l p s f b k hx hl hfec horigin hactive hup hf hy
    have hin : ¬ (x.fecPt = 0 ∨ x.origin = true ∨ l.state = .created ∨ l.state = .deleting ∨ subDown s 8 = true) := by
      simp [hfec, horigin, hactive, hup]
    have hexec : exec (.flexfecRepairPacket st [p]) s = .next (recoverPacket st x f p) := by
      simp only [exec, execFlexfecRepairPacket, hx, hl, if_neg hin, ← hf, List.foldl_cons, List.foldl_nil]
    rw [hexec]
    refine ⟨fun hgap => ?_, fun hgap hgood hbuf => ?_⟩
    · simp only [recoverPacket, hy, Option.map_some, Option.getD_some, hgap, Bool.not_false, if_true]
    · simp only [recoverPacket, hy, Option.map_some, Option.getD_some, hgap, Bool.not_true, Bool.false_eq_true, if_false, hbuf, hgood]
  case recovery =>
    intro st seq t n x s hx hfec hgap
    simp only [exec, execFlexfecRecoveryTimeout, hx, hgap, hfec, if_false]
  case nack =>
    intro st seq t n x s hx hgap hn
    simp only [exec, execNackSend, hx, hgap, not_le.mpr hn, if_false]
  case nackTwice =>
    intro st seq t n s hgap hn
    simp only [exec, execNackSend, hgap]
    cases tget s.fwe.streams st with
    | none => rfl
    | some x => simp only [hn, if_true]
  case feedback =>
    intro st x l s a hx hl hfb horigin ha
    simp only [exec, execFeedbackSend, hx, hl, hfb, horigin, Bool.not_true, Bool.false_eq_true, or_self, if_false, ← ha]
  case walk =>
    intro st i w poisoned s hold hw
    simp only [exec, execChainWalk, hold, hw, if_true]
  case release =>
    intro pool index s hpool hindex
    have hexec : exec (.bufferRelease pool index) s = .next (consumerRelease (bufKey pool index) s) :=
      congrArg Host.Outcome.next (if_pos ⟨hpool, hindex⟩)
    rw [hexec]
    refine ⟨fun h => ?_, fun h => ?_⟩
    · simp only [consumerRelease, h, if_true]
    · simp only [consumerRelease, h, Bool.false_eq_true, if_false]
  case replay =>
    intro n first t r g x p y s a hr hfirst hrun hsent hg hrec hlost hpkt hy ht ha
    have hrecs : ((tget s.mss.rings r.conf).map (·.recs)).getD [] = g.recs := by simp [hg]
    have hgo : ¬ ((!r.running) = true ∨ r.lost = true) := by simp [hrun, hlost]
    have h0 : ¬ (r.sent = 0 ∧ y.lastTs.isNone = true) := by omega
    simp only [exec, execReplayRecordSend, hr, hrecs, hfirst, hrec, if_neg hgo, hpkt, hy, if_neg h0, if_pos hsent, ← ht, ← ha]

/-- A message of RTCP on a network leg past CREATED that finds a buffer is read in it. -/
theorem rtcpOn_of_some {leg n b : Nat} {l : Leg} {s t : State} (f : Leg → State → State) (hleg : tget s.fwe.legs leg = some l)
    (hkind : l.kind = .network) (hcreated : l.state ≠ .created) (hdeleting : l.state ≠ .deleting)
    (h : bufAlloc n true 4 1 s = (some b, t)) : rtcpOn leg n s f = bufRelease b (f l t) := by
  simp only [rtcpOn, hleg, hkind, ne_eq, not_true_eq_false, if_false, hcreated, hdeleting, or_self, withBuf_of_some _ (le_refl 1) h]

/-- On a leg in CREATED a message of RTCP is dropped and counted. -/
theorem rtcpOn_of_created {leg n : Nat} {l : Leg} {s : State} (f : Leg → State → State) (hleg : tget s.fwe.legs leg = some l)
    (hkind : l.kind = .network) (hcreated : l.state = .created) : rtcpOn leg n s f = legDrops leg 1 s := by
  simp only [rtcpOn, hleg, hkind, ne_eq, not_true_eq_false, if_false, hcreated, true_or, if_true]

theorem reportBytes_one (r : RtcpReport) (k : ReportBlock) (h : r.blocks = [k]) :
    reportBytes r = 8 + (if r.ntpMid.isSome then 20 else 0) + 24 := by
  simp [reportBytes, h]

/-- Settles O17. -/
theorem rtcpCompletes : Obligations.RtcpCompletes := by
  unfold Obligations.RtcpCompletes
  refine ⟨?read, ?created, ?other, ?srSend⟩
  case read =>
    intro leg l s hleg hkind hcreated hdeleting
    refine ⟨?block, ?report, ?sdes, ?bye, ?nackNone, ?nack, ?refresh, ?feedback, ?noBuffer⟩
    case block =>
      intro r k i b now e t u hbuf hstamp hblocks hentry
      rw [← reportBytes_one r k hblocks] at hbuf
      refine congrArg Host.Outcome.next ((rtcpOn_of_some _ hleg hkind hcreated hdeleting hbuf).trans ?_)
      simp only [hstamp, hblocks, List.foldl_cons, List.foldl_nil, takeBlock, hentry]
    case report =>
      intro r b now t u hbuf hstamp
      refine congrArg Host.Outcome.next ((rtcpOn_of_some _ hleg hkind hcreated hdeleting hbuf).trans ?_)
      simp only [hstamp]
    case sdes =>
      intro cname b t hbuf
      exact congrArg Host.Outcome.next (rtcpOn_of_some _ hleg hkind hcreated hdeleting hbuf)
    case bye =>
      intro ssrc b t hbuf
      exact congrArg Host.Outcome.next (rtcpOn_of_some _ hleg hkind hcreated hdeleting hbuf)
    case nackNone =>
      intro ssrc q b t hbuf hentry
      refine congrArg Host.Outcome.next ((rtcpOn_of_some _ hleg hkind hcreated hdeleting hbuf).trans ?_)
      have hentry' : ((entriesTo (modLeg leg (fun l => { l with stats.nacksIn := inc32 l.stats.nacksIn }) (inFlow leg t)) leg).find?
        fun e => e.2.ssrcOut = ssrc) = none := hentry
      simp only [List.foldl_cons, List.foldl_nil, hentry']
    case nack =>
      intro ssrc q i b n e t c hbuf hc hentry hn hactive
      refine congrArg Host.Outcome.next ((rtcpOn_of_some _ hleg hkind hcreated hdeleting hbuf).trans ?_)
      have hentry' : ((entriesTo c leg).find? fun e => e.2.ssrcOut = ssrc) = some (i, e) := hc ▸ hentry
      simp only [List.foldl_cons, List.foldl_nil, ← hc, hentry', hn, hactive, if_true]
    case refresh =>
      intro ssrc fir b t hbuf
      exact congrArg Host.Outcome.next (rtcpOn_of_some _ hleg hkind hcreated hdeleting hbuf)
    case feedback =>
      intro rs b t hbuf
      exact congrArg Host.Outcome.next (rtcpOn_of_some _ hleg hkind hcreated hdeleting hbuf)
    case noBuffer =>
      intro ssrc t hbuf
      refine congrArg Host.Outcome.next ?_
      simp only [rtcpOn, hleg, hkind, ne_eq, not_true_eq_false, if_false, hcreated, hdeleting, or_self, withBuf_of_none _ (le_refl 1) hbuf]
  case created =>
    intro leg l s hleg hkind hcreated
    exact ⟨fun r => congrArg Host.Outcome.next (rtcpOn_of_created _ hleg hkind hcreated),
      fun ssrc => congrArg Host.Outcome.next (rtcpOn_of_created _ hleg hkind hcreated)⟩
  case other => exact fun port s => rfl
  case srSend =>
    intro leg i w t ssrc e own s a d hentry hdue ha hdraw hown
    simp only [exec, execSrSend, hentry, hdue, ← ha, hdraw, ← hown]

/-- Settles O18. -/
theorem shaperCompletes : Obligations.ShaperCompletes := by
  unfold Obligations.ShaperCompletes
  refine ⟨?stopped, ?paced, ?timed, ?eligible, ?launch, ?late, ?reached⟩
  case stopped =>
    intro port s h
    simp only [exec, execPortReadyServe, servePort, h, if_true, ite_self]
  case paced =>
    intro port s hport hpaced hegress
    simp only [exec, execPortReadyServe, servePort, hport, hpaced, hegress, if_true, Bool.false_eq_true, if_false]
  case timed =>
    intro port f g fs s t hport hpaced hegress htimed ht
    simp only [exec, execPortReadyServe, servePort, hport, hpaced, hegress, htimed, List.isEmpty_cons, if_true, Bool.false_eq_true,
      if_false, false_and, ← ht]
  case eligible =>
    intro port e s hport hpaced hmin
    simp only [exec, execFrameBecomesEligible, hport, hpaced, and_self, if_true, hmin]
  case launch =>
    intro port f fs s t hport hpaced hegress htimed ht
    simp only [exec, execPacedLaunch, hport, hpaced, hegress, Bool.not_false, and_self, if_true, htimed, ← ht]
  case late =>
    intro leg service port l f fs s a hport hservice hpaced hegress hframes hlaunch ha hlate
    simp only [exec, execLaunchTimeReached, not_le.mpr hport, not_le.mpr hservice, hpaced, hegress, Bool.false_eq_true, or_self, if_false,
      hframes, hlaunch, ← ha, hlate, if_true]
  case reached =>
    intro leg service port l v f fs s a hport hservice hpaced hegress hframes hlaunch ha hlate helig hv
    refine ⟨_, ?_, rfl⟩
    simp only [exec, execLaunchTimeReached, not_le.mpr hport, not_le.mpr hservice, hpaced, hegress, Bool.false_eq_true, or_self, if_false,
      hframes, hlaunch, ← ha, hlate, helig, if_true, hv]

end Sys2Proof.Machine

/-!
PROOFS. The governor, the keys, and the commands of the mixer (09, 14, 04 R102 to R121).
-/

namespace Sys2Proof.Machine

/-- Settles O19. -/
theorem governorCompletes : Obligations.GovernorCompletes := by
  unfold Obligations.GovernorCompletes
  refine ⟨?boundary, ?publication, ?classSet, ?classRead, ?classDefault, ?pin, ?unpin, ?legOverride, ?legRead, ?encRead, ?portRead⟩
  case boundary =>
    intro s a p o c ha hp ho hc
    have hidle : (if (a.lgv.gap || subDown a 15) = true then o else computeEpoch (epochDue s) o) = c := by
      obtain ⟨hgap, hup, rfl⟩ | ⟨hidle, rfl⟩ := hc
      · simp [hgap, hup]
      · rw [if_pos (by simpa using hidle)]
    simp only [exec, execPlumbEpochBoundary, ← ha, ← hp, ← ho, hidle]
  case publication => exact fun late s h => congrArg Host.Outcome.next (if_pos h)
  case classSet =>
    refine completesOkBy_of_body classSet (fun _ _ => rfl) fun c b ⟨hfn, hbad⟩ => ?_
    simp [classSet, hfn, hbad]
  case classRead =>
    refine completesOkBy_of_body classSet (fun _ _ => rfl) fun c b hfn => ?_
    simp [classSet, hfn]
  case classDefault =>
    refine completesOkBy_of_body classSet (fun _ _ => rfl) fun c b hfn => ?_
    simp [classSet, hfn]
  case pin =>
    refine completesOk_of_body govOverride (fun _ _ => rfl) fun c b ⟨hfn, henc⟩ => ?_
    simp [govOverride, hfn, henc]
  case unpin =>
    refine completesOk_of_body govOverride (fun _ _ => rfl) fun c b ⟨hfn, henc⟩ => ?_
    simp [govOverride, hfn, henc]
  case legOverride =>
    refine completesOk_of_body govOverride (fun _ _ => rfl) fun c b ⟨hfn, l, hleg, hkind, hcreated⟩ => ?_
    have h5 : ¬ 5 < field (word c 0) 16 4 := by omega
    have h4 : ¬ 4 ≤ field (word c 0) 16 4 := by omega
    have hmedia : (decide (field (word c 0) 16 4 = 2) && decide (l.kind = .network) && decide (l.state = .created)) = false := by
      by_contra h
      simp only [Bool.not_eq_false, Bool.and_eq_true, decide_eq_true_eq] at h
      exact hcreated h.1.1 h.1.2 h.2
    simp [govOverride, h5, h4, hleg, hkind, hmedia]
  case legRead =>
    intro c s b l h hb hfn hleg hkind
    subst hb
    refine congrArg Host.Outcome.next (serve_done h ?_)
    simp [govRead, hfn, hleg, hkind]
  case encRead =>
    intro c s b e h hb hfn henc
    subst hb
    refine congrArg Host.Outcome.next (serve_done h ?_)
    simp [govRead, hfn, henc]
  case portRead =>
    intro c s b on h hb hfn hport hon
    subst hb
    refine congrArg Host.Outcome.next (serve_done h ?_)
    simp only [govRead, hfn, checks_cons, not_lt.mpr hport, decide_false, Bool.false_eq_true, if_false, checks_nil, ← hon]

/-- Settles O20. -/
theorem keyCommandsComplete : Obligations.KeyCommandsComplete := by
  unfold Obligations.KeyCommandsComplete
  refine ⟨?load, ?psk, ?backup, ?retireEmpty, ?retire, ?status, ?twin, ?delayed⟩
  case load =>
    intro c s b leg y h hb hcls hbad hleg hproducer htree hy hother hmode hcurrent hlocked
    subst hb
    refine congrArg Host.Outcome.next (serve_done h ?_)
    have hmki : (decide (y.state ≠ .empty) && (decide (y.mkiLen ≠ (keyLoadSlot c).mkiLen) ||
        decide ((keyLoadSlot c).mkiLen ≠ 0 ∧ y.mki = (keyLoadSlot c).mki))) = false := by
      obtain h | ⟨h1, h2⟩ := hother
      · simp [h]
      · obtain h2 | h2 := h2 <;> simp [h1, h2]
        simp [← h1, h2]
    have hkind : (decide (leg.kind = .producer) || decide (leg.kind = .tree ∧ field (word c 0) 0 16 / 2 % 2 = 0) || (decide (y.state ≠ .empty) &&
        (decide (y.mkiLen ≠ (keyLoadSlot c).mkiLen) || decide ((keyLoadSlot c).mkiLen ≠ 0 ∧ y.mki = (keyLoadSlot c).mki)))) = false := by
      simp only [hmki, hproducer, htree, decide_false, Bool.or_self]
    have h01 : ¬ (field (word c 0) 28 4 = 1 ∨ field (word c 0) 28 4 = 2) := by omega
    simp only [keyLoad, if_neg h01, checks_cons, hbad, hleg, Option.isNone_some, Option.map_some, Option.getD_some, ← hy, hkind, hmode,
      hcurrent, hlocked, decide_false, Bool.false_eq_true, if_false, checks_nil]
  case psk =>
    refine completesOk_of_body keyLoad (fun _ _ => rfl) fun c b ⟨hcls, hmode⟩ => ?_
    simp [keyLoad, hcls, hmode]
  case backup =>
    refine completesOk_of_body keyLoad (fun _ _ => rfl) fun c b ⟨hcls, hmode⟩ => ?_
    simp [keyLoad, hcls, hmode]
  case retireEmpty =>
    refine completesOk_of_body keyRetire (fun _ _ => rfl) fun c b hempty => ?_
    simp only [keyRetire, hempty, if_true]
  case retire =>
    refine completesOk_of_body keyRetire (fun _ _ => rfl) fun c b hfilled => ?_
    simp only [keyRetire, if_neg hfilled, retireSlot]
  case status =>
    refine completesOk_of_body _ (fun _ _ => rfl) fun c b hleg => ?_
    simp [hleg]
  case twin =>
    intro c s b t agree h hb hagree ht
    subst hb
    refine congrArg Host.Outcome.next (serve_done h ?_)
    have hfp : twinFingerprint { begun c s with cpe.twinKek := some c.words } = fingerprint 0xFF (wordsBytes c.words) [] := rfl
    simp only [hfp, ← hagree, ← ht]
    rw [ht]
    rfl
  case delayed =>
    intro n t s a hdue ha
    simp only [exec, execKeyDelayedRetire, hdue, ← ha]

/-- Settles O21. -/
theorem mixerCommandsComplete : Obligations.MixerCommandsComplete := by
  unfold Obligations.MixerCommandsComplete
  refine ⟨?size, ?alwaysOn, ?group, ?bind, ?gain, ?eq, ?echo, ?route, ?trim, ?swap, ?meter⟩
  case size =>
    refine completesOkBy_of_body mixerSet (fun _ _ => rfl) fun c b ⟨hfn, h⟩ => ?_
    simp only [mixerSet, hfn]
    exact checks_of_pass h
  case alwaysOn =>
    refine completesOkBy_of_body mixerSet (fun _ _ => rfl) fun c b ⟨hfn, h⟩ => ?_
    simp only [mixerSet, hfn]
    exact checks_of_pass h
  case group =>
    refine completesOkBy_of_body mixerSet (fun _ _ => rfl) fun c b ⟨hfn, h⟩ => ?_
    simp only [mixerSet, hfn]
    exact checks_of_pass h
  case bind =>
    refine completesOkBy_of_body mixerSet (fun _ _ => rfl) fun c b ⟨hfn, h⟩ => ?_
    simp only [mixerSet, hfn]
    exact checks_of_pass h
  case gain =>
    refine completesOkBy_of_body mixerSet (fun _ _ => rfl) fun c b ⟨hfn, h⟩ => ?_
    simp [mixerSet, hfn, mixerBank, checks_of_pass h]
  case eq =>
    refine completesOkBy_of_body mixerSet (fun _ _ => rfl) fun c b ⟨hfn, h⟩ => ?_
    simp [mixerSet, hfn, mixerBank, checks_of_pass h]
  case echo =>
    refine completesOkBy_of_body mixerSet (fun _ _ => rfl) fun c b ⟨hfn, h⟩ => ?_
    simp [mixerSet, hfn, mixerBank, checks_of_pass h]
  case route =>
    intro c s b x h hb hused hx hrow hbus
    subst hb
    refine congrArg Host.Outcome.next (serve_done h ?_)
    simp [routeSet, hused, hx, hrow, hbus]
  case trim =>
    intro c s b x h hb hused hx hrow
    subst hb
    refine congrArg Host.Outcome.next (serve_done h ?_)
    simp [gainSet, hused, hx, hrow]
  case swap =>
    intro c s b x h hb hused hx hswap
    subst hb
    refine congrArg Host.Outcome.next (serve_done h ?_)
    simp [bankSwap, hused, hx, hswap]
  case meter =>
    intro c s b x m n h hb hused hx hm hn hmin hmax
    subst hb
    refine congrArg Host.Outcome.next (serve_done h ?_)
    have hrange : ¬ (n < 1 ∨ 64 < m + n) := by omega
    simp only [← hm, ← hn, checks_cons, hrange, hused, hx, Option.getD_some, decide_false, Bool.not_true, Bool.false_eq_true, if_false,
      checks_nil]

end Sys2Proof.Machine

/-!
PROOFS. The audio blocks, the cells of a conference that spans a cluster, and the signal cores (04, 05).
-/

namespace Sys2Proof.Machine

/-- Settles O22. -/
theorem audioBlocksComplete : Obligations.AudioBlocksComplete := by
  unfold Obligations.AudioBlocksComplete
  refine ⟨?down, ?block, ?frame, ?trim, ?trimHit, ?anchor, ?missed⟩
  case down =>
    intro run s a ha hdown
    have hd : subDown { a with aue.lastNs := a.aue.blockNs, aue.blockNs := blockDue s } 12 = true := hdown
    simp only [exec, execAudioBlockBoundary, ← ha, hd, if_true]
  case block =>
    intro run s a b ha hup hb
    have hu : subDown b 12 = false := hb ▸ hup
    have hconfs : b.aue.confs = a.aue.confs := hb ▸ rfl
    simp only [exec, execAudioBlockBoundary, ← ha, ← hb, hu, Bool.false_eq_true, if_false, hconfs]
  case frame =>
    intro conf group ms n bytes data x g y s a hx hg hms hn hlen hframe ha hy
    have hgroup : ((tget s.aue.confs conf).bind fun x => tget x.groups group) = some g := by simp [hx, hg]
    have hlong : ¬ g.fifo.length < n := by omega
    subst ha
    simp only [exec, execEncodeGroupFrame, encodeFrame, hgroup, ← hms, ← hn, hlong, if_false, ← hframe, hy]
    refine ⟨_, _, rfl, rfl, rfl, rfl, rfl, rfl, rfl, rfl, ?_, rfl⟩
    intro t ht
    simp only [ht]
  case trim =>
    intro conf row x s hx hdirect
    simp only [exec, execTrimZeroCrossing, hx, hdirect, Bool.false_eq_true, if_false]
  case trimHit =>
    intro r t ns htrim hns
    simp only [trimHit, htrim, not_lt.mpr hns, if_false] <;> rfl
  case anchor =>
    intro stream s a ha
    simp only [exec, execAnchorWindowEnd, ← ha]
  case missed =>
    intro core x s hx hserves hcounted hwaiting
    simp only [exec, execSlotBlockMissed, hx, hserves, hcounted, hwaiting, Bool.not_false, Bool.and_self, if_true]

/-- Settles O23. -/
theorem audioCellsComplete : Obligations.AudioCellsComplete := by
  unfold Obligations.AudioCellsComplete
  refine ⟨?partials, ?sums, ?fullSums, ?levels, ?selection, ?cell, ?passed, ?relayed⟩
  case partials =>
    intro group k x s hconf hrole hports
    simp only [exec, execClusterSumDeadline, hconf, hrole, Nat.reduceEqDiff, false_and, if_false, hports, ne_eq,
      not_false_eq_true, and_self, if_true]
  case sums =>
    intro group k x s a hconf hrole ha
    simp only [exec, execClusterSumDeadline, hconf, hrole, and_self, if_true, ← ha]
  case fullSums =>
    intro group k x s hconf hrole
    simp only [exec, execClusterSumDeadline, hconf, hrole, Nat.reduceEqDiff, false_and, and_self, if_false, if_true]
  case levels =>
    intro group k x s a hconf ha
    refine ⟨fun hrole => ?_, fun hrole => ?_⟩
    · simp only [exec, execLevelCellSend, hconf, ← ha, hrole, if_true]
    · simp only [exec, execLevelCellSend, hconf, ← ha, hrole, if_false]
  case selection =>
    intro group k x s a hconf hrole ha
    simp only [exec, execSelectionCellSend, hconf, hrole, ne_eq, not_true_eq_false, if_false, ← ha]
  case cell =>
    intro port k c x s hrelay hconf
    simp only [exec, execAudioCell, hrelay, Bool.false_eq_true, if_false, hconf]
  case passed =>
    intro port c s hrelay hconf
    simp only [exec, execAudioCell, hrelay, Bool.false_eq_true, if_false, hconf]
  case relayed =>
    intro port c s hrelay
    simp only [exec, execAudioCell, hrelay, if_true]

theorem coreRuns_of_running {s : State} {x : Core} (hrun : x.state = .running) (hwait : x.waiting = false) (hsleep : s.cpr.sleep = 0) :
    coreRuns s x = true := by
  simp [coreRuns, hrun, hwait, hsleep]

/-- An instruction completes when its operation answers its result wherever the condition holds. -/
theorem coreCompletes_of_op {mk : Nat → Instr} {op : Nat} {moves : Bool} {cond : BitVec 64 → Core → Prop}
    {out : BitVec 64 → Core → State → OpOut} (act : CoreOp) (hx : ∀ core s, exec (mk core) s = runOp core op moves act s)
    (ha : ∀ w x s, cond w x → act w x s = .ok (out w x s)) : CoreCompletes mk op moves cond out := by
  rintro core s x w o ⟨hcore, hrun, hwait, hsleep, hpc, hw, hop⟩ hc hmoves
  have hgo : ¬ ((!coreRuns s x) = true ∨ 4096 ≤ x.pc ∨ opOf ((tget x.prog x.pc).getD 0) ≠ op) := by
    rw [← hw]
    simp [coreRuns_of_running hrun hwait hsleep, hop, hpc]
  rw [hx, runOp, hcore]
  dsimp only
  rw [if_neg hgo, ← hw, ha _ _ _ hc]
  dsimp only
  rw [hmoves]

/-- The same for an instruction that needs no condition. -/
theorem coreCompletes_of_ok {mk : Nat → Instr} {op : Nat} {moves : Bool} {out : BitVec 64 → Core → State → OpOut}
    (hx : ∀ core s, exec (mk core) s = runOp core op moves (fun w x s => .ok (out w x s)) s) :
    CoreCompletes mk op moves (fun _ _ => True) out :=
  coreCompletes_of_op _ hx fun _ _ _ _ => rfl

/-- Settles O24. -/
theorem malletArithmeticComplete : Obligations.MalletArithmeticComplete := by
  unfold Obligations.MalletArithmeticComplete
  refine ⟨?nop, ?mac, ?msu, ?mpy, ?clr, ?asra, ?sta, ?add, ?sub, ?adds, ?subs, ?and, ?or, ?xor, ?shl, ?shr, ?asr, ?min, ?max, ?abs,
    ?movi, ?mov⟩
  case sta =>
    intro m a
    refine coreCompletes_of_op staOp (fun _ _ => rfl) fun w x s hmap => ?_
    simp only [staOp, hmap]
  case movi =>
    refine coreCompletes_of_op moviOp (fun _ _ => rfl) fun w x s hpc => ?_
    have : ¬ (immOf w = 0x800 ∧ 4096 ≤ x.pc) := by omega
    simp only [moviOp, if_neg this]
  all_goals exact coreCompletes_of_ok fun _ _ => rfl

/-- Settles O25. -/
theorem malletControlCompletes : Obligations.MalletControlCompletes := by
  unfold Obligations.MalletControlCompletes
  refine ⟨?loop, ?br, ?call, ?ret, ?done, ?halt, ?beyond, ?illegal, ?chunk, ?image, ?commands⟩
  case loop =>
    refine coreCompletes_of_op loopOp (fun _ _ => rfl) fun w x s hopen => ?_
    have : ¬ (loopCount w x ≠ 0 ∧ 4 ≤ x.loops.length) := by omega
    simp only [loopOp, if_neg this]
  case br => exact coreCompletes_of_ok fun _ _ => rfl
  case call => exact coreCompletes_of_ok fun _ _ => rfl
  case ret => exact coreCompletes_of_ok fun _ _ => rfl
  case done => exact coreCompletes_of_ok fun _ _ => rfl
  case halt =>
    rintro core s x w ⟨hcore, hrun, hwait, hsleep, hpc, hw, hop⟩
    rw [hw] at hop
    simp only [exec, execHalt, hcore, coreRuns_of_running hrun hwait hsleep, hpc, hop, and_self, if_true]
  case beyond =>
    intro core s x hcore hruns hpc
    simp only [exec, execIllegalInstruction, hcore, hruns, hpc, Bool.not_true, Bool.false_eq_true, if_false, if_true]
  case illegal =>
    rintro core s x w ⟨hcore, hrun, hwait, hsleep, hpc, hw, -⟩ hlisted
    rw [hw] at hlisted
    simp only [exec, execIllegalInstruction, hcore, coreRuns_of_running hrun hwait hsleep, not_le.mpr hpc, hlisted, Bool.not_true,
      Bool.false_eq_true, if_false]
  case chunk =>
    intro c s b i x h hb hfn hi hx hpass hmore
    subst hb
    refine congrArg Host.Outcome.next (serve_done h ?_)
    simp only [programLoad, ← hi, hx, hfn, programChunk, checks_of_pass hpass, hmore, if_true]
  case image =>
    intro c s b i x h hb hfn hi hx hpass hwhole hok
    subst hb
    refine congrArg Host.Outcome.next (serve_done h ?_)
    simp only [programLoad, ← hi, hx, hfn, programChunk, checks_of_pass hpass, not_lt.mpr hwhole, hok, if_true, if_false]
  case commands =>
    intro c s b i x h hb hi hx
    subst hb
    refine ⟨fun hfn hst => ?_, fun hfn hst => ?_, fun hfn hpass => ?_, fun hfn => ?_, fun hfn => ?_, fun hfn => ?_⟩ <;>
      refine congrArg Host.Outcome.next (serve_done h ?_)
    · simp [programLoad, ← hi, hx, hfn, hst]
    · simp [programLoad, ← hi, hx, hfn, hst]
    · simp only [programLoad, ← hi, hx, hfn, programAttach, checks_of_pass hpass]
    · simp only [programLoad, ← hi, hx, hfn]
    · simp only [programLoad, ← hi, hx, hfn]
    · simp only [programLoad, ← hi, hx, hfn]

end Sys2Proof.Machine

/-!
PROOFS. The decoder, the encoder and the compositor (O26 to O28): what each command and event leaves when its condition holds; the clause of LAYER_IMAGE_LOAD leaves out the record of the chunk's memory traffic.
-/

namespace Sys2Proof.Machine

/-- Settles O26. -/
theorem decoderCompletes : Obligations.DecoderCompletes := by
  unfold Obligations.DecoderCompletes
  refine ⟨?bind, ?unbind, ?mask, ?status, ?quiesce, ?back, ?read, ?quiesced, ?assembly, ?watchdog, ?third, ?catchUp, ?complete,
    ?refresh⟩
  case bind =>
    refine completesOkBy_of_body decoderBind (fun _ _ => rfl) fun c b ⟨hfn, hpass⟩ => ?_
    simp only [decoderBind, hfn, decBind, checks_of_pass hpass]
  case unbind =>
    refine completesOkBy_of_body decoderBind (fun _ _ => rfl) fun c b ⟨hfn, hk⟩ => ?_
    simp [decoderBind, hfn, hk]
  case mask =>
    refine completesOkBy_of_body decoderBind (fun _ _ => rfl) fun c b ⟨hfn, hk, hmask, hhas⟩ => ?_
    simp [decoderBind, hfn, hk, hmask, hhas]
  case status =>
    refine completesOkBy_of_body decoderBind (fun _ _ => rfl) fun c b ⟨hfn, hk⟩ => ?_
    simp [decoderBind, hfn, hk]
  case quiesce =>
    refine completesLong_of_body coreQuiesce (fun _ _ => rfl) fun c b ⟨hfn, hmode, hfits⟩ => ?_
    have hover : (decide ((gougeOf b (field (word c 0) 0 5)).svc = 0) && quiesceOver b (field (word c 0) 0 5)) = false := by
      by_cases hsvc : (gougeOf b (field (word c 0) 0 5)).svc = 0
      · simp [hsvc, (hfits hsvc).1]
      · simp [hsvc]
    have hout : ¬ ((gougeOf b (field (word c 0) 0 5)).svc = 0 ∧ 4 ≤ (b.vca.cores.filter fun g => g.svc ≠ 0).length) :=
      fun ⟨hsvc, hfour⟩ => absurd (hfits hsvc).2 (not_lt.mpr hfour)
    simp only [coreQuiesce, hfn, hover, hout, hmode, checks_cons, checks_nil, Nat.not_lt_zero, decide_false, Bool.false_eq_true,
      if_false]
  case back =>
    refine completesOk_of_body coreQuiesce (fun _ _ => rfl) fun c b ⟨hfn, hmode⟩ => ?_
    simp [coreQuiesce, hfn, hmode]
  case read =>
    refine completesOk_of_body coreQuiesce (fun _ _ => rfl) fun c b ⟨hfn, hmode⟩ => ?_
    simp [coreQuiesce, hfn, hmode]
  case quiesced =>
    intro core s hsvc
    simp only [exec, execCoreQuiesced, hsvc, ne_eq, not_true_eq_false, if_false]
  case assembly =>
    intro ctx d p ps s hd hasm
    simp only [exec, execAssemblyDeadline, hd, hasm, List.length_cons]
  case watchdog =>
    intro core k held trips d s a t hsleep hjob hheld ha htrips hfew ht hd
    simp only [exec, execDecodeWatchdog, hsleep, if_true, hjob, ← hheld, ← ha, ← htrips, not_le.mpr hfew, decide_false,
      Bool.false_eq_true, false_and, if_false, ← ht, hd]
  case third =>
    intro core k held trips d s a t hsleep hjob hheld ha hsvc htrips hthree ht hd
    simp only [exec, execDecodeWatchdog, hsleep, if_true, hjob, ← hheld, ← ha, ← htrips, hthree, decide_true, hsvc, Nat.reduceEqDiff,
      decide_false, Bool.false_eq_true, and_false, if_false, ← ht, hd]
  case catchUp =>
    intro ctx d s m hd hstate hhidden hm
    simp only [exec, execCatchUpTimeout, hd, hstate, hhidden, and_self, if_true, ← hm]
  case complete =>
    intro ctx c r s t hruns ht hnone
    have hjob : decodeJob ctx r s = t := by simp only [decodeJob, hruns, ht]
    rcases hnone with hfind | hpost
    · simp only [exec, execDecodeJobComplete, hjob, hfind]
    · simp only [exec, execDecodeJobComplete, hjob, hpost]
      split <;> trivial
  case refresh =>
    intro ctx c j ts x r s t hruns ht hfind hpost
    have hjob : decodeJob ctx r s = t := by simp only [decodeJob, hruns, ht]
    simp only [exec, execDecodeJobComplete, hjob, hfind, hpost]

/-- Settles O27. -/
theorem encoderCompletes : Obligations.EncoderCompletes := by
  unfold Obligations.EncoderCompletes
  refine ⟨?set, ?release, ?status, ?source, ?complete, ?key, ?repair, ?repaired, ?policy, ?caught, ?lost, ?coded, ?noTime, ?limit⟩
  case set =>
    refine completesOkBy_of_body encoderSet (fun _ _ => rfl) fun c b ⟨hfn, hpass⟩ => ?_
    simp only [encoderSet, hfn, encSet, checks_of_pass hpass]
  case release =>
    refine completesOkBy_of_body encoderSet (fun _ _ => rfl) fun c b ⟨hfn, hk, hhas⟩ => ?_
    simp [encoderSet, hfn, hk, hhas]
  case status =>
    refine completesOkBy_of_body encoderSet (fun _ _ => rfl) fun c b ⟨hfn, hk⟩ => ?_
    simp [encoderSet, hfn, hk]
  case source =>
    intro ctx e s he
    simp only [exec, execEncoderSourcePicture, he, Option.map_some, if_true]
  case complete =>
    intro ctx c r e j s t out he hruns hj hdone
    simp only [exec, execEncodeJobComplete, he, hruns, hj, hdone]
  case key =>
    refine completesOkBy_of_body keyframe (fun _ _ => rfl) fun c b ⟨hfn, hk, hhas⟩ => ?_
    simp [keyframe, hfn, hk, hhas]
  case repair =>
    intro c s b h hb hfn hmethod hhas hlong
    subst hb
    refine congrArg Host.Outcome.next (serve_accepted h ?_ hlong)
    simp [keyframe, hfn, hmethod, hhas]
  case repaired =>
    intro entry result s hres
    simp only [exec, execEntryRepairDone, hres, if_true]
  case policy =>
    refine completesOk_of_body _ (fun _ _ => rfl) fun c b ⟨hshare, hburst, hburst', hlimit, hlimit'⟩ => ?_
    have hgood : ¬ ((50 < field (word c 0) 0 8 ∧ field (word c 0) 0 8 ≠ 255) ∨ field (word c 1) 0 16 < 50 ∨
        2000 < field (word c 1) 0 16 ∨ field (word c 1) 16 16 < 1 ∨ 60 < field (word c 1) 16 16) := by omega
    simp only [hgood, checks_cons, checks_nil, decide_false, Bool.false_eq_true, if_false]
  case caught =>
    intro job x d live recs s hx hphase hd hstate hlive hrecs hhead
    refine ⟨fun hdegr => ?_, fun hdegr hbridged => ?_, fun hdegr hbridged => ?_⟩
    · simp only [exec, execSynthCatchUpDone, hx, hphase, ← hd, hstate, ← hlive, ← hrecs, hhead, hdegr, ne_eq, not_true_eq_false,
        reduceCtorEq, or_self, if_false, if_true]
    · simp only [exec, execSynthCatchUpDone, hx, hphase, ← hd, hstate, ← hlive, ← hrecs, hhead, hdegr, hbridged, ne_eq,
        not_true_eq_false, reduceCtorEq, or_self, if_false, if_true, lt_self_iff_false]
    · simp only [exec, execSynthCatchUpDone, hx, hphase, ← hd, hstate, ← hlive, ← hrecs, hhead, hdegr, hbridged, ne_eq,
        not_true_eq_false, reduceCtorEq, or_self, if_false, lt_self_iff_false, Bool.false_eq_true]
  case lost =>
    intro job x s hx hphase hstate
    simp only [exec, execSynthCatchUpDone, hx, hphase, hstate, ne_eq, not_true_eq_false, reduceCtorEq, or_self, not_false_eq_true,
      or_true, if_false, if_true]
  case coded =>
    intro job c pl pix r x live bits s f t d hx hruns hphase hlive hbits hpix hf ht hdraw
    simp only [exec, execSynthEncodeDone, hx, hruns, hphase, hlive, synthDone, ← hbits, ← hpix, ← hf, ← ht, hdraw]
  case noTime =>
    intro job x s hx hphase
    simp only [exec, execSynthNoTime, hx, hphase, if_true]
  case limit =>
    intro job x s hx hphase hasked
    simp only [exec, execBridgedLimitExpiry, hx, hphase, hasked, Bool.not_false, and_self, if_true]

/-- A module with an active link whose image slot 0 holds the first of the four pixels of a 2 by 2 image. -/
def imageStarted : State := { State.reset with
  cpr.powered := true, hlp.link := .active, lco.images := [(0, { Image.reset with w := 2, h := 2, pix := [0] })] }

/-- LAYER_IMAGE_LOAD of that image's second pixel. -/
def secondPixel : Cmd := { words := [0, 4, 0x00020002, 0] }

/-- The records of memory traffic that a step leaves. -/
def trafficRecords : Host.Outcome State Fault Refusal → Nat
  | .next s => s.mss.traffic.length
  | _ => 0

theorem imageStarted_starts : startsNow 0x0603 (imageLens secondPixel) secondPixel imageStarted = true := by decide

theorem imageStarted_passes : firstFail (imageChunkChecks 0 secondPixel (begun secondPixel imageStarted)) = none := by decide

/-- The second pixel passes to memory as one record of traffic of the image load class. -/
theorem trafficRecords_secondPixel : trafficRecords (exec (.layerImageLoad secondPixel) imageStarted) = 1 := by decide

/-- The answer that the statement gives holds no record of it. -/
theorem trafficRecords_stated (m : Image) : trafficRecords (.next (answered 0x0603 secondPixel []
    { begun secondPixel imageStarted with lco.images := [(0, m)] })) = 0 := by
  rfl

/-- Refutes O28: a chunk of an image in order is written to memory, and the model records that traffic; the clause of LAYER_IMAGE_LOAD
gives a next state without the record. -/
theorem not_compositorCompletes : ¬ Obligations.CompositorCompletes := by
  unfold Obligations.CompositorCompletes
  rintro ⟨-, -, -, -, -, hload, -⟩
  have hnext := (hload secondPixel imageStarted _ (begun secondPixel imageStarted) 0 _ [] imageStarted_starts rfl (by decide)
    (by decide) rfl imageStarted_passes rfl).1 (by decide)
  have hrecords := congrArg trafficRecords hnext
  rw [trafficRecords_secondPixel] at hrecords
  exact absurd (hrecords.trans (trafficRecords_stated _)) (by decide)

end Sys2Proof.Machine

/-!
PROOFS. The cluster and the twin pair (O29, O30): what each command, cell, frame and timer leaves when its condition holds.
-/

namespace Sys2Proof.Machine

/-- The state when the path to the manager counts as lost: a port out of sync ages by 10 ms from its loss (17). -/
def pathLossAged (s : State) : State :=
  match (ctiPort s s.cti.parent).lostNs with
  | some t => if portInSync s s.cti.parent then s else advanceAon (t + 10000000) s
  | none => s

/-- What a lost path marks before the worker is suspended. -/
def pathLoss (s : State) : State := { s with cti.pathLost := true, cti.goodOffsets := 0 }

theorem execManagerPathLost_of_lost {s : State}
    (h : ¬ (s.cti.role ≠ 2 ∨ (portInSync s s.cti.parent = true ∧ (!parentWorks s) = true))) :
    execManagerPathLost s = .next (suspend 4 (pathLoss (pathLossAged s))) :=
  if_neg h

/-- Settles O29. -/
theorem clusterCompletes : Obligations.ClusterCompletes := by
  unfold Obligations.ClusterCompletes
  refine ⟨?role, ?add, ?remove, ?status, ?set, ?port, ?frame, ?discarded, ?captured, ?cells, ?hello, ?timeCell, ?groupCell, ?pathLost,
    ?noSync, ?plug⟩
  case role =>
    refine completesOkBy_of_body clusterRoleSet (fun _ _ => rfl) fun c b ⟨hfn, hgood, hfree⟩ => ?_
    have hbusy : (roleChanges (word c 1) b && !b.cti.groups.isEmpty) = false := by
      rcases hfree with h | h <;> simp [h]
    simp only [clusterRoleSet, hfn, roleSet, hgood, hbusy, checks_cons, checks_nil, Bool.false_eq_true, if_false]
  case add =>
    refine completesOkBy_of_body clusterRoleSet (fun _ _ => rfl) fun c b ⟨hfn, hgroup, hconf, hlock, hrole, htime, hnew⟩ => ?_
    have hfree : ¬ (((tget b.aue.confs (field (word c 1) 16 13)).map (·.lock)).getD 0 ≠ 0 ∧
        ((tget b.aue.confs (field (word c 1) 16 13)).map (·.lock)).getD 0 ≠ field (word c 1) 0 16) := by
      rintro ⟨hzero, hother⟩
      exact hlock.elim hzero hother
    simp only [clusterRoleSet, hfn, groupAdd, hgroup, hconf, hfree, hrole, htime, hnew, checks_cons, checks_nil, Bool.not_true,
      decide_false, Bool.or_self, Bool.false_eq_true, if_false]
  case remove =>
    intro c s b t g k h hb hfn hg hk hzero hin ht
    subst hb ht
    refine congrArg Host.Outcome.next (serve_done h ?_)
    simp only [clusterRoleSet, hfn, groupRemove, ← hg, ← hk, hzero, hin, checks_cons, checks_nil, Bool.not_true, decide_false,
      Bool.false_eq_true, if_false]
  case status =>
    refine completesOkBy_of_body clusterRoleSet (fun _ _ => rfl) fun c b hfn => ?_
    simp only [clusterRoleSet, hfn]
  case set =>
    refine completesOkBy_of_body coursePortSet (fun _ _ => rfl) fun c b ⟨hfn, hpos⟩ => ?_
    simp only [coursePortSet, hfn, not_lt.mpr hpos, checks_cons, checks_nil, decide_false, Bool.false_eq_true, if_false]
  case port =>
    refine completesOkBy_of_body coursePortSet (fun _ _ => rfl) fun c b hfn => ?_
    simp only [coursePortSet, hfn]
  case frame =>
    intro port f s
    simp only [exec, execCourseFrame]
  case discarded =>
    intro port c s hsync hbad
    have hdrop : (!c.crcOk || (ctiPort s port).contDrop) = true := by rcases hbad with h | h <;> simp [h]
    simp only [exec, execContainerReceived, hsync, hdrop, Bool.not_true, Bool.false_eq_true, if_false, if_true]
  case captured =>
    intro port c s hsync hcrc hkept
    cases hbad : c.badAt <;>
      simp only [exec, execContainerReceived, hsync, hcrc, hkept, hbad, Bool.not_true, Bool.or_self, Bool.false_eq_true, if_false,
        Option.map_some, Option.map_none, Option.getD_some, Option.getD_none]
  case cells =>
    intro port ws s t hsync ht
    refine ⟨?_, ?_, ?_⟩
    · simp only [exec, execHello, hsync, Bool.not_true, Bool.false_eq_true, if_false, ← ht]
    · simp only [exec, execTimeCell, hsync, if_true]
    · simp only [exec, execGroupCell, hsync, if_true]
  case hello =>
    intro port s a hon ha
    simp only [exec, execHelloSend, hon, Bool.not_true, Bool.false_eq_true, if_false, ← ha]
  case timeCell =>
    intro port n d s a b t hsync ha hn hdraw ht
    simp only [exec, execTimeCellSend, hsync, Bool.not_true, Bool.false_eq_true, if_false, ← ha, ← hn, hdraw, ← ht]
  case groupCell =>
    intro s a hrole hrelay ha
    simp only [exec, execGroupCellSend, hrole, hrelay, ne_eq, not_true_eq_false, Bool.false_eq_true, or_self, if_false, ← ha]
  case pathLost =>
    intro s a hrole hlost ha
    have hgo : ¬ (s.cti.role ≠ 2 ∨ (portInSync s s.cti.parent = true ∧ (!parentWorks s) = true)) := by
      rcases hlost with h | h <;> simp [hrole, h]
    have hnow : pathLossAged s = a := by
      rw [ha, pathLossAged]
      cases (ctiPort s s.cti.parent).lostNs with
      | none => rw [Option.map_none, Option.getD_none, ite_self]
      | some t => rw [Option.map_some, Option.getD_some]
    rw [exec, execManagerPathLost_of_lost hgo, hnow, pathLoss]
  case noSync =>
    intro port s hon hwait
    simp only [exec, execCourseSyncTimeout, hon, hwait, and_self, if_true]
  case plug =>
    intro port mw inserted s t ht
    simp only [exec, execTransceiverHotPlug, ← ht, Bool.or_eq_true, Bool.and_eq_true, decide_eq_true_eq]

/-- Settles O30. -/
theorem twinCompletes : Obligations.TwinCompletes := by
  unfold Obligations.TwinCompletes
  refine ⟨?form, ?dissolve, ?status, ?switch, ?joined, ?alone, ?send, ?quoin, ?svc, ?loss, ?mirror, ?resync, ?takeover, ?ack, ?outage,
    ?yield, ?powered, ?announce, ?taken, ?acked⟩
  case form =>
    intro c s b h hb hfn hprefer hforming hswitch hpaired hlegs hlong
    subst hb
    refine congrArg Host.Outcome.next (serve_accepted h ?_ hlong)
    have hgood : ¬ (field (word c 2) 0 2 = 0 ∨ field (word c 2) 0 2 = 3) := by omega
    have hsingle : ((begun c s).cti.paired && decide ((begun c s).cti.twin ≠ 3)) = false := by
      rcases hpaired with h | h <;> simp [h]
    have hempty : (decide (field (word c 2) 0 2 = 2 ∧ (begun c s).cti.twin ≠ 3) && !(begun c s).fwe.legs.isEmpty) = false := by
      rcases hlegs with h | h | h <;> simp [h]
    simp only [twinPair, hfn, hgood, hforming, hswitch, hsingle, hempty, checks_cons, checks_nil, Option.isSome_none, Bool.or_self,
      decide_false, Bool.false_eq_true, if_false]
  case dissolve =>
    refine completesOkBy_of_body twinPair (fun _ _ => rfl) fun c b ⟨hfn, hforming, hswitch⟩ => ?_
    simp only [twinPair, hfn, hforming, hswitch, checks_cons, checks_nil, Option.isSome_none, Bool.or_self, Bool.false_eq_true, if_false]
  case status =>
    refine completesOkBy_of_body twinPair (fun _ _ => rfl) fun c b hfn => ?_
    simp only [twinPair, hfn]
  case switch =>
    intro c s b h hb hswitch hopen hlong
    subst hb
    refine congrArg (fun t => Host.Outcome.next (settleSwitch t)) (serve_accepted h ?_ hlong)
    simp only [twinSwitch, hswitch, hopen, checks_cons, checks_nil, Option.isSome_none, Bool.or_self, Bool.false_eq_true, if_false]
  case joined =>
    intro prefer s t hforming hmet ht
    simp only [exec, execPairingDone, hforming, hmet, Bool.not_true, Bool.false_eq_true, if_false, if_true, ← ht]
  case alone =>
    intro prefer s t hforming hmet ht
    simp only [exec, execPairingDone, hforming, hmet, Bool.not_true, Bool.false_eq_true, if_false, ← ht]
  case send =>
    intro s a b t hpair ha hb ht
    have hon : ¬ ((!s.cti.paired) = true ∧ (!s.cti.forming) = true) := by rcases hpair with h | h <;> simp [h]
    simp only [exec, execHeartbeatSend, hon, if_false, ← ha, ← hb, ← ht]
  case quoin =>
    intro ws s hpair hport
    have hon : ¬ ((!s.cti.paired) = true ∧ (!s.cti.forming) = true) := by rcases hpair with h | h <;> simp [h]
    have hsync : (portInSync s 4 || portInSync s 5) = true := by rcases hport with h | h <;> simp [h]
    simp only [exec, execHeartbeat, hon, hsync, if_false, if_true]
  case svc =>
    intro ws s hpair hsvc
    have hon : ¬ ((!s.cti.paired) = true ∧ (!s.cti.forming) = true) := by rcases hpair with h | h <;> simp [h]
    simp only [exec, execHeartbeat, hon, hsvc, Bool.false_eq_true, if_false, if_true]
  case loss =>
    intro t s a b hlast ha hb
    simp only [exec, execHeartbeatLoss, hlast, ← ha, ← hb]
  case mirror =>
    intro seq kind index image s
    simp only [exec, execMirror]
  case resync =>
    intro s htwin hresync
    have hgo : ¬ (s.cti.twin ≠ 2 ∨ (!s.cti.resync) = true) := by simp [htwin, hresync]
    exact if_neg hgo
  case takeover =>
    intro code s hpaired hswitch htwin hmay
    simp [exec, execTakeover, takeover, hpaired, hswitch, htwin, hmay]
  case ack =>
    intro s htwin hswitch htaking
    simp only [exec, execTakeoverAck, htwin, hswitch, htaking, Bool.not_false, and_self, if_true]
  case outage =>
    intro s hlink hfirst
    simp only [exec, execHostLinkOutageTrigger, hlink, hfirst, Bool.false_eq_true, or_self, if_false]
  case yield =>
    intro n s hpaired
    simp only [exec, execYield, hpaired, if_true]
  case powered =>
    intro s t htaking htwin hon ht
    simp only [exec, execSwitchPowered, htaking, htwin, hon, Bool.not_true, ne_eq, not_true_eq_false, Bool.false_eq_true, or_self,
      if_false, ← ht]
  case announce =>
    intro s a hleft htwin ha
    cases hlast : s.cti.announceNs with
    | none =>
      have hnow : a = s := by simp only [ha, hlast]
      simp only [exec, execAddressAnnounce, hleft, htwin, hlast, ne_eq, not_true_eq_false, or_self, if_false, hnow]
    | some t =>
      have hwait : advanceAon (t + 10000000) s = a := by simp only [ha, hlast]
      simp only [exec, execAddressAnnounce, hleft, htwin, hlast, ne_eq, not_true_eq_false, or_self, if_false, hwait]
  case taken =>
    intro s hswitch htwin htaking
    have hopen : s.cti.switching.isNone = false := by simp [← Option.not_isSome, hswitch]
    simp only [exec, execSwitchComplete, hopen, htwin, htaking, ne_eq, not_true_eq_false, Bool.false_eq_true, or_self, if_false, if_true]
  case acked =>
    intro s hswitch htwin htaking hack
    have hopen : s.cti.switching.isNone = false := by simp [← Option.not_isSome, hswitch]
    simp only [exec, execSwitchComplete, hopen, htwin, htaking, hack, Bool.not_true, ne_eq, not_true_eq_false, Bool.false_eq_true,
      or_self, if_false, Bool.and_eq_true, decide_eq_true_eq]

end Sys2Proof.Machine

/-!
PROOFS. The service Ethernet, the conference store, the fabric and memory, power and clocks (O31 to O35): what each command and event leaves when its condition holds.
-/

namespace Sys2Proof.Machine

/-- A frame that passes the filter and finds room is counted; asleep, its bytes join those already stored. -/
theorem serviceFrame_of_room {f : EthFrame} {n : Nat} {asleep : Bool} {s t : State} (hon : svcOn s = true)
    (hasleep : asleep = (decide (s.cpr.sleep ≠ 0) || s.cpr.waking.isSome))
    (ht : t = (if 2 ≤ s.cpr.sleep ∧ s.cti.svc.filters.any fun x => filterMatches x f.head then wakeSource 2 s else s))
    (hn : n = (if asleep then t.cti.svc.rxBytes else 0) + f.len) (hpass : vlanPasses t.cti.svc f = true) (hroom : n ≤ 49152)
    {u : State} (hu : u = svcCount 1 { t with cti.svc.rxBytes := if asleep then n else 0 }) :
    serviceFrame f s = if f.kind ≤ 2 then u
      else { u with fwe.portCnt := u.fwe.portCnt.modify 14 fun l => l.modify 0 fun k => inc32 k } := by
  have hfits : ¬ 49152 < (if asleep then t.cti.svc.rxBytes else 0) + f.len := by omega
  have hbytes : (if asleep then t.cti.svc.rxBytes + f.len else 0) = if asleep then n else 0 := by
    cases asleep <;> simp [hn]
  simp only [serviceFrame, hon, ← hasleep, ← ht, hpass, hfits, hbytes, ← hu, Bool.not_true, Bool.false_eq_true, if_false]

/-- A datagram whose tag holds makes its sender the peer, and is an acknowledgement, is discarded or is queued (13 R338). -/
theorem backupDatagram_of_tag {src : Addr} {port : Nat} {key : List Word} {bytes body : List Byte} {p : RawPacket} {s t : State}
    (hkey : s.cpe.backupKey = some key) (hbody : body = bytes.take (bytes.length - 16)) (hp : p = parsePacket body)
    (ht : t = { s with cpx.backupPeer := some (src, port) })
    (htag : bytes.drop (bytes.length - 16) = (hmacSha256 (wordsBytes key) body).take 16) :
    backupDatagram src port bytes s =
      if p.crcOk = true ∧ p.flags % 4 ≠ 0 then
        if p.flags % 4 = 3 ∧ p.words = [] then backupAck (p.target / 4096 % 4) p.opcode p.tag p.seq t
        else discardPacket (4 + p.target / 4096 % 4) t
      else packetArrives true (p.target / 4096 % 4) (some (src, port)) body t := by
  subst hbody hp ht
  simp only [backupDatagram, hkey]
  exact if_neg (not_not.mpr htag)

/-- What becomes of the oldest unacknowledged event when its 100 ms are over (13 R338). -/
def resendOrLose (e : BackupEvent) (es : List BackupEvent) (s : State) : State :=
  if 5 ≤ e.resends then { s with cpx.backupUnacked := es, cpx.backupEventsLost := inc32 s.cpx.backupEventsLost }
  else
    let t := { s with cpx.backupUnacked := es ++ [{ e with resends := e.resends + 1, sentNs := s.cpr.aonNs }] }
    sendBackup (.packet true e.queue t.cpx.backupPeer e.packet) t.cpx.backupPeer e.packet t

theorem execBackupEventResend_of_unacked {e : BackupEvent} {es : List BackupEvent} {s : State} (h : s.cpx.backupUnacked = e :: es) :
    execBackupEventResend s = .next (resendOrLose e es (advanceAon (e.sentNs + 100000000) s)) := by
  rw [execBackupEventResend]
  split
  · next hnone => simp [h] at hnone
  · next f fs hsome =>
    obtain ⟨rfl, rfl⟩ := List.cons.inj (h.symm.trans hsome)
    rw [resendOrLose, apply_ite Host.Outcome.next]

/-- Settles O31. -/
theorem serviceEthernetCompletes : Obligations.ServiceEthernetCompletes := by
  unfold Obligations.ServiceEthernetCompletes
  refine ⟨?addresses, ?link, ?filters, ?counters, ?frame, ?collision, ?speed, ?change, ?ack, ?datagram, ?discard, ?resend⟩
  case addresses =>
    refine completesOkBy_of_body svcethSet (fun _ _ => rfl) fun c b ⟨hfn, hprefix, hmtu⟩ => ?_
    simp only [svcethSet, hfn, not_lt.mpr hprefix, not_lt.mpr hmtu, checks_cons, checks_nil, decide_false, Bool.or_self,
      Bool.false_eq_true, if_false]
  case link =>
    refine completesOkBy_of_body svcethSet (fun _ _ => rfl) fun c b ⟨hfn, hadvert⟩ => ?_
    simp only [svcethSet, hfn, hadvert, checks_cons, checks_nil, decide_false, Bool.false_eq_true, if_false]
  case filters =>
    refine completesOkBy_of_body svcethSet (fun _ _ => rfl) fun c b hfn => ?_
    simp only [svcethSet, hfn]
  case counters =>
    refine completesOkBy_of_body svcethSet (fun _ _ => rfl) fun c b hfn => ?_
    simp only [svcethSet, hfn]
  case frame =>
    intro f n asleep s t u hon hasleep ht hn hu
    refine ⟨fun hvlan => ?_, fun hvlan hfull => ?_, fun hvlan hroom hkind => ?_, fun hvlan hroom hkind => ?_⟩
    · simp only [exec, execServiceEthernetFrame, serviceFrame, hon, ← ht, hvlan, Bool.not_true, Bool.not_false, Bool.false_eq_true,
        if_false, if_true]
    · simp only [exec, execServiceEthernetFrame, serviceFrame, hon, ← ht, hvlan, ← hasleep, ← hn, hfull, Bool.not_true,
        Bool.false_eq_true, if_false, if_true]
    · rw [exec, execServiceEthernetFrame, serviceFrame_of_room hon hasleep ht hn hvlan hroom hu, if_pos hkind]
    · rw [exec, execServiceEthernetFrame, serviceFrame_of_room hon hasleep ht hn hvlan hroom hu, if_neg (not_le.mpr hkind)]
  case collision =>
    intro late s t u ht hon hqueue hu
    have hgo : (!svcOn t || t.cti.svc.txq.isEmpty) = false := by simp [hon, hqueue]
    refine ⟨fun hlast => ?_, fun e k v hmore he hdraw => ?_⟩
    · have hsixteen : 16 ≤ u.cti.svc.attempts + 1 := by omega
      simp only [exec, execCollision, collision, ← ht, hgo, ← hu, hsixteen, Bool.false_eq_true, if_false, if_true]
    · have hfewer : ¬ 16 ≤ u.cti.svc.attempts + 1 := by omega
      simp only [exec, execCollision, collision, ← ht, hgo, ← hu, hfewer, ← he, hdraw, Bool.false_eq_true, if_false]
  case speed =>
    intro util s a hon hfast hpolicy ha
    refine ⟨fun hidle hlonely => ?_, fun hbusy => ?_⟩
    · have hslow : (decide (util < 100) && (!a.cti.paired || quoinUp a)) = true := by
        rcases hlonely with h | h <;> simp [hidle, h]
      simp only [exec, execSpeedPolicyTimer, hon, hfast, hpolicy, ← ha, hslow, ne_eq, not_true_eq_false, decide_false, Bool.not_true,
        Bool.or_self, Bool.false_eq_true, if_false, if_true]
    · have hkeep : (decide (util < 100) && (!a.cti.paired || quoinUp a)) = false := by
        rcases hbusy with h | ⟨hpaired, hquoin⟩
        · simp [not_lt.mpr h]
        · simp [hpaired, hquoin]
      simp only [exec, execSpeedPolicyTimer, hon, hfast, hpolicy, ← ha, hkeep, ne_eq, not_true_eq_false, decide_false, Bool.not_true,
        Bool.or_self, Bool.false_eq_true, if_false]
  case change =>
    intro up fast s hstate hlatched hpowered
    have hgo : ¬ ((domainOf s 26).state ≠ .on ∨ (domainOf s 26).latched = true ∨ (!s.cpr.powered) = true) := by
      simp [hstate, hlatched, hpowered]
    rw [exec, execServiceEthernetLinkChange, if_neg hgo]
    cases up with
    | false => rfl
    | true => rfl
  case ack =>
    intro q code tag seq s hbackup hon
    simp only [exec, execBackupAcknowledgement, hbackup, hon, Bool.and_self, if_true, backupAck]
  case datagram =>
    intro src port key bytes body p s t hbackup hon hkey hbody hp ht
    have hexec : exec (.backupDatagram src port bytes) s = .next (backupDatagram src port bytes s) := by
      simp only [exec, execBackupDatagram, hbackup, hon, Bool.and_self, if_true]
    rw [hexec]
    refine ⟨fun htag => ?_, fun htag => ?_⟩
    · subst hbody
      simp only [backupDatagram, hkey, htag, ne_eq, not_false_eq_true, if_true]
    · rw [backupDatagram_of_tag hkey hbody hp ht htag]
      refine ⟨fun hcrc hflags hempty => ?_, fun hcrc hflags hother => ?_, fun hcommand => ?_⟩
      · rw [if_pos ⟨hcrc, by omega⟩, if_pos ⟨hflags, hempty⟩]
      · rw [if_pos ⟨hcrc, hflags⟩, if_neg fun ⟨hreply, hwords⟩ => hother.elim (· hreply) (· hwords)]
      · rw [if_neg fun ⟨hcrc, hflags⟩ => hcommand.elim (fun hbad => absurd hcrc (by simp [hbad])) hflags]
  case discard =>
    intro q s hlink hq
    simp only [exec, execNotACommandDiscard, hlink, hq, and_self, if_true]
  case resend =>
    intro e es s a hunacked ha
    rw [exec, execBackupEventResend_of_unacked hunacked, ← ha]
    exact ⟨fun hspent => congrArg Host.Outcome.next (if_pos hspent), fun hleft => congrArg Host.Outcome.next (if_neg (not_le.mpr hleft))⟩

/-- Settles O32. -/
theorem storeCompletes : Obligations.StoreCompletes := by
  unfold Obligations.StoreCompletes
  refine ⟨?ring, ?append, ?read, ?begin, ?stopExport, ?readExport, ?replay, ?stopReplay, ?readReplay, ?record, ?exported, ?ringGone,
    ?replayed, ?timeout⟩
  case ring =>
    refine completesOkBy_of_body _ (fun _ _ => rfl) fun c b ⟨hfn, hsize, hmin, hmax, hconf, hfits⟩ => ?_
    have hgood : ¬ (1835008 < (word c 1).toNat ∨ (word c 2).toNat < 100 ∨ 3600000 < (word c 2).toNat) := by omega
    simp only [hfn, hgood, hconf, not_lt.mpr hfits, checks_cons, checks_nil, Bool.not_true, decide_false, Bool.false_eq_true, if_false]
  case append =>
    refine completesOkBy_of_body _ (fun _ _ => rfl) fun c b ⟨hfn, hconf, hstream⟩ => ?_
    simp only [hfn, hconf, hstream, checks_cons, checks_nil, Bool.not_true, Bool.or_self, Bool.false_eq_true, if_false]
  case read =>
    refine completesOkBy_of_body _ (fun _ _ => rfl) fun c b ⟨hfn, hconf⟩ => ?_
    simp only [hfn, hconf, checks_cons, checks_nil, Bool.not_true, Bool.false_eq_true, if_false]
  case begin =>
    intro c s b conf st n h hb hfn hc hst hn hconf hstream hrunning hlong
    subst hb
    refine congrArg Host.Outcome.next (serve_accepted h ?_ hlong)
    have htarget : (!confUsed (begun c s) conf || (decide (st ≠ 0xFFFF) && !streamUsed (begun c s) st)) = false := by
      rcases hstream with h | h <;> simp [hconf, h]
    simp only [hfn, ← hc, ← hst, ← hn, htarget, hrunning, checks_cons, checks_nil, Bool.false_eq_true, if_false]
  case stopExport =>
    refine completesOkBy_of_body _ (fun _ _ => rfl) fun c b hfn => ?_
    simp only [hfn]
  case readExport =>
    refine completesOkBy_of_body _ (fun _ _ => rfl) fun c b hfn => ?_
    simp only [hfn]
  case replay =>
    intro c s b src tgt n h hb hfn hsrc htgt hn hused hused' horigin hproducer hindex hrunning hlong
    subst hb
    refine congrArg Host.Outcome.next (serve_accepted h ?_ hlong)
    simp only [hfn, ← hsrc, ← htgt, ← hn, hused, hused', horigin, hproducer, List.isEmpty_eq_false_iff.mpr hindex, hrunning, checks_cons,
      checks_nil, Bool.not_true, Bool.and_self, Bool.or_self, Bool.false_eq_true, if_false]
  case stopReplay =>
    refine completesOkBy_of_body _ (fun _ _ => rfl) fun c b hfn => ?_
    simp only [hfn]
  case readReplay =>
    intro c s b r h hb hfn hr
    subst hb
    refine congrArg Host.Outcome.next (serve_done h ?_)
    simp only [hfn, ← hr]
  case record =>
    intro n e r x s he hr hrunning hx
    simp only [exec, execExportRecordSend, he, Option.bind_some, hr, hrunning, hx, Bool.not_true, Bool.false_eq_true, if_false,
      apply_ite Host.Outcome.next]
  case exported =>
    intro n e r s he hr hnone
    simp only [exec, execExportDone, he, hr, hnone, Option.isSome_none, Bool.false_eq_true, if_false]
  case ringGone =>
    intro n e s he hr
    simp only [exec, execExportDone, he, hr]
  case replayed =>
    intro n r s hr
    refine ⟨fun hdropped hkept howed => ?_, fun hlost => ?_, fun hnone => ?_⟩
    · simp [exec, execReplayEnd, hr, hdropped, hkept, howed]
    · simp [exec, execReplayEnd, hr, hlost]
    · simp [exec, execReplayEnd, hr, hnone]
  case timeout =>
    intro conf n r x s a hr hx hkind ha
    simp only [exec, execCairnAppendTimeout, dropAppend, hr, hx, ← ha, hkind, if_true]

theorem checkedRequest_of_permitted {x : HeldReq} {s : State} (h : permittedRequest s x.req = true) :
    checkedRequest x s = serveRequest x s := by
  simp only [checkedRequest, h, Bool.not_true, Bool.false_eq_true, if_false]

theorem checkedRequest_of_denied {x : HeldReq} {s : State} (h : permittedRequest s x.req = false) :
    checkedRequest x s = denyRequest x.req (reqBytes x.req) s := by
  simp only [checkedRequest, h, Bool.not_false, if_true]

theorem permittedRequest_eq_false {r : FabReq} {s : State}
    (h : permitted s r (reqBytes r) = false ∨ (r.target = 6 ∧ 2 ^ 41 < r.addr + reqBytes r)) : permittedRequest s r = false := by
  rcases h with hdenied | ⟨htarget, hbeyond⟩
  · simp only [permittedRequest, hdenied, Bool.false_and]
  · simp only [permittedRequest, htarget, ne_eq, not_true_eq_false, decide_false, Bool.false_or, dramBytes, not_le.mpr hbeyond,
      Bool.and_false]

/-- A request that nothing holds up is performed as it is served. -/
theorem serveRequest_of_free {x : HeldReq} {s : State} (hfence : x.req.fenced = false)
    (hup : portDown s x.req.target x.req.inst = false) (hwait : mustWait s x = false) (hpause : pausedChannel s x.req = none) :
    serveRequest x s = performRequest x.req s := by
  simp only [serveRequest, hfence, hup, hwait, hpause, Bool.or_self, Bool.false_eq_true, if_false]

/-- The identity of the request that a flit carries: of its first arrival when it stands in the replay buffer, else issued anew (10). -/
def flitIssue (link number : Nat) (r : FabReq) (c : State) : HeldReq × State :=
  match (linkHeld c link).find? fun x => x.number = number with
  | some o => (⟨o.seq, nowNs c, r⟩, c)
  | none => issue r c

theorem execFabricFlitArrival_eq {link number n : Nat} {f : FabFlit} {r : FabReq} {x : HeldReq} {s c u : State}
    {rest : List ReplayFlit} (hc : c = settleChannels s) (hrest : rest = (linkHeld c link).filter (fun x => x.number ≠ number))
    (hr : r = flitReq f (flitBad f)) (hn : n = (((linkHeld c link).find? fun x => x.number = number).map (·.tries)).getD 0)
    (hissue : flitIssue link number r c = (x, u)) (hwords : f.words.length = 16) (hroom : rest.length < 64) (hmaster : r.master < 64)
    (htarget : r.target < 16) :
    execFabricFlitArrival link number f s =
      if flitBad f ≠ [] ∧ (!f.reply) = true ∧ (r.fenced || portDown u r.target r.inst) = true ∧ permittedRequest u r = true then
        .next (releaseBehind (emit (.completion r.master 1 [] []) (setHeld link rest u)))
      else if flitBad f ≠ [] ∧ n < 2 then .next (setHeld link (rest ++ [⟨number, n + 1, f.reply, x.seq, r⟩]) u)
      else .next (releaseBehind
        (if f.reply then replyArrives f r (if flitBad f = [] then setHeld link rest u else fault 0x6101 [w32 link] (setHeld link rest u))
         else checkedRequest x (if flitBad f = [] then setHeld link rest u else fault 0x6101 [w32 link] (setHeld link rest u)))) := by
  have hgo : ¬ (f.words.length ≠ 16 ∨ 64 ≤ rest.length ∨ 64 ≤ r.master ∨ 16 ≤ r.target) := by omega
  rw [flitIssue] at hissue
  cases hold : (linkHeld c link).find? fun x => x.number = number with
  | none =>
    simp only [hold] at hissue hn
    simp only [execFabricFlitArrival, ← hc, ← hrest, ← hr, hgo, if_false, hold, hissue, ← hn]
  | some o =>
    simp only [hold, Prod.mk.injEq] at hissue hn
    obtain ⟨rfl, rfl⟩ := hissue
    simp only [execFabricFlitArrival, ← hc, ← hrest, ← hr, hgo, if_false, hold, ← hn]

/-- Settles O33. -/
theorem memoryCompletes : Obligations.MemoryCompletes := by
  unfold Obligations.MemoryCompletes
  refine ⟨?request, ?read, ?beyond, ?flit, ?pause, ?paused, ?summary, ?channel, ?log, ?region, ?ages, ?regions⟩
  case request =>
    intro r x s c u hmaster htarget hc hx hu
    have hexec : exec (.fabricRequest r) s = .next (checkedRequest x u) := by
      rw [exec_fabricRequest hmaster htarget, hx, hu, hc]; rfl
    have hreq : x.req = r := by rw [hx]
    rw [hexec]
    refine ⟨fun hdenied => ?_, fun hpermitted => ?_, fun hpermitted hfence hup hwait hpause => ?_⟩
    · rw [checkedRequest_of_denied (hreq ▸ permittedRequest_eq_false hdenied), hreq]
    · rw [checkedRequest_of_permitted (hreq ▸ hpermitted)]
    · rw [checkedRequest_of_permitted (hreq ▸ hpermitted),
        serveRequest_of_free (hreq ▸ hfence) (hreq ▸ hup) hwait (hreq ▸ hpause), hreq]
  case read =>
    intro addr n k bad s hin
    rw [exec, execDramRead, if_neg (by rw [dramBytes]; exact not_lt.mpr hin)]
  case beyond =>
    intro addr n k bad s hout
    rw [exec, execDramRead, if_pos (by rw [dramBytes]; exact hout)]
  case flit =>
    intro link number n f r x s c u rest hc hrest hr hn hissue hwords hroom hmaster htarget
    rw [exec, execFabricFlitArrival_eq hc hrest hr hn hissue hwords hroom hmaster htarget]
    refine ⟨fun hgood hreply => ?_, fun hgood hreply => ?_, fun hbad hreply hdown hpermitted => ?_, fun hbad hdelivered => ?_⟩
    · simp [hgood, hreply]
    · simp [hgood, hreply]
    · simp [hbad, hreply, hdown, hpermitted]
    · have hserved : ¬ (flitBad f ≠ [] ∧ (!f.reply) = true ∧ (r.fenced || portDown u r.target r.inst) = true ∧
          permittedRequest u r = true) := by
        rintro ⟨-, hrequest, hdown, hpermitted⟩
        rcases hdelivered with h | h | h <;> simp_all
      rw [if_neg hserved]
      exact ⟨fun htries => if_pos ⟨hbad, htries⟩, fun htries => (if_neg fun h => absurd h.2 (not_lt.mpr htries)).trans (by rw [if_neg hbad])⟩
  case pause =>
    intro ch t ok s a hch hservice href ht ha
    have hgo : ¬ (16 ≤ ch ∨ (!(chanOf s ch).inService) = true ∨ (chanOf s ch).selfRef = true) := by simp [hch, hservice, href]
    simp only [exec, execRetrainingPause, hgo, if_false, ← ht, ← ha]
  case paused =>
    intro ch s
    refine ⟨_, ?_, rfl⟩
    simp only [pauseResult, if_true, Nat.reduceLeDiff, if_false]
  case summary =>
    refine completesOk_of_body memStatus (fun _ _ => rfl) fun c b hfn => ?_
    simp only [memStatus, hfn]
  case channel =>
    refine completesOk_of_body memStatus (fun _ _ => rfl) fun c b ⟨hfn, hch⟩ => ?_
    simp only [memStatus, hfn, not_lt.mpr hch, checks_cons, checks_nil, decide_false, Bool.false_eq_true, if_false]
  case log =>
    refine completesOk_of_body memStatus (fun _ _ => rfl) fun c b ⟨hfn, hch⟩ => ?_
    simp only [memStatus, hfn, not_lt.mpr hch, checks_cons, checks_nil, decide_false, Bool.false_eq_true, if_false]
  case region =>
    refine completesOk_of_body memStatus (fun _ _ => rfl) fun c b hfn => ?_
    simp only [memStatus, hfn]
  case ages => exact fun v s h => congrArg Host.Outcome.next (regAccess_of_reaches _ h)
  case regions => exact fun a v s h => congrArg Host.Outcome.next (regAccess_of_reaches _ h)

/-- Settles O34. -/
theorem powerCommandsComplete : Obligations.PowerCommandsComplete := by
  unfold Obligations.PowerCommandsComplete
  refine ⟨?awake, ?sleep, ?level, ?pad, ?clock, ?claim, ?release, ?owner, ?pin⟩
  case awake =>
    refine completesOk_of_body powerStateSet (fun _ _ => rfl) fun c b hs0 => ?_
    simp only [powerStateSet, hs0, if_true]
  case sleep =>
    refine completesLong_of_body powerStateSet (fun _ _ => rfl) fun c b ⟨hstate, hmode, hlegs, hpaired, hforming, hentering, hlong⟩ => ?_
    simp only [powerStateSet, hstate, hmode, hlegs, hpaired, hforming, hentering, hlong, checks_cons, checks_nil, List.isEmpty_nil,
      Bool.not_true, Option.isSome_none, Bool.or_self, decide_false, Bool.false_eq_true, if_false]
  case level =>
    intro c s b g l h hb hg hl hctl hmode hshort hidle hstepped
    subst hb
    have hforbids : (if g = 0 then decide (0 < l ∧ (begun c s).cpx.mode ≠ .service)
        else decide (l < ceiling (begun c s).cpx.mode)) = false := by
      by_cases hzero : g = 0
      · rcases hctl hzero with h | h <;> simp [hzero, h]
      · simp [hzero, hmode hzero]
    have hbusy : ((begun c s).cpr.changing.any (fun x => x.1 = g) || (stepped (begun c s) g &&
        decide (l < levelOf (begun c s) g) && (begun c s).cpr.powerStop)) = false := by
      rw [hidle]
      rcases hstepped with h | h | h
      · simp [h]
      · simp [not_lt.mpr h]
      · simp [h]
    by_cases hsame : l = levelOf (begun c s) g
    · rw [if_pos hsame]
      refine congrArg Host.Outcome.next (serve_done h ?_)
      simp only [perfLevelSet, ← hg, ← hl, hforbids, hshort, hbusy, checks_cons, checks_nil, Bool.false_eq_true, if_false]
      rw [if_pos hsame]
    · rw [if_neg hsame]
      refine congrArg Host.Outcome.next (serve_deferred h ?_)
      simp only [perfLevelSet, ← hg, ← hl, hforbids, hshort, hbusy, hsame, checks_cons, checks_nil, Bool.false_eq_true, if_false]
  case pad =>
    refine completesOk_of_body padRelease (fun _ _ => rfl) fun c b ⟨hgroup, hdomain⟩ => ?_
    simp only [padRelease, not_lt.mpr hgroup, hdomain, checks_cons, checks_nil, decide_false, Bool.false_eq_true, if_false]
  case clock =>
    intro c s b mux input hung h hb hmux hinput hpass hhung
    subst hb
    refine ⟨fun hplain hgoes => ?_, fun hplain hhangs => ?_, fun hforced => ?_⟩
    · refine congrArg Host.Outcome.next (serve_done h ?_)
      simp only [clockSelect, ← hmux, ← hinput, checks_of_pass hpass, ← hhung, hplain, hgoes, Bool.false_eq_true, if_false]
    · refine congrArg Host.Outcome.next (serve_deferred h ?_)
      simp only [clockSelect, ← hmux, ← hinput, checks_of_pass hpass, ← hhung, hplain, hhangs, Bool.false_eq_true, if_false, if_true]
    · refine congrArg Host.Outcome.next (serve_done h ?_)
      simp only [clockSelect, ← hmux, ← hinput, checks_of_pass hpass, ← hhung, hforced, if_true, Bool.and_eq_true, decide_eq_true_eq]
  case claim =>
    refine completesOkBy_of_body resourceClaim (fun _ _ => rfl) fun c b ⟨hfn, hpass⟩ => ?_
    simp only [resourceClaim, hfn, checks_of_pass hpass]
  case release =>
    refine completesOkBy_of_body resourceClaim (fun _ _ => rfl) fun c b ⟨hfn, hindex, howner⟩ => ?_
    simp only [resourceClaim, hfn, hindex, not_le.mpr howner, checks_cons, checks_nil, decide_false, Bool.false_eq_true, if_false]
  case owner =>
    refine completesOkBy_of_body resourceClaim (fun _ _ => rfl) fun c b ⟨hfn, hindex⟩ => ?_
    by_cases hpin : field (word c 0) 0 4 = 1
    · rw [hpin] at hindex
      simp only [resourceClaim, hfn, hpin, hindex, checks_cons, checks_nil, Bool.false_eq_true, if_false, if_true]
    · simp only [resourceClaim, hfn, hpin, hindex, checks_cons, checks_nil, Bool.false_eq_true, if_false]
  case pin =>
    refine completesOkBy_of_body resourceClaim (fun _ _ => rfl) fun c b ⟨hfn, hindex, hpin, howner, hout⟩ => ?_
    rw [hpin] at hindex
    have hparam : (bit (word c 1) 0 && (decide (field (word c 1) 2 6 < 8) || decide (field (word c 1) 8 24 = 0))) = false := by
      cases hb : bit (word c 1) 0 with
      | false => rfl
      | true =>
        obtain ⟨hcmp, hwidth, -⟩ := hout hb
        simp [not_lt.mpr hcmp, hwidth]
    have hclaimed : (bit (word c 1) 0 && decide ((cmpOf b (field (word c 1) 2 6)).owner ≠ 1)) = false := by
      cases hb : bit (word c 1) 0 with
      | false => rfl
      | true => simp [(hout hb).2.2]
    simp only [resourceClaim, hfn, hpin, hindex, evtSetUp, hparam, howner, hclaimed, checks_cons, checks_nil, ne_eq, not_true_eq_false,
      decide_false, Bool.false_eq_true, if_false]

/-- Settles O35. -/
theorem powerEventsComplete : Obligations.PowerEventsComplete := by
  unfold Obligations.PowerEventsComplete
  refine ⟨?entered, ?window, ?wake, ?woken, ?level, ?stopped, ?stuck, ?pll, ?drained, ?powered, ?overrun, ?power, ?resume⟩
  case entered =>
    intro t s a b htarget hwindow hchanging hdomains ha hb
    have hgo : (s.cpr.window || !s.cpr.changing.isEmpty ||
        (decide (2 ≤ t) && sleepDomains.any fun d => (domainOf s d).state ≠ .off)) = false := by
      rw [hwindow, hchanging]
      rcases hdomains with h | h
      · simp [not_le.mpr h]
      · rw [h]
        simp
    refine ⟨fun htwo hthree => ?_, fun htwo => ?_, fun hthree => ?_⟩
    · simp only [exec, execSleepEntered, htarget, hgo, Bool.false_eq_true, if_false, ← ha, ← hb, htwo, hthree]
    · subst htwo
      simp only [exec, execSleepEntered, htarget, hgo, Bool.false_eq_true, if_false, ← ha, ← hb, if_true, Nat.reduceEqDiff]
    · subst hthree
      simp only [exec, execSleepEntered, htarget, hgo, Bool.false_eq_true, if_false, ← ha, ← hb, if_true, Nat.reduceEqDiff]
  case window =>
    intro s a hopen ha
    refine ⟨fun b hdue => ?_, fun hdue => ?_⟩
    · simp only [exec, execEntryWindowEnd, hopen, hdue, Bool.not_true, Bool.false_eq_true, if_false, ← ha]
    · simp only [exec, execEntryWindowEnd, hopen, hdue, Bool.not_true, Bool.false_eq_true, if_false, ← ha]
  case wake =>
    intro source s hsource hcommand hmask
    have hgo : ¬ (6 ≤ source ∨ (source = 4 ∧ (!commandWaits s) = true)) := by
      rintro (h | ⟨hfour, hnone⟩)
      · omega
      · simp [hcommand hfour] at hnone
    have hon : ¬ (s.cpr.wakeMask >>> source) % 2 = 0 := by omega
    have hexec : exec (.wakeEvent source) s = .next (wakeSource source s) := by
      rw [exec, execWakeEvent, if_neg hgo]
    rw [hexec]
    refine ⟨fun hentering hwaking hstate => ?_, fun t hentering hstate hlevel => ?_, fun t hentering hwindow hedge => ?_⟩
    · simp [wakeSource, hon, hentering, hwaking, hstate]
    · simp [wakeSource, hon, hentering, hstate, hlevel]
    · simp [wakeSource, hon, hentering, hwindow, hedge]
  case woken =>
    intro left src s a w b d hwaking hdomains ha hw hb hd
    simp only [exec, execWakeComplete, hwaking, hdomains, Bool.false_eq_true, if_false, ← ha, ← hw, ← hb, ← hd]
  case level =>
    intro g l s a hchange ha
    refine ⟨fun hnone => ?_, fun qi hreply => ?_⟩
    · simp only [exec, execLevelChangeComplete, hchange, ← ha, hnone]
    · simp only [exec, execLevelChangeComplete, hchange, ← ha, hreply]
      subst ha
      rfl
  case stopped =>
    intro i s a hi hruns ha
    have hgo : ¬ (18 ≤ i ∨ s.cpr.stopped.getD i false = true) := by
      rintro (h | h)
      · omega
      · exact absurd (hruns.symm.trans h) (by decide)
    simp only [exec, execClockInputStopped, hgo, if_false, ← ha]
  case stuck =>
    intro mux i s t a hswitch ht ha
    simp only [exec, execSwitchStuckTimeout, hswitch, ← ht, ← ha] <;> rfl
  case pll =>
    intro p s hp
    refine ⟨fun hfatal => ?_, fun hfour hseven => ?_⟩
    · simp only [exec, execPllUnlock, not_le.mpr hp, hfatal, if_false, if_true]
    · have hswitch : ¬ (p < 4 ∨ p = 7) := by omega
      simp only [exec, execPllUnlock, not_le.mpr hp, hswitch, if_false]
  case drained =>
    intro d ms s a hd hstate ha
    have hgo : ¬ (28 ≤ d ∨ (domainOf s d).state ≠ .draining) := by
      rintro (h | h)
      · omega
      · exact h hstate
    refine ⟨fun hnone => ?_, fun hsome => ?_⟩
    · simp only [exec, execDrainEnd, hgo, if_false, hnone, if_true, List.foldl_nil, List.length_nil]
    · simp only [exec, execDrainEnd, hgo, hsome, if_false, ← ha]
  case powered =>
    intro d s hstate
    simp only [exec, execDomainPowered, hstate, if_true]
  case overrun =>
    intro x y s hx hy
    have hgo : ¬ (14 ≤ x ∨ 14 ≤ y) := by omega
    simp only [exec, execHandshakeOverrun, hgo, if_false]
  case power =>
    intro dw s t a ht hsleep hentering ha
    have hgo : ¬ (a.cpr.sleep ≠ 0 ∨ a.cpr.entering.isSome = true) := by simp [ha, hsleep, hentering]
    rw [exec, execPowerWindow, ← ht, ← ha]
    refine ⟨fun hlow => ?_, fun hhigh hfirst => ?_, fun hhigh hsecond hmid hbig => ?_⟩
    · rw [if_neg hgo, if_neg (by rw [ha]; exact not_lt.mpr hlow)]
      rw [ha]
    · have hone : a.cpr.overWindows = 0 := by rw [ha]; exact hfirst
      rw [if_neg hgo, if_pos (by rw [ha]; exact hhigh)]
      simp only [hone, Nat.zero_add, Nat.one_lt_ofNat, true_or, if_true]
    · have hover : ¬ a.cpr.overWindows + 1 < 2 := by
        have hsame : a.cpr.overWindows = t.cpr.overWindows := by rw [ha]
        omega
      have hsteps : ∀ g, stepRuns a g = stepRuns t g := fun g => by rw [ha]; rfl
      rw [if_neg hgo, if_pos (by rw [ha]; exact hhigh)]
      refine (if_neg ?_).trans ?_
      · rintro (h | h | h)
        · exact hover h
        · exact absurd ((hsteps 1).symm.trans h) (by simp [hmid])
        · exact absurd ((hsteps 2).symm.trans h) (by simp [hbig])
      · have hcount : a.cpr.stepDowns = t.cpr.stepDowns := by rw [ha]
        rw [hcount]
  case resume =>
    intro s hstop hcool
    simp only [exec, execAdmissionResume, hstop, hcool, and_self, if_true]

end Sys2Proof.Machine

/-!
PROOFS. The host link, power-up, boot and save (O37, O38): what each command and event leaves when its condition holds.
-/

namespace Sys2Proof.Machine

/-- Settles O37. -/
theorem hostLinkCompletes : Obligations.HostLinkCompletes := by
  unfold Obligations.HostLinkCompletes
  refine ⟨?poll, ?loss, ?train, ?boot, ?wake, ?lanes, ?equalize, ?fec, ?credits, ?flit, ?active, ?failed, ?trim, ?registers, ?sideband⟩
  case poll =>
    intro s hon
    constructor
    · simp only [exec, execPoll, hon, if_true]
    · simp only [exec, execSidebandCrcFail, hon, if_true]
  case loss =>
    intro s hon hsaving
    have hgo : ¬ (emit (.sideband 0x82 []) s).cpr.saving = true := by simp [hsaving]
    simp only [exec, execPowerLoss, hon, Bool.not_true, Bool.false_eq_true, hgo, if_false, emit_tsu]
  case train =>
    intro p s a hon hready hwidth ha
    have hgo : ¬ ((!s.hlp.trainReady) = true ∨ p.toNat / 2 % 4 = 3) := by simp [hready, hwidth]
    simp only [exec, execTrain, hon, Bool.not_true, Bool.false_eq_true, hgo, if_false, ← ha]
  case boot =>
    intro bytes s hon hlen
    have hgo : (!sidebandOn s || decide (64 < bytes.length)) = false := by simp [hon, hlen]
    refine ⟨fun hhanded => ?_, fun hrom => ?_⟩
    · simp only [exec, execBoot, hgo, Bool.false_eq_true, if_false, hhanded, if_true]
    · simp only [exec, execBoot, hgo, Bool.false_eq_true, if_false, hrom]
  case wake =>
    intro s hlink
    simp only [exec, execWakePattern, hlink, if_false]
  case lanes =>
    intro m s hlink
    refine ⟨fun hmask => ?_, ?_⟩
    · simp only [exec, execLaneSymbolLock, hlink, hmask, ne_eq, not_false_eq_true, and_self, if_true]
    · simp only [exec, execLaneSyncTimeout, hlink, if_true]
  case equalize =>
    intro good lanes s a hlink ha hlanes
    refine ⟨fun hnone => ?_, fun hsome => ?_⟩
    · simp only [exec, execEqualizeDone, hlink, ne_eq, not_true_eq_false, if_false, ← ha, ← hlanes, hnone, if_true,
        Bool.not_eq_true']
    · refine ⟨_, rfl, ?_⟩
      simp only [exec, execEqualizeDone, hlink, ne_eq, not_true_eq_false, if_false, ← ha, ← hlanes, hsome]
  case fec =>
    intro ok s hlink
    simp only [exec, execFecAlignmentLock, hlink, if_true]
  case credits =>
    intro cs s hlink
    by_cases hlen : cs.length = 6
    · simp only [exec, execCreditInit, hlink, hlen, ne_eq, not_true_eq_false, if_false, if_true]
    · simp only [exec, execCreditInit, hlink, hlen, ne_eq, not_true_eq_false, not_false_eq_true, if_false, if_true]
  case flit =>
    intro bytes corrected s hlink
    refine ⟨fun hlen => ?_, fun hlen hcrc => ?_, fun hlen hcrc => ?_⟩
    · simp only [exec, execFlitReceived, hlink, ne_eq, not_true_eq_false, if_false, flitBytes, hlen, not_false_eq_true, if_true]
    · simp only [exec, execFlitReceived, hlink, ne_eq, not_true_eq_false, if_false, flitBytes, hlen, hcrc, not_false_eq_true, if_true]
    · simp only [exec, execFlitReceived, hlink, ne_eq, not_true_eq_false, if_false, flitBytes, hlen, hcrc]
  case active =>
    intro n ch s hlink
    refine ⟨?_, fun hch => ?_, ?_, ?_, ?_⟩
    · simp only [exec, execFlitNak, hlink, if_true]
    · simp only [exec, execCreditReturn, hlink, hch, and_self, if_true]
    · simp only [exec, execLinkRetrain, hlink, if_true]
    · simp only [exec, execSofMiss, hlink, true_or, if_true]
    · simp only [exec, execSofMark, hlink, ne_eq, not_true_eq_false, if_false, apply_ite Host.Outcome.next]
  case failed =>
    intro s hretrain htraining
    simp only [exec, execRetrainFailed, hretrain, htraining, and_self, if_true]
  case trim =>
    intro n s a ha href hmissed
    have hgo : ¬ (trimRef s = 0 ∨ (a.cpr.windowMissed && decide (trimRef s = 2)) = true) := by
      rcases hmissed with h | h <;> simp [href, h]
    rw [exec, execAonTrimWindow, ← ha]
    exact if_neg hgo
  case registers =>
    intro s hrom hstopped hreach
    refine ⟨?_, fun hhandoff => ?_⟩
    · have hgo : ¬ (s.cpr.boot = .rom ∨ s.cpr.boot = .romStopped) := by simp [hrom, hstopped]
      rw [exec, execTrainReadySet, if_neg hgo, regAccess_of_reaches _ hreach]
    · have hgo : ¬ (s.cpr.boot = .rom ∨ s.cpr.boot = .romStopped ∨ s.hlp.handoff = true) := by simp [hrom, hstopped, hhandoff]
      rw [exec, execHandoffSet, if_neg hgo, regAccess_of_reaches _ hreach, setHandoff]
  case sideband =>
    intro s hlink
    simp only [exec, execSidebandProtocolStart, hlink, if_true]

/-- Settles O38. -/
theorem bringUpCompletes : Obligations.BringUpCompletes := by
  unfold Obligations.BringUpCompletes
  refine ⟨?input, ?bank, ?timers, ?rom, ?watchdog, ?config, ?dram, ?ready, ?sag, ?marker, ?abort, ?back, ?trips, ?fatal⟩
  case input =>
    intro dv s hoff hkept hlow hhigh
    have hgood : decide (440 ≤ dv ∧ dv ≤ 600) = true := decide_eq_true ⟨hlow, hhigh⟩
    simp only [exec, execInputPowerApplied, hoff, hkept, hgood, Bool.not_true, Bool.false_eq_true, if_false]
  case bank =>
    intro t c late s a hon hcap hc ha hlate
    have hgo : ¬ (!s.cpr.powered || s.cpr.capValid) = true := by simp [hon, hcap]
    subst hlate
    rw [exec, execBankCharged, if_neg hgo, ← ha, ← hc]
  case timers =>
    intro s hon
    refine ⟨fun hcap hhold => ?_, fun hfailed => ?_, fun hcrystal hfailed => ?_⟩
    · rw [exec, execHoldupChargeTimeout, if_pos ⟨hon, by simp [hcap], by simp [hhold]⟩]
    · rw [exec, execCrystalStable, if_pos ⟨hon, by simp [hfailed]⟩]
    · rw [exec, execCrystalTimeout, if_pos ⟨hon, by simp [hcrystal], by simp [hfailed]⟩]
  case rom =>
    intro s hon hcrystal hboot
    have hgo : (!s.cpr.powered || !s.cpr.crystal || decide (s.cpr.boot ≠ .rom)) = false := by simp [hon, hcrystal, hboot]
    refine ⟨fun hnone => ?_, fun n hsome => ?_⟩
    · simp only [exec, execBootRomHandoff, hgo, Bool.false_eq_true, if_false, hnone]
    · simp only [exec, execBootRomHandoff, hgo, Bool.false_eq_true, if_false, hsome]
  case watchdog =>
    intro s hhandoff hrom hstopped
    have hgo : ¬ (s.hlp.handoff = true ∨ s.cpr.boot = .rom ∨ s.cpr.boot = .romStopped) := by simp [hhandoff, hrom, hstopped]
    rw [exec, execBootWatchdog, if_neg hgo]
  case config =>
    intro s hboot
    rw [exec, execConfigurationChosen, if_neg (not_not.mpr hboot)]
  case dram =>
    intro mask s hboot
    rw [exec, execDramTrained, if_neg (not_not.mpr hboot)]
  case ready =>
    intro s hready hnow
    have hgo : ¬ (s.cpx.ready || !readyNow s) = true := by simp [hready, hnow]
    rw [exec, execModuleReady, if_neg hgo]
  case sag =>
    intro v s t hon hdraw
    simp only [exec, execInputSag, hon, Bool.not_true, Bool.false_eq_true, if_false, hdraw]
  case marker =>
    intro v s t hruns hdraw
    simp only [exec, execSaveMarkerWritten, hruns, Bool.not_true, Bool.false_eq_true, if_false, hdraw]
  case abort =>
    intro n s t hon hsaving hruns hdraw
    simp only [exec, execBankAbortVoltage, hon, hsaving, hruns, Bool.not_true, Bool.or_self, Bool.false_eq_true, if_false, if_true,
      hdraw]
  case back =>
    intro s a hback ha
    refine ⟨fun hoff => ?_, fun hon hdone => ?_, fun hon hdone hlost => ?_⟩
    · simp only [exec, execInputReturnHold, hback, hoff, Bool.not_true, Bool.not_false, Bool.false_eq_true, if_false, if_true, ← ha]
    · simp only [exec, execInputReturnHold, hback, hon, hdone, Bool.not_true, Bool.false_eq_true, if_false, if_true, ← ha]
    · simp only [exec, execInputReturnHold, hback, hon, hdone, hlost, Bool.not_true, Bool.false_eq_true, if_false, if_true, ← ha]
  case trips =>
    intro s hon
    constructor
    · rw [exec, execInputOvervoltage, if_pos hon]
    · rw [exec, execOvertemperatureTrip, if_pos hon]
  case fatal =>
    intro s hfatal
    rw [exec, execFatalFaultReset, if_pos hfatal]

end Sys2Proof.Machine

/-!
PROOFS. What leaves the bytes of memory as they are: a lemma per function that no write to memory and no reset reaches, in the order of the model.
The shared operations, the command queues, the buffer pools, the time base.
-/

namespace Sys2Proof.Machine

/-! ### What it says of a state, an answer and a step -/

/-- A change of the state that leaves the bytes of memory as they are. -/
def KeepsDram (f : State → State) : Prop := ∀ s, (f s).mss.dram = s.mss.dram

@[simp] theorem keepsDram_iff (f : State → State) : KeepsDram f ↔ ∀ s, (f s).mss.dram = s.mss.dram := ⟨id, id⟩

/-- What an opcode's body answers carries memory with the bytes m, where it carries a state. -/
def Res.DramIs (m : List Host.Cell) : Res → Prop
  | .refuse _ => True
  | .refuseWith _ t => t.mss.dram = m
  | .done _ t => t.mss.dram = m
  | .accepted _ t => t.mss.dram = m
  | .deferred t => t.mss.dram = m

/-- A step that answers a next state leaves memory with the bytes m. -/
def StepDramIs (m : List Host.Cell) : Host.Outcome State Fault Refusal → Prop
  | .next t => t.mss.dram = m
  | .fault _ => True
  | .refused _ => True

section
variable (m : List Host.Cell) (s : State)

@[simp] theorem dramIs_refuse (st : Status) : (Res.refuse st).DramIs m ↔ True := ⟨id, id⟩
@[simp] theorem dramIs_refuseWith (st : Status) : (Res.refuseWith st s).DramIs m ↔ s.mss.dram = m := ⟨id, id⟩
@[simp] theorem dramIs_done (ws : List Word) : (Res.done ws s).DramIs m ↔ s.mss.dram = m := ⟨id, id⟩
@[simp] theorem dramIs_accepted (key : Nat) : (Res.accepted key s).DramIs m ↔ s.mss.dram = m := ⟨id, id⟩
@[simp] theorem dramIs_deferred : (Res.deferred s).DramIs m ↔ s.mss.dram = m := ⟨id, id⟩
@[simp] theorem stepDramIs_next : StepDramIs m (.next s) ↔ s.mss.dram = m := ⟨id, id⟩

end

section
variable (c : Prop) [Decidable c]

@[simp] theorem ite_dram (a b : State) : (if c then a else b).mss.dram = if c then a.mss.dram else b.mss.dram :=
  apply_ite (fun t : State => t.mss.dram) ..

@[simp] theorem ite_snd_dram {α : Type} (a b : α × State) :
    (if c then a else b).2.mss.dram = if c then a.2.mss.dram else b.2.mss.dram :=
  apply_ite (fun t : α × State => t.2.mss.dram) ..

@[simp] theorem ite_dramIs (a b : Res) (m : List Host.Cell) :
    (if c then a else b).DramIs m ↔ if c then a.DramIs m else b.DramIs m :=
  iff_of_eq (apply_ite (Res.DramIs m) ..)

end

@[simp] theorem foldl_dram {α : Type} (f : State → α → State) (h : ∀ a, KeepsDram fun s => f s a) (l : List α) (s : State) :
    (l.foldl f s).mss.dram = s.mss.dram := by
  induction l generalizing s with
  | nil => rfl
  | cons a l ih => exact (ih _).trans (h a s)

@[simp] theorem checks_dramIs (cs : List (Bool × Status)) (k : Res) {m : List Host.Cell} (h : k.DramIs m) : (checks cs k).DramIs m := by
  unfold checks
  split
  · trivial
  · exact h

theorem dram_of_next {o : Host.Outcome State Fault Refusal} {t : State} (h : StepDramIs t.mss.dram o) :
    (match o with
      | .next u => u
      | _ => t).mss.dram = t.mss.dram := by
  cases o with
  | next u => exact h
  | fault => rfl
  | refused => rfl

/-- A state named by a variable of its own: what follows sees of it only that memory stood. -/
theorem exists_eq_dram {s x : State} (h : x.mss.dram = s.mss.dram) : ∃ t, x = t ∧ t.mss.dram = s.mss.dram := ⟨x, rfl, h⟩

/-! ### Tables, time, queues, events and faults -/

@[simp] theorem draw_dram (s : State) : (draw s).2.mss.dram = s.mss.dram := (rfl)

@[simp] theorem drawBelow_dram (n : Nat) (s : State) : (drawBelow n s).2.mss.dram = s.mss.dram := (rfl)

@[simp] theorem capture_dram (s : State) : (capture s).2.mss.dram = s.mss.dram := (rfl)

@[simp] theorem stamp_dram (s : State) : (stamp s).2.mss.dram = s.mss.dram := (rfl)

@[simp] theorem setIncrement_dram (c : Int) (s : State) : (setIncrement c s).mss.dram = s.mss.dram := (rfl)

@[simp] theorem runSlew_dram (n : Nat) (s : State) : (runSlew n s).mss.dram = s.mss.dram := by simp [runSlew]

@[simp] theorem advanceTo_dram (t : Nat) (s : State) : (advanceTo t s).mss.dram = s.mss.dram := by simp [advanceTo]

@[simp] theorem advanceAon_dram (t : Nat) (s : State) : (advanceAon t s).mss.dram = s.mss.dram := by simp [advanceAon]

@[simp] theorem modQueue_dram (qi : Nat) (f : CmdQ → CmdQ) (s : State) : (modQueue qi f s).mss.dram = s.mss.dram := (rfl)

@[simp] theorem emit_dram (o : Output) (s : State) : (emit o s).mss.dram = s.mss.dram := (rfl)

@[simp] theorem sendFlits_dram (chan : Nat) (x0 : Nat) (s : State) : (sendFlits chan x0 s).mss.dram = s.mss.dram := by
  fun_induction sendFlits <;> simp_all

@[simp] theorem svcCount_dram (i : Nat) (s : State) : (svcCount i s).mss.dram = s.mss.dram := (rfl)

@[simp] theorem svcDrain_dram (s : State) : (svcDrain s).mss.dram = s.mss.dram := by simp [svcDrain]

@[simp] theorem svcSpeedUp_dram (s : State) : (svcSpeedUp s).mss.dram = s.mss.dram := by simp [svcSpeedUp]

@[simp] theorem svcPlace_dram (f : Frame) (s : State) : (svcPlace f s).mss.dram = s.mss.dram := by simp [svcPlace]

@[simp] theorem svcSend_dram (dest : Addr) (bytes : Nat) (s : State) : (svcSend dest bytes s).2.mss.dram = s.mss.dram := by simp [svcSend]

@[simp] theorem sendBackup_dram (out : Output) (dest : Option (Addr × Nat)) (p : Packet) (s : State) :
    (sendBackup out dest p s).mss.dram = s.mss.dram := by
  unfold sendBackup
  split <;> simp

@[simp] theorem sendPacket_dram (qi : Nat) (dest : Option (Addr × Nat)) (p : Packet) (s : State) :
    (sendPacket qi dest p s).mss.dram = s.mss.dram := by simp [sendPacket]

@[simp] theorem pumpLink_dram (qi : Nat) (x0 : Nat) (s : State) : (pumpLink qi x0 s).mss.dram = s.mss.dram := by
  fun_induction pumpLink <;> simp_all

@[simp] theorem pump_dram (qi : Nat) (s : State) : (pump qi s).mss.dram = s.mss.dram := by simp [pump]

@[simp] theorem storeEvent_dram (qi : Nat) (e : EvRec) (s : State) : (storeEvent qi e s).mss.dram = s.mss.dram := by simp [storeEvent]

@[simp] theorem sendBackupEvent_dram (queue : Nat) (e : EvRec) (s : State) : (sendBackupEvent queue e s).mss.dram = s.mss.dram := by
  unfold sendBackupEvent
  split <;> simp

@[simp] theorem raiseEvent_dram (code : Nat) (detail : Nat) (ws : List Word) (s : State) :
    (raiseEvent code detail ws s).mss.dram = s.mss.dram := by simp [raiseEvent]

@[simp] theorem evtLeg_dram (detail : Nat) (leg : Nat) (ws : List Word) (s : State) :
    (evtLeg detail leg ws s).mss.dram = s.mss.dram := by simp [evtLeg]

@[simp] theorem evtTwin_dram (detail : Nat) (ws : List Word) (s : State) : (evtTwin detail ws s).mss.dram = s.mss.dram := by simp [evtTwin]

@[simp] theorem longDone_dram (qi : Nat) (op : Nat) (tag : Word) (st : Status) (ws : List Word) (s : State) :
    (longDone qi op tag st ws s).mss.dram = s.mss.dram := by simp [longDone]

@[simp] theorem endLong_dram (op : Nat) (key : Nat) (st : Status) (ws : List Word) (s : State) :
    (endLong op key st ws s).mss.dram = s.mss.dram := by
  unfold endLong
  split <;> simp

@[simp] theorem endLongs_dram (op : Nat) (key : Nat) (ws : List Word) (x0 : Nat) (s : State) :
    (endLongs op key ws x0 s).mss.dram = s.mss.dram := by
  fun_induction endLongs <;> simp_all

@[simp] theorem endEveryLong_dram (op : Nat) (key : Nat) (ws : List Word) (s : State) :
    (endEveryLong op key ws s).mss.dram = s.mss.dram := by simp [endEveryLong]

@[simp] theorem modDomain_dram (d : Nat) (f : Domain → Domain) (s : State) : (modDomain d f s).mss.dram = s.mss.dram := (rfl)

@[simp] theorem modCtiPort_dram (p : Nat) (f : CtiPort → CtiPort) (s : State) : (modCtiPort p f s).mss.dram = s.mss.dram := (rfl)

@[simp] theorem sendTwin_dram (kind : Nat) (ws : List Word) (s : State) : (sendTwin kind ws s).mss.dram = s.mss.dram := by simp [sendTwin]

@[simp] theorem twinTrigger_dram (code : Nat) (s : State) : (twinTrigger code s).mss.dram = s.mss.dram := by simp [twinTrigger]

@[simp] theorem fatalReaction_dram (s : State) : (fatalReaction s).mss.dram = s.mss.dram := by simp [fatalReaction]

@[simp] theorem raiseFault_dram (code : Nat) (params : List Word) (fatal : Bool) (s : State) :
    (raiseFault code params fatal s).mss.dram = s.mss.dram := by simp [raiseFault]

@[simp] theorem fault_dram (code : Nat) (params : List Word) (s : State) : (fault code params s).mss.dram = s.mss.dram := by simp [fault]

/-! ### Power domains and fences -/

@[simp] theorem modChan_dram (ch : Nat) (f : MemCh → MemCh) (s : State) : (modChan ch f s).mss.dram = s.mss.dram := (rfl)

@[simp] theorem recordBurst_dram (cls : Nat) (ch : Nat) (n : Nat) (s : State) : (recordBurst cls ch n s).mss.dram = s.mss.dram := (rfl)

@[simp] theorem recordLatency_dram (s : State) : (recordLatency s).mss.dram = s.mss.dram := (rfl)

@[simp] theorem recordTraffic_dram (cls : Nat) (ch : Nat) (n : Nat) (s : State) :
    (recordTraffic cls ch n s).mss.dram = s.mss.dram := by simp [recordTraffic]

@[simp] theorem engineTraffic_dram (t : Traffic) (n : Nat) (s : State) :
    (engineTraffic t n s).mss.dram = s.mss.dram := by simp [engineTraffic]

@[simp] theorem accessFault_dram (r : FabReq) (s : State) : (accessFault r s).mss.dram = s.mss.dram := by simp [accessFault]

@[simp] theorem regAccess_dram (write : Bool) (addr : Nat) (eff : State → State) (s : State) (h : KeepsDram eff) :
    (regAccess write addr eff s).mss.dram = s.mss.dram := by
  fun_cases regAccess <;> grind [accessFault_dram, KeepsDram]

@[simp] theorem fenceSettle_dram (s : State) : (fenceSettle s).mss.dram = s.mss.dram :=
  foldl_dram _ (fun r => emit_dram _) ..

@[simp] theorem endSubLongs_dram (sub : Nat) (s : State) : (endSubLongs sub s).mss.dram = s.mss.dram := by simp [endSubLongs]

@[simp] theorem fencePort_dram (sub : Nat) (inst : Nat) (s : State) : (fencePort sub inst s).mss.dram = s.mss.dram := by simp [fencePort]

@[simp] theorem liftFence_dram (sub : Nat) (inst : Nat) (s : State) : (liftFence sub inst s).mss.dram = s.mss.dram := by simp [liftFence]

@[simp] theorem relayCell_dram (kind : Nat) (ws : List Word) (s : State) :
    (relayCell kind ws s).mss.dram = s.mss.dram := by simp [relayCell]

/-! ### Command packets received, checked, started and answered -/

@[simp] theorem returnCredit_dram (qi : Nat) (s : State) : (returnCredit qi s).mss.dram = s.mss.dram := by simp [returnCredit]

@[simp] theorem reply_dram (c : Cmd) (op : Nat) (st : Status) (ws : List Word) (s : State) :
    (reply c op st ws s).mss.dram = s.mss.dram := by simp [reply]

@[simp] theorem replyUnaccepted_dram (c : Cmd) (op : Nat) (st : Status) (s : State) :
    (replyUnaccepted c op st s).mss.dram = s.mss.dram := by simp [replyUnaccepted]

@[simp] theorem drainRefused_dram (qi : Nat) (x0 : List QCmd) (s : State) : (drainRefused qi x0 s).mss.dram = s.mss.dram := by
  rw [(drainRefused_sends ..).mss]

@[simp] theorem finish_dram (c : Cmd) (op : Nat) (st : Status) (ws : List Word) (s : State) :
    (finish c op st ws s).mss.dram = s.mss.dram := by simp [finish]

@[simp] theorem sendMirror_dram (kind : Nat) (index : Nat) (image : List Word) (s : State) :
    (sendMirror kind index image s).mss.dram = s.mss.dram := by
  unfold sendMirror
  split <;> simp

@[simp] theorem mirror_dram (kind : Nat) (index : Nat) (image : List Word) (s : State) :
    (mirror kind index image s).mss.dram = s.mss.dram := by simp [mirror]

@[simp] theorem mirrorCmd_dram (op : Nat) (c : Cmd) (reply : List Word) (s : State) :
    (mirrorCmd op c reply s).mss.dram = s.mss.dram := by simp [mirrorCmd]

@[simp] theorem answered_dram (op : Nat) (c : Cmd) (ws : List Word) (s : State) :
    (answered op c ws s).mss.dram = s.mss.dram := by simp [answered]

@[simp] theorem answeredLong_dram (op : Nat) (c : Cmd) (key : Nat) (s : State) :
    (answeredLong op c key s).mss.dram = s.mss.dram := by simp [answeredLong]

@[simp] theorem answeredLater_dram (op : Nat) (c : Cmd) (s : State) :
    (answeredLater op c s).mss.dram = s.mss.dram := by simp [answeredLater]

theorem start_dram (op : Nat) (lens : Nat → Bool) (c : Cmd) (body : State → Res) (s : State) (h : (body s).DramIs s.mss.dram) :
    (start op lens c body s).mss.dram = s.mss.dram := by
  unfold start
  cases hbody : body s <;> rw [hbody] at h <;> dsimp only <;> (repeat' split) <;> simp_all [Res.DramIs]

@[simp] theorem acceptSeq_dram (c : Cmd) (gap : Bool) (s : State) : (acceptSeq c gap s).mss.dram = s.mss.dram := (rfl)

@[simp] theorem repeatReply_dram (c : Cmd) (s : State) : (repeatReply c s).mss.dram = s.mss.dram := by
  unfold repeatReply
  dsimp only
  split <;> simp

@[simp] theorem enqueue_dram (op : Nat) (c : Cmd) (refused : Option Status) (s : State) :
    (enqueue op c refused s).mss.dram = s.mss.dram := by simp [enqueue]

@[simp] theorem takeCredit_dram (qi : Nat) (s : State) : (takeCredit qi s).mss.dram = s.mss.dram := by simp [takeCredit]

@[simp] theorem arrive_dram (op : Nat) (c : Cmd) (s : State) : (arrive op c s).mss.dram = s.mss.dram := by
  fun_cases arrive <;> simp

@[simp] theorem serve_dram (op : Nat) (lens : Nat → Bool) (c : Cmd) (s : State) (body : State → Res)
    (h : ∀ t, (body t).DramIs t.mss.dram) : (serve op lens c s body).mss.dram = s.mss.dram := by
  have hstart : ∀ t, (start op lens c body t).mss.dram = t.mss.dram := fun t => start_dram _ _ _ _ _ (h t)
  unfold serve
  (repeat' split) <;> simp [hstart]

@[simp] theorem finishDeferred_dram (qi : Nat) (st : Status) (ws : List Word) (s : State) :
    (finishDeferred qi st ws s).mss.dram = s.mss.dram := by
  unfold finishDeferred
  split <;> simp

/-! ### Buffer pools and data frames -/

@[simp] theorem modPool_dram (p : Nat) (f : Pool → Pool) (s : State) : (modPool p f s).mss.dram = s.mss.dram := (rfl)

@[simp] theorem bufAlloc_dram (n : Nat) (urgent : Bool) (limit : Nat) (refs : Nat) (s : State) :
    (bufAlloc n urgent limit refs s).2.mss.dram = s.mss.dram := by
  unfold bufAlloc
  dsimp only
  split <;> simp

@[simp] theorem bufSetRefs_dram (k : Nat) (n : Nat) (s : State) : (bufSetRefs k n s).mss.dram = s.mss.dram := by
  unfold bufSetRefs
  split <;> simp

@[simp] theorem bufRelease_dram (k : Nat) (s : State) : (bufRelease k s).mss.dram = s.mss.dram := by
  unfold bufRelease
  split <;> simp

@[simp] theorem bufReleaseOpt_dram (k : Option Nat) (s : State) : (bufReleaseOpt k s).mss.dram = s.mss.dram := by
  unfold bufReleaseOpt
  split <;> simp

@[simp] theorem countReleased_dram (sub : Nat) (n : Nat) (s : State) : (countReleased sub n s).mss.dram = s.mss.dram := (rfl)

@[simp] theorem blockRelease_dram (sub : Nat) (k : Option Nat) (s : State) : (blockRelease sub k s).mss.dram = s.mss.dram := by
  unfold blockRelease
  split <;> simp

@[simp] theorem releaseReads_dram (sub : Nat) (p : Nat → Bool) (s : State) :
    (releaseReads sub p s).mss.dram = s.mss.dram := by simp [releaseReads]

@[simp] theorem withBuf_dram (leg bytes service : Nat) (s : State) (k : Nat → State → State) (h : ∀ b, KeepsDram (k b)) :
    (withBuf leg bytes service s k).mss.dram = s.mss.dram := by
  fun_cases withBuf <;> grind [bufAlloc_dram, KeepsDram]

@[simp] theorem dropWalks_dram (p : WalkItem → Bool) (s : State) : (dropWalks p s).mss.dram = s.mss.dram :=
  foldl_dram _ (fun w s => by dsimp only; split <;> simp) ..

@[simp] theorem appendDone_dram (k : Nat) (s : State) : (appendDone k s).mss.dram = s.mss.dram := (rfl)

@[simp] theorem consumerRelease_dram (k : Nat) (s : State) : (consumerRelease k s).mss.dram = s.mss.dram := by simp [consumerRelease]

@[simp] theorem execBufferRelease_dram (pool index : Nat) (s : State) :
    StepDramIs s.mss.dram (execBufferRelease pool index s) := by simp [execBufferRelease]

@[simp] theorem drainOne_dram (ch : Nat) (s : State) : (drainOne ch s).2.mss.dram = s.mss.dram := by
  unfold drainOne
  split <;> simp

@[simp] theorem drainChan_dram (ch n : Nat) (s : State) : (drainChan ch n s).mss.dram = s.mss.dram := by
  fun_induction drainChan <;> grind [drainOne_dram]

@[simp] theorem drainFrames_dram (ch : Nat) (s : State) : (drainFrames ch s).mss.dram = s.mss.dram := by simp [drainFrames]

@[simp] theorem sendData_dram (d : DataFrame) (s : State) : (sendData d s).mss.dram = s.mss.dram := by simp [sendData]

/-! ### The transmit side of the service Ethernet -/

@[simp] theorem svcQueue_dram (f : Frame) (s : State) : (svcQueue f s).mss.dram = s.mss.dram := by simp [svcQueue]

/-! ### Power domains and wake sources -/

@[simp] theorem evtPower_dram (detail : Nat) (ws : List Word) (s : State) :
    (evtPower detail ws s).mss.dram = s.mss.dram := by simp [evtPower]

@[simp] theorem drivePin_dram (which : Nat) (high : Bool) (s : State) : (drivePin which high s).mss.dram = s.mss.dram := by simp [drivePin]

@[simp] theorem startWake_dram (bit : Nat) (s : State) : (startWake bit s).mss.dram = s.mss.dram := by simp [startWake]

@[simp] theorem wakeSource_dram (bit : Nat) (s : State) : (wakeSource bit s).mss.dram = s.mss.dram := by
  fun_cases wakeSource <;> simp

/-! ### The time base, its registers and the pins -/

@[simp] theorem evtTime_dram (detail : Nat) (ws : List Word) (s : State) : (evtTime detail ws s).mss.dram = s.mss.dram := by simp [evtTime]

@[simp] theorem idleTick_dram (s : State) : (idleTick s).mss.dram = s.mss.dram := by simp [idleTick]

@[simp] theorem setTimeState_dram (t : TsuState) (s : State) : (setTimeState t s).mss.dram = s.mss.dram := by simp [setTimeState]

@[simp] theorem setSource_dram (src : Nat) (s : State) : (setSource src s).mss.dram = s.mss.dram := by simp [setSource]

@[simp] theorem judgeUpdate_dram (src : Nat) (tSrc : Nat) (tCap : Nat) (s : State) :
    (judgeUpdate src tSrc tCap s).mss.dram = s.mss.dram := by
  unfold judgeUpdate
  dsimp only
  (repeat' split) <;> simp

@[simp] theorem sourceUpdate_dram (src : Nat) (tSrc : Nat) (tCap : Nat) (s : State) :
    (sourceUpdate src tSrc tCap s).mss.dram = s.mss.dram := by simp [sourceUpdate]

@[simp] theorem noSource_dram (s : State) : (noSource s).mss.dram = s.mss.dram := by simp [noSource]

@[simp] theorem unqualify_dram (src : Nat) (s : State) : (unqualify src s).mss.dram = s.mss.dram := by simp [unqualify]

@[simp] theorem execTimeSourceUpdate_dram (source tSrc tCap : Nat) (s : State) :
    StepDramIs s.mss.dram (execTimeSourceUpdate source tSrc tCap s) := by simp [execTimeSourceUpdate]

@[simp] theorem execSourceQualificationLoss_dram (source : Nat) (s : State) :
    StepDramIs s.mss.dram (execSourceQualificationLoss source s) := by simp [execSourceQualificationLoss]

@[simp] theorem execPpsInputPulse_dram (s : State) : StepDramIs s.mss.dram (execPpsInputPulse s) := by
  unfold execPpsInputPulse
  dsimp only
  (repeat' split) <;> simp

@[simp] theorem execEvtInputEdge_dram (s : State) : StepDramIs s.mss.dram (execEvtInputEdge s) := by
  unfold execEvtInputEdge
  generalize 65536 = n0
  split <;> simp

@[simp] theorem execPulseWidthExpiry_dram (which : Nat) (s : State) : StepDramIs s.mss.dram (execPulseWidthExpiry which s) := by
  obtain ⟨t, h, ht⟩ := exists_eq_dram (advanceAon_dram (s.tsu.ppsRise + 1000000) s)
  obtain ⟨u, hu, hus⟩ := exists_eq_dram (advanceAon_dram (s.tsu.evtRise + s.tsu.evtWidth * 1000) s)
  rw [execPulseWidthExpiry, h, hu]
  split
  · exact (drivePin_dram ..).trans ht
  · split
    · exact (drivePin_dram ..).trans hus
    · rfl

@[simp] theorem writeIncr_dram (v : Word) (s : State) : (writeIncr v s).mss.dram = s.mss.dram := (rfl)

@[simp] theorem execTsuIncrWrite_dram (value : Word) (s : State) : StepDramIs s.mss.dram (execTsuIncrWrite value s) := by
  unfold execTsuIncrWrite
  generalize 327952 = n0
  simp [-writeIncr_mss]

@[simp] theorem writeDither_dram (v : Word) (s : State) : (writeDither v s).mss.dram = s.mss.dram := (rfl)

@[simp] theorem execTsuIncrDitherWrite_dram (value : Word) (s : State) : StepDramIs s.mss.dram (execTsuIncrDitherWrite value s) := by
  unfold execTsuIncrDitherWrite
  generalize 327956 = n0
  simp [-writeDither_mss]

@[simp] theorem setLatch_dram (l : TsuLatch) (s : State) : (setLatch l s).mss.dram = s.mss.dram := (rfl)

@[simp] theorem latchTime_dram (who : Nat) (s : State) : (latchTime who s).mss.dram = s.mss.dram := (rfl)

@[simp] theorem execTsuTimeSecRead_dram (requester : Nat) (s : State) : StepDramIs s.mss.dram (execTsuTimeSecRead requester s) := by
  unfold execTsuTimeSecRead
  generalize 327936 = n0
  simp

@[simp] theorem modCmp_dram (n : Nat) (f : Cmp → Cmp) (s : State) : (modCmp n f s).mss.dram = s.mss.dram := (rfl)

@[simp] theorem latchCmp_dram (who : Nat) (n : Nat) (s : State) : (latchCmp who n s).mss.dram = s.mss.dram := (rfl)

@[simp] theorem execTsuCmpSecRead_dram (requester n : Nat) (s : State) :
    StepDramIs s.mss.dram (execTsuCmpSecRead requester n s) := by simp [execTsuCmpSecRead]

@[simp] theorem writeCmpWord_dram (n : Nat) (which : Nat) (v : Word) (w : Writer) (s : State) :
    (writeCmpWord n which v w s).mss.dram = s.mss.dram := by simp [writeCmpWord]

@[simp] theorem execCompareWordsWrite_dram (n which : Nat) (value : Word) (w : Writer) (s : State) :
    StepDramIs s.mss.dram (execCompareWordsWrite n which value w s) := by simp [execCompareWordsWrite]

@[simp] theorem writeCmpCtrl_dram (n : Nat) (v : Word) (w : Writer) (s : State) :
    (writeCmpCtrl n v w s).mss.dram = s.mss.dram := by simp [writeCmpCtrl]

@[simp] theorem execComparatorArmWrite_dram (n : Nat) (value : Word) (w : Writer) (s : State) :
    StepDramIs s.mss.dram (execComparatorArmWrite n value w s) := by simp [execComparatorArmWrite]

@[simp] theorem execComparatorFiredClear_dram (n : Nat) (value : Word) (w : Writer) (s : State) :
    StepDramIs s.mss.dram (execComparatorFiredClear n value w s) := by simp [execComparatorFiredClear]

@[simp] theorem armCmp_dram (n : Nat) (t : Nat) (s : State) : (armCmp n t s).mss.dram = s.mss.dram := (rfl)

@[simp] theorem execTimeRead_dram (c : Cmd) (s : State) : StepDramIs s.mss.dram (execTimeRead c s) := by simp [execTimeRead]

@[simp] theorem setSyncFn_dram (fn : Nat) (cmp : Nat) (s : State) : (setSyncFn fn cmp s).mss.dram = s.mss.dram := by simp [setSyncFn]

@[simp] theorem execTimeSourceSet_dram (c : Cmd) (s : State) : StepDramIs s.mss.dram (execTimeSourceSet c s) := by simp [execTimeSourceSet]

@[simp] theorem execTimeThresholdSet_dram (c : Cmd) (s : State) :
    StepDramIs s.mss.dram (execTimeThresholdSet c s) := by simp [execTimeThresholdSet]

/-! ### What the parts of the PON terminal share -/

@[simp] theorem evtPon_dram (detail : Nat) (ws : List Word) (s : State) : (evtPon detail ws s).mss.dram = s.mss.dram := by simp [evtPon]

@[simp] theorem ponCount_dram (i : Nat) (k : Nat) (s : State) : (ponCount i k s).mss.dram = s.mss.dram := by simp [ponCount]

@[simp] theorem xgemDiscard_dram (s : State) : (xgemDiscard s).mss.dram = s.mss.dram := by simp [xgemDiscard]

@[simp] theorem breakFrags_dram (s : State) : (breakFrags s).mss.dram = s.mss.dram := by simp [breakFrags]

@[simp] theorem modPath_dram (path : Nat) (f : SyncPath → SyncPath) (s : State) :
    (modPath path f s).mss.dram = s.mss.dram := by simp [modPath]

@[simp] theorem accruePon_dram (s : State) : (accruePon s).mss.dram = s.mss.dram := by simp [accruePon]

@[simp] theorem emitPloam_dram (type : Nat) (ws : List Word) (s : State) :
    (emitPloam type ws s).mss.dram = s.mss.dram := by simp [emitPloam]

@[simp] theorem sendPloam_dram (type : Nat) (ws : List Word) (s : State) :
    (sendPloam type ws s).mss.dram = s.mss.dram := by simp [sendPloam]

@[simp] theorem setSleep_dram (x : PonSleep) (s : State) : (setSleep x s).mss.dram = s.mss.dram := by simp [setSleep]

@[simp] theorem ponWake_dram (here : Bool) (s : State) : (ponWake here s).mss.dram = s.mss.dram := by simp [ponWake]

@[simp] theorem ponTrySleep_dram (s : State) : (ponTrySleep s).mss.dram = s.mss.dram := by simp [ponTrySleep]

@[simp] theorem ploamSent_dram (m : Nat × List Word) (s : State) : (ploamSent m s).mss.dram = s.mss.dram := by simp [ploamSent]

@[simp] theorem setAct_dram (x : ActState) (s : State) : (setAct x s).mss.dram = s.mss.dram := by simp [setAct]

@[simp] theorem profileAtO1_dram (s : State) : (profileAtO1 s).mss.dram = s.mss.dram := by simp [profileAtO1]

@[simp] theorem enterO1_dram (s : State) : (enterO1 s).mss.dram = s.mss.dram := by simp [enterO1]

end Sys2Proof.Machine

/-!
PROOFS. What leaves the bytes of memory as they are: the shaper, the cipher engine, the store, and the commands and walks of the Ledger.
-/

namespace Sys2Proof.Machine

/-! ### The traffic shaper -/

@[simp] theorem modPort_dram (port : Nat) (f : PortShape → PortShape) (s : State) : (modPort port f s).mss.dram = s.mss.dram := (rfl)

@[simp] theorem setLegRate_dram (leg : Nat) (rate : Nat) (s : State) : (setLegRate leg rate s).mss.dram = s.mss.dram := (rfl)

@[simp] theorem putQ_dram (k : Nat) (fs : List Frame) (deficit : Nat) (s : State) : (putQ k fs deficit s).mss.dram = s.mss.dram := (rfl)

@[simp] theorem modStats_dram (leg : Nat) (service : Nat) (port : Nat) (f : QStat → QStat) (s : State) :
    (modStats leg service port f s).mss.dram = s.mss.dram := (rfl)

@[simp] theorem queueFrame_dram (f : Frame) (s : State) : (queueFrame f s).mss.dram = s.mss.dram := by simp [queueFrame]

@[simp] theorem queueUdp_dram (f : Frame) (v6 : Bool) (n : Nat) (s : State) :
    (queueUdp f v6 n s).mss.dram = s.mss.dram := by simp [queueUdp]

@[simp] theorem armPort_dram (port : Nat) (s : State) : (armPort port s).mss.dram = s.mss.dram := by
  unfold armPort
  dsimp only
  split <;> simp

@[simp] theorem legDrops_dram (leg : Nat) (n : Nat) (s : State) : (legDrops leg n s).mss.dram = s.mss.dram := (rfl)

@[simp] theorem flushFrames_dram (leg : Nat) (p : Frame → Bool) (s : State) :
    (flushFrames leg p s).2.mss.dram = s.mss.dram := by simp [flushFrames]

@[simp] theorem flushLeg_dram (leg : Nat) (p : Frame → Bool) (s : State) : (flushLeg leg p s).mss.dram = s.mss.dram := by simp [flushLeg]

@[simp] theorem addVisits_dram (port service chosen : Nat) (hs : List (Nat × Frame × Nat)) (k : Nat) (s : State) :
    (addVisits port service chosen hs k s).mss.dram = s.mss.dram := by
  fun_induction addVisits <;> grind [putQ_dram]

theorem dwrrPick_dram {port service now : Nat} {s t : State} {f : Frame} (h : dwrrPick port service now s = some (f, t)) :
    t.mss.dram = s.mss.dram := by
  revert h
  fun_cases dwrrPick <;> grind [modPort_dram, addVisits_dram]

theorem portPick_dram {port now : Nat} {s t : State} {f : Frame} (h : portPick port now s = some (f, t)) : t.mss.dram = s.mss.dram := by
  unfold portPick at h
  split at h
  · cases h
  · obtain ⟨service, -, hpick⟩ := List.exists_of_findSome?_eq_some h
    exact dwrrPick_dram hpick

@[simp] theorem takeHead_dram (f : Frame) (s : State) : (takeHead f s).mss.dram = s.mss.dram := (rfl)

@[simp] theorem debitPath_dram (f : Frame) (t : Nat) (s : State) : (debitPath f t s).mss.dram = s.mss.dram := (rfl)

@[simp] theorem dropLate_dram (f : Frame) (s : State) : (dropLate f s).mss.dram = s.mss.dram := by simp [dropLate]

@[simp] theorem allocUnconfigured_dram (port : Nat) (s : State) :
    (allocUnconfigured port s).mss.dram = s.mss.dram := by simp [allocUnconfigured]

@[simp] theorem ponPortCount_dram (port : Nat) (i : Nat) (k : Nat) (s : State) :
    (ponPortCount port i k s).mss.dram = s.mss.dram := by simp [ponPortCount]

@[simp] theorem handToPort_dram (f : Frame) (s : State) : (handToPort f s).mss.dram = s.mss.dram := by simp [handToPort]

@[simp] theorem launchFrame_dram (f : Frame) (s : State) : (launchFrame f s).mss.dram = s.mss.dram := by simp [launchFrame]

@[simp] theorem serveUnpaced_dram (port n : Nat) (s : State) : (serveUnpaced port n s).mss.dram = s.mss.dram := by
  fun_induction serveUnpaced <;> grind [portPick_dram, dropLate_dram, launchFrame_dram, debitPath_dram, takeHead_dram]

@[simp] theorem serveStamp_dram (port : Nat) (s : State) : (serveStamp port s).mss.dram = s.mss.dram := by
  fun_cases serveStamp <;> grind [portPick_dram, armPort_dram, modPort_dram, debitPath_dram, takeHead_dram]

@[simp] theorem servePort_dram (port : Nat) (s : State) : (servePort port s).mss.dram = s.mss.dram := by
  unfold servePort
  dsimp only
  (repeat' split) <;> simp

@[simp] theorem execPortReadyServe_dram (port : Nat) (s : State) :
    StepDramIs s.mss.dram (execPortReadyServe port s) := by simp [execPortReadyServe]

@[simp] theorem execFrameBecomesEligible_dram (port : Nat) (s : State) : StepDramIs s.mss.dram (execFrameBecomesEligible port s) := by
  unfold execFrameBecomesEligible
  (repeat' split) <;> simp

@[simp] theorem execPacedLaunch_dram (port : Nat) (s : State) : StepDramIs s.mss.dram (execPacedLaunch port s) := by
  unfold execPacedLaunch
  generalize 65536 = n0
  dsimp only
  (repeat' split) <;> simp [-modPort_mss, -modCmp_mss, -advanceTo_mss]

@[simp] theorem execLaunchTimeReached_dram (leg service port : Nat) (s : State) :
    StepDramIs s.mss.dram (execLaunchTimeReached leg service port s) := by
  rw [execLaunchTimeReached]
  split
  · rfl
  · cases (frameQ s (qKey leg service port)).frames with
    | nil => rfl
    | cons f fs =>
      dsimp only
      cases f.launch with
      | none => rfl
      | some l =>
        obtain ⟨t, h, ht⟩ := exists_eq_dram (advanceTo_dram (l * 65536) s)
        dsimp only
        rw [h]
        simp only [apply_ite (StepDramIs s.mss.dram), stepDramIs_next, dropLate_dram, takeHead_dram, launchFrame_dram, debitPath_dram,
          putQ_dram, ht, ite_self]

@[simp] theorem sampleQueues_dram (s : State) : (sampleQueues s).mss.dram = s.mss.dram := by simp [sampleQueues]

/-! ### The cipher engine -/

@[simp] theorem putSlot_dram (n : Nat) (x : Slot) (s : State) : (putSlot n x s).mss.dram = s.mss.dram := (rfl)

@[simp] theorem pointTo_dram (n : Nat) (s : State) : (pointTo n s).mss.dram = s.mss.dram := (rfl)

@[simp] theorem modLeg_dram (leg : Nat) (f : Leg → Leg) (s : State) : (modLeg leg f s).mss.dram = s.mss.dram := (rfl)

@[simp] theorem setLegState_dram (leg : Nat) (st : LegState) (s : State) :
    (setLegState leg st s).mss.dram = s.mss.dram := by simp [setLegState]

@[simp] theorem legCheck_dram (leg : Nat) (s : State) : (legCheck leg s).mss.dram = s.mss.dram := by
  unfold legCheck
  split <;> simp

@[simp] theorem keyChanged_dram (leg : Nat) (s : State) : (keyChanged leg s).mss.dram = s.mss.dram := by simp [keyChanged]

@[simp] theorem evtKey_dram (detail : Nat) (n : Nat) (new : Nat) (s : State) :
    (evtKey detail n new s).mss.dram = s.mss.dram := by simp [evtKey]

@[simp] theorem useSlot_dram (n : Nat) (bytes : Nat) (s : State) : (useSlot n bytes s).mss.dram = s.mss.dram := by simp [useSlot]

@[simp] theorem putCtx_dram (c : SsrcCtx) (s : State) : (putCtx c s).mss.dram = s.mss.dram := (rfl)

theorem replayCheck_dram {leg dir seq roc : Nat} {ssrc : Word} {rtcp : Bool} {s t : State}
    (h : replayCheck leg dir ssrc rtcp seq roc s = some t) : t.mss.dram = s.mss.dram := by
  revert h
  fun_cases replayCheck <;> grind [putCtx_dram]

@[simp] theorem egressProtect_dram (leg : Nat) (ssrc : Word) (seq : BitVec 16) (rtcp : Bool) (n : Nat) (s : State) :
    (egressProtect leg ssrc seq rtcp n s).2.mss.dram = s.mss.dram := by simp [egressProtect]

@[simp] theorem slotReplay_dram (n : Nat) (s : State) : (slotReplay n s).mss.dram = s.mss.dram := by simp [slotReplay]

@[simp] theorem slotTagFail_dram (n : Nat) (s : State) : (slotTagFail n s).mss.dram = s.mss.dram := (rfl)

@[simp] theorem tagFailed_dram (n : Nat) (s : State) : (tagFailed n s).mss.dram = s.mss.dram := (rfl)

@[simp] theorem promote_dram (n : Nat) (s : State) : (promote n s).mss.dram = s.mss.dram := by simp [promote]

@[simp] theorem chooseKey_dram (leg : Nat) (mki : Nat) (p : Protect) (s : State) : (chooseKey leg mki p s).2.mss.dram = s.mss.dram := by
  unfold chooseKey
  dsimp only
  (repeat' split) <;> simp

@[simp] theorem ingressAuth_dram (leg : Nat) (ssrc : Word) (seq : Nat) (rtcp : Bool) (mki : Nat) (p : Protect) (n : Nat) (s : State) :
    (ingressAuth leg ssrc seq rtcp mki p n s).2.mss.dram = s.mss.dram := by
  fun_cases ingressAuth <;> grind [chooseKey_dram, useSlot_dram, replayCheck_dram, slotReplay_dram]

@[simp] theorem retireSlot_dram (n : Nat) (s : State) : (retireSlot n s).mss.dram = s.mss.dram := by simp [retireSlot]

@[simp] theorem installKey_dram (n : Nat) (x : Slot) (s : State) : (installKey n x s).mss.dram = s.mss.dram := by simp [installKey]

@[simp] theorem execKeyStatus_dram (c : Cmd) (s : State) : StepDramIs s.mss.dram (execKeyStatus c s) := by simp [execKeyStatus]

@[simp] theorem execTwinKeyLoad_dram (c : Cmd) (s : State) : StepDramIs s.mss.dram (execTwinKeyLoad c s) := by simp [execTwinKeyLoad]

/-! ### The Cairn store -/

@[simp] theorem modRing_dram (conf : Nat) (f : Ring → Ring) (s : State) : (modRing conf f s).mss.dram = s.mss.dram := (rfl)

@[simp] theorem defaultRing_dram (conf : Nat) (s : State) : (defaultRing conf s).mss.dram = s.mss.dram := by simp [defaultRing]

@[simp] theorem trimIndex_dram (conf : Nat) (s : State) : (trimIndex conf s).mss.dram = s.mss.dram := (rfl)

@[simp] theorem recordsGone_dram (conf : Nat) (gone : List CairnRec) (s : State) : (recordsGone conf gone s).mss.dram = s.mss.dram := (rfl)

@[simp] theorem freeBelow_dram (conf : Nat) (seg : Nat) (s : State) : (freeBelow conf seg s).mss.dram = s.mss.dram := by
  unfold freeBelow
  split <;> rfl

@[simp] theorem freeSegment_dram (conf : Nat) (s : State) : (freeSegment conf s).mss.dram = s.mss.dram := by
  unfold freeSegment
  split <;> simp

@[simp] theorem reclaimForSpace_dram (conf : Nat) (s : State) : (reclaimForSpace conf s).mss.dram = s.mss.dram := by
  unfold reclaimForSpace
  split <;> simp

@[simp] theorem freeOldest_dram (conf : Nat) (s : State) : (freeOldest conf s).mss.dram = s.mss.dram := by simp [freeOldest]

@[simp] theorem reclaimAged_dram (conf : Nat) (x0 : Nat) (s : State) : (reclaimAged conf x0 s).mss.dram = s.mss.dram := by
  fun_induction reclaimAged <;> simp_all

@[simp] theorem reclaimPass_dram (s : State) : (reclaimPass s).mss.dram = s.mss.dram := by simp [reclaimPass]

@[simp] theorem nextSegment_dram (conf : Nat) (s : State) : (nextSegment conf s).mss.dram = s.mss.dram := by
  unfold nextSegment
  split <;> simp

@[simp] theorem appendRec_dram (conf : Nat) (rec_ : CairnRec) (s : State) : (appendRec conf rec_ s).2.mss.dram = s.mss.dram := by
  unfold appendRec
  dsimp only
  (repeat' split) <;> simp

@[simp] theorem appendPacket_dram (stream : Nat) (p : RtpPkt) (local_ : Bool) (starts : Bool) (s : State) :
    (appendPacket stream p local_ starts s).2.mss.dram = s.mss.dram := by
  unfold appendPacket
  dsimp only
  (repeat' split) <;> simp

@[simp] theorem appendRaw_dram (conf canvas flags total now fuel i : Nat) (left : List Nat) (s : State) :
    (appendRaw conf canvas flags total now fuel i left s).mss.dram = s.mss.dram := by
  fun_induction appendRaw <;> grind [nextSegment_dram, appendRec_dram]

@[simp] theorem dropAppend_dram (conf : Nat) (number : Nat) (s : State) : (dropAppend conf number s).mss.dram = s.mss.dram := by
  rw [dropAppend]
  cases tget s.mss.rings conf with
  | none => rfl
  | some r =>
    dsimp only
    cases r.recs.find? fun x => x.number % 2 ^ 32 = number with
    | none => rfl
    | some x =>
      obtain ⟨t, h, ht⟩ := exists_eq_dram (advanceAon_dram (x.atNs + 100000) s)
      dsimp only
      rw [h]
      simp only [ite_dram, bufReleaseOpt_dram, trimIndex_dram, modRing_dram, ht, ite_self]

@[simp] theorem execCairnAppendTimeout_dram (conf number : Nat) (s : State) :
    StepDramIs s.mss.dram (execCairnAppendTimeout conf number s) := by simp [execCairnAppendTimeout]

@[simp] theorem freeClosed_dram (conf : Nat) (s : State) : (freeClosed conf s).mss.dram = s.mss.dram := by
  unfold freeClosed
  split <;> simp

@[simp] theorem endExport_dram (n : Nat) (result : Nat) (s : State) : (endExport n result s).mss.dram = s.mss.dram := by
  unfold endExport
  split <;> simp

@[simp] theorem endReplay_dram (n : Nat) (result : Nat) (s : State) : (endReplay n result s).mss.dram = s.mss.dram := by
  unfold endReplay
  split <;> simp

@[simp] theorem endReplays_dram (p : Replay → Bool) (result : Nat) (s : State) :
    (endReplays p result s).mss.dram = s.mss.dram := by simp [endReplays]

@[simp] theorem storeStreamGone_dram (stream : Nat) (s : State) :
    (storeStreamGone stream s).mss.dram = s.mss.dram := by simp [storeStreamGone]

@[simp] theorem moveRing_dram (conf : Nat) (key : Nat) (s : State) : (moveRing conf key s).mss.dram = s.mss.dram := by
  unfold moveRing
  split <;> rfl

@[simp] theorem storeConfGone_dram (conf : Nat) (s : State) : (storeConfGone conf s).mss.dram = s.mss.dram := by simp [storeConfGone]

@[simp] theorem setRing_dram (conf : Nat) (size : Nat) (ret : Nat) (s : State) : (setRing conf size ret s).mss.dram = s.mss.dram := by
  unfold setRing
  (repeat' split) <;> simp

@[simp] theorem execStorePolicySet_dram (c : Cmd) (s : State) : StepDramIs s.mss.dram (execStorePolicySet c s) := by
  unfold execStorePolicySet
  generalize 1835008 = n0
  generalize 3600000 = n1
  split <;> simp

@[simp] theorem execStoreExport_dram (c : Cmd) (s : State) : StepDramIs s.mss.dram (execStoreExport c s) := by
  unfold execStoreExport
  generalize 65535 = n0
  split <;> simp

@[simp] theorem execExportRecordSend_dram (n : Nat) (s : State) : StepDramIs s.mss.dram (execExportRecordSend n s) := by
  unfold execExportRecordSend
  (repeat' split) <;> simp

@[simp] theorem execExportDone_dram (n : Nat) (s : State) : StepDramIs s.mss.dram (execExportDone n s) := by
  unfold execExportDone
  (repeat' split) <;> simp

@[simp] theorem execStoreReplay_dram (c : Cmd) (s : State) : StepDramIs s.mss.dram (execStoreReplay c s) := by
  unfold execStoreReplay
  generalize 10000000 = n0
  split <;> simp

@[simp] theorem execReplayEnd_dram (n reason : Nat) (s : State) : StepDramIs s.mss.dram (execReplayEnd n reason s) := by
  unfold execReplayEnd
  split <;> simp

/-! ### Chains and masks -/

@[simp] theorem modStream_dram (st : Nat) (f : Stream → Stream) (s : State) : (modStream st f s).mss.dram = s.mss.dram := (rfl)

@[simp] theorem modEntry_dram (i : Nat) (f : Entry → Entry) (s : State) : (modEntry i f s).mss.dram = s.mss.dram := (rfl)

@[simp] theorem chainOverrun_dram (st : Nat) (s : State) : (chainOverrun st s).mss.dram = s.mss.dram := by simp [chainOverrun]

@[simp] theorem linkEntry_dram (i : Nat) (e : Entry) (s : State) : (linkEntry i e s).mss.dram = s.mss.dram := (rfl)

@[simp] theorem unlinkEntry_dram (i : Nat) (s : State) : (unlinkEntry i s).mss.dram = s.mss.dram := by
  unfold unlinkEntry
  split <;> rfl

@[simp] theorem noteNeed_dram (i : Nat) (code : Nat) (s : State) : (noteNeed i code s).mss.dram = s.mss.dram := by simp [noteNeed]

@[simp] theorem repairResult_dram (i : Nat) (result : Nat) (s : State) :
    (repairResult i result s).mss.dram = s.mss.dram := by simp [repairResult]

@[simp] theorem endEntryRepair_dram (i : Nat) (result : Nat) (s : State) : (endEntryRepair i result s).mss.dram = s.mss.dram := by
  unfold endEntryRepair
  split <;> simp

@[simp] theorem removeEntry_dram (i : Nat) (s : State) : (removeEntry i s).mss.dram = s.mss.dram := by simp [removeEntry]

@[simp] theorem pickSsrc_dram (leg : Nat) (s : State) : (pickSsrc leg s).2.mss.dram = s.mss.dram := (rfl)

@[simp] theorem rtcpFrame_dram (leg : Nat) (ssrc : Word) (body : RtcpBody) (s : State) :
    (rtcpFrame leg ssrc body s).2.mss.dram = s.mss.dram := by
  fun_cases rtcpFrame <;> grind [legDrops_dram, egressProtect_dram]

/-! ### The fork and the chain walk -/

@[simp] theorem noteWithheld_dram (st : Nat) (s : State) : (noteWithheld st s).mss.dram = s.mss.dram := (rfl)

@[simp] theorem holdPacket_dram (i : Nat) (e : Entry) (p : RtpPkt) (s : State) :
    (holdPacket i e p s).mss.dram = s.mss.dram := by simp [holdPacket]

@[simp] theorem fecStep_dram (i dest len : Nat) (f : Frame) (s : State) : (fecStep i dest len f s).mss.dram = s.mss.dram := by
  fun_cases fecStep
  · rfl
  · exact modEntry_dram ..
  · exact modEntry_dram ..
  · next hprotect _ =>
    refine (withBuf_dram _ _ _ _ _ fun b t => queueUdp_dram ..).trans ?_
    have h := congrArg (fun r : Option (Nat × Nat) × State => r.2.mss.dram) hprotect
    exact h.symm.trans ((egressProtect_dram ..).trans (modEntry_dram ..))
  · next hprotect =>
    have h := congrArg (fun r : Option (Nat × Nat) × State => r.2.mss.dram) hprotect
    exact h.symm.trans ((egressProtect_dram ..).trans (modEntry_dram ..))

@[simp] theorem nextTwcc_dram (dest : Nat) (s : State) : (nextTwcc dest s).2.mss.dram = s.mss.dram := by
  unfold nextTwcc
  split <;> simp

@[simp] theorem sendCopy_dram (i : Nat) (recNo buf : Option Nat) (p : RtpPkt) (seq : BitVec 16) (ts : Word) (poisoned : Bool) (s : State) :
    (sendCopy i recNo buf p seq ts poisoned s).mss.dram = s.mss.dram := by
  unfold sendCopy
  split
  · simp
  · extract_lets l now n t
    have ht : t.mss.dram = s.mss.dram := modEntry_dram ..
    clear_value t l n now
    split
    · simp [ht]
    · have hprotect := fun dest ssrc q n => egressProtect_dram dest ssrc q false n t
      split
      · grind [bufReleaseOpt_dram, legDrops_dram]
      · grind [fecStep_dram, queueUdp_dram, modEntry_dram, nextTwcc_dram]

@[simp] theorem cloneRuns_dram (bytes : Nat) (urgent : Bool) (orig : Option Nat) (fuel room n : Nat) (s : State) :
    (cloneRuns bytes urgent orig fuel room n s).2.mss.dram = s.mss.dram := by
  fun_induction cloneRuns <;> grind [bufAlloc_dram]

@[simp] theorem countReplica_dram (i : Nat) (e : Entry) (s : State) : (countReplica i e s).mss.dram = s.mss.dram := by simp [countReplica]

/-- What the walk does with an entry once it is visited. -/
def visitAnswer (i : Nat) (e : Entry) (p : RtpPkt) (v : Entry × WalkAct) (s : State) : Option (BitVec 16 × Word) × State :=
  match v.2 with
  | .send seq ts => (some (seq, ts), s)
  | .late => (none, modLeg e.dest (fun l => { l with stats.late := inc32 l.stats.late }) s)
  | .hold => (none, holdPacket i v.1 p s)
  | .withheld => (none, noteWithheld e.source (noteNeed i 2 s))
  | _ => (none, s)

theorem visitAnswer_dram (i : Nat) (e : Entry) (p : RtpPkt) (v : Entry × WalkAct) (s : State) :
    (visitAnswer i e p v s).2.mss.dram = s.mss.dram := by
  obtain ⟨e', act⟩ := v
  cases act with
  | send => rfl
  | pass => rfl
  | late => exact modLeg_dram ..
  | hold => exact holdPacket_dram ..
  | withheld => exact (noteWithheld_dram ..).trans (noteNeed_dram ..)

theorem visitOne_eq (clock : Nat) (audio starts : Bool) (p : RtpPkt) (i : Nat) (s : State) :
    visitOne clock audio starts p i s = match tget s.fwe.ledger i with
      | none => (none, s)
      | some e =>
        let t := countReplica i e s
        let v := visit t.cpr.aonNs (nowNs t) clock audio starts (liveOf t e p) p e
        visitAnswer i e p v { t with fwe.ledger := tset t.fwe.ledger i v.1 } := rfl

@[simp] theorem visitOne_dram (clock : Nat) (audio : Bool) (starts : Bool) (p : RtpPkt) (i : Nat) (s : State) :
    (visitOne clock audio starts p i s).2.mss.dram = s.mss.dram := by
  rw [visitOne_eq]
  split
  · rfl
  · exact (visitAnswer_dram ..).trans (countReplica_dram ..)

@[simp] theorem visitAll_dram (clock : Nat) (audio starts : Bool) (p : RtpPkt) (is : List Nat) (s : State) :
    (visitAll clock audio starts p is s).2.mss.dram = s.mss.dram := by
  induction is generalizing s with
  | nil => rfl
  | cons i is ih => exact (ih _).trans (visitOne_dram ..)

@[simp] theorem sendAll_dram (recNo : Option Nat) (p : RtpPkt) (poisoned : List Nat)
  (x0 : List (Nat × BitVec 16 × Word)) (x1 : List (Option (Option Nat))) (s : State) :
    (sendAll recNo p poisoned x0 x1 s).mss.dram = s.mss.dram := by
  fun_induction sendAll <;> simp_all

@[simp] theorem walkChain_dram (w : WalkItem) (poisoned : List Nat) (s : State) : (walkChain w poisoned s).mss.dram = s.mss.dram := by
  unfold walkChain
  dsimp only
  split <;> simp

@[simp] theorem noteLayer_dram (st : Nat) (p : RtpPkt) (s : State) : (noteLayer st p s).mss.dram = s.mss.dram := (rfl)

@[simp] theorem forkRecord_dram (st : Nat) (p : RtpPkt) (local_ : Bool) (starts : Bool) (s : State) :
    (forkRecord st p local_ starts s).2.2.mss.dram = s.mss.dram := by
  unfold forkRecord
  split <;> simp

@[simp] theorem forkPacket_dram (st : Nat) (p : RtpPkt) (buf : Option Nat) (local_ : Bool) (reads : Bool) (s : State) :
    (forkPacket st p buf local_ reads s).mss.dram = s.mss.dram := by
  unfold forkPacket
  dsimp only
  (repeat' split) <;> simp

@[simp] theorem execChainWalk_dram (w : WalkRun) (s : State) : StepDramIs s.mss.dram (execChainWalk w s) := by
  unfold execChainWalk
  split <;> simp

@[simp] theorem serveWalks_dram (leg : Nat) (x0 : Nat) (s : State) : (serveWalks leg x0 s).mss.dram = s.mss.dram := by
  fun_induction serveWalks <;> simp_all

@[simp] theorem inFlow_dram (leg : Nat) (s : State) : (inFlow leg s).mss.dram = s.mss.dram := by simp [inFlow]

@[simp] theorem sendRtcp_dram (leg : Nat) (ssrc : Word) (body : RtcpBody) (s : State) :
    (sendRtcp leg ssrc body s).mss.dram = s.mss.dram := by
  have hframe := rtcpFrame_dram leg ssrc body (inFlow leg s)
  rw [sendRtcp]
  split
  · next f t heq =>
    rw [heq, inFlow_dram] at hframe
    exact (withBuf_dram _ _ _ _ _ fun b t => queueFrame_dram ..).trans hframe
  · next t heq =>
    rw [heq, inFlow_dram] at hframe
    exact hframe

/-! ### Legs, streams, subscriptions, conferences and shaper nodes -/

@[simp] theorem addLeg_dram (i : Nat) (l : Leg) (s : State) : (addLeg i l s).mss.dram = s.mss.dram := by simp [addLeg]

@[simp] theorem legCreate_dramIs (c : Cmd) (s : State) {m : List Host.Cell} (h : s.mss.dram = m) : (legCreate c s).DramIs m := by
  subst h
  simp [legCreate]

@[simp] theorem execLegCreate_dram (c : Cmd) (s : State) : StepDramIs s.mss.dram (execLegCreate c s) := by simp [execLegCreate]

@[simp] theorem leaveConf_dram (i : Nat) (s : State) : (leaveConf i s).mss.dram = s.mss.dram := by
  unfold leaveConf
  (repeat' split) <;> simp

@[simp] theorem joinConf_dram (i : Nat) (k : Nat) (s : State) : (joinConf i k s).mss.dram = s.mss.dram := (rfl)

@[simp] theorem modifyLeg_dram (i : Nat) (mask : Nat) (d : Leg) (s : State) : (modifyLeg i mask d s).mss.dram = s.mss.dram := by
  unfold modifyLeg
  split <;> simp

@[simp] theorem legModify_dramIs (c : Cmd) (s : State) {m : List Host.Cell} (h : s.mss.dram = m) : (legModify c s).DramIs m := by
  subst h
  simp [legModify]

@[simp] theorem execLegModify_dram (c : Cmd) (s : State) : StepDramIs s.mss.dram (execLegModify c s) := by simp [execLegModify]

@[simp] theorem removeStream_dram (st : Nat) (s : State) : (removeStream st s).mss.dram = s.mss.dram := by simp [removeStream]

@[simp] theorem streamAdd_dramIs (c : Cmd) (s : State) {m : List Host.Cell} (h : s.mss.dram = m) : (streamAdd c s).DramIs m := by
  subst h
  simp [streamAdd]

@[simp] theorem execStreamAdd_dram (c : Cmd) (s : State) : StepDramIs s.mss.dram (execStreamAdd c s) := by simp [execStreamAdd]

@[simp] theorem streamRemove_dramIs (c : Cmd) (s : State) {m : List Host.Cell} (h : s.mss.dram = m) : (streamRemove c s).DramIs m := by
  subst h
  simp [streamRemove]

@[simp] theorem execStreamRemove_dram (c : Cmd) (s : State) : StepDramIs s.mss.dram (execStreamRemove c s) := by simp [execStreamRemove]

@[simp] theorem sendByes_dram (leg : Nat) (ws : List Word) (s : State) : (sendByes leg ws s).mss.dram = s.mss.dram := by
  fun_induction sendByes <;> grind [legDrops_dram, rtcpFrame_dram, launchFrame_dram, debitPath_dram]

@[simp] theorem deleteLeg_dram (i : Nat) (s : State) : (deleteLeg i s).mss.dram = s.mss.dram := by simp [deleteLeg]

@[simp] theorem legDelete_dramIs (c : Cmd) (s : State) {m : List Host.Cell} (h : s.mss.dram = m) : (legDelete c s).DramIs m := by
  subst h
  simp [legDelete]

@[simp] theorem execLegDelete_dram (c : Cmd) (s : State) : StepDramIs s.mss.dram (execLegDelete c s) := by simp [execLegDelete]

@[simp] theorem subApply_dramIs (c : Cmd) (s : State) {m : List Host.Cell} (h : s.mss.dram = m) : (subApply c s).DramIs m := by
  subst h
  unfold subApply
  dsimp only
  (repeat' split) <;> simp

@[simp] theorem subAdd_dramIs (c : Cmd) (s : State) {m : List Host.Cell} (h : s.mss.dram = m) : (subAdd c s).DramIs m := by
  subst h
  simp [subAdd]

@[simp] theorem execSubAdd_dram (c : Cmd) (s : State) : StepDramIs s.mss.dram (execSubAdd c s) := by simp [execSubAdd]

@[simp] theorem subRemove_dramIs (c : Cmd) (s : State) {m : List Host.Cell} (h : s.mss.dram = m) : (subRemove c s).DramIs m := by
  subst h
  simp [subRemove]

@[simp] theorem execSubRemove_dram (c : Cmd) (s : State) : StepDramIs s.mss.dram (execSubRemove c s) := by simp [execSubRemove]

@[simp] theorem confCreate_dramIs (c : Cmd) (s : State) {m : List Host.Cell} (h : s.mss.dram = m) : (confCreate c s).DramIs m := by
  subst h
  simp [confCreate]

@[simp] theorem execConfCreate_dram (c : Cmd) (s : State) : StepDramIs s.mss.dram (execConfCreate c s) := by simp [execConfCreate]

@[simp] theorem deleteConf_dram (k : Nat) (s : State) : (deleteConf k s).mss.dram = s.mss.dram := by simp [deleteConf]

@[simp] theorem confDelete_dramIs (c : Cmd) (s : State) {m : List Host.Cell} (h : s.mss.dram = m) : (confDelete c s).DramIs m := by
  subst h
  simp [confDelete]

@[simp] theorem execConfDelete_dram (c : Cmd) (s : State) : StepDramIs s.mss.dram (execConfDelete c s) := by simp [execConfDelete]

@[simp] theorem execLegStats_dram (c : Cmd) (s : State) : StepDramIs s.mss.dram (execLegStats c s) := by simp [execLegStats]

@[simp] theorem shapeLeg_dram (i : Nat) (c : Cmd) (s : State) : (shapeLeg i c s).mss.dram = s.mss.dram := (rfl)

@[simp] theorem shaperSet_dramIs (c : Cmd) (s : State) {m : List Host.Cell} (h : s.mss.dram = m) : (shaperSet c s).DramIs m := by
  subst h
  simp [shaperSet]

@[simp] theorem execShaperSet_dram (c : Cmd) (s : State) : StepDramIs s.mss.dram (execShaperSet c s) := by simp [execShaperSet]

@[simp] theorem keyLoad_dramIs (c : Cmd) (s : State) {m : List Host.Cell} (h : s.mss.dram = m) : (keyLoad c s).DramIs m := by
  subst h
  unfold keyLoad
  dsimp only
  (repeat' split) <;> simp

@[simp] theorem execKeyLoad_dram (c : Cmd) (s : State) : StepDramIs s.mss.dram (execKeyLoad c s) := by simp [execKeyLoad]

@[simp] theorem keyRetire_dramIs (c : Cmd) (s : State) {m : List Host.Cell} (h : s.mss.dram = m) : (keyRetire c s).DramIs m := by
  subst h
  unfold keyRetire
  dsimp only
  (repeat' split) <;> simp

@[simp] theorem execKeyRetire_dram (c : Cmd) (s : State) : StepDramIs s.mss.dram (execKeyRetire c s) := by simp [execKeyRetire]

@[simp] theorem execKeyDelayedRetire_dram (slot : Nat) (s : State) : StepDramIs s.mss.dram (execKeyDelayedRetire slot s) := by
  unfold execKeyDelayedRetire
  split <;> simp

end Sys2Proof.Machine

/-!
PROOFS. What leaves the bytes of memory as they are: the audio engine, the mixer, and the cluster.
-/

namespace Sys2Proof.Machine

/-! ### Sample arithmetic -/

@[simp] theorem drawBlock_dram (n : Nat) (s : State) : (drawBlock n s).2.mss.dram = s.mss.dram := by
  fun_induction drawBlock <;> grind [draw_dram]

@[simp] theorem modConf_dram (k : Nat) (f : Conf → Conf) (s : State) : (modConf k f s).mss.dram = s.mss.dram := (rfl)

/-! ### Jitter buffers and decoding -/

@[simp] theorem jitterArrive_dram (st : Nat) (p : RtpPkt) (s : State) :
    (jitterArrive st p s).mss.dram = s.mss.dram := by simp [jitterArrive]

@[simp] theorem execAnchorWindowEnd_dram (stream : Nat) (s : State) : StepDramIs s.mss.dram (execAnchorWindowEnd stream s) := by
  unfold execAnchorWindowEnd
  generalize 1000000000 = n0
  generalize 65536 = n1
  simp [-modStream_mss, -advanceTo_mss]

@[simp] theorem countCore_dram (core : Nat) (word_ : Nat) (s : State) : (countCore core word_ s).mss.dram = s.mss.dram := (rfl)

@[simp] theorem seenNext_dram (st : Nat) (seen : Nat) (s : State) : (seenNext st seen s).mss.dram = s.mss.dram := by
  unfold seenNext
  split <;> rfl

@[simp] theorem putBlock_dram (st : Nat) (j : Jitter) (s : State) : (putBlock st j s).mss.dram = s.mss.dram := (rfl)

@[simp] theorem decodeBlock_dram (st : Nat) (domain : Nat) (late : Option Nat) (bad : Bool) (s : State) :
    (decodeBlock st domain late bad s).mss.dram = s.mss.dram := by
  unfold decodeBlock
  (repeat' split) <;> simp

@[simp] theorem releaseOne_dram (st : Nat) (decoded : Bool) (p : RtpPkt) (s : State) :
    (releaseOne st decoded p s).mss.dram = s.mss.dram := by
  unfold releaseOne
  dsimp only
  (repeat' split) <;> simp

@[simp] theorem releaseStream_dram (st : Nat) (decoded : Bool) (s : State) : (releaseStream st decoded s).mss.dram = s.mss.dram := by
  unfold releaseStream
  split <;> simp

@[simp] theorem playoutBlock_dram (run : BlockRun) (s : State) : (playoutBlock run s).mss.dram = s.mss.dram := by simp [playoutBlock]

/-! ### Levels and selection -/

@[simp] theorem moveFeed_dram (i : Nat) (src : Nat) (s : State) : (moveFeed i src s).mss.dram = s.mss.dram := by
  unfold moveFeed
  split <;> simp

@[simp] theorem speakersEpoch_dram (s : State) : (speakersEpoch s).mss.dram = s.mss.dram := (rfl)

/-! ### The commands of the mixer -/

@[simp] theorem mixerSize_dramIs (c : Cmd) (s : State) {m : List Host.Cell} (h : s.mss.dram = m) : (mixerSize c s).DramIs m := by
  subst h
  simp [mixerSize]

@[simp] theorem mixerAlwaysOn_dramIs (c : Cmd) (s : State) {m : List Host.Cell} (h : s.mss.dram = m) : (mixerAlwaysOn c s).DramIs m := by
  subst h
  simp [mixerAlwaysOn]

@[simp] theorem setEncGroup_dram (c : Cmd) (s : State) : (setEncGroup c s).mss.dram = s.mss.dram := by simp [setEncGroup]

@[simp] theorem mixerGroup_dramIs (c : Cmd) (s : State) {m : List Host.Cell} (h : s.mss.dram = m) : (mixerGroup c s).DramIs m := by
  subst h
  simp [mixerGroup]

@[simp] theorem mixerBind_dramIs (c : Cmd) (s : State) {m : List Host.Cell} (h : s.mss.dram = m) : (mixerBind c s).DramIs m := by
  subst h
  simp [mixerBind]

@[simp] theorem modBank_dram (k : Nat) (bank : Nat) (f : Bank → Bank) (s : State) : (modBank k bank f s).mss.dram = s.mss.dram := (rfl)

@[simp] theorem mixerBank_dramIs (c : Cmd) (s : State) {m : List Host.Cell} (h : s.mss.dram = m) : (mixerBank c s).DramIs m := by
  subst h
  simp [mixerBank]

@[simp] theorem mixerSet_dramIs (c : Cmd) (s : State) {m : List Host.Cell} (h : s.mss.dram = m) : (mixerSet c s).DramIs m := by
  subst h
  unfold mixerSet
  (repeat' split) <;> simp

@[simp] theorem execAudMixerSet_dram (c : Cmd) (s : State) : StepDramIs s.mss.dram (execAudMixerSet c s) := by simp [execAudMixerSet]

@[simp] theorem routeSet_dramIs (c : Cmd) (s : State) {m : List Host.Cell} (h : s.mss.dram = m) : (routeSet c s).DramIs m := by
  subst h
  simp [routeSet]

@[simp] theorem execAudRouteSet_dram (c : Cmd) (s : State) : StepDramIs s.mss.dram (execAudRouteSet c s) := by simp [execAudRouteSet]

@[simp] theorem gainSet_dramIs (c : Cmd) (s : State) {m : List Host.Cell} (h : s.mss.dram = m) : (gainSet c s).DramIs m := by
  subst h
  simp [gainSet]

@[simp] theorem execAudGainSet_dram (c : Cmd) (s : State) : StepDramIs s.mss.dram (execAudGainSet c s) := by simp [execAudGainSet]

@[simp] theorem bankSwap_dramIs (c : Cmd) (s : State) {m : List Host.Cell} (h : s.mss.dram = m) : (bankSwap c s).DramIs m := by
  subst h
  simp [bankSwap]

@[simp] theorem execAudBankSwap_dram (c : Cmd) (s : State) : StepDramIs s.mss.dram (execAudBankSwap c s) := by simp [execAudBankSwap]

@[simp] theorem execAudMeterRead_dram (c : Cmd) (s : State) : StepDramIs s.mss.dram (execAudMeterRead c s) := by simp [execAudMeterRead]

/-! ### Effect slots -/

@[simp] theorem modCore_dram (c : Nat) (f : Core → Core) (s : State) : (modCore c f s).mss.dram = s.mss.dram := (rfl)

@[simp] theorem slotMiss_dram (c : Nat) (s : State) : (slotMiss c s).mss.dram = s.mss.dram := by simp [slotMiss]

@[simp] theorem execSlotBlockMissed_dram (core : Nat) (s : State) : StepDramIs s.mss.dram (execSlotBlockMissed core s) := by
  unfold execSlotBlockMissed
  generalize 900000 = n0
  generalize 65536 = n1
  split <;> simp [-advanceTo_mss]

@[simp] theorem slotRun_dram (c domain : Nat) (dry : List Int) (occ : Option Nat) (concealed : Bool) (s : State) :
    (slotRun c domain dry occ concealed s).2.mss.dram = s.mss.dram := by
  unfold slotRun
  split
  · rfl
  · extract_lets n now t
    have ht : t.mss.dram = s.mss.dram := by grind [slotMiss_dram]
    clear_value t
    dsimp only
    rw [modCore_dram]
    grind [drawBlock_dram]

@[simp] theorem slotSettle_dram (c : Nat) (s : State) : (slotSettle c s).mss.dram = s.mss.dram := by
  unfold slotSettle
  (repeat' split) <;> simp

/-! ### Mixing across a cluster -/

@[simp] theorem sendAudio_dram (port : Nat) (c : AudioCell) (s : State) : (sendAudio port c s).mss.dram = s.mss.dram := by simp [sendAudio]

@[simp] theorem sendDown_dram (c : AudioCell) (s : State) : (sendDown c s).mss.dram = s.mss.dram := by simp [sendDown]

@[simp] theorem sendUp_dram (c : AudioCell) (s : State) : (sendUp c s).mss.dram = s.mss.dram := by simp [sendUp]

@[simp] theorem sendPartial_dram (k : Nat) (bus : Nat) (s : State) : (sendPartial k bus s).mss.dram = s.mss.dram := by
  unfold sendPartial
  split <;> simp

@[simp] theorem lockBlockStart_dram (k : Nat) (s : State) : (lockBlockStart k s).mss.dram = s.mss.dram := by
  unfold lockBlockStart
  split <;> simp

@[simp] theorem countMissedSum_dram (k : Nat) (missed : Bool) (s : State) : (countMissedSum k missed s).mss.dram = s.mss.dram := by
  unfold countMissedSum
  split <;> simp

@[simp] theorem managerSum_dram (k : Nat) (bus : Nat) (s : State) : (managerSum k bus s).mss.dram = s.mss.dram := by
  unfold managerSum
  split <;> simp

@[simp] theorem execClusterSumDeadline_dram (group step : Nat) (s : State) :
    StepDramIs s.mss.dram (execClusterSumDeadline group step s) := by
  unfold execClusterSumDeadline
  generalize 65536 = n0
  generalize 450000 = n1
  generalize 300000 = n2
  generalize 800000 = n3
  split <;> simp [-modConf_mss, -advanceTo_mss]

@[simp] theorem afterEpoch_dram (ns : Nat) (s : State) : (afterEpoch ns s).mss.dram = s.mss.dram := by simp [afterEpoch]

@[simp] theorem execLevelCellSend_dram (group : Nat) (s : State) : StepDramIs s.mss.dram (execLevelCellSend group s) := by
  unfold execLevelCellSend
  generalize 1000000 = n0
  dsimp only
  (repeat' split) <;> simp [-modConf_mss]

@[simp] theorem execSelectionCellSend_dram (group : Nat) (s : State) : StepDramIs s.mss.dram (execSelectionCellSend group s) := by
  unfold execSelectionCellSend
  generalize 3000000 = n0
  (repeat' split) <;> simp [-modConf_mss]

@[simp] theorem checkContribution_dram (k : Nat) (x : Conf) (c : AudioCell) (s : State) :
    (checkContribution k x c s).mss.dram = s.mss.dram := by simp [checkContribution]

@[simp] theorem audioCell_dram (port : Nat) (k : Nat) (x : Conf) (c : AudioCell) (s : State) :
    (audioCell port k x c s).mss.dram = s.mss.dram := by
  unfold audioCell
  dsimp only
  (repeat' split) <;> simp

@[simp] theorem execAudioCell_dram (port : Nat) (c : AudioCell) (s : State) : StepDramIs s.mss.dram (execAudioCell port c s) := by
  unfold execAudioCell
  (repeat' split) <;> simp

/-! ### The block boundary and the encode groups -/

@[simp] theorem forkLocal_dram (st : Nat) (p : RtpPkt) (s : State) : (forkLocal st p s).mss.dram = s.mss.dram := by
  fun_cases forkLocal <;> grind [bufAlloc_dram, legDrops_dram, inFlow_dram, forkPacket_dram]

@[simp] theorem encodeFrame_dram (k : Nat) (i : Nat) (s : State) : (encodeFrame k i s).mss.dram = s.mss.dram := by
  unfold encodeFrame
  dsimp only
  (repeat' split) <;> simp

@[simp] theorem execEncodeGroupFrame_dram (conf group : Nat) (s : State) :
    StepDramIs s.mss.dram (execEncodeGroupFrame conf group s) := by simp [execEncodeGroupFrame]

@[simp] theorem feedGroup_dram (k : Nat) (i : Nat) (domain : Nat) (ys : List Int) (s : State) :
    (feedGroup k i domain ys s).mss.dram = s.mss.dram := by
  unfold feedGroup
  split <;> simp

@[simp] theorem busOutput_dram (k : Nat) (b : Nat) (s : State) : (busOutput k b s).mss.dram = s.mss.dram := by
  unfold busOutput
  dsimp only
  (repeat' split) <;> simp

@[simp] theorem slotOutputBlock_dram (k : Nat) (i : Nat) (s : State) : (slotOutputBlock k i s).mss.dram = s.mss.dram := by
  unfold slotOutputBlock
  split <;> simp

@[simp] theorem groupStart_dram (k : Nat) (i : Nat) (s : State) : (groupStart k i s).mss.dram = s.mss.dram := by
  unfold groupStart
  split <;> simp

@[simp] theorem groupSettle_dram (k : Nat) (i : Nat) (s : State) : (groupSettle k i s).mss.dram = s.mss.dram := by
  unfold groupSettle
  (repeat' split) <;> simp

@[simp] theorem frameStart_dram (k : Nat) (i : Nat) (s : State) : (frameStart k i s).mss.dram = s.mss.dram := by
  unfold frameStart
  split <;> simp

@[simp] theorem groupBoundary_dram (k : Nat) (i : Nat) (s : State) : (groupBoundary k i s).mss.dram = s.mss.dram := by
  unfold groupBoundary
  split <;> simp

@[simp] theorem applyBinding_dram (k : Nat) (leg : Nat) (bus : Nat) (src : Nat) (ssrc : Word) (s : State) :
    (applyBinding k leg bus src ssrc s).mss.dram = s.mss.dram := by
  unfold applyBinding
  dsimp only
  split <;> simp

@[simp] theorem bindBoundary_dram (k : Nat) (s : State) : (bindBoundary k s).mss.dram = s.mss.dram := by
  unfold bindBoundary
  split
  · rfl
  · refine foldl_dram _ (fun b s => ?_) ..
    grind [applyBinding_dram]

@[simp] theorem rowLeave_dram (k : Nat) (i : Nat) (s : State) : (rowLeave k i s).mss.dram = s.mss.dram := by
  unfold rowLeave
  dsimp only
  (repeat' split) <;> simp

@[simp] theorem startMixMinus_dram (k : Nat) (i : Nat) (l : Nat) (s : State) : (startMixMinus k i l s).mss.dram = s.mss.dram := by
  unfold startMixMinus
  (repeat' split) <;> simp

@[simp] theorem rowEnter_dram (k : Nat) (i : Nat) (s : State) : (rowEnter k i s).mss.dram = s.mss.dram := by
  fun_cases rowEnter <;> simp

@[simp] theorem moveOne_dram (k : Nat) (s : State) (leg : Nat) : (moveOne k s leg).mss.dram = s.mss.dram := by
  unfold moveOne
  dsimp only
  (repeat' split) <;> simp

@[simp] theorem moveBoundary_dram (k : Nat) (s : State) : (moveBoundary k s).mss.dram = s.mss.dram := by
  unfold moveBoundary
  split <;> simp

@[simp] theorem rowCondition_dram (k : Nat) (i : Nat) (s : State) : (rowCondition k i s).mss.dram = s.mss.dram := by
  unfold rowCondition
  split <;> simp

@[simp] theorem rowSlot_dram (k : Nat) (i : Nat) (s : State) : (rowSlot k i s).mss.dram = s.mss.dram := by
  unfold rowSlot
  dsimp only
  (repeat' split) <;> simp

@[simp] theorem confSums_dram (k : Nat) (s : State) : (confSums k s).mss.dram = s.mss.dram := by
  unfold confSums
  split <;> rfl

@[simp] theorem confBlock_dram (k : Nat) (s : State) : (confBlock k s).mss.dram = s.mss.dram := by
  unfold confBlock
  split
  · rfl
  · simp

@[simp] theorem execAudioBlockBoundary_dram (run : BlockRun) (s : State) : StepDramIs s.mss.dram (execAudioBlockBoundary run s) := by
  obtain ⟨t, h, ht⟩ := exists_eq_dram ((sampleQueues_dram _).trans (advanceTo_dram (blockDue s * 65536) s))
  rw [execAudioBlockBoundary, h]
  split
  · exact ht
  · exact (playoutBlock_dram ..).trans ((foldl_dram _ (fun _ _ => confBlock_dram ..) ..).trans ht)

@[simp] theorem execTrimZeroCrossing_dram (conf row : Nat) (s : State) : StepDramIs s.mss.dram (execTrimZeroCrossing conf row s) := by
  unfold execTrimZeroCrossing
  split <;> simp

/-! ### The cluster -/

@[simp] theorem sendControl_dram (p : Nat) (kind : Nat) (ws : List Word) (s : State) :
    (sendControl p kind ws s).mss.dram = s.mss.dram := by simp [sendControl]

@[simp] theorem lossOfFrame_dram (p : Nat) (s : State) : (lossOfFrame p s).mss.dram = s.mss.dram := by simp [lossOfFrame]

@[simp] theorem frameMiss_dram (p : Nat) (f : CourseFrame) (s : State) : (frameMiss p f s).mss.dram = s.mss.dram := by simp [frameMiss]

@[simp] theorem frameGood_dram (p : Nat) (f : CourseFrame) (s : State) : (frameGood p f s).mss.dram = s.mss.dram := (rfl)

@[simp] theorem courseFrame_dram (p : Nat) (f : CourseFrame) (s : State) : (courseFrame p f s).mss.dram = s.mss.dram := by
  unfold courseFrame
  dsimp only
  (repeat' split) <;> simp

@[simp] theorem execCourseFrame_dram (port : Nat) (f : CourseFrame) (s : State) :
    StepDramIs s.mss.dram (execCourseFrame port f s) := by simp [execCourseFrame]

@[simp] theorem execContainerReceived_dram (port : Nat) (c : Container) (s : State) :
    StepDramIs s.mss.dram (execContainerReceived port c s) := by
  unfold execContainerReceived
  dsimp only
  (repeat' split) <;> simp

@[simp] theorem suspend_dram (cause : Nat) (s : State) : (suspend cause s).mss.dram = s.mss.dram := by simp [suspend]

@[simp] theorem sendGroup_dram (g : LockGroup) (s : State) : (sendGroup g s).mss.dram = s.mss.dram := by
  unfold sendGroup
  split <;> simp

@[simp] theorem clusterEpoch_dram (s : State) : (clusterEpoch s).mss.dram = s.mss.dram := by simp [clusterEpoch]

@[simp] theorem judgeTree_dram (s : State) : (judgeTree s).mss.dram = s.mss.dram := by
  unfold judgeTree
  split <;> simp

@[simp] theorem execHello_dram (port : Nat) (words : List Word) (s : State) : StepDramIs s.mss.dram (execHello port words s) := by
  unfold execHello
  split <;> simp

@[simp] theorem upstream_dram (s : State) : (upstream s).2.2.mss.dram = s.mss.dram := by
  unfold upstream
  split <;> rfl

@[simp] theorem judgeOffset_dram (link : Int) (s : State) : (judgeOffset link s).mss.dram = s.mss.dram := by simp [judgeOffset]

@[simp] theorem departure_dram (x : CtiPort) (n : Nat) (s : State) : (departure x n s).2.mss.dram = s.mss.dram := by
  unfold departure
  split <;> rfl

@[simp] theorem timeCell_dram (port : Nat) (words : List Word) (s : State) : (timeCell port words s).mss.dram = s.mss.dram := by
  unfold timeCell
  dsimp only
  split <;> simp

@[simp] theorem execTimeCell_dram (port : Nat) (words : List Word) (s : State) :
    StepDramIs s.mss.dram (execTimeCell port words s) := by simp [execTimeCell]

@[simp] theorem groupCell_dram (port : Nat) (words : List Word) (s : State) :
    (groupCell port words s).mss.dram = s.mss.dram := by simp [groupCell]

@[simp] theorem execGroupCell_dram (port : Nat) (words : List Word) (s : State) :
    StepDramIs s.mss.dram (execGroupCell port words s) := by simp [execGroupCell]

@[simp] theorem periodic_dram (last : Nat) (period : Nat) (s : State) : (periodic last period s).mss.dram = s.mss.dram := by simp [periodic]

@[simp] theorem execHelloSend_dram (port : Nat) (s : State) : StepDramIs s.mss.dram (execHelloSend port s) := by
  unfold execHelloSend
  generalize 100000000 = n0
  split <;> simp [-modCtiPort_mss]

@[simp] theorem execTimeCellSend_dram (port : Nat) (s : State) : StepDramIs s.mss.dram (execTimeCellSend port s) := by
  unfold execTimeCellSend
  generalize 1000000000 = n0
  split <;> simp [-modCtiPort_mss]

@[simp] theorem execGroupCellSend_dram (s : State) : StepDramIs s.mss.dram (execGroupCellSend s) := by
  unfold execGroupCellSend
  generalize 1000000000 = n0
  split <;> simp

@[simp] theorem execManagerPathLost_dram (s : State) : StepDramIs s.mss.dram (execManagerPathLost s) := by
  rw [execManagerPathLost]
  split
  · rfl
  · cases (ctiPort s s.cti.parent).lostNs with
    | none => exact suspend_dram ..
    | some n =>
      obtain ⟨t, h, ht⟩ := exists_eq_dram (advanceAon_dram (n + 10000000) s)
      dsimp only
      rw [h, stepDramIs_next, suspend_dram, ite_dram, ht, ite_self]

@[simp] theorem execCourseSyncTimeout_dram (port : Nat) (s : State) : StepDramIs s.mss.dram (execCourseSyncTimeout port s) := by
  unfold execCourseSyncTimeout
  generalize 100000000 = n0
  simp [-modCtiPort_mss]

@[simp] theorem execTransceiverHotPlug_dram (port : Nat) (inserted : Bool) (mw : Nat) (s : State) :
    StepDramIs s.mss.dram (execTransceiverHotPlug port inserted mw s) := by simp [execTransceiverHotPlug]

@[simp] theorem takeRole_dram (w : Word) (s : State) : (takeRole w s).mss.dram = s.mss.dram := by simp [takeRole]

@[simp] theorem roleSet_dramIs (w : Word) (s : State) {m : List Host.Cell} (h : s.mss.dram = m) : (roleSet w s).DramIs m := by
  subst h
  simp [roleSet]

@[simp] theorem groupAdd_dramIs (w : Word) (s : State) {m : List Host.Cell} (h : s.mss.dram = m) : (groupAdd w s).DramIs m := by
  subst h
  simp [groupAdd]

@[simp] theorem groupRemove_dramIs (w : Word) (s : State) {m : List Host.Cell} (h : s.mss.dram = m) : (groupRemove w s).DramIs m := by
  subst h
  simp [groupRemove]

@[simp] theorem clusterRoleSet_dramIs (c : Cmd) (s : State) {m : List Host.Cell} (h : s.mss.dram = m) : (clusterRoleSet c s).DramIs m := by
  subst h
  unfold clusterRoleSet
  (repeat' split) <;> simp

@[simp] theorem execClusterRoleSet_dram (c : Cmd) (s : State) :
    StepDramIs s.mss.dram (execClusterRoleSet c s) := by simp [execClusterRoleSet]

@[simp] theorem coursePort_dram (p : Nat) (w : Word) (s : State) : (coursePort p w s).mss.dram = s.mss.dram := (rfl)

@[simp] theorem coursePortSet_dramIs (c : Cmd) (s : State) {m : List Host.Cell} (h : s.mss.dram = m) : (coursePortSet c s).DramIs m := by
  subst h
  unfold coursePortSet
  (repeat' split) <;> simp

@[simp] theorem execCoursePortSet_dram (c : Cmd) (s : State) : StepDramIs s.mss.dram (execCoursePortSet c s) := by simp [execCoursePortSet]

end Sys2Proof.Machine

/-!
PROOFS. What leaves the bytes of memory as they are: video decode, encode and synthesis.
-/

namespace Sys2Proof.Machine

/-! ### The Gouge cores -/

@[simp] theorem modGouge_dram (c : Nat) (f : Gouge → Gouge) (s : State) : (modGouge c f s).mss.dram = s.mss.dram := (rfl)

@[simp] theorem modVjob_dram (kind : JobKind) (key : Nat) (f : VJob → VJob) (s : State) :
    (modVjob kind key f s).mss.dram = s.mss.dram := (rfl)

@[simp] theorem openCoreEpoch_dram (s : State) : (openCoreEpoch s).mss.dram = s.mss.dram := (rfl)

@[simp] theorem vacate_dram (c : Nat) (s : State) : (vacate c s).mss.dram = s.mss.dram := by
  unfold vacate
  dsimp only
  split <;> simp

@[simp] theorem occupy_dram (c : Nat) (j : VJob) (s : State) : (occupy c j s).mss.dram = s.mss.dram := (rfl)

@[simp] theorem scheduleCores_dram (s : State) : (scheduleCores s).mss.dram = s.mss.dram := by
  unfold scheduleCores
  dsimp only
  rw [foldl_dram, foldl_dram]
  · exact fun c => vacate_dram c
  · intro j s
    dsimp only
    (repeat' split) <;> simp

@[simp] theorem addVjob_dram (kind : JobKind) (key : Nat) (deadline : Option Nat) (s : State) :
    (addVjob kind key deadline s).mss.dram = s.mss.dram := by simp [addVjob]

@[simp] theorem dropVjob_dram (kind : JobKind) (key : Nat) (s : State) : (dropVjob kind key s).mss.dram = s.mss.dram := by
  unfold dropVjob
  split <;> simp

@[simp] theorem finishVjob_dram (kind : JobKind) (key : Nat) (core : Nat) (missed : Bool) (s : State) :
    (finishVjob kind key core missed s).mss.dram = s.mss.dram := by simp [finishVjob]

/-! ### Video decode -/

@[simp] theorem modDec_dram (k : Nat) (f : Dec → Dec) (s : State) : (modDec k f s).mss.dram = s.mss.dram := (rfl)

@[simp] theorem postRecord_dram (r : DecRecord) (s : State) : (postRecord r s).mss.dram = s.mss.dram := (rfl)

@[simp] theorem enterWaitingRap_dram (k : Nat) (s : State) : (enterWaitingRap k s).mss.dram = s.mss.dram := by
  unfold enterWaitingRap
  split <;> rfl

@[simp] theorem discardPic_dram (k : Nat) (p : Pic) (s : State) : (discardPic k p s).mss.dram = s.mss.dram := by
  unfold discardPic
  split <;> rfl

@[simp] theorem dropMissed_dram (k : Nat) (s : State) : (dropMissed k s).mss.dram = s.mss.dram := by
  unfold dropMissed
  split <;> simp

@[simp] theorem offerPic_dram (p : LayerPic) (frac : Nat) (s : State) : (offerPic p frac s).mss.dram = s.mss.dram := (rfl)

@[simp] theorem encSourceGone_dram (fromDec : Bool) (src : Nat) (s : State) : (encSourceGone fromDec src s).mss.dram = s.mss.dram := (rfl)

@[simp] theorem layersLose_dram (kind : Nat) (src : Nat) (s : State) : (layersLose kind src s).mss.dram = s.mss.dram := (rfl)

@[simp] theorem freeDec_dram (k : Nat) (s : State) : (freeDec k s).mss.dram = s.mss.dram := by
  unfold freeDec
  split <;> simp

@[simp] theorem startDecode_dram (k : Nat) (s : State) : (startDecode k s).mss.dram = s.mss.dram := by
  fun_cases startDecode <;> simp

@[simp] theorem backlogPut_dram (k : Nat) (p : Pic) (s : State) : (backlogPut k p s).mss.dram = s.mss.dram := by
  unfold backlogPut
  split <;> simp

@[simp] theorem takePic_dram (k : Nat) (d : Dec) (p : Pic) (s : State) : (takePic k d p s).mss.dram = s.mss.dram := by
  unfold takePic
  (repeat' split) <;> simp

@[simp] theorem releaseHead_dram (k : Nat) (s : State) : (releaseHead k s).mss.dram = s.mss.dram := by
  unfold releaseHead
  (repeat' split) <;> simp

@[simp] theorem releaseDone_dram (k : Nat) (behind : Bool) (x0 : Nat) (s : State) : (releaseDone k behind x0 s).mss.dram = s.mss.dram := by
  fun_induction releaseDone <;> simp_all

@[simp] theorem decAssemble_dram (k : Nat) (p : RtpPkt) (s : State) : (decAssemble k p s).mss.dram = s.mss.dram := by
  unfold decAssemble
  split <;> simp

@[simp] theorem execAssemblyDeadline_dram (ctx : Nat) (s : State) : StepDramIs s.mss.dram (execAssemblyDeadline ctx s) := by
  unfold execAssemblyDeadline
  generalize 65536 = n0
  (repeat' split) <;> simp [-advanceTo_mss]

@[simp] theorem fencePic_dram (k : Nat) (o : OutPic) (s : State) : (fencePic k o s).mss.dram = s.mss.dram := by
  unfold fencePic
  split <;> rfl

@[simp] theorem decodeTraffic_dram (p : Pic) (top : RefPic) (ten : Bool) (out : Bool) (s : State) :
    (decodeTraffic p top ten out s).mss.dram = s.mss.dram := by simp [decodeTraffic]

@[simp] theorem applyDecoded_dram (k : Nat) (p : Pic) (us : List UnitResult) (live : Bool) (s : State) :
    (applyDecoded k p us live s).mss.dram = s.mss.dram := by
  unfold applyDecoded
  split <;> simp

@[simp] theorem sweepOrphans_dram (s : State) : (sweepOrphans s).mss.dram = s.mss.dram := (rfl)

@[simp] theorem startCatch_dram (k : Nat) (s : State) : (startCatch k s).mss.dram = s.mss.dram := by
  unfold startCatch
  split <;> simp

@[simp] theorem judgePicture_dram (k : Nat) (d : Dec) (p : Pic) (r : DecodeResult) (live : Bool) (s : State) :
    (judgePicture k d p r live s).mss.dram = s.mss.dram := by
  unfold judgePicture
  split
  · dsimp only
    rw [foldl_dram _ fun q s => by dsimp only; split <;> simp]
    simp
  · split <;> simp

@[simp] theorem catchStep_dram (k : Nat) (d : Dec) (r : DecodeResult) (s : State) : (catchStep k d r s).mss.dram = s.mss.dram := by
  unfold catchStep
  dsimp only
  split <;> simp

@[simp] theorem decodeDone_dram (k : Nat) (d : Dec) (p : Pic) (r : DecodeResult) (s : State) :
    (decodeDone k d p r s).mss.dram = s.mss.dram := by simp [decodeDone]

@[simp] theorem endDecode_dram (ctx : Nat) (core : Nat) (r : DecodeResult) (s : State) :
    (endDecode ctx core r s).mss.dram = s.mss.dram := by
  unfold endDecode
  (repeat' split) <;> simp

@[simp] theorem decodeJob_dram (ctx : Nat) (r : DecodeResult) (s : State) : (decodeJob ctx r s).mss.dram = s.mss.dram := by
  unfold decodeJob
  split <;> simp

@[simp] theorem execDecodeWatchdog_dram (core : Nat) (s : State) : StepDramIs s.mss.dram (execDecodeWatchdog core s) := by
  unfold execDecodeWatchdog
  generalize 50000000 = n0
  generalize 3600000000000 = n1
  generalize 53508 = n2
  dsimp only
  (repeat' split) <;> simp [-modGouge_mss]

@[simp] theorem execCatchUpTimeout_dram (ctx : Nat) (s : State) : StepDramIs s.mss.dram (execCatchUpTimeout ctx s) := by
  unfold execCatchUpTimeout
  generalize 500000000 = n0
  (repeat' split) <;> simp

@[simp] theorem bindDec_dram (k : Nat) (d : Dec) (s : State) : (bindDec k d s).mss.dram = s.mss.dram := by simp [bindDec]

@[simp] theorem decBind_dramIs (c : Cmd) (s : State) {m : List Host.Cell} (h : s.mss.dram = m) : (decBind c s).DramIs m := by
  subst h
  simp [decBind]

@[simp] theorem decUnbind_dram (k : Nat) (s : State) : (decUnbind k s).mss.dram = s.mss.dram := by
  unfold decUnbind
  split <;> simp

@[simp] theorem decoderBind_dramIs (c : Cmd) (s : State) {m : List Host.Cell} (h : s.mss.dram = m) : (decoderBind c s).DramIs m := by
  subst h
  unfold decoderBind
  (repeat' split) <;> simp

@[simp] theorem execVidDecoderBind_dram (c : Cmd) (s : State) :
    StepDramIs s.mss.dram (execVidDecoderBind c s) := by simp [execVidDecoderBind]

@[simp] theorem returnCore_dram (core : Nat) (s : State) : (returnCore core s).mss.dram = s.mss.dram := by simp [returnCore]

@[simp] theorem coreQuiesce_dramIs (c : Cmd) (s : State) {m : List Host.Cell} (h : s.mss.dram = m) : (coreQuiesce c s).DramIs m := by
  subst h
  unfold coreQuiesce
  dsimp only
  (repeat' split) <;> simp

@[simp] theorem execVidCoreQuiesce_dram (c : Cmd) (s : State) :
    StepDramIs s.mss.dram (execVidCoreQuiesce c s) := by simp [execVidCoreQuiesce]

@[simp] theorem execCoreQuiesced_dram (core : Nat) (s : State) : StepDramIs s.mss.dram (execCoreQuiesced core s) := by
  unfold execCoreQuiesced
  split <;> simp

/-! ### Video encode -/

@[simp] theorem modEnc_dram (k : Nat) (f : Enc → Enc) (s : State) : (modEnc k f s).mss.dram = s.mss.dram := (rfl)

@[simp] theorem sendLocal_dram (st : Nat) (p : RtpPkt) (s : State) : (sendLocal st p s).mss.dram = s.mss.dram := by
  unfold sendLocal
  split <;> simp

@[simp] theorem sendUnit_dram (j : EncJob) (out : List CodedLayer) (s : State) :
    (sendUnit j out s).mss.dram = s.mss.dram := by simp [sendUnit]

@[simp] theorem startEncode_dram (k : Nat) (pic : SrcPic) (s : State) : (startEncode k pic s).mss.dram = s.mss.dram := by
  unfold startEncode
  split <;> simp

@[simp] theorem waitEncode_dram (k : Nat) (e : Enc) (pic : SrcPic) (s : State) :
    (waitEncode k e pic s).mss.dram = s.mss.dram := by simp [waitEncode]

@[simp] theorem sourcePicture_dram (k : Nat) (s : State) : (sourcePicture k s).mss.dram = s.mss.dram := by
  unfold sourcePicture
  (repeat' split) <;> simp

@[simp] theorem execEncoderSourcePicture_dram (ctx src : Nat) (s : State) :
    StepDramIs s.mss.dram (execEncoderSourcePicture ctx src s) := by simp [execEncoderSourcePicture]

@[simp] theorem freeEnc_dram (k : Nat) (s : State) : (freeEnc k s).mss.dram = s.mss.dram := by
  unfold freeEnc
  split <;> simp

@[simp] theorem keyOutcome_dram (k : Nat) (j : EncJob) (out : List CodedLayer) (s : State) :
    (keyOutcome k j out s).mss.dram = s.mss.dram := by simp [keyOutcome]

@[simp] theorem encodeTraffic_dram (ten : Bool) (s : State) (x : CodedLayer) :
    (encodeTraffic ten s x).mss.dram = s.mss.dram := by simp [encodeTraffic]

@[simp] theorem encodeDone_dram (k : Nat) (core : Nat) (j : EncJob) (r : EncodeResult) (s : State) :
    (encodeDone k core j r s).2.mss.dram = s.mss.dram := by
  unfold encodeDone
  split <;> simp

@[simp] theorem encodeNext_dram (k : Nat) (s : State) : (encodeNext k s).mss.dram = s.mss.dram := by
  fun_cases encodeNext <;> simp

@[simp] theorem encApply_dram (k : Nat) (n : Enc) (s : State) : (encApply k n s).mss.dram = s.mss.dram := by
  unfold encApply
  dsimp only
  (repeat' split) <;> simp

@[simp] theorem encSet_dramIs (c : Cmd) (s : State) {m : List Host.Cell} (h : s.mss.dram = m) : (encSet c s).DramIs m := by
  subst h
  simp [encSet]

@[simp] theorem encoderSet_dramIs (c : Cmd) (s : State) {m : List Host.Cell} (h : s.mss.dram = m) : (encoderSet c s).DramIs m := by
  subst h
  unfold encoderSet
  (repeat' split) <;> simp

@[simp] theorem execVidEncoderSet_dram (c : Cmd) (s : State) : StepDramIs s.mss.dram (execVidEncoderSet c s) := by simp [execVidEncoderSet]

/-! ### Keyframe requests, synthesis and bridged renditions -/

@[simp] theorem requestKey_dram (st : Nat) (s : State) : (requestKey st s).2.mss.dram = s.mss.dram := by
  unfold requestKey
  split <;> simp

@[simp] theorem encoderKey_dram (st : Nat) (s : State) : (encoderKey st s).mss.dram = s.mss.dram := (rfl)

@[simp] theorem modJob_dram (j : Nat) (f : Job → Job) (s : State) : (modJob j f s).mss.dram = s.mss.dram := (rfl)

@[simp] theorem dropJob_dram (j : Nat) (s : State) : (dropJob j s).mss.dram = s.mss.dram := by
  unfold dropJob
  (repeat' split) <;> simp

@[simp] theorem endJob_dram (j : Nat) (result : Nat) (s : State) : (endJob j result s).mss.dram = s.mss.dram := by
  unfold endJob
  split <;> simp

@[simp] theorem startRepair_dram (st : Nat) (mask : Nat) (bridged : Bool) (entries : List Nat) (s : State) :
    (startRepair st mask bridged entries s).mss.dram = s.mss.dram := by
  unfold startRepair
  split <;> simp

@[simp] theorem supersede_dram (st : Nat) (s : State) : (supersede st s).mss.dram = s.mss.dram := by simp [supersede]

@[simp] theorem startBridge_dram (j : Nat) (x : Job) (s : State) : (startBridge j x s).mss.dram = s.mss.dram := by simp [startBridge]

@[simp] theorem execSynthCatchUpDone_dram (job dec : Nat) (s : State) : StepDramIs s.mss.dram (execSynthCatchUpDone job dec s) := by
  unfold execSynthCatchUpDone
  dsimp only
  (repeat' split) <;> simp

@[simp] theorem execSynthNoTime_dram (job : Nat) (s : State) : StepDramIs s.mss.dram (execSynthNoTime job s) := by
  unfold execSynthNoTime
  generalize 500000000 = n0
  generalize 65536 = n1
  (repeat' split) <;> simp [-advanceTo_mss]

@[simp] theorem deliver_dram (st i : Nat) (prev : Option Word) (ps : List RtpPkt) (s : State) :
    (deliver st i prev ps s).mss.dram = s.mss.dram := by
  fun_induction deliver <;> grind [visitAll_dram, sendAll_dram]

@[simp] theorem synthBuffers_dram (n : Nat) (s : State) : (synthBuffers n s).2.mss.dram = s.mss.dram := by
  fun_induction synthBuffers <;> grind [bufAlloc_dram, bufRelease_dram]

@[simp] theorem sendSynth_dram (i : Nat) (x : Job) (live : Word) (pkts : List RtpPkt) (s : State) :
    (sendSynth i x live pkts s).mss.dram = s.mss.dram := by
  rw [sendSynth]
  cases tget s.fwe.ledger i with
  | none => rfl
  | some e =>
    have hbufs := synthBuffers_dram (((pkts.map (·.payload)).sum + 524287) / 524288) s
    rcases hb : synthBuffers (((pkts.map (·.payload)).sum + 524287) / 524288) s with ⟨_ | bs, t⟩ <;> rw [hb] at hbufs
    · exact (endEntryRepair_dram ..).trans hbufs
    · exact (deliver_dram ..).trans ((repairResult_dram ..).trans ((foldl_dram _ (fun _ _ => sendCopy_dram ..) ..).trans hbufs))

@[simp] theorem synthDone_dram (job : Nat) (core : Nat) (x : Job) (live : Word) (r : EncodeResult) (s : State) :
    (synthDone job core x live r s).mss.dram = s.mss.dram := by simp [synthDone]

@[simp] theorem execSynthEncodeDone_dram (job : Nat) (r : EncodeResult) (s : State) :
    StepDramIs s.mss.dram (execSynthEncodeDone job r s) := by
  unfold execSynthEncodeDone
  (repeat' split) <;> simp

@[simp] theorem bridgeStart_dram (k : Nat) (s : State) : (bridgeStart k s).mss.dram = s.mss.dram := by
  unfold bridgeStart
  split <;> simp

@[simp] theorem joinAtLive_dram (i : Nat) (x : Job) (live : Word) (s : State) : (joinAtLive i x live s).mss.dram = s.mss.dram := by
  unfold joinAtLive
  dsimp only
  split <;> simp

@[simp] theorem joinJob_dram (j : Nat) (i : Nat) (s : State) : (joinJob j i s).mss.dram = s.mss.dram := by
  unfold joinJob
  (repeat' split) <;> simp

@[simp] theorem bridgeEnd_dram (j : Nat) (x : Job) (ts : Word) (s : State) : (bridgeEnd j x ts s).mss.dram = s.mss.dram := by
  unfold bridgeEnd
  dsimp only
  rw [dropJob_dram, foldl_dram]
  intro i s
  dsimp only
  (repeat' split) <;> simp

@[simp] theorem execBridgedLimitExpiry_dram (job : Nat) (s : State) : StepDramIs s.mss.dram (execBridgedLimitExpiry job s) := by
  unfold execBridgedLimitExpiry
  generalize 1000000000 = n0
  generalize 65536 = n1
  (repeat' split) <;> simp [-modJob_mss, -advanceTo_mss]

@[simp] theorem execEncodeJobComplete_dram (ctx : Nat) (r : EncodeResult) (s : State) :
    StepDramIs s.mss.dram (execEncodeJobComplete ctx r s) := by
  unfold execEncodeJobComplete
  dsimp only
  (repeat' split) <;> simp

@[simp] theorem execDecodeJobComplete_dram (ctx : Nat) (r : DecodeResult) (s : State) :
    StepDramIs s.mss.dram (execDecodeJobComplete ctx r s) := by
  unfold execDecodeJobComplete
  dsimp only
  split <;> simp

@[simp] theorem keyframe_dramIs (c : Cmd) (s : State) {m : List Host.Cell} (h : s.mss.dram = m) : (keyframe c s).DramIs m := by
  subst h
  unfold keyframe
  (repeat' split) <;> simp

@[simp] theorem execVidKeyframe_dram (c : Cmd) (s : State) : StepDramIs s.mss.dram (execVidKeyframe c s) := by simp [execVidKeyframe]

@[simp] theorem execEntryRepairDone_dram (entry result : Nat) (s : State) : StepDramIs s.mss.dram (execEntryRepairDone entry result s) := by
  unfold execEntryRepairDone
  split <;> simp

@[simp] theorem execVidSynthPolicy_dram (c : Cmd) (s : State) : StepDramIs s.mss.dram (execVidSynthPolicy c s) := by
  unfold execVidSynthPolicy
  generalize 10000000 = n0
  simp

@[simp] theorem applyPolicy_dram (s : State) : (applyPolicy s).mss.dram = s.mss.dram := by
  unfold applyPolicy
  split <;> simp

end Sys2Proof.Machine

/-!
PROOFS. What leaves the bytes of memory as they are: the governor, ingress, and the PON terminal.
-/

namespace Sys2Proof.Machine

/-! ### The decision trace -/

@[simp] theorem traceAt_dram (now : Nat) (sub : Nat) (kind : Nat) (core : Nat) (object : Nat) (flow : Nat) (detail : Nat) (s : State) :
    (traceAt now sub kind core object flow detail s).mss.dram = s.mss.dram := by simp [traceAt]

@[simp] theorem traceRec_dram (sub : Nat) (kind : Nat) (core : Nat) (object : Nat) (flow : Nat) (detail : Nat) (s : State) :
    (traceRec sub kind core object flow detail s).mss.dram = s.mss.dram := by simp [traceRec]

/-! ### Plumb -/

@[simp] theorem modGov_dram (i : Nat) (f : Gov → Gov) (s : State) : (modGov i f s).mss.dram = s.mss.dram := (rfl)

@[simp] theorem plumbTrace_dram (kind : Nat) (object : Nat) (flow : Nat) (detail : Nat) (s : State) :
    (plumbTrace kind object flow detail s).mss.dram = s.mss.dram := by simp [plumbTrace]

@[simp] theorem measureLeg_dram (leg : Nat) (m : Option (Nat × Nat) × Option Nat) (s : State) :
    (measureLeg leg m s).mss.dram = s.mss.dram := (rfl)

@[simp] theorem measureNeed_dram (i : Nat) (s : State) : (measureNeed i s).mss.dram = s.mss.dram := by simp [measureNeed]

@[simp] theorem takeLater_dram (s : State) : (takeLater s).mss.dram = s.mss.dram := by
  unfold takeLater
  exact foldl_dram _ (fun _ _ => modEntry_dram ..) ..

@[simp] theorem applyOverride_dram (leg : Nat) (o : Nat × Nat) (s : State) :
    (applyOverride leg o s).mss.dram = s.mss.dram := by simp [applyOverride]

@[simp] theorem fairPort_dram (b : Nat) (port : Nat) (rates : Tbl Nat) (s : State) :
    (fairPort b port rates s).2.2.mss.dram = s.mss.dram := by
  unfold fairPort
  dsimp only
  split <;> simp

@[simp] theorem moveTarget_dram (b : Nat) (pub : Nat) (i : Nat) (share : Nat) (decreased : Bool) (s : State) :
    (moveTarget b pub i share decreased s).mss.dram = s.mss.dram := by
  unfold moveTarget
  split <;> simp

@[simp] theorem publishLeg_dram (b : Nat) (pub : Nat) (i : Nat) (fine : Nat) (limited : Bool) (s : State) :
    (publishLeg b pub i fine limited s).mss.dram = s.mss.dram := by
  unfold publishLeg
  split <;> simp

@[simp] theorem applyEncOverride_dram (k : Nat) (o : Nat × Nat) (s : State) :
    (applyEncOverride k o s).mss.dram = s.mss.dram := by simp [applyEncOverride]

@[simp] theorem applyEncOverrides_dram (k : Nat) (s : State) : (applyEncOverrides k s).mss.dram = s.mss.dram := by simp [applyEncOverrides]

@[simp] theorem publishEncoder_dram (k : Nat) (s : State) : (publishEncoder k s).mss.dram = s.mss.dram := by
  unfold publishEncoder
  split <;> simp

@[simp] theorem traceRefresh_dram (object : Nat) (flow : Nat) (code : Nat) (action : Nat) (s : State) :
    (traceRefresh object flow code action s).mss.dram = s.mss.dram := by simp [traceRefresh]

@[simp] theorem requestFor_dram (i : Nat) (code : Nat) (e : Entry) (s : State) :
    (requestFor i code e s).mss.dram = s.mss.dram := by simp [requestFor]

@[simp] theorem entryNeed_dram (count : Nat) (i : Nat) (code : Nat) (s : State) : (entryNeed count i code s).mss.dram = s.mss.dram := by
  fun_cases entryNeed <;> simp

@[simp] theorem decoderNeed_dram (k : Nat) (s : State) : (decoderNeed k s).mss.dram = s.mss.dram := by
  unfold decoderNeed
  split <;> simp

@[simp] theorem gatherNeeds_dram (b : Nat) (s : State) : (gatherNeeds b s).mss.dram = s.mss.dram := (rfl)

@[simp] theorem handleNeeds_dram (s : State) : (handleNeeds s).mss.dram = s.mss.dram := by simp [handleNeeds]

@[simp] theorem computeEpoch_dram (b : Nat) (s : State) : (computeEpoch b s).mss.dram = s.mss.dram := (rfl)

theorem foldl_triple_dram {α β γ : Type} (f : α × β × State → γ → α × β × State) (h : ∀ x c, (f x c).2.2.mss.dram = x.2.2.mss.dram)
    (l : List γ) (x : α × β × State) : (l.foldl f x).2.2.mss.dram = x.2.2.mss.dram := by
  induction l generalizing x with
  | nil => rfl
  | cons a l ih => exact (ih _).trans (h x a)

@[simp] theorem publishEpoch_dram (late : List Nat) (s : State) : (publishEpoch late s).mss.dram = s.mss.dram := by
  simp [publishEpoch, foldl_triple_dram]

@[simp] theorem execPlumbPublication_dram (late : List Nat) (s : State) : StepDramIs s.mss.dram (execPlumbPublication late s) := by
  unfold execPlumbPublication
  generalize 10000000 = n0
  generalize 65536 = n1
  simp [-advanceTo_mss]

@[simp] theorem classSet_dramIs (c : Cmd) (s : State) {m : List Host.Cell} (h : s.mss.dram = m) : (classSet c s).DramIs m := by
  subst h
  unfold classSet
  (repeat' split) <;> simp

@[simp] theorem execGovClassSet_dram (c : Cmd) (s : State) : StepDramIs s.mss.dram (execGovClassSet c s) := by simp [execGovClassSet]

@[simp] theorem applyClasses_dram (s : State) : (applyClasses s).mss.dram = s.mss.dram := (rfl)

@[simp] theorem govOverride_dramIs (c : Cmd) (s : State) {m : List Host.Cell} (h : s.mss.dram = m) : (govOverride c s).DramIs m := by
  subst h
  unfold govOverride
  dsimp only
  (repeat' split) <;> simp

@[simp] theorem execGovOverride_dram (c : Cmd) (s : State) : StepDramIs s.mss.dram (execGovOverride c s) := by simp [execGovOverride]

@[simp] theorem govRead_dramIs (c : Cmd) (s : State) {m : List Host.Cell} (h : s.mss.dram = m) : (govRead c s).DramIs m := by
  subst h
  unfold govRead
  dsimp only
  (repeat' split) <;> simp

@[simp] theorem execGovRead_dram (c : Cmd) (s : State) : StepDramIs s.mss.dram (execGovRead c s) := by simp [execGovRead]

/-! ### Ingress of the packet path -/

@[simp] theorem portCount_dram (port : Nat) (i : Nat) (s : State) : (portCount port i s).mss.dram = s.mss.dram := (rfl)

@[simp] theorem unknownSsrc_dram (leg : Nat) (ssrc : Word) (s : State) :
    (unknownSsrc leg ssrc s).mss.dram = s.mss.dram := by simp [unknownSsrc]

@[simp] theorem classify_dram (port : Nat) (d : Datagram) (s : State) : (classify port d s).mss.dram = s.mss.dram := by
  unfold classify
  split <;> simp

@[simp] theorem execIngressDatagram_dram (port : Nat) (d : Datagram) (s : State) :
    StepDramIs s.mss.dram (execIngressDatagram port d s) := by simp [execIngressDatagram]

@[simp] theorem execIpPacketCell_dram (port : Nat) (d : Datagram) (s : State) : StepDramIs s.mss.dram (execIpPacketCell port d s) := by
  unfold execIpPacketCell
  generalize 65536 = n0
  simp

@[simp] theorem execDtlsDatagramIngress_dram (leg : Nat) (bytes : List Byte) (s : State) :
    StepDramIs s.mss.dram (execDtlsDatagramIngress leg bytes s) := by
  unfold execDtlsDatagramIngress
  split <;> simp

@[simp] theorem sendPlain_dram (leg : Nat) (proto : FrameKind) (n : Nat) (data : List Nat) (s : State) :
    (sendPlain leg proto n data s).mss.dram = s.mss.dram := by
  unfold sendPlain
  split <;> simp

@[simp] theorem frameDiscard_dram (s : State) : (frameDiscard s).mss.dram = s.mss.dram := (rfl)

@[simp] theorem hostFrame_dram (bs : List Byte) (s : State) : (hostFrame bs s).mss.dram = s.mss.dram := by
  fun_cases hostFrame <;> simp

@[simp] theorem execHostDataFrame_dram (bytes : List Byte) (s : State) :
    StepDramIs s.mss.dram (execHostDataFrame bytes s) := by simp [execHostDataFrame]

@[simp] theorem execStunBindingRequest_dram (leg : Nat) (r : StunReq) (s : State) :
    StepDramIs s.mss.dram (execStunBindingRequest leg r s) := by
  unfold execStunBindingRequest
  split <;> simp

@[simp] theorem execConsentCheckSend_dram (leg : Nat) (s : State) : StepDramIs s.mss.dram (execConsentCheckSend leg s) := by
  unfold execConsentCheckSend
  generalize 2000000001 = n0
  generalize 4000000000 = n1
  (repeat' split) <;> simp [-modLeg_mss]

@[simp] theorem execConsentResponse_dram (leg rttUs : Nat) (valid : Bool) (s : State) :
    StepDramIs s.mss.dram (execConsentResponse leg rttUs valid s) := by
  unfold execConsentResponse
  generalize 4294967294 = n0
  split <;> simp [-modLeg_mss]

@[simp] theorem execConsentExpiry_dram (leg : Nat) (s : State) : StepDramIs s.mss.dram (execConsentExpiry leg s) := by
  unfold execConsentExpiry
  generalize 30000000000 = n0
  split <;> simp

@[simp] theorem mediaArrive_dram (st : Nat) (x : Stream) (p : RtpPkt) (buf : Option Nat) (s : State) :
    (mediaArrive st x p buf s).mss.dram = s.mss.dram := by simp [mediaArrive]

@[simp] theorem noteFeedback_dram (st : Nat) (l : Leg) (seq : BitVec 16) (now : Nat) (s : State) :
    (noteFeedback st l seq now s).mss.dram = s.mss.dram := by simp [noteFeedback]

@[simp] theorem rtpArrives_dram (st : Nat) (p : RtpPkt) (s : State) : (rtpArrives st p s).mss.dram = s.mss.dram := by
  fun_cases rtpArrives <;>
    grind [bufAlloc_dram, ingressAuth_dram, legDrops_dram, bufRelease_dram, modLeg_dram, stamp_dram, mediaArrive_dram,
      noteFeedback_dram, modStream_dram]

@[simp] theorem rtpIngress_dram (st : Nat) (p : RtpPkt) (s : State) : (rtpIngress st p s).mss.dram = s.mss.dram := by simp [rtpIngress]

@[simp] theorem execRtpPacketIngress_dram (stream : Nat) (p : RtpPkt) (s : State) :
    StepDramIs s.mss.dram (execRtpPacketIngress stream p s) := by simp [execRtpPacketIngress]

@[simp] theorem recoverPacket_dram (st : Nat) (x : Stream) (s : State) (p : RtpPkt) : (recoverPacket st x s p).mss.dram = s.mss.dram := by
  fun_cases recoverPacket <;> grind [bufAlloc_dram, legDrops_dram, bufRelease_dram, mediaArrive_dram, modStream_dram]

@[simp] theorem execFlexfecRepairPacket_dram (stream : Nat) (recovered : List RtpPkt) (s : State) :
    StepDramIs s.mss.dram (execFlexfecRepairPacket stream recovered s) := by
  unfold execFlexfecRepairPacket
  split <;> simp

@[simp] theorem execFlexfecRecoveryTimeout_dram (stream seq : Nat) (s : State) :
    StepDramIs s.mss.dram (execFlexfecRecoveryTimeout stream seq s) := by
  unfold execFlexfecRecoveryTimeout
  generalize 20000000 = n0
  generalize 65536 = n1
  split <;> simp [-modStream_mss, -advanceTo_mss]

@[simp] theorem execNackSend_dram (stream seq : Nat) (s : State) : StepDramIs s.mss.dram (execNackSend stream seq s) := by
  unfold execNackSend
  generalize 5000000 = n0
  generalize 65536 = n1
  split <;> simp [-modStream_mss, -advanceTo_mss]

@[simp] theorem execFeedbackSend_dram (stream : Nat) (s : State) : StepDramIs s.mss.dram (execFeedbackSend stream s) := by
  unfold execFeedbackSend
  generalize 20000000 = n0
  generalize 65536 = n1
  split <;> simp [-modStream_mss, -advanceTo_mss]

@[simp] theorem rtcpOn_dram (leg n : Nat) (s : State) (f : Leg → State → State) (h : ∀ l, KeepsDram (f l)) :
    (rtcpOn leg n s f).mss.dram = s.mss.dram := by
  rw [rtcpOn]
  split
  · split
    · rfl
    · split
      · exact legDrops_dram ..
      · exact withBuf_dram _ _ _ _ _ fun b t => (bufRelease_dram ..).trans (h _ t)
  · rfl

@[simp] theorem takeBlock_dram (leg : Nat) (now : Nat) (s : State) (b : ReportBlock) : (takeBlock leg now s b).mss.dram = s.mss.dram := by
  unfold takeBlock
  split <;> rfl

@[simp] theorem noteSr_dram (leg : Nat) (r : RtcpReport) (now : Nat) (s : State) : (noteSr leg r now s).mss.dram = s.mss.dram := by
  unfold noteSr
  split <;> rfl

@[simp] theorem execRtcpSrRr_dram (leg : Nat) (r : RtcpReport) (s : State) :
    StepDramIs s.mss.dram (execRtcpSrRr leg r s) := by simp [execRtcpSrRr]

@[simp] theorem execRtcpSdes_dram (leg : Nat) (cname : List Byte) (s : State) :
    StepDramIs s.mss.dram (execRtcpSdes leg cname s) := by simp [execRtcpSdes]

@[simp] theorem execRtcpBye_dram (leg : Nat) (ssrc : Word) (s : State) :
    StepDramIs s.mss.dram (execRtcpBye leg ssrc s) := by simp [execRtcpBye]

@[simp] theorem retransmit_dram (i : Nat) (e : Entry) (l : Leg) (seq : Nat) (a : RtpPkt × Option Nat × Word) (s : State) :
    (retransmit i e l seq a s).mss.dram = s.mss.dram := by
  rw [retransmit]
  split
  · next t heq =>
    have ht := congrArg (fun r : Option (Nat × Nat) × State => r.2.mss.dram) heq
    exact (legDrops_dram ..).trans (ht.symm.trans (egressProtect_dram ..))
  · next k extra t heq =>
    have ht := congrArg (fun r : Option (Nat × Nat) × State => r.2.mss.dram) heq
    refine (withBuf_dram _ _ _ _ _ fun b t => (modLeg_dram ..).trans (queueUdp_dram ..)).trans ?_
    refine (nextTwcc_dram ..).trans (Eq.trans ?_ (ht.symm.trans (egressProtect_dram ..)))
    split
    · exact modEntry_dram ..
    · rfl

@[simp] theorem execGenericNack_dram (leg : Nat) (ssrc : Word) (seqs : List Nat) (s : State) :
    StepDramIs s.mss.dram (execGenericNack leg ssrc seqs s) := by
  rw [execGenericNack, stepDramIs_next]
  refine rtcpOn_dram _ _ _ _ fun l t => (foldl_dram _ (fun q u => ?_) ..).trans (inFlow_dram ..)
  dsimp only
  split
  · exact (modLeg_dram ..).trans (modLeg_dram ..)
  · split
    · split
      · exact (retransmit_dram ..).trans (modLeg_dram ..)
      · exact (modLeg_dram ..).trans (modLeg_dram ..)
    · exact (modLeg_dram ..).trans (modLeg_dram ..)

@[simp] theorem execPliFir_dram (leg : Nat) (ssrc : Word) (_fir : Bool) (s : State) :
    StepDramIs s.mss.dram (execPliFir leg ssrc _fir s) := by simp [execPliFir]

@[simp] theorem execCongestionFeedback_dram (leg : Nat) (reports : List FbReport) (s : State) :
    StepDramIs s.mss.dram (execCongestionFeedback leg reports s) := by simp [execCongestionFeedback]

@[simp] theorem execRtcpOtherType_dram (port : Nat) (s : State) :
    StepDramIs s.mss.dram (execRtcpOtherType port s) := by simp [execRtcpOtherType]

@[simp] theorem execSrSend_dram (leg : Nat) (ssrc : Word) (s : State) : StepDramIs s.mss.dram (execSrSend leg ssrc s) := by
  unfold execSrSend
  generalize 65536 = n0
  generalize 1000000001 = n1
  generalize 500000000 = n2
  generalize 1000000000 = n3
  (repeat' split) <;> simp [-modEntry_mss, -modStream_mss, -advanceTo_mss]

@[simp] theorem execReplayRecordSend_dram (n : Nat) (s : State) : StepDramIs s.mss.dram (execReplayRecordSend n s) := by
  unfold execReplayRecordSend
  generalize 65536 = n0
  generalize 1000000000 = n1
  dsimp only
  (repeat' split) <;> simp [-modStream_mss, -advanceTo_mss]

/-! ### The PON terminal -/

@[simp] theorem leaveO1_dram (s : State) : (leaveO1 s).mss.dram = s.mss.dram := by simp [leaveO1]

@[simp] theorem execPsyncCandidate_dram (path counter : Nat) (s : State) :
    StepDramIs s.mss.dram (execPsyncCandidate path counter s) := by simp [execPsyncCandidate]

@[simp] theorem syncGained_dram (path : Nat) (s : State) : (syncGained path s).mss.dram = s.mss.dram := by simp [syncGained]

@[simp] theorem lodsDeclared_dram (path : Nat) (s : State) : (lodsDeclared path s).mss.dram = s.mss.dram := by simp [lodsDeclared]

@[simp] theorem fecCounts_dram (f : PhyFrame) (s : State) : (fecCounts f s).mss.dram = s.mss.dram := by simp [fecCounts]

@[simp] theorem passTod_dram (tstamp : Nat) (cap : Nat) (s : State) : (passTod tstamp cap s).mss.dram = s.mss.dram := by simp [passTod]

@[simp] theorem frameDelivered_dram (path : Nat) (f : PhyFrame) (s : State) :
    (frameDelivered path f s).mss.dram = s.mss.dram := by simp [frameDelivered]

@[simp] theorem frameCaptured_dram (path : Nat) (f : PhyFrame) (s : State) :
    (frameCaptured path f s).mss.dram = s.mss.dram := by simp [frameCaptured]

@[simp] theorem adoptCounter_dram (path : Nat) (expected : Nat) (f : PhyFrame) (s : State) :
    (adoptCounter path expected f s).mss.dram = s.mss.dram := by simp [adoptCounter]

@[simp] theorem confirmAt_dram (path : Nat) (expected : Nat) (f : PhyFrame) (s : State) :
    (confirmAt path expected f s).mss.dram = s.mss.dram := by simp [confirmAt]

@[simp] theorem judgeAt_dram (path : Nat) (expected : Nat) (f : PhyFrame) (s : State) :
    (judgeAt path expected f s).mss.dram = s.mss.dram := by simp [judgeAt]

@[simp] theorem execExpectedFramePosition_dram (path : Nat) (f : PhyFrame) (s : State) :
    StepDramIs s.mss.dram (execExpectedFramePosition path f s) := by
  unfold execExpectedFramePosition
  dsimp only
  split <;> simp

@[simp] theorem execRateNoCandidateTimeout_dram (s : State) : StepDramIs s.mss.dram (execRateNoCandidateTimeout s) := by
  obtain ⟨t, h, ht⟩ := exists_eq_dram (advanceAon_dram (s.ptu.confNs + 1000000000) s)
  rw [execRateNoCandidateTimeout, h, stepDramIs_next, ite_dram, leaveO1_dram, ht, ite_self]

@[simp] theorem breakFrag_dram (f : Xgem) (s : State) : (breakFrag f s).mss.dram = s.mss.dram := (rfl)

@[simp] theorem execXgemFrame_dram (f : Xgem) (s : State) : StepDramIs s.mss.dram (execXgemFrame f s) := by
  obtain ⟨t, h, ht⟩ := exists_eq_dram ((ponCount_dram 26 f.bytes _).trans (ponCount_dram 25 1 s))
  rw [execXgemFrame, h]
  cases f.d with
  | none => simp only [apply_ite (StepDramIs s.mss.dram), stepDramIs_next, ite_dram, breakFrags_dram, breakFrag_dram, ponCount_dram,
      xgemDiscard_dram, ht, ite_self]
  | some d => simp only [apply_ite (StepDramIs s.mss.dram), stepDramIs_next, ite_dram, breakFrags_dram, breakFrag_dram, ponCount_dram,
      xgemDiscard_dram, classify_dram, ht, ite_self]

theorem takePloam_dram {always : Bool} {p : Ploam} {s t : State} (h : takePloam always p s = some t) : t.mss.dram = s.mss.dram := by
  revert h
  fun_cases takePloam <;> grind [ponCount_dram]

@[simp] theorem ploamWhen_dram (always : Bool) (p : Ploam) (s : State) (f : State → State) (h : KeepsDram f) :
    StepDramIs s.mss.dram (ploamWhen always p s f) := by
  unfold ploamWhen
  split
  · rfl
  · next t ht =>
    split
    · exact ponCount_dram ..
    · exact (h t).trans (takePloam_dram ht)

@[simp] theorem ploam_dram (p : Ploam) (s : State) (f : State → State) (h : KeepsDram f) : StepDramIs s.mss.dram (ploam p s f) :=
  ploamWhen_dram false p s f h

@[simp] theorem ackPloam_dram (code : Nat) (s : State) : (ackPloam code s).mss.dram = s.mss.dram := by simp [ackPloam]

@[simp] theorem execBurstProfile_dram (p : Ploam) (s : State) : StepDramIs s.mss.dram (execBurstProfile p s) := by simp [execBurstProfile]

@[simp] theorem execAssignOnuId_dram (p : Ploam) (s : State) : StepDramIs s.mss.dram (execAssignOnuId p s) := by
  unfold execAssignOnuId
  generalize 65536 = n0
  simp

@[simp] theorem execRangingTime_dram (p : Ploam) (s : State) : StepDramIs s.mss.dram (execRangingTime p s) := by simp [execRangingTime]

@[simp] theorem execDeactivateOnuId_dram (p : Ploam) (s : State) :
    StepDramIs s.mss.dram (execDeactivateOnuId p s) := by simp [execDeactivateOnuId]

@[simp] theorem execDisableSerialNumber_dram (p : Ploam) (s : State) :
    StepDramIs s.mss.dram (execDisableSerialNumber p s) := by simp [execDisableSerialNumber]

@[simp] theorem execRequestRegistration_dram (p : Ploam) (s : State) :
    StepDramIs s.mss.dram (execRequestRegistration p s) := by simp [execRequestRegistration]

@[simp] theorem execAssignAllocId_dram (p : Ploam) (s : State) : StepDramIs s.mss.dram (execAssignAllocId p s) := by
  unfold execAssignAllocId
  generalize 65536 = n0
  simp

@[simp] theorem drawKey_dram (s : State) : (drawKey s).2.mss.dram = s.mss.dram := (rfl)

@[simp] theorem execKeyControl_dram (p : Ploam) (s : State) : StepDramIs s.mss.dram (execKeyControl p s) := by simp [execKeyControl]

@[simp] theorem execSleepAllow_dram (p : Ploam) (s : State) : StepDramIs s.mss.dram (execSleepAllow p s) := by simp [execSleepAllow]

@[simp] theorem execChangePowerLevel_dram (p : Ploam) (s : State) :
    StepDramIs s.mss.dram (execChangePowerLevel p s) := by simp [execChangePowerLevel]

@[simp] theorem execPowerConsumptionInquire_dram (p : Ploam) (s : State) :
    StepDramIs s.mss.dram (execPowerConsumptionInquire p s) := by simp [execPowerConsumptionInquire]

@[simp] theorem execRefusedPloam_dram (p : Ploam) (s : State) : StepDramIs s.mss.dram (execRefusedPloam p s) := by simp [execRefusedPloam]

@[simp] theorem execTo1Expiry_dram (s : State) : StepDramIs s.mss.dram (execTo1Expiry s) := by
  unfold execTo1Expiry
  generalize 10000000000 = n0
  simp

@[simp] theorem execTo2Expiry_dram (s : State) : StepDramIs s.mss.dram (execTo2Expiry s) := by
  unfold execTo2Expiry
  generalize 100000000 = n0
  simp

@[simp] theorem noteBurst_dram (g : Grant) (s : State) : (noteBurst g s).mss.dram = s.mss.dram := by simp [noteBurst]

@[simp] theorem execBwmapGrant_dram (g : Grant) (s : State) : StepDramIs s.mss.dram (execBwmapGrant g s) := by
  unfold execBwmapGrant
  generalize 1112691540 = n0
  generalize 2000000000 = n1
  dsimp only
  (repeat' split) <;> simp

@[simp] theorem portBurst_dram (port : Nat) (g : PonGrant) (s : State) : (portBurst port g s).mss.dram = s.mss.dram := by simp [portBurst]

@[simp] theorem ploamOut_dram (s : State) : (ploamOut s).mss.dram = s.mss.dram := by
  unfold ploamOut
  split <;> simp

@[simp] theorem defBurst_dram (g : PonGrant) (s : State) : (defBurst g s).mss.dram = s.mss.dram := by
  unfold defBurst
  simp

@[simp] theorem execUpstreamBurst_dram (port : Nat) (s : State) : StepDramIs s.mss.dram (execUpstreamBurst port s) := by
  unfold execUpstreamBurst
  (repeat' split) <;> simp

@[simp] theorem execTransmitMonitorTrip_dram (s : State) :
    StepDramIs s.mss.dram (execTransmitMonitorTrip s) := by simp [execTransmitMonitorTrip]

@[simp] theorem sendOmci_dram (trans : Nat) (ws : List Word) (s : State) : (sendOmci trans ws s).mss.dram = s.mss.dram := by simp [sendOmci]

@[simp] theorem omciAnswer_dram (m : Omci) (result : Nat) (ws : List Word) (s : State) :
    (omciAnswer m result ws s).mss.dram = s.mss.dram := by simp [omciAnswer]

@[simp] theorem omciEffect_dram (m : Omci) (s : State) : (omciEffect m s).mss.dram = s.mss.dram := by
  unfold omciEffect
  split <;> simp

@[simp] theorem omciUndo_dram (cls : Nat) (inst : Nat) (s : State) : (omciUndo cls inst s).mss.dram = s.mss.dram := by
  unfold omciUndo
  split <;> rfl

@[simp] theorem bumpMib_dram (s : State) : (bumpMib s).mss.dram = s.mss.dram := (rfl)

@[simp] theorem omciWrite_dram (m : Omci) (s : State) : (omciWrite m s).mss.dram = s.mss.dram := by simp [omciWrite]

@[simp] theorem omciChallenge_dram (m : Omci) (s : State) : (omciChallenge m s).mss.dram = s.mss.dram := by
  unfold omciChallenge
  split <;> simp

@[simp] theorem omciPerform_dram (m : Omci) (s : State) : (omciPerform m s).mss.dram = s.mss.dram := by
  fun_cases omciPerform <;> simp

@[simp] theorem execOmciMessage_dram (m : Omci) (s : State) : StepDramIs s.mss.dram (execOmciMessage m s) := by
  unfold execOmciMessage
  (repeat' split) <;> simp

@[simp] theorem execOmciRelayTimeout_dram (trans : Nat) (s : State) : StepDramIs s.mss.dram (execOmciRelayTimeout trans s) := by
  rw [execOmciRelayTimeout]
  cases s.ptu.relays.find? fun r => r.trans = trans with
  | none => rfl
  | some r =>
    obtain ⟨t, h, ht⟩ := exists_eq_dram (advanceAon_dram (r.startNs + 2000000000) s)
    dsimp only
    rw [h]
    exact (sendOmci_dram ..).trans ht

@[simp] theorem execTimeOfDayPair_dram (n sec ns : Nat) (s : State) : StepDramIs s.mss.dram (execTimeOfDayPair n sec ns s) := by
  unfold execTimeOfDayPair
  generalize 1000000000 = n0
  generalize 65536 = n1
  generalize 80000 = n2
  dsimp only
  (repeat' split) <;> simp

@[simp] theorem sleepTimer_dram (frames : Nat) (s : State) : (sleepTimer frames s).mss.dram = s.mss.dram := by simp [sleepTimer]

@[simp] theorem execIHoldExpiry_dram (s : State) : StepDramIs s.mss.dram (execIHoldExpiry s) := by simp [execIHoldExpiry]

@[simp] theorem execWatchPeekTick_dram (w : Nat) (s : State) : StepDramIs s.mss.dram (execWatchPeekTick w s) := by
  obtain ⟨t, h, ht⟩ := exists_eq_dram (advanceAon_dram (s.ptu.peekNs + 1000000) s)
  rw [execWatchPeekTick, h]
  split
  · rfl
  · simp only [apply_ite (StepDramIs s.mss.dram), stepDramIs_next, setSleep_dram, wakeSource_dram, ponWake_dram, ite_dram, ht, ite_self]

@[simp] theorem execILowpowerExpiry_dram (s : State) : StepDramIs s.mss.dram (execILowpowerExpiry s) := by simp [execILowpowerExpiry]

@[simp] theorem execIAwareExpiry_dram (s : State) : StepDramIs s.mss.dram (execIAwareExpiry s) := by simp [execIAwareExpiry]

@[simp] theorem execProtectionTimerExpiry_dram (s : State) : StepDramIs s.mss.dram (execProtectionTimerExpiry s) := by
  obtain ⟨t, h, ht⟩ := exists_eq_dram (advanceAon_dram (s.ptu.protNs + 4000000) s)
  rw [execProtectionTimerExpiry, h]
  split
  · simp only [stepDramIs_next, ite_dram, twinTrigger_dram, evtPon_dram, ht, ite_self]
  · rfl

@[simp] theorem close15_dram (part : Bool) (suspC : Bool) (suspO : Bool) (closed : Int) (opened : Int) (s : State) :
    (close15 part suspC suspO closed opened s).mss.dram = s.mss.dram := by simp [close15]

@[simp] theorem closeDay_dram (part : Bool) (suspC : Bool) (suspO : Bool) (closed : Int) (opened : Int) (s : State) :
    (closeDay part suspC suspO closed opened s).mss.dram = s.mss.dram := (rfl)

@[simp] theorem execPmBinBoundary_dram (day : Bool) (s : State) :
    StepDramIs s.mss.dram (execPmBinBoundary day s) := by simp [execPmBinBoundary]

@[simp] theorem pmTimeChange_dram (first : Bool) (forward : Bool) (old : Int) (s : State) :
    (pmTimeChange first forward old s).mss.dram = s.mss.dram := by simp [pmTimeChange]

@[simp] theorem execPonStatus_dram (c : Cmd) (s : State) : StepDramIs s.mss.dram (execPonStatus c s) := by
  unfold execPonStatus
  generalize 65536 = n0
  simp

@[simp] theorem takeProfile_dram (ws : List Word) (s : State) : (takeProfile ws s).mss.dram = s.mss.dram := by simp [takeProfile]

@[simp] theorem setProfile_dram (ws : List Word) (s : State) : (setProfile ws s).mss.dram = s.mss.dram := by simp [setProfile]

@[simp] theorem restartPon_dram (s : State) : (restartPon s).mss.dram = s.mss.dram := by simp [restartPon]

@[simp] theorem ponSetProfile_dramIs (c : Cmd) (s : State) {m : List Host.Cell} (h : s.mss.dram = m) : (ponSetProfile c s).DramIs m := by
  subst h
  unfold ponSetProfile
  dsimp only
  (repeat' split) <;> simp

@[simp] theorem execPonSetProfile_dram (c : Cmd) (s : State) : StepDramIs s.mss.dram (execPonSetProfile c s) := by simp [execPonSetProfile]

@[simp] theorem ponOmciRelay_dramIs (c : Cmd) (s : State) {m : List Host.Cell} (h : s.mss.dram = m) : (ponOmciRelay c s).DramIs m := by
  subst h
  unfold ponOmciRelay
  (repeat' split) <;> simp

@[simp] theorem execPonOmciRelay_dram (c : Cmd) (s : State) : StepDramIs s.mss.dram (execPonOmciRelay c s) := by simp [execPonOmciRelay]

@[simp] theorem ponPmRead_dramIs (c : Cmd) (s : State) {m : List Host.Cell} (h : s.mss.dram = m) : (ponPmRead c s).DramIs m := by
  subst h
  unfold ponPmRead
  dsimp only
  (repeat' split) <;> simp

@[simp] theorem execPonPmRead_dram (c : Cmd) (s : State) : StepDramIs s.mss.dram (execPonPmRead c s) := by simp [execPonPmRead]

@[simp] theorem ponProtectCtrl_dramIs (c : Cmd) (s : State) {m : List Host.Cell} (h : s.mss.dram = m) : (ponProtectCtrl c s).DramIs m := by
  subst h
  unfold ponProtectCtrl
  (repeat' split) <;> simp

@[simp] theorem execPonProtectCtrl_dram (c : Cmd) (s : State) :
    StepDramIs s.mss.dram (execPonProtectCtrl c s) := by simp [execPonProtectCtrl]

@[simp] theorem execPonClockReturn_dram (s : State) : StepDramIs s.mss.dram (execPonClockReturn s) := by simp [execPonClockReturn]

end Sys2Proof.Machine

/-!
PROOFS. What leaves the bytes of memory as they are: the service Ethernet, configuration, the customer cores, the fabric's reads, and Headstock.
-/

namespace Sys2Proof.Machine

/-! ### Command packets as bytes -/

@[simp] theorem refuseRaw_dram (op : Nat) (c : Cmd) (st : Status) (s : State) :
    (refuseRaw op c st s).mss.dram = s.mss.dram := by simp [refuseRaw]

@[simp] theorem refuseOpcode_dram (op : Nat) (c : Cmd) (s : State) : (refuseOpcode op c s).mss.dram = s.mss.dram := by
  unfold refuseOpcode
  split <;> simp

@[simp] theorem discardPacket_dram (qi : Nat) (s : State) : (discardPacket qi s).mss.dram = s.mss.dram := (rfl)

@[simp] theorem packetArrives_dram (backup : Bool) (queue : Nat) (src : Option (Addr × Nat)) (bs : List Byte) (s : State) :
    (packetArrives backup queue src bs s).mss.dram = s.mss.dram := by simp [packetArrives]

/-! ### The service Ethernet MAC and the backup path -/

@[simp] theorem serviceFrame_dram (f : EthFrame) (s : State) : (serviceFrame f s).mss.dram = s.mss.dram := by simp [serviceFrame]

@[simp] theorem execServiceEthernetFrame_dram (f : EthFrame) (s : State) :
    StepDramIs s.mss.dram (execServiceEthernetFrame f s) := by simp [execServiceEthernetFrame]

@[simp] theorem restamp_dram (wait : Nat) (s : State) : (restamp wait s).mss.dram = s.mss.dram := by
  unfold restamp
  split <;> rfl

@[simp] theorem collision_dram (late : Bool) (s : State) : (collision late s).mss.dram = s.mss.dram := by simp [collision]

@[simp] theorem execCollision_dram (late : Bool) (s : State) : StepDramIs s.mss.dram (execCollision late s) := by simp [execCollision]

@[simp] theorem execSpeedPolicyTimer_dram (port : Nat) (s : State) : StepDramIs s.mss.dram (execSpeedPolicyTimer port s) := by
  obtain ⟨t, h, ht⟩ := exists_eq_dram (advanceAon_dram (s.cti.svc.fastNs + 10000000000) s)
  rw [execSpeedPolicyTimer, h]
  split
  · rfl
  · rw [stepDramIs_next, ite_dram]
    exact (ite_self ..).trans ht

@[simp] theorem execServiceEthernetLinkChange_dram (up fast : Bool) (s : State) :
    StepDramIs s.mss.dram (execServiceEthernetLinkChange up fast s) := by
  unfold execServiceEthernetLinkChange
  (repeat' split) <;> simp

@[simp] theorem backupAck_dram (queue : Nat) (code : Nat) (tag : Word) (seq : Word) (s : State) :
    (backupAck queue code tag seq s).mss.dram = s.mss.dram := (rfl)

@[simp] theorem execBackupAcknowledgement_dram (queue code : Nat) (tag seq : Word) (s : State) :
    StepDramIs s.mss.dram (execBackupAcknowledgement queue code tag seq s) := by simp [execBackupAcknowledgement]

@[simp] theorem execNotACommandDiscard_dram (queue : Nat) (s : State) :
    StepDramIs s.mss.dram (execNotACommandDiscard queue s) := by simp [execNotACommandDiscard]

@[simp] theorem backupDatagram_dram (source : Addr) (port : Nat) (bytes : List Byte) (s : State) :
    (backupDatagram source port bytes s).mss.dram = s.mss.dram := by
  unfold backupDatagram
  split <;> simp

@[simp] theorem execBackupDatagram_dram (source : Addr) (port : Nat) (bytes : List Byte) (s : State) :
    StepDramIs s.mss.dram (execBackupDatagram source port bytes s) := by simp [execBackupDatagram]

theorem resendOrLose_dram (e : BackupEvent) (es : List BackupEvent) (s : State) : (resendOrLose e es s).mss.dram = s.mss.dram := by
  rw [resendOrLose]
  split
  · rfl
  · exact sendBackup_dram ..

@[simp] theorem execBackupEventResend_dram (s : State) : StepDramIs s.mss.dram (execBackupEventResend s) := by
  rcases h : s.cpx.backupUnacked with _ | ⟨e, es⟩
  · rw [execBackupEventResend, h, stepDramIs_next]
  · rw [execBackupEventResend_of_unacked h, stepDramIs_next, resendOrLose_dram, advanceAon_dram]

@[simp] theorem svcAddresses_dram (ws : List Word) (s : State) : (svcAddresses ws s).mss.dram = s.mss.dram := (rfl)

@[simp] theorem svcLink_dram (w : Word) (s : State) : (svcLink w s).mss.dram = s.mss.dram := by simp [svcLink]

@[simp] theorem svcethSet_dramIs (c : Cmd) (s : State) {m : List Host.Cell} (h : s.mss.dram = m) : (svcethSet c s).DramIs m := by
  subst h
  unfold svcethSet
  (repeat' split) <;> simp

@[simp] theorem execSvcethSet_dram (c : Cmd) (s : State) : StepDramIs s.mss.dram (execSvcethSet c s) := by simp [execSvcethSet]

/-! ### Configuration items -/

@[simp] theorem twinForm_dram (serial : Word) (prefer : Nat) (s : State) : (twinForm serial prefer s).mss.dram = s.mss.dram := (rfl)

@[simp] theorem pacePort_dram (p : Nat) (s : State) : (pacePort p s).mss.dram = s.mss.dram := by
  unfold pacePort
  split <;> simp

@[simp] theorem unpacePort_dram (p : Nat) (s : State) : (unpacePort p s).mss.dram = s.mss.dram := by
  unfold unpacePort
  dsimp only
  split <;> simp

@[simp] theorem applyPaced_dram (mask : Nat) (s : State) : (applyPaced mask s).mss.dram = s.mss.dram := by simp [applyPaced]

@[simp] theorem applyTime_dram (ws : List Word) (s : State) : (applyTime ws s).mss.dram = s.mss.dram := by simp [applyTime]

@[simp] theorem applyAtCommit_dram (id : Nat) (ws : List Word) (s : State) :
    (applyAtCommit id ws s).mss.dram = s.mss.dram := by simp [applyAtCommit]

@[simp] theorem applyAtBoot_dram (s : State) : (applyAtBoot s).mss.dram = s.mss.dram := by
  unfold applyAtBoot
  dsimp only
  split <;> simp

@[simp] theorem applyPorts_dram (s : State) : (applyPorts s).mss.dram = s.mss.dram := by
  unfold applyPorts
  extract_lets ports a b form role
  have ha : a.mss.dram = s.mss.dram := takeRole_dram ..
  have hb : b.mss.dram = a.mss.dram := foldl_dram _ (fun _ _ => coursePort_dram ..) ..
  clear_value b a
  split
  · rw [hb, ha]
  · rw [twinForm_dram, hb, ha]

/-! ### The instructions of a customer core -/

@[simp] theorem accessCycles_dram (m : Nat) (s : State) : (accessCycles m s).2.mss.dram = s.mss.dram := by simp [accessCycles]

/-- An operation of a core whose outcome leaves the bytes of memory as they are. -/
def CoreOpKeeps (act : CoreOp) : Prop := ∀ w x s o, act w x s = .ok o → o.st.mss.dram = s.mss.dram

/-- An operation that answers its outcome at once keeps memory when the outcome does. -/
theorem coreOpKeeps_ok {out : BitVec 64 → Core → State → OpOut} (h : ∀ w x s, (out w x s).st.mss.dram = s.mss.dram) :
    CoreOpKeeps fun w x s => .ok (out w x s) := by
  rintro w x s o ⟨⟩
  exact h w x s

theorem moveSlot_dram {slot : Nat} {ybus : Bool} {x : Core} {o o' : OpOut} (h : moveSlot slot ybus x o = .ok o') :
    o'.st.mss.dram = o.st.mss.dram := by
  revert h
  fun_cases moveSlot <;> grind [accessCycles_dram, draw_dram]

@[simp] theorem writeRegs_dram (all ws : List (Nat × Word)) (x : Core) (s : State) :
    (writeRegs all ws x s).2.mss.dram = s.mss.dram := by
  fun_induction writeRegs <;> grind [draw_dram]

@[simp] theorem coreFault_dram (c : Nat) (why : CoreStop) (s : State) : (coreFault c why s).mss.dram = s.mss.dram := by
  unfold coreFault
  dsimp only
  (repeat' split) <;> simp

theorem afterMoves_dram {moves : Bool} {w : BitVec 64} {x : Core} {o o' : OpOut} (h : afterMoves moves w x o = .ok o') :
    o'.st.mss.dram = o.st.mss.dram := by
  unfold afterMoves at h
  split at h
  · split at h
    · cases h
    · next o₁ h₁ => exact (moveSlot_dram h).trans (moveSlot_dram h₁)
  · cases h
    rfl

@[simp] theorem retire_dram (c : Nat) (x : Core) (o : OpOut) : (retire c x o).mss.dram = o.st.mss.dram :=
  (modCore_dram ..).trans (writeRegs_dram ..)

@[simp] theorem runOp_dram (c op : Nat) (moves : Bool) (act : CoreOp) (s : State) (h : CoreOpKeeps act) :
    StepDramIs s.mss.dram (runOp c op moves act s) := by
  unfold runOp
  split
  · rfl
  · dsimp only
    split
    · rfl
    · split
      · exact coreFault_dram ..
      · next o ho =>
        split
        · exact coreFault_dram ..
        · next o' ho' => exact (retire_dram ..).trans ((afterMoves_dram ho').trans (h _ _ _ _ ho))

@[simp] theorem aluOp_keeps (f : Word → Word → BitVec 64 → Word) : CoreOpKeeps (aluOp f) := coreOpKeeps_ok fun _ _ _ => rfl

@[simp] theorem accOp_keeps (f : BitVec 72 → Int → BitVec 64 → BitVec 72 × Bool) : CoreOpKeeps (accOp f) :=
  coreOpKeeps_ok fun _ _ _ => rfl

@[simp] theorem satOp_keeps (f : Int → Int → Int) : CoreOpKeeps (satOp f) := coreOpKeeps_ok fun _ _ _ => rfl

@[simp] theorem nopOp_keeps : CoreOpKeeps fun _ x s => .ok { core := x, st := s } := coreOpKeeps_ok fun _ _ _ => rfl

@[simp] theorem doneOp_keeps : CoreOpKeeps fun _ x s => .ok { core := { x with waiting := true, doneNs := nowNs s }, st := s } :=
  coreOpKeeps_ok fun _ _ _ => rfl

@[simp] theorem execMalletNop_dram (core : Nat) (s : State) : StepDramIs s.mss.dram (execMalletNop core s) := by simp [execMalletNop]

@[simp] theorem execMac_dram (core : Nat) (s : State) : StepDramIs s.mss.dram (execMac core s) := by simp [execMac]

@[simp] theorem execMsu_dram (core : Nat) (s : State) : StepDramIs s.mss.dram (execMsu core s) := by simp [execMsu]

@[simp] theorem execMpy_dram (core : Nat) (s : State) : StepDramIs s.mss.dram (execMpy core s) := by simp [execMpy]

@[simp] theorem execClr_dram (core : Nat) (s : State) : StepDramIs s.mss.dram (execClr core s) := by simp [execClr]

@[simp] theorem execAsra_dram (core : Nat) (s : State) : StepDramIs s.mss.dram (execAsra core s) := by simp [execAsra]

@[simp] theorem staOp_keeps : CoreOpKeeps staOp := by
  intro w x s o h
  rw [staOp] at h
  split at h
  · cases h
  · cases h
    exact accessCycles_dram ..

@[simp] theorem execSta_dram (core : Nat) (s : State) : StepDramIs s.mss.dram (execSta core s) := by simp [execSta]

@[simp] theorem execAdd_dram (core : Nat) (s : State) : StepDramIs s.mss.dram (execAdd core s) := by simp [execAdd]

@[simp] theorem execSub_dram (core : Nat) (s : State) : StepDramIs s.mss.dram (execSub core s) := by simp [execSub]

@[simp] theorem execAdds_dram (core : Nat) (s : State) : StepDramIs s.mss.dram (execAdds core s) := by simp [execAdds]

@[simp] theorem execSubs_dram (core : Nat) (s : State) : StepDramIs s.mss.dram (execSubs core s) := by simp [execSubs]

@[simp] theorem execAnd_dram (core : Nat) (s : State) : StepDramIs s.mss.dram (execAnd core s) := by simp [execAnd]

@[simp] theorem execOr_dram (core : Nat) (s : State) : StepDramIs s.mss.dram (execOr core s) := by simp [execOr]

@[simp] theorem execXor_dram (core : Nat) (s : State) : StepDramIs s.mss.dram (execXor core s) := by simp [execXor]

@[simp] theorem execShl_dram (core : Nat) (s : State) : StepDramIs s.mss.dram (execShl core s) := by simp [execShl]

@[simp] theorem execShr_dram (core : Nat) (s : State) : StepDramIs s.mss.dram (execShr core s) := by simp [execShr]

@[simp] theorem execAsr_dram (core : Nat) (s : State) : StepDramIs s.mss.dram (execAsr core s) := by simp [execAsr]

@[simp] theorem execMin_dram (core : Nat) (s : State) : StepDramIs s.mss.dram (execMin core s) := by simp [execMin]

@[simp] theorem execMax_dram (core : Nat) (s : State) : StepDramIs s.mss.dram (execMax core s) := by simp [execMax]

@[simp] theorem absOp_keeps : CoreOpKeeps absOp := by
  refine coreOpKeeps_ok fun w x s => ?_
  by_cases hmost : xreg x (aOf w) = 0x80000000 <;> simp [absOut, hmost]

@[simp] theorem execAbs_dram (core : Nat) (s : State) : StepDramIs s.mss.dram (execAbs core s) := by simp [execAbs]

theorem classOut_st (cls i : Nat) (v : BitVec 72) (x : Core) (cycles : Nat) (s : State) : (classOut cls i v x cycles s).st = s := by
  rw [classOut]
  split <;> rfl

@[simp] theorem moviOp_keeps : CoreOpKeeps moviOp := by
  intro w x s o h
  rw [moviOp] at h
  split at h
  · cases h
  · cases h
    rw [moviOut]
    split <;> exact congrArg (fun t : State => t.mss.dram) (classOut_st ..)

@[simp] theorem execMovi_dram (core : Nat) (s : State) : StepDramIs s.mss.dram (execMovi core s) := by simp [execMovi]

@[simp] theorem movOp_keeps : CoreOpKeeps movOp := by
  refine coreOpKeeps_ok fun w x s => ?_
  unfold movOut
  simp only [classOut_st]
  split <;> simp

@[simp] theorem execMov_dram (core : Nat) (s : State) : StepDramIs s.mss.dram (execMov core s) := by simp [execMov]

@[simp] theorem loopOp_keeps : CoreOpKeeps loopOp := by
  intro w x s o h
  rw [loopOp] at h
  split at h
  · cases h
  · cases h
    rw [loopOut]
    split <;> rfl

@[simp] theorem execLoop_dram (core : Nat) (s : State) : StepDramIs s.mss.dram (execLoop core s) := by simp [execLoop]

@[simp] theorem brOp_keeps : CoreOpKeeps brOp := by
  refine coreOpKeeps_ok fun w x s => ?_
  fun_cases brOut <;> grind [draw_dram]

@[simp] theorem execBr_dram (core : Nat) (s : State) : StepDramIs s.mss.dram (execBr core s) := by simp [execBr]

@[simp] theorem drawStack_dram (n : Nat) (s : State) : (drawStack n s).2.mss.dram = s.mss.dram := by
  fun_induction drawStack <;> grind [drawBelow_dram]

@[simp] theorem callOp_keeps : CoreOpKeeps callOp := by
  refine coreOpKeeps_ok fun w x s => ?_
  by_cases hroom : x.stack.length < 8 <;> simp [callOut, hroom]

@[simp] theorem execCall_dram (core : Nat) (s : State) : StepDramIs s.mss.dram (execCall core s) := by simp [execCall]

@[simp] theorem retOp_keeps : CoreOpKeeps retOp := by
  refine coreOpKeeps_ok fun w x s => ?_
  rw [retOut]
  split <;> simp

@[simp] theorem execRet_dram (core : Nat) (s : State) : StepDramIs s.mss.dram (execRet core s) := by simp [execRet]

@[simp] theorem execDone_dram (core : Nat) (s : State) : StepDramIs s.mss.dram (execDone core s) := by simp [execDone]

@[simp] theorem execHalt_dram (core : Nat) (s : State) : StepDramIs s.mss.dram (execHalt core s) := by
  unfold execHalt
  (repeat' split) <;> simp

@[simp] theorem execIllegalInstruction_dram (core : Nat) (s : State) : StepDramIs s.mss.dram (execIllegalInstruction core s) := by
  unfold execIllegalInstruction
  (repeat' split) <;> simp

@[simp] theorem programChunk_dramIs (i : Nat) (x : Core) (c : Cmd) (s : State) {m : List Host.Cell} (h : s.mss.dram = m) :
    (programChunk i x c s).DramIs m := by
  subst h
  unfold programChunk
  dsimp only
  (repeat' split) <;> simp

@[simp] theorem attachAt_dram (i : Nat) (c : Cmd) (s : State) : (attachAt i c s).mss.dram = s.mss.dram := (rfl)

@[simp] theorem programAttach_dramIs (i : Nat) (x : Core) (c : Cmd) (s : State) {m : List Host.Cell} (h : s.mss.dram = m) :
    (programAttach i x c s).DramIs m := by
  subst h
  simp [programAttach]

@[simp] theorem programLoad_dramIs (c : Cmd) (s : State) {m : List Host.Cell} (h : s.mss.dram = m) : (programLoad c s).DramIs m := by
  subst h
  unfold programLoad
  dsimp only
  (repeat' split) <;> simp

@[simp] theorem execAudProgramLoad_dram (c : Cmd) (s : State) :
    StepDramIs s.mss.dram (execAudProgramLoad c s) := by simp [execAudProgramLoad]

/-! ### The fabric and the DRAM controllers -/

@[simp] theorem poisonRead_dram (line : Nat) (s : State) : (poisonRead line s).mss.dram = s.mss.dram := by simp [poisonRead]

@[simp] theorem readLine_dram (bad : List (List Nat)) (line : Nat) (s : State) :
    (readLine bad line s).2.mss.dram = s.mss.dram := by simp [readLine]

@[simp] theorem readLines_dram (bad : List (List Nat)) (ls : List Nat) (s : State) : (readLines bad ls s).2.mss.dram = s.mss.dram := by
  fun_induction readLines <;> grind [readLine_dram]

@[simp] theorem denyRequest_dram (r : FabReq) (n : Nat) (s : State) : (denyRequest r n s).mss.dram = s.mss.dram := by simp [denyRequest]

@[simp] theorem memRead_dram (r : FabReq) (s : State) : (memRead r s).2.2.mss.dram = s.mss.dram := by simp [memRead]

@[simp] theorem coreLoadPoisoned_dram (addr : Nat) (s : State) : (coreLoadPoisoned addr s).mss.dram = s.mss.dram := by
  unfold coreLoadPoisoned
  dsimp only
  split <;> simp

@[simp] theorem portWrite_dram (r : FabReq) (x0 : Nat) (x1 : List Byte) (s : State) : (portWrite r x0 x1 s).mss.dram = s.mss.dram := by
  fun_induction portWrite <;> simp_all

@[simp] theorem portRead_dram (master target a n : Nat) (s : State) : (portRead master target a n s).2.mss.dram = s.mss.dram := by
  fun_induction portRead <;> grind [drawBelow_dram]

@[simp] theorem readTarget_dram (r : FabReq) (s : State) : (readTarget r s).2.2.mss.dram = s.mss.dram := by
  unfold readTarget
  split <;> simp

@[simp] theorem complete_dram (r : FabReq) (bs : List Nat) (bad : List Nat) (s : State) :
    (complete r bs bad s).mss.dram = s.mss.dram := (rfl)

@[simp] theorem issue_dram (r : FabReq) (s : State) : (issue r s).2.mss.dram = s.mss.dram := (rfl)

/-! ### Headstock -/

@[simp] theorem rollLoads_dram (s : State) : (rollLoads s).mss.dram = s.mss.dram := by simp [rollLoads]

@[simp] theorem modLoad_dram (core : Nat) (f : CoreLoad → CoreLoad) (s : State) : (modLoad core f s).mss.dram = s.mss.dram := (rfl)

@[simp] theorem modThread_dram (n : Nat) (f : Thread → Thread) (s : State) : (modThread n f s).mss.dram = s.mss.dram := (rfl)

@[simp] theorem makeReady_dram (n : Nat) (s : State) : (makeReady n s).mss.dram = s.mss.dram := by
  unfold makeReady
  split <;> rfl

@[simp] theorem waitFlow_dram (n : Nat) (flow : Nat) (s : State) : (waitFlow n flow s).mss.dram = s.mss.dram := by simp [waitFlow]

@[simp] theorem enterThread_dram (n : Nat) (s : State) : (enterThread n s).mss.dram = s.mss.dram := by
  unfold enterThread
  split <;> simp

@[simp] theorem releaseFlow_dram (flow : Option Nat) (s : State) : (releaseFlow flow s).mss.dram = s.mss.dram := by
  fun_cases releaseFlow <;> simp

@[simp] theorem threadPost_dram (n : Nat) (d : Desc) (s : State) : (threadPost n d s).mss.dram = s.mss.dram := by simp [threadPost]

@[simp] theorem execThreadPost_dram (n : Nat) (d : Desc) (s : State) :
    StepDramIs s.mss.dram (execThreadPost n d s) := by simp [execThreadPost]

@[simp] theorem dispatch_dram (core : Nat) (s : State) : (dispatch core s).mss.dram = s.mss.dram := by
  unfold dispatch
  (repeat' split) <;> simp

@[simp] theorem execCoreFreeDispatch_dram (core : Nat) (s : State) :
    StepDramIs s.mss.dram (execCoreFreeDispatch core s) := by simp [execCoreFreeDispatch]

@[simp] theorem endRun_dram (core : Nat) (how : Nat) (s : State) : (endRun core how s).mss.dram = s.mss.dram := by
  unfold endRun
  (repeat' split) <;> simp

@[simp] theorem execThreadComplete_dram (core : Nat) (s : State) :
    StepDramIs s.mss.dram (execThreadComplete core s) := by simp [execThreadComplete]

@[simp] theorem execThreadYield_dram (core : Nat) (s : State) : StepDramIs s.mss.dram (execThreadYield core s) := by simp [execThreadYield]

@[simp] theorem execThreadBlock_dram (core : Nat) (s : State) : StepDramIs s.mss.dram (execThreadBlock core s) := by simp [execThreadBlock]

@[simp] theorem abortCluster_dram (k : Nat) (s : State) : (abortCluster k s).mss.dram = s.mss.dram := by simp [abortCluster]

@[simp] theorem abortFenced_dram (sub : Nat) (inst : Nat) (s : State) :
    (abortFenced sub inst s).mss.dram = s.mss.dram := by simp [abortFenced]

@[simp] theorem runOverrun_dram (core : Nat) (s : State) : (runOverrun core s).mss.dram = s.mss.dram := by
  rw [runOverrun]
  cases tget s.tds.running core with
  | none => rfl
  | some n =>
    dsimp only
    cases tget s.tds.threads n with
    | none => rfl
    | some t => simp only [ite_dram, fault_dram, traceRec_dram, modThread_dram, advanceTo_dram, ite_self]

@[simp] theorem execRunBudgetOverrun_dram (core : Nat) (s : State) :
    StepDramIs s.mss.dram (execRunBudgetOverrun core s) := by simp [execRunBudgetOverrun]

end Sys2Proof.Machine

/-!
PROOFS. What leaves the bytes of memory as they are: parts of the resets, the save, the host link, and power.
-/

namespace Sys2Proof.Machine

/-! ### Resets -/

@[simp] theorem clearGouge_dram (core : Nat) (s : State) : (clearGouge core s).mss.dram = s.mss.dram := by simp [clearGouge]

@[simp] theorem loseJob_dram (core : Nat) (s : State) : (loseJob core s).mss.dram = s.mss.dram := by
  unfold loseJob
  dsimp only
  (repeat' split) <;> simp

@[simp] theorem resetCluster_dram (k : Nat) (s : State) : (resetCluster k s).mss.dram = s.mss.dram := by simp [resetCluster]

@[simp] theorem resetGougeHalf_dram (h : Nat) (s : State) : (resetGougeHalf h s).mss.dram = s.mss.dram := by simp [resetGougeHalf]

@[simp] theorem resetAshlarHalf_dram (h : Nat) (s : State) : (resetAshlarHalf h s).mss.dram = s.mss.dram := (rfl)

@[simp] theorem resetCtiPort_dram (p : Nat) (s : State) : (resetCtiPort p s).mss.dram = s.mss.dram := (rfl)

@[simp] theorem resetSvc_dram (s : State) : (resetSvc s).mss.dram = s.mss.dram := (rfl)

@[simp] theorem resetPads_dram (s : State) : (resetPads s).mss.dram = s.mss.dram := by simp [resetPads]

@[simp] theorem resetInst_dram (sub : Nat) (inst : Nat) (s : State) : (resetInst sub inst s).mss.dram = s.mss.dram := by
  unfold resetInst
  split <;> simp

@[simp] theorem resetInsts_dram (sub : Nat) (n : Nat) (s : State) : (resetInsts sub n s).mss.dram = s.mss.dram := by simp [resetInsts]

@[simp] theorem resetPtu_dram (s : State) : (resetPtu s).mss.dram = s.mss.dram := by simp [resetPtu]

@[simp] theorem resetTsu_dram (s : State) : (resetTsu s).mss.dram = s.mss.dram := by simp [resetTsu]

@[simp] theorem resetMss_dram (s : State) : (resetMss s).mss.dram = s.mss.dram :=
  (foldl_dram _ (fun _ _ => blockRelease_dram ..) ..).trans (foldl_dram _ (fun _ _ => emit_dram ..) ..)

@[simp] theorem resetBpm_dram (s : State) : (resetBpm s).mss.dram = s.mss.dram := (rfl)

@[simp] theorem resetFwe_dram (s : State) : (resetFwe s).mss.dram = s.mss.dram := by simp [resetFwe]

@[simp] theorem resetTsh_dram (s : State) : (resetTsh s).mss.dram = s.mss.dram := by simp [resetTsh]

@[simp] theorem resetCpe_dram (s : State) : (resetCpe s).mss.dram = s.mss.dram := (rfl)

@[simp] theorem resetTds_dram (s : State) : (resetTds s).mss.dram = s.mss.dram := (rfl)

@[simp] theorem resetAue_dram (s : State) : (resetAue s).mss.dram = s.mss.dram := by simp [resetAue]

@[simp] theorem resetVca_dram (s : State) : (resetVca s).mss.dram = s.mss.dram := by simp [resetVca]

@[simp] theorem resetLco_dram (s : State) : (resetLco s).mss.dram = s.mss.dram := (rfl)

@[simp] theorem resetLgv_dram (s : State) : (resetLgv s).mss.dram = s.mss.dram := (rfl)

@[simp] theorem resetSub_dram (sub : Nat) (s : State) : (resetSub sub s).mss.dram = s.mss.dram := by
  unfold resetSub
  split <;> simp

/-! ### The save on sag -/

@[simp] theorem modSave_dram (f : SaveSlot → SaveSlot) (s : State) : (modSave f s).mss.dram = s.mss.dram := (rfl)

@[simp] theorem cutCompute_dram (s : State) : (cutCompute s).mss.dram = s.mss.dram := by simp [cutCompute]

@[simp] theorem abortFlashOps_dram (s : State) : (abortFlashOps s).mss.dram = s.mss.dram := by simp [abortFlashOps]

@[simp] theorem abortTakeover_dram (armed : Bool) (s : State) : (abortTakeover armed s).mss.dram = s.mss.dram := by simp [abortTakeover]

@[simp] theorem saveStart_dram (trigger : Nat) (s : State) : (saveStart trigger s).mss.dram = s.mss.dram := by simp [saveStart]

/-! ### The Yelheli Link -/

@[simp] theorem execPoll_dram (s : State) : StepDramIs s.mss.dram (execPoll s) := by simp [execPoll]

@[simp] theorem execWakePattern_dram (s : State) : StepDramIs s.mss.dram (execWakePattern s) := by simp [execWakePattern]

@[simp] theorem hlpCount_dram (i : Nat) (n : Nat) (s : State) : (hlpCount i n s).mss.dram = s.mss.dram := (rfl)

@[simp] theorem execSidebandCrcFail_dram (s : State) : StepDramIs s.mss.dram (execSidebandCrcFail s) := by simp [execSidebandCrcFail]

@[simp] theorem execSidebandProtocolStart_dram (s : State) :
    StepDramIs s.mss.dram (execSidebandProtocolStart s) := by simp [execSidebandProtocolStart]

@[simp] theorem hlpFault_dram (code : Nat) (s : State) : (hlpFault code s).mss.dram = s.mss.dram := by simp [hlpFault]

@[simp] theorem laneSync_dram (s : State) : (laneSync s).mss.dram = s.mss.dram := (rfl)

@[simp] theorem leaveLink_dram (s : State) : (leaveLink s).mss.dram = s.mss.dram := (rfl)

@[simp] theorem dropLink_dram (s : State) : (dropLink s).mss.dram = s.mss.dram := (rfl)

@[simp] theorem linkDown_dram (s : State) : (linkDown s).mss.dram = s.mss.dram := by simp [linkDown]

@[simp] theorem abandonTraining_dram (s : State) : (abandonTraining s).mss.dram = s.mss.dram := by simp [abandonTraining]

@[simp] theorem execPowerLoss_dram (s : State) : StepDramIs s.mss.dram (execPowerLoss s) := by
  unfold execPowerLoss
  generalize 65536 = n0
  dsimp only
  (repeat' split) <;> simp [-advanceTo_mss, -emit_mss]

@[simp] theorem retrain_dram (s : State) : (retrain s).mss.dram = s.mss.dram := (rfl)

@[simp] theorem execTrain_dram (payload : Byte) (s : State) : StepDramIs s.mss.dram (execTrain payload s) := by
  unfold execTrain
  (repeat' split) <;> simp

@[simp] theorem trainTimeout_dram (ms : Nat) (s : State) : (trainTimeout ms s).mss.dram = s.mss.dram := by simp [trainTimeout]

@[simp] theorem execLaneSymbolLock_dram (mask : Nat) (s : State) :
    StepDramIs s.mss.dram (execLaneSymbolLock mask s) := by simp [execLaneSymbolLock]

@[simp] theorem execLaneSyncTimeout_dram (s : State) : StepDramIs s.mss.dram (execLaneSyncTimeout s) := by simp [execLaneSyncTimeout]

@[simp] theorem execEqualizeDone_dram (good : Nat) (s : State) : StepDramIs s.mss.dram (execEqualizeDone good s) := by
  obtain ⟨t, h, ht⟩ := exists_eq_dram (s := s)
    (x := if good &&& s.hlp.locked = s.hlp.locked then s else trainTimeout (if s.hlp.full then 40 else 2) s)
    (by rw [ite_dram, trainTimeout_dram, ite_self])
  rw [execEqualizeDone]
  dsimp only
  rw [h]
  split
  · rfl
  · split
    · simp only [stepDramIs_next, ite_dram, laneSync_dram, abandonTraining_dram, ht, ite_self]
    · simp only [stepDramIs_next, ite_dram, hlpFault_dram, ht, ite_self]

@[simp] theorem fecFailed_dram (s : State) : (fecFailed s).mss.dram = s.mss.dram := by simp [fecFailed]

@[simp] theorem execFecAlignmentLock_dram (ok : Bool) (s : State) :
    StepDramIs s.mss.dram (execFecAlignmentLock ok s) := by simp [execFecAlignmentLock]

@[simp] theorem creditInit_dram (credits : List Nat) (s : State) : (creditInit credits s).mss.dram = s.mss.dram := (rfl)

@[simp] theorem alternate_dram (x0 : Nat) (s : State) : (alternate x0 s).mss.dram = s.mss.dram := by
  fun_induction alternate <;> simp_all

@[simp] theorem sendWaiting_dram (s : State) : (sendWaiting s).mss.dram = s.mss.dram := by simp [sendWaiting]

@[simp] theorem linkActive_dram (s : State) : (linkActive s).mss.dram = s.mss.dram := by
  unfold linkActive
  dsimp only
  split <;> simp

@[simp] theorem execCreditInit_dram (credits : List Nat) (s : State) :
    StepDramIs s.mss.dram (execCreditInit credits s) := by simp [execCreditInit]

@[simp] theorem execLinkRetrain_dram (s : State) : StepDramIs s.mss.dram (execLinkRetrain s) := by simp [execLinkRetrain]

@[simp] theorem execRetrainFailed_dram (s : State) : StepDramIs s.mss.dram (execRetrainFailed s) := by simp [execRetrainFailed]

@[simp] theorem ackFlits_dram (seq : Nat) (s : State) : (ackFlits seq s).mss.dram = s.mss.dram := (rfl)

@[simp] theorem nakFlits_dram (seq : Nat) (s : State) : (nakFlits seq s).mss.dram = s.mss.dram := by simp [nakFlits]

@[simp] theorem execFlitNak_dram (seq : Nat) (s : State) : StepDramIs s.mss.dram (execFlitNak seq s) := by simp [execFlitNak]

@[simp] theorem addCredits_dram (ch : Nat) (n : Nat) (s : State) : (addCredits ch n s).mss.dram = s.mss.dram := by simp [addCredits]

@[simp] theorem execCreditReturn_dram (ch n : Nat) (s : State) :
    StepDramIs s.mss.dram (execCreditReturn ch n s) := by simp [execCreditReturn]

@[simp] theorem sendNak_dram (s : State) : (sendNak s).mss.dram = s.mss.dram := (rfl)

@[simp] theorem frameReceived_dram (ch : Nat) (bs : List Byte) (s : State) :
    (frameReceived ch bs s).mss.dram = s.mss.dram := by simp [frameReceived]

@[simp] theorem takeFlit_dram (ch : Nat) (first : Bool) (last : Bool) (payload : List Byte) (s : State) :
    (takeFlit ch first last payload s).mss.dram = s.mss.dram := by simp [takeFlit]

@[simp] theorem codewordLost_dram (s : State) : (codewordLost s).mss.dram = s.mss.dram := by simp [codewordLost]

@[simp] theorem flitControl_dram (h : Nat) (s : State) : (flitControl h s).mss.dram = s.mss.dram := by simp [flitControl]

@[simp] theorem goodFlit_dram (bytes : List Byte) (s : State) : (goodFlit bytes s).mss.dram = s.mss.dram := by
  rw [goodFlit]
  simp only [apply_ite (fun t : State => t.mss.dram), sendNak_dram, takeFlit_dram, flitControl_dram, ite_self]

@[simp] theorem flitBytes_dram (bytes : List Byte) (s : State) : (flitBytes bytes s).mss.dram = s.mss.dram := by simp [flitBytes]

@[simp] theorem execFlitReceived_dram (f : RxFlit) (s : State) : StepDramIs s.mss.dram (execFlitReceived f s) := by
  unfold execFlitReceived
  split <;> simp

@[simp] theorem sofMissed_dram (s : State) : (sofMissed s).mss.dram = s.mss.dram := by simp [sofMissed]

@[simp] theorem execSofMiss_dram (s : State) : StepDramIs s.mss.dram (execSofMiss s) := by simp [execSofMiss]

@[simp] theorem execSofMark_dram (cycles : Nat) (s : State) : StepDramIs s.mss.dram (execSofMark cycles s) := by
  unfold execSofMark
  (repeat' split) <;> simp

@[simp] theorem execAonTrimWindow_dram (count : Nat) (s : State) : StepDramIs s.mss.dram (execAonTrimWindow count s) := by
  obtain ⟨t, h, ht⟩ := exists_eq_dram (advanceAon_dram (s.cpr.trimNs + 8000000) s)
  rw [execAonTrimWindow, h]
  simp only [apply_ite (StepDramIs s.mss.dram), stepDramIs_next, ht, ite_self]

/-! ### Clocks, levels, power domains and claims -/

@[simp] theorem recoverMux_dram (mux : Nat) (input : Nat) (s : State) :
    (recoverMux mux input s).mss.dram = s.mss.dram := by simp [recoverMux]

@[simp] theorem putMux_dram (mux : Nat) (input : Nat) (s : State) : (putMux mux input s).mss.dram = s.mss.dram := (rfl)

@[simp] theorem clockSelect_dramIs (c : Cmd) (s : State) {m : List Host.Cell} (h : s.mss.dram = m) : (clockSelect c s).DramIs m := by
  subst h
  unfold clockSelect
  dsimp only
  (repeat' split) <;> simp

@[simp] theorem execClockSelect_dram (c : Cmd) (s : State) : StepDramIs s.mss.dram (execClockSelect c s) := by simp [execClockSelect]

@[simp] theorem execSwitchStuckTimeout_dram (mux : Nat) (s : State) : StepDramIs s.mss.dram (execSwitchStuckTimeout mux s) := by
  unfold execSwitchStuckTimeout
  dsimp only
  (repeat' split) <;> simp

@[simp] theorem execClockInputStopped_dram (input : Nat) (s : State) : StepDramIs s.mss.dram (execClockInputStopped input s) := by
  unfold execClockInputStopped
  split <;> simp

@[simp] theorem execPllUnlock_dram (p : Nat) (s : State) : StepDramIs s.mss.dram (execPllUnlock p s) := by
  unfold execPllUnlock
  (repeat' split) <;> simp

@[simp] theorem execHandshakeOverrun_dram (src dst : Nat) (s : State) : StepDramIs s.mss.dram (execHandshakeOverrun src dst s) := by
  unfold execHandshakeOverrun
  split <;> simp

@[simp] theorem perfLevelSet_dramIs (c : Cmd) (s : State) {m : List Host.Cell} (h : s.mss.dram = m) : (perfLevelSet c s).DramIs m := by
  subst h
  unfold perfLevelSet
  dsimp only
  (repeat' split) <;> simp

@[simp] theorem execPerfLevelSet_dram (c : Cmd) (s : State) : StepDramIs s.mss.dram (execPerfLevelSet c s) := by simp [execPerfLevelSet]

@[simp] theorem startDrain_dram (d : Nat) (s : State) : (startDrain d s).mss.dram = s.mss.dram := (rfl)

@[simp] theorem startEntry_dram (s : State) : (startEntry s).mss.dram = s.mss.dram := by
  unfold startEntry
  split <;> simp

@[simp] theorem execLevelChangeComplete_dram (group : Nat) (s : State) : StepDramIs s.mss.dram (execLevelChangeComplete group s) := by
  unfold execLevelChangeComplete
  dsimp only
  (repeat' split) <;> simp

@[simp] theorem stepDown_dram (g : Nat) (s : State) : (stepDown g s).mss.dram = s.mss.dram := by simp [stepDown]

@[simp] theorem execPowerWindow_dram (dw : Nat) (s : State) : StepDramIs s.mss.dram (execPowerWindow dw s) := by
  obtain ⟨t, h, ht⟩ := exists_eq_dram (advanceAon_dram (s.cpr.powerNs + 1000000) s)
  rw [execPowerWindow, h]
  simp only [apply_ite (StepDramIs s.mss.dram), stepDramIs_next, stepDown_dram, ht, ite_self]

@[simp] theorem execAdmissionResume_dram (s : State) : StepDramIs s.mss.dram (execAdmissionResume s) := by simp [execAdmissionResume]

@[simp] theorem domainOff_dram (d : Nat) (aborted : Nat) (s : State) : (domainOff d aborted s).mss.dram = s.mss.dram := by simp [domainOff]

@[simp] theorem execDrainEnd_dram (domain : Nat) (outstanding : List Nat) (s : State) :
    StepDramIs s.mss.dram (execDrainEnd domain outstanding s) := by
  unfold execDrainEnd
  generalize 2000000 = n0
  split <;> simp [-emit_mss]

@[simp] theorem execDomainPowered_dram (domain : Nat) (s : State) :
    StepDramIs s.mss.dram (execDomainPowered domain s) := by simp [execDomainPowered]

@[simp] theorem releasePad_dram (g : Nat) (s : State) : (releasePad g s).mss.dram = s.mss.dram := by simp [releasePad]

@[simp] theorem padRelease_dramIs (c : Cmd) (s : State) {m : List Host.Cell} (h : s.mss.dram = m) : (padRelease c s).DramIs m := by
  subst h
  simp [padRelease]

@[simp] theorem execPadRelease_dram (c : Cmd) (s : State) : StepDramIs s.mss.dram (execPadRelease c s) := by simp [execPadRelease]

@[simp] theorem powerStateSet_dramIs (c : Cmd) (s : State) {m : List Host.Cell} (h : s.mss.dram = m) : (powerStateSet c s).DramIs m := by
  subst h
  unfold powerStateSet
  dsimp only
  (repeat' split) <;> simp

@[simp] theorem execPowerStateSet_dram (c : Cmd) (s : State) : StepDramIs s.mss.dram (execPowerStateSet c s) := by simp [execPowerStateSet]

@[simp] theorem selfRefresh_dram (s : State) : (selfRefresh s).mss.dram = s.mss.dram := (rfl)

@[simp] theorem execEntryWindowEnd_dram (s : State) : StepDramIs s.mss.dram (execEntryWindowEnd s) := by
  unfold execEntryWindowEnd
  dsimp only
  (repeat' split) <;> simp

@[simp] theorem execWakeEvent_dram (source : Nat) (s : State) : StepDramIs s.mss.dram (execWakeEvent source s) := by simp [execWakeEvent]

@[simp] theorem pauseResult_dram (ch : Nat) (marginOk : Bool) (s : State) :
    (pauseResult ch marginOk s).mss.dram = s.mss.dram := by simp [pauseResult]

@[simp] theorem evtRest_dram (s : State) : (evtRest s).mss.dram = s.mss.dram := by simp [evtRest]

@[simp] theorem claimRes_dram (res : Nat) (i : Nat) (s : State) : (claimRes res i s).mss.dram = s.mss.dram := by
  unfold claimRes
  split <;> rfl

@[simp] theorem releaseRes_dram (res : Nat) (i : Nat) (s : State) : (releaseRes res i s).mss.dram = s.mss.dram := by
  unfold releaseRes
  (repeat' split) <;> simp

@[simp] theorem evtSetUp_dramIs (w : Word) (s : State) {m : List Host.Cell} (h : s.mss.dram = m) : (evtSetUp w s).DramIs m := by
  subst h
  simp [evtSetUp]

@[simp] theorem resourceClaim_dramIs (c : Cmd) (s : State) {m : List Host.Cell} (h : s.mss.dram = m) : (resourceClaim c s).DramIs m := by
  subst h
  unfold resourceClaim
  dsimp only
  (repeat' split) <;> simp

@[simp] theorem execResourceClaim_dram (c : Cmd) (s : State) : StepDramIs s.mss.dram (execResourceClaim c s) := by simp [execResourceClaim]

/-! ### Requests, flits, reads and retraining -/

@[simp] theorem execDramRead_dram (addr : Nat) (span : ReadSpan) (bad : List (List Nat)) (s : State) :
    StepDramIs s.mss.dram (execDramRead addr span bad s) := by
  rw [execDramRead]
  split
  · trivial
  · exact (readLines_dram ..).trans (recordRequest_dram ..)

@[simp] theorem setHeld_dram (link : Nat) (l : List ReplayFlit) (s : State) : (setHeld link l s).mss.dram = s.mss.dram := (rfl)

@[simp] theorem replyArrives_dram (f : FabFlit) (r : FabReq) (s : State) :
    (replyArrives f r s).mss.dram = s.mss.dram := by simp [replyArrives]

@[simp] theorem writeAgeLimit_dram (value : Word) (s : State) : (writeAgeLimit value s).mss.dram = s.mss.dram := (rfl)

@[simp] theorem execMssAgeLimitWrite_dram (value : Word) (s : State) : StepDramIs s.mss.dram (execMssAgeLimitWrite value s) := by
  unfold execMssAgeLimitWrite
  generalize 393472 = n0
  simp

@[simp] theorem execPuRegionWrite_dram (addr _value : Word) (s : State) :
    StepDramIs s.mss.dram (execPuRegionWrite addr _value s) := by simp [execPuRegionWrite]

@[simp] theorem memStatus_dramIs (c : Cmd) (s : State) {m : List Host.Cell} (h : s.mss.dram = m) : (memStatus c s).DramIs m := by
  subst h
  unfold memStatus
  dsimp only
  (repeat' split) <;> simp

@[simp] theorem execMemStatus_dram (c : Cmd) (s : State) : StepDramIs s.mss.dram (execMemStatus c s) := by simp [execMemStatus]

/-! ### The epoch boundary -/

@[simp] theorem startLevel_dram (g : Nat) (target : Nat) (s : State) : (startLevel g target s).mss.dram = s.mss.dram := (rfl)

@[simp] theorem powerUp_dram (d : Nat) (s : State) : (powerUp d s).mss.dram = s.mss.dram := (rfl)

@[simp] theorem applyMode_dram (m : Mode) (s : State) : (applyMode m s).mss.dram = s.mss.dram := by
  unfold applyMode
  dsimp only
  split
  · simp
  · split <;> simp

@[simp] theorem expireSynBufs_dram (s : State) : (expireSynBufs s).mss.dram = s.mss.dram := by simp [expireSynBufs]

@[simp] theorem closeEpoch_dram (s : State) : (closeEpoch s).mss.dram = s.mss.dram := by simp [closeEpoch]

@[simp] theorem openEpoch_dram (s : State) : (openEpoch s).mss.dram = s.mss.dram := by
  unfold openEpoch
  dsimp only
  (repeat' split) <;> simp

@[simp] theorem endEpoch_dram (s : State) : (endEpoch s).mss.dram = s.mss.dram := by simp [endEpoch]

/-! ### Power entry, boot and the end of a save -/

@[simp] theorem holdupFaults_dram (s : State) : (holdupFaults s).mss.dram = s.mss.dram := by simp [holdupFaults]

@[simp] theorem execBankCharged_dram (tUs : Nat) (s : State) : StepDramIs s.mss.dram (execBankCharged tUs s) := by
  unfold execBankCharged
  generalize 65535 = n0
  generalize 400000000 = n1
  split <;> simp

@[simp] theorem execHoldupChargeTimeout_dram (s : State) : StepDramIs s.mss.dram (execHoldupChargeTimeout s) := by
  unfold execHoldupChargeTimeout
  generalize 400000000 = n0
  simp

@[simp] theorem execCrystalStable_dram (s : State) : StepDramIs s.mss.dram (execCrystalStable s) := by simp [execCrystalStable]

@[simp] theorem execCrystalTimeout_dram (s : State) : StepDramIs s.mss.dram (execCrystalTimeout s) := by
  unfold execCrystalTimeout
  generalize 20000000 = n0
  simp

@[simp] theorem modFw_dram (n : Nat) (f : FwSlot → FwSlot) (s : State) : (modFw n f s).mss.dram = s.mss.dram := by simp [modFw]

@[simp] theorem handOver_dram (n : Nat) (skipped : Option Nat) (s : State) : (handOver n skipped s).mss.dram = s.mss.dram := by
  unfold handOver
  split <;> simp

@[simp] theorem execBootRomHandoff_dram (s : State) : StepDramIs s.mss.dram (execBootRomHandoff s) := by
  unfold execBootRomHandoff
  (repeat' split) <;> simp

@[simp] theorem restoreSave_dram (x : SaveSlot) (s : State) : (restoreSave x s).mss.dram = s.mss.dram := by simp [restoreSave]

@[simp] theorem startTrims_dram (s : State) : (startTrims s).mss.dram = s.mss.dram := by
  unfold startTrims
  split <;> rfl

@[simp] theorem chooseConfig_dram (s : State) : (chooseConfig s).mss.dram = s.mss.dram := by
  unfold chooseConfig
  dsimp only
  split <;> simp

@[simp] theorem execConfigurationChosen_dram (s : State) : StepDramIs s.mss.dram (execConfigurationChosen s) := by
  unfold execConfigurationChosen
  split <;> simp

@[simp] theorem execDramTrained_dram (mask : Nat) (s : State) : StepDramIs s.mss.dram (execDramTrained mask s) := by
  unfold execDramTrained
  split <;> simp

@[simp] theorem setHandoff_dram (s : State) : (setHandoff s).mss.dram = s.mss.dram := by simp [setHandoff]

@[simp] theorem execHandoffSet_dram (s : State) : StepDramIs s.mss.dram (execHandoffSet s) := by
  unfold execHandoffSet
  generalize 131328 = n0
  simp

@[simp] theorem execTrainReadySet_dram (s : State) : StepDramIs s.mss.dram (execTrainReadySet s) := by
  unfold execTrainReadySet
  generalize 131328 = n0
  simp

@[simp] theorem enterBootMode_dram (s : State) : (enterBootMode s).mss.dram = s.mss.dram := by simp [enterBootMode]

@[simp] theorem execModuleReady_dram (s : State) : StepDramIs s.mss.dram (execModuleReady s) := by
  unfold execModuleReady
  split <;> simp

@[simp] theorem execInputSag_dram (s : State) : StepDramIs s.mss.dram (execInputSag s) := by
  unfold execInputSag
  split <;> simp

@[simp] theorem execSaveMarkerWritten_dram (s : State) : StepDramIs s.mss.dram (execSaveMarkerWritten s) := by
  unfold execSaveMarkerWritten
  split <;> simp

@[simp] theorem execInputOvervoltage_dram (s : State) : StepDramIs s.mss.dram (execInputOvervoltage s) := by simp [execInputOvervoltage]

@[simp] theorem execOvertemperatureTrip_dram (s : State) :
    StepDramIs s.mss.dram (execOvertemperatureTrip s) := by simp [execOvertemperatureTrip]

end Sys2Proof.Machine

/-!
PROOFS. What leaves the bytes of memory as they are: the compositor, the system commands, the registers, steps of time, and the twin pair.
-/

namespace Sys2Proof.Machine

/-! ### Ashlar -/

@[simp] theorem modCanvas_dram (k : Nat) (f : Canvas → Canvas) (s : State) : (modCanvas k f s).mss.dram = s.mss.dram := (rfl)

@[simp] theorem putLayer_dram (k : Nat) (i : Nat) (new : Option Layer) (s : State) : (putLayer k i new s).mss.dram = s.mss.dram :=
  (modCanvas_dram ..).trans ((foldl_dram _ (fun _ _ => modDec_dram ..) ..).trans (foldl_dram _ (fun _ _ => modDec_dram ..) ..))

@[simp] theorem settleMemory_dram (k : Nat) (s : State) : (settleMemory k s).mss.dram = s.mss.dram := by
  unfold settleMemory
  split <;> rfl

@[simp] theorem secondDest_dram (k : Nat) (c : Canvas) (planes : List Nat × List Nat × List Nat) (s : State) :
    (secondDest k c planes s).mss.dram = s.mss.dram := by
  unfold secondDest
  dsimp only
  split
  · grind [appendRaw_dram, modCanvas_dram, stamp_dram]
  · simp
  · rfl

@[simp] theorem keepLayer_dram (k : Nat) (i : Nat) (l : Layer) (s : State) :
    (keepLayer k i l s).mss.dram = s.mss.dram := by simp [keepLayer]

@[simp] theorem flipLayers_dram (k : Nat) (d : Nat) (s : State) : (flipLayers k d s).mss.dram = s.mss.dram := by
  unfold flipLayers
  split <;> simp

@[simp] theorem frameTraffic_dram (c : Canvas) (cur : List Drawn) (s : State) :
    (frameTraffic c cur s).mss.dram = s.mss.dram := by simp [frameTraffic]

/-- The canvas as its deadline finds it, before its layers flip. -/
def flippedCanvas (k : Nat) (c : Canvas) (s : State) : State :=
  settleMemory k (modCanvas k (fun y => applyCanvas (nextDeadline c) (stepFrame y)) (advanceTo (nextDeadline c * 65536) s))

@[simp] theorem flipDeadline_dram (k : Nat) (poisoned : List (Nat × Nat × Nat)) (s : State) :
    (flipDeadline k poisoned s).mss.dram = s.mss.dram := by
  rcases h : tget s.lco.canvases k with _ | c
  · simp only [flipDeadline, h]
  · rcases h2 : tget (flipLayers k (nextDeadline c * 65536) (flippedCanvas k c s)).lco.canvases k with _ | c2
    · rw [flippedCanvas] at h2
      simp only [flipDeadline, h, h2, ite_dram, flipLayers_dram, settleMemory_dram, modCanvas_dram, advanceTo_dram, ite_self]
    · rw [flippedCanvas] at h2
      simp only [flipDeadline, h, h2, ite_dram, flipLayers_dram, settleMemory_dram, modCanvas_dram, advanceTo_dram, ite_self,
        secondDest_dram, sweepOrphans_dram, frameTraffic_dram]

@[simp] theorem execFlipDeadline_dram (canvas : Nat) (poisoned : List (Nat × Nat × Nat)) (s : State) :
    StepDramIs s.mss.dram (execFlipDeadline canvas poisoned s) := by simp [execFlipDeadline]

@[simp] theorem compositionFinished_dram (k : Nat) (s : State) : (compositionFinished k s).mss.dram = s.mss.dram := by
  unfold compositionFinished
  (repeat' split) <;> simp

@[simp] theorem execCompositionFinished_dram (canvas : Nat) (s : State) :
    StepDramIs s.mss.dram (execCompositionFinished canvas s) := by simp [execCompositionFinished]

@[simp] theorem canvasPhase_dram (c : Cmd) (s : State) : (canvasPhase c s).2.mss.dram = s.mss.dram := by simp [canvasPhase]

@[simp] theorem placeCanvas_dram (c : Cmd) (s : State) : (placeCanvas c s).mss.dram = s.mss.dram := by
  obtain ⟨t, h, ht⟩ := exists_eq_dram (canvasPhase_dram c s)
  obtain ⟨new, hnew⟩ : ∃ y, newCanvas c s = y := ⟨_, rfl⟩
  obtain ⟨k, hk⟩ : ∃ y, ctxIndex s.lco.canvases c = y := ⟨_, rfl⟩
  obtain ⟨frame, hframe⟩ : ∃ y, nextFrame = y := ⟨_, rfl⟩
  rw [placeCanvas, settleMemory_dram, h, hnew, hk, hframe]
  cases tget s.lco.canvases k with
  | none => exact ht
  | some x => exact (modCanvas_dram ..).trans ht

@[simp] theorem canvasSet_dramIs (c : Cmd) (s : State) {m : List Host.Cell} (h : s.mss.dram = m) : (canvasSet c s).DramIs m := by
  subst h
  simp [canvasSet]

@[simp] theorem deleteCanvas_dram (k : Nat) (s : State) : (deleteCanvas k s).mss.dram = s.mss.dram := by
  unfold deleteCanvas
  split <;> simp

@[simp] theorem canvasCmd_dramIs (c : Cmd) (s : State) {m : List Host.Cell} (h : s.mss.dram = m) : (canvasCmd c s).DramIs m := by
  subst h
  unfold canvasCmd
  (repeat' split) <;> simp

@[simp] theorem execCanvasSet_dram (c : Cmd) (s : State) : StepDramIs s.mss.dram (execCanvasSet c s) := by simp [execCanvasSet]

@[simp] theorem layerSet_dramIs (c : Cmd) (s : State) {m : List Host.Cell} (h : s.mss.dram = m) : (layerSet c s).DramIs m := by
  subst h
  simp [layerSet]

@[simp] theorem layerCmd_dramIs (c : Cmd) (s : State) {m : List Host.Cell} (h : s.mss.dram = m) : (layerCmd c s).DramIs m := by
  subst h
  unfold layerCmd
  dsimp only
  (repeat' split) <;> simp

@[simp] theorem execLayerSet_dram (c : Cmd) (s : State) : StepDramIs s.mss.dram (execLayerSet c s) := by simp [execLayerSet]

@[simp] theorem dropImage_dram (i : Nat) (s : State) : (dropImage i s).mss.dram = s.mss.dram := by
  unfold dropImage
  split <;> simp

@[simp] theorem imageBuffers_dram (i : Nat) (c : Cmd) (s : State) : (imageBuffers i c s).2.mss.dram = s.mss.dram := by simp [imageBuffers]

@[simp] theorem imageChunk_dramIs (i : Nat) (c : Cmd) (s : State) {m : List Host.Cell} (h : s.mss.dram = m) :
    (imageChunk i c s).DramIs m := by
  subst h
  refine checks_dramIs _ _ ?_
  have hbuf := imageBuffers_dram i c s
  split
  · trivial
  · next bs t heq =>
    rw [heq] at hbuf
    dsimp only
    split
    · exact (engineTraffic_dram ..).trans hbuf
    · exact (engineTraffic_dram ..).trans hbuf

@[simp] theorem imageCmd_dramIs (c : Cmd) (s : State) {m : List Host.Cell} (h : s.mss.dram = m) : (imageCmd c s).DramIs m := by
  subst h
  unfold imageCmd
  (repeat' split) <;> simp

@[simp] theorem execLayerImageLoad_dram (c : Cmd) (s : State) :
    StepDramIs s.mss.dram (execLayerImageLoad c s) := by simp [execLayerImageLoad]

@[simp] theorem execImageConversionDone_dram (slot : Nat) (s : State) : StepDramIs s.mss.dram (execImageConversionDone slot s) := by
  unfold execImageConversionDone
  (repeat' split) <;> simp

@[simp] theorem commitStaged_dram (k : Nat) (s : State) : (commitStaged k s).mss.dram = s.mss.dram := by
  unfold commitStaged
  split <;> simp

@[simp] theorem flipGroupSet_dramIs (c : Cmd) (s : State) {m : List Host.Cell} (h : s.mss.dram = m) : (flipGroupSet c s).DramIs m := by
  subst h
  unfold flipGroupSet
  (repeat' split) <;> simp

@[simp] theorem execFlipGroupSet_dram (c : Cmd) (s : State) : StepDramIs s.mss.dram (execFlipGroupSet c s) := by simp [execFlipGroupSet]

/-! ### System, image, configuration and diagnostic commands -/

@[simp] theorem nop_dramIs (c : Cmd) (s : State) {m : List Host.Cell} (h : s.mss.dram = m) : (nop c s).DramIs m := by
  subst h
  simp [nop]

@[simp] theorem execNop_dram (c : Cmd) (s : State) : StepDramIs s.mss.dram (execNop c s) := by simp [execNop]

@[simp] theorem execGetInfo_dram (c : Cmd) (s : State) : StepDramIs s.mss.dram (execGetInfo c s) := by simp [execGetInfo]

@[simp] theorem setMode_dramIs (c : Cmd) (s : State) {m : List Host.Cell} (h : s.mss.dram = m) : (setMode c s).DramIs m := by
  subst h
  unfold setMode
  dsimp only
  (repeat' split) <;> simp

@[simp] theorem execSetMode_dram (c : Cmd) (s : State) : StepDramIs s.mss.dram (execSetMode c s) := by simp [execSetMode]

@[simp] theorem execGetStatus_dram (c : Cmd) (s : State) : StepDramIs s.mss.dram (execGetStatus c s) := by simp [execGetStatus]

@[simp] theorem resetDomain_dramIs (c : Cmd) (s : State) {m : List Host.Cell} (h : s.mss.dram = m) : (resetDomain c s).DramIs m := by
  subst h
  simp [resetDomain]

@[simp] theorem execResetDomain_dram (c : Cmd) (s : State) : StepDramIs s.mss.dram (execResetDomain c s) := by simp [execResetDomain]

@[simp] theorem execResetDomainReady_dram (sub inst : Nat) (s : State) : StepDramIs s.mss.dram (execResetDomainReady sub inst s) := by
  unfold execResetDomainReady
  split <;> simp

@[simp] theorem subscribe_dramIs (c : Cmd) (s : State) {m : List Host.Cell} (h : s.mss.dram = m) : (subscribe c s).DramIs m := by
  subst h
  simp [subscribe]

@[simp] theorem execSubscribeEvents_dram (c : Cmd) (s : State) :
    StepDramIs s.mss.dram (execSubscribeEvents c s) := by simp [execSubscribeEvents]

@[simp] theorem imageWrite_dramIs (c : Cmd) (s : State) {m : List Host.Cell} (h : s.mss.dram = m) : (imageWrite c s).DramIs m := by
  subst h
  simp [imageWrite]

@[simp] theorem execImageWrite_dram (c : Cmd) (s : State) : StepDramIs s.mss.dram (execImageWrite c s) := by simp [execImageWrite]

@[simp] theorem imageCommit_dramIs (c : Cmd) (s : State) {m : List Host.Cell} (h : s.mss.dram = m) : (imageCommit c s).DramIs m := by
  subst h
  simp [imageCommit]

@[simp] theorem execImageCommit_dram (c : Cmd) (s : State) : StepDramIs s.mss.dram (execImageCommit c s) := by simp [execImageCommit]

@[simp] theorem configRead_dramIs (c : Cmd) (s : State) {m : List Host.Cell} (h : s.mss.dram = m) : (configRead c s).DramIs m := by
  subst h
  simp [configRead]

@[simp] theorem execConfigRead_dram (c : Cmd) (s : State) : StepDramIs s.mss.dram (execConfigRead c s) := by simp [execConfigRead]

@[simp] theorem configWrite_dramIs (c : Cmd) (s : State) {m : List Host.Cell} (h : s.mss.dram = m) : (configWrite c s).DramIs m := by
  subst h
  simp [configWrite]

@[simp] theorem execConfigWrite_dram (c : Cmd) (s : State) : StepDramIs s.mss.dram (execConfigWrite c s) := by simp [execConfigWrite]

@[simp] theorem modCfg_dram (n : Nat) (f : CfgSlot → CfgSlot) (s : State) : (modCfg n f s).mss.dram = s.mss.dram := by simp [modCfg]

@[simp] theorem configCommit_dramIs (s : State) {m : List Host.Cell} (h : s.mss.dram = m) : (configCommit s).DramIs m := by
  subst h
  simp [configCommit]

@[simp] theorem execConfigCommit_dram (c : Cmd) (s : State) : StepDramIs s.mss.dram (execConfigCommit c s) := by simp [execConfigCommit]

@[simp] theorem commitItems_dram (s : State) : (commitItems s).mss.dram = s.mss.dram := by simp [commitItems]

@[simp] theorem execConfigCommitDone_dram (s : State) : StepDramIs s.mss.dram (execConfigCommitDone s) := by
  unfold execConfigCommitDone
  (repeat' split) <;> simp

@[simp] theorem traceCtrl_dramIs (c : Cmd) (s : State) {m : List Host.Cell} (h : s.mss.dram = m) : (traceCtrl c s).DramIs m := by
  subst h
  simp [traceCtrl]

@[simp] theorem execTraceCtrl_dram (c : Cmd) (s : State) : StepDramIs s.mss.dram (execTraceCtrl c s) := by simp [execTraceCtrl]

@[simp] theorem traceRead_dramIs (c : Cmd) (s : State) {m : List Host.Cell} (h : s.mss.dram = m) : (traceRead c s).DramIs m := by
  subst h
  simp [traceRead]

@[simp] theorem execTraceRead_dram (c : Cmd) (s : State) : StepDramIs s.mss.dram (execTraceRead c s) := by simp [execTraceRead]

@[simp] theorem faultLogRead_dramIs (c : Cmd) (s : State) {m : List Host.Cell} (h : s.mss.dram = m) : (faultLogRead c s).DramIs m := by
  subst h
  simp [faultLogRead]

@[simp] theorem execFaultLogRead_dram (c : Cmd) (s : State) : StepDramIs s.mss.dram (execFaultLogRead c s) := by simp [execFaultLogRead]

@[simp] theorem familyClear_dram (f i : Nat) (s : State) : (familyClear f i s).mss.dram = s.mss.dram := by simp [familyClear]

@[simp] theorem counterRead_dramIs (c : Cmd) (s : State) {m : List Host.Cell} (h : s.mss.dram = m) : (counterRead c s).DramIs m := by
  subst h
  simp [counterRead]

@[simp] theorem execCounterRead_dram (c : Cmd) (s : State) : StepDramIs s.mss.dram (execCounterRead c s) := by simp [execCounterRead]

@[simp] theorem loopback_dramIs (c : Cmd) (s : State) {m : List Host.Cell} (h : s.mss.dram = m) : (loopback c s).DramIs m := by
  subst h
  simp [loopback]

@[simp] theorem execLoopback_dram (c : Cmd) (s : State) : StepDramIs s.mss.dram (execLoopback c s) := by simp [execLoopback]

@[simp] theorem execLoopbackDone_dram (target errors mib : Nat) (s : State) :
    StepDramIs s.mss.dram (execLoopbackDone target errors mib s) := by simp [execLoopbackDone]

/-! ### The register map -/

@[simp] theorem readCpx_dram (off : Nat) (s : State) : (readCpx off s).2.mss.dram = s.mss.dram := by
  rw [readCpx]
  generalize 0x8000 = base
  generalize (off - base) / 16 = n
  generalize off % 16 = r
  split
  · rfl
  · split
    · rfl
    · rfl
    · split
      · exact modQueue_dram ..
      · rfl
    · rfl

@[simp] theorem readHlp_dram (off : Nat) (s : State) : (readHlp off s).2.mss.dram = s.mss.dram := by
  unfold readHlp
  split <;> simp

@[simp] theorem readTsu_dram (who : Nat) (off : Nat) (s : State) : (readTsu who off s).2.mss.dram = s.mss.dram := by
  unfold readTsu
  (repeat' split) <;> simp

theorem fenceDrop_dram (l : List Nat) (s : State) : { s with mss.fenceDrop := l }.mss.dram = s.mss.dram := (rfl)

@[simp] theorem readMss_dram (off : Nat) (s : State) : (readMss off s).2.mss.dram = s.mss.dram := by
  unfold readMss
  split
  · rfl
  · rfl
  · rfl
  · split
    · exact fenceDrop_dram _ s
    · split
      · split
        · rfl
        · exact modChan_dram ..
        · exact modChan_dram ..
        · rfl
        · rfl
        · rfl
      · split <;> rfl

@[simp] theorem readTds_dram (off : Nat) (s : State) : (readTds off s).2.mss.dram = s.mss.dram := by
  unfold readTds
  split <;> simp

@[simp] theorem readReg_dram (who : Nat) (addr : Nat) (s : State) : (readReg who addr s).2.mss.dram = s.mss.dram := by
  fun_cases readReg <;> simp

@[simp] theorem rwlFault_dram (addr : Nat) (s : State) : (rwlFault addr s).mss.dram = s.mss.dram := by simp [rwlFault]

@[simp] theorem writeLanePol_dram (value : Word) (w : Writer) (s : State) :
    (writeLanePol value w s).mss.dram = s.mss.dram := by simp [writeLanePol]

@[simp] theorem execHlpLanePolWrite_dram (value : Word) (w : Writer) (s : State) :
    StepDramIs s.mss.dram (execHlpLanePolWrite value w s) := by
  unfold execHlpLanePolWrite
  generalize 131336 = n0
  simp

@[simp] theorem clearXing_dram (value : Word) (s : State) : (clearXing value s).mss.dram = s.mss.dram := (rfl)

@[simp] theorem execXingOverrunClear_dram (value : Word) (s : State) : StepDramIs s.mss.dram (execXingOverrunClear value s) := by
  unfold execXingOverrunClear
  generalize 65820 = n0
  simp

@[simp] theorem writePllCfg_dram (addr : Nat) (s : State) : (writePllCfg addr s).mss.dram = s.mss.dram := by simp [writePllCfg]

@[simp] theorem writeKey_dram (off : Nat) (v : Word) (s : State) : (writeKey off v s).mss.dram = s.mss.dram := by simp [writeKey]

@[simp] theorem execKeyRegisterWrite_dram (addr value : Word) (w : Writer) (s : State) :
    StepDramIs s.mss.dram (execKeyRegisterWrite addr value w s) := by
  unfold execKeyRegisterWrite
  generalize 65536 = n0
  simp

@[simp] theorem writeHlpCtrl_dram (v : Word) (w : Writer) (s : State) : (writeHlpCtrl v w s).mss.dram = s.mss.dram := by
  rw [writeHlpCtrl]
  split
  · extract_lets t
    have ht : t.mss.dram = s.mss.dram := by
      simp only [t]
      split
      · exact dram_of_next (execHandoffSet_dram s)
      · rfl
    clear_value t
    split
    · exact (dram_of_next (execTrainReadySet_dram t)).trans ht
    · exact ht
  · rfl

@[simp] theorem askReset_dram (v : Word) (s : State) : (askReset v s).mss.dram = s.mss.dram := by simp [askReset]

@[simp] theorem writeReg_dram (addr : Nat) (v : Word) (w : Writer) (s : State) : (writeReg addr v w s).mss.dram = s.mss.dram := by
  unfold writeReg
  split <;> simp

@[simp] theorem readRange_dram (who : Nat) (as_ : List Nat) (s : State) : (readRange who as_ s).2.mss.dram = s.mss.dram := by
  fun_induction readRange <;> grind [readReg_dram]

@[simp] theorem writeRange_dram (w : Writer) (addr : Nat) (x0 : List Word) (s : State) :
    (writeRange w addr x0 s).mss.dram = s.mss.dram := by
  fun_induction writeRange <;> simp_all

@[simp] theorem regRead_dramIs (c : Cmd) (s : State) {m : List Host.Cell} (h : s.mss.dram = m) : (regRead c s).DramIs m := by
  subst h
  unfold regRead
  dsimp only
  (repeat' split) <;> simp

@[simp] theorem execRegRead_dram (c : Cmd) (s : State) : StepDramIs s.mss.dram (execRegRead c s) := by simp [execRegRead]

@[simp] theorem regWrite_dramIs (c : Cmd) (s : State) {m : List Host.Cell} (h : s.mss.dram = m) : (regWrite c s).DramIs m := by
  subst h
  unfold regWrite
  dsimp only
  (repeat' split) <;> simp

@[simp] theorem execRcCounterRead_dram (addr : Word) (s : State) :
    StepDramIs s.mss.dram (execRcCounterRead addr s) := by simp [execRcCounterRead]

@[simp] theorem bootServe_dram (p : RawPacket) (s : State) : (bootServe p s).2.2.mss.dram = s.mss.dram := by
  unfold bootServe
  dsimp only
  (repeat' split) <;> simp

/-! ### Steps of time and comparators -/

@[simp] theorem moveFrames_dram (d : Int) (s : State) : (moveFrames d s).mss.dram = s.mss.dram := (rfl)

@[simp] theorem aimPps_dram (s : State) : (aimPps s).mss.dram = s.mss.dram := by simp [aimPps]

@[simp] theorem moveAudio_dram (d : Int) (s : State) : (moveAudio d s).mss.dram = s.mss.dram := (rfl)

@[simp] theorem moveForwarding_dram (d : Int) (s : State) : (moveForwarding d s).mss.dram = s.mss.dram := (rfl)

@[simp] theorem moveJobs_dram (d : Int) (dUnits : Int) (s : State) : (moveJobs d dUnits s).mss.dram = s.mss.dram := (rfl)

@[simp] theorem moveSources_dram (d : Int) (dUnits : Int) (s : State) : (moveSources d dUnits s).mss.dram = s.mss.dram := (rfl)

@[simp] theorem judgeHeld_dram (s : State) : (judgeHeld s).mss.dram = s.mss.dram := by simp [judgeHeld]

@[simp] theorem jump_dram (delta : Int) (s : State) : (jump delta s).mss.dram = s.mss.dram := by simp [jump]

@[simp] theorem repend_dram (s : State) : (repend s).mss.dram = s.mss.dram := by simp [repend]

@[simp] theorem execStepApply_dram (s : State) : StepDramIs s.mss.dram (execStepApply s) := by
  obtain ⟨t, h, ht⟩ := exists_eq_dram (advanceTo_dram (blockDue s * 65536) s)
  rw [execStepApply, h]
  cases s.tsu.step with
  | none => rfl
  | some r =>
    dsimp only
    cases r.command with
    | none => simp only [stepDramIs_next, ite_dram, noSource_dram, judgeHeld_dram, pmTimeChange_dram, setTimeState_dram, evtTime_dram,
        repend_dram, jump_dram, ht, ite_self]
    | some q => simp only [stepDramIs_next, ite_dram, noSource_dram, judgeHeld_dram, finishDeferred_dram, pmTimeChange_dram, setTimeState_dram,
        evtTime_dram, repend_dram, jump_dram, ht, ite_self]

@[simp] theorem setUtcOffset_dram (off : Int) (s : State) : (setUtcOffset off s).mss.dram = s.mss.dram := by simp [setUtcOffset]

@[simp] theorem execTimeStep_dram (c : Cmd) (s : State) : StepDramIs s.mss.dram (execTimeStep c s) := by
  unfold execTimeStep
  generalize 1000000000 = n0
  dsimp only
  split <;> simp

@[simp] theorem firePps_dram (n : Nat) (s : State) : (firePps n s).mss.dram = s.mss.dram := by simp [firePps]

@[simp] theorem fireEvt_dram (n : Nat) (s : State) : (fireEvt n s).mss.dram = s.mss.dram := by simp [fireEvt]

@[simp] theorem execComparatorFire_dram (n : Nat) (s : State) : StepDramIs s.mss.dram (execComparatorFire n s) := by
  unfold execComparatorFire
  dsimp only
  (repeat' split) <;> simp

/-! ### Twin pairs -/

@[simp] theorem setTwin_dram (role : Nat) (s : State) : (setTwin role s).mss.dram = s.mss.dram := by simp [setTwin]

@[simp] theorem sendConfig_dram (s : State) : (sendConfig s).mss.dram = s.mss.dram := by simp [sendConfig]

@[simp] theorem sendFull_dram (s : State) : (sendFull s).mss.dram = s.mss.dram := by simp [sendFull]

@[simp] theorem startResync_dram (s : State) : (startResync s).mss.dram = s.mss.dram := by simp [startResync]

@[simp] theorem judgeFit_dram (s : State) : (judgeFit s).mss.dram = s.mss.dram := (rfl)

@[simp] theorem dropObjects_dram (s : State) : (dropObjects s).mss.dram = s.mss.dram := by simp [dropObjects]

@[simp] theorem beginTakeover_dram (code : Nat) (s : State) : (beginTakeover code s).mss.dram = s.mss.dram := by
  refine (foldl_dram _ (fun _ _ => powerUp_dram ..) ..).trans ((evtTwin_dram ..).trans ?_)
  rfl

@[simp] theorem takeover_dram (code : Nat) (s : State) : (takeover code s).mss.dram = s.mss.dram := by simp [takeover]

@[simp] theorem execTakeover_dram (code : Nat) (s : State) : StepDramIs s.mss.dram (execTakeover code s) := by simp [execTakeover]

@[simp] theorem execTakeoverAck_dram (s : State) : StepDramIs s.mss.dram (execTakeoverAck s) := by simp [execTakeoverAck]

@[simp] theorem switchRefused_dram (s : State) : (switchRefused s).mss.dram = s.mss.dram := by simp [switchRefused]

@[simp] theorem execHostLinkOutageTrigger_dram (s : State) : StepDramIs s.mss.dram (execHostLinkOutageTrigger s) := by
  obtain ⟨t, h, ht⟩ := exists_eq_dram (advanceAon_dram (s.hlp.outNs + 20000000) s)
  rw [execHostLinkOutageTrigger, h, stepDramIs_next, ite_dram, twinTrigger_dram, ht, ite_self]

theorem mirrorBody_dramIs {op : Nat} {body : Cmd → State → Res} (h : mirrorBody op = some body) (c : Cmd) (s : State) :
    (body c s).DramIs s.mss.dram := by
  unfold mirrorBody at h
  split at h <;> cases h <;> simp

theorem after_dram {s : State} {r : Res} (h : r.DramIs s.mss.dram) : (r.after s).mss.dram = s.mss.dram := by
  cases r with
  | refuse => rfl
  | refuseWith => rfl
  | done => exact h
  | accepted => exact h
  | deferred => exact h

@[simp] theorem applyRecord_dram (r : MirrorRec) (s : State) : (applyRecord r s).mss.dram = s.mss.dram := by
  rw [applyRecord]
  split
  · split
    · rfl
    · exact (pointTo_dram ..).trans (putSlot_dram ..)
  · split
    · next hbody => exact after_dram (mirrorBody_dramIs hbody ..)
    · rfl

@[simp] theorem applyUse_dram (r : MirrorRec) (s : State) : (applyUse r s).mss.dram = s.mss.dram := by simp [applyUse]

@[simp] theorem materialise_dram (s : State) : (materialise s).mss.dram = s.mss.dram := by simp [materialise]

@[simp] theorem execSwitchPowered_dram (s : State) : StepDramIs s.mss.dram (execSwitchPowered s) := by
  unfold execSwitchPowered
  split <;> simp

@[simp] theorem announceAll_dram (s : State) : (announceAll s).mss.dram = s.mss.dram := by
  unfold announceAll
  refine foldl_dram _ (fun i t => ?_) ..
  dsimp only
  split
  · exact foldl_dram _ (fun _ _ => emit_dram ..) ..
  · rfl

@[simp] theorem execAddressAnnounce_dram (s : State) : StepDramIs s.mss.dram (execAddressAnnounce s) := by
  rw [execAddressAnnounce]
  split
  · rfl
  · cases s.cti.announceNs with
    | none => exact announceAll_dram ..
    | some n =>
      obtain ⟨t, h, ht⟩ := exists_eq_dram (advanceAon_dram (n + 10000000) s)
      dsimp only
      rw [h]
      exact (announceAll_dram ..).trans ht

@[simp] theorem switchOver_dram (s : State) : (switchOver s).mss.dram = s.mss.dram := by simp [switchOver]

@[simp] theorem execSwitchComplete_dram (s : State) : StepDramIs s.mss.dram (execSwitchComplete s) := by
  unfold execSwitchComplete
  (repeat' split) <;> simp

@[simp] theorem configIn_dram (id : Nat) (seq : Word) (ws : List Word) (s : State) :
    (configIn id seq ws s).mss.dram = s.mss.dram := by simp [configIn]

@[simp] theorem holdRecord_dram (r : MirrorRec) (s : State) : (holdRecord r s).mss.dram = s.mss.dram := by
  unfold holdRecord
  (repeat' split) <;> simp

@[simp] theorem mirrorIn_dram (r : MirrorRec) (s : State) : (mirrorIn r s).mss.dram = s.mss.dram := by simp [mirrorIn]

@[simp] theorem execMirror_dram (seq kind index : Nat) (image : List Word) (s : State) :
    StepDramIs s.mss.dram (execMirror seq kind index image s) := by simp [execMirror]

@[simp] theorem execFullResynchronisationDone_dram (s : State) : StepDramIs s.mss.dram (execFullResynchronisationDone s) := by
  unfold execFullResynchronisationDone
  generalize 10000000 = n0
  split <;> simp [-judgeFit_mss]

@[simp] theorem svcHeartbeat_dram (ws : List Word) (s : State) : (svcHeartbeat ws s).mss.dram = s.mss.dram := by simp [svcHeartbeat]

@[simp] theorem execHeartbeatSend_dram (s : State) : StepDramIs s.mss.dram (execHeartbeatSend s) := by
  unfold execHeartbeatSend
  generalize 1000000 = n0
  split <;> simp

@[simp] theorem yieldNow_dram (s : State) : (yieldNow s).mss.dram = s.mss.dram := by simp [yieldNow]

@[simp] theorem dualActive_dram (s : State) : (dualActive s).mss.dram = s.mss.dram := by simp [dualActive]

@[simp] theorem compareKeys_dram (s : State) : (compareKeys s).mss.dram = s.mss.dram := by simp [compareKeys]

@[simp] theorem heartbeatAcks_dram (s : State) : (heartbeatAcks s).mss.dram = s.mss.dram := by simp [heartbeatAcks]

@[simp] theorem heartbeatTime_dram (s : State) : (heartbeatTime s).mss.dram = s.mss.dram := by simp [heartbeatTime]

@[simp] theorem heartbeat_dram (quoin : Bool) (words : List Word) (s : State) :
    (heartbeat quoin words s).mss.dram = s.mss.dram := by simp [heartbeat]

@[simp] theorem execHeartbeat_dram (quoin : Bool) (words : List Word) (s : State) :
    StepDramIs s.mss.dram (execHeartbeat quoin words s) := by simp [execHeartbeat]

@[simp] theorem execHeartbeatLoss_dram (s : State) : StepDramIs s.mss.dram (execHeartbeatLoss s) := by
  rw [execHeartbeatLoss]
  cases s.cti.hbNs with
  | none => rfl
  | some n =>
    obtain ⟨t, h, ht⟩ := exists_eq_dram (advanceAon_dram (n + 10000000) s)
    dsimp only
    rw [h]
    simp only [stepDramIs_next, ite_dram, beginTakeover_dram, evtTwin_dram, judgeFit_dram, unqualify_dram, ht, ite_self]

@[simp] theorem execYield_dram (takeoverNs : Nat) (s : State) : StepDramIs s.mss.dram (execYield takeoverNs s) := by simp [execYield]

@[simp] theorem dissolve_dram (s : State) : (dissolve s).mss.dram = s.mss.dram := by simp [dissolve]

@[simp] theorem twinPair_dramIs (c : Cmd) (s : State) {m : List Host.Cell} (h : s.mss.dram = m) : (twinPair c s).DramIs m := by
  subst h
  unfold twinPair
  (repeat' split) <;> simp

@[simp] theorem execTwinPair_dram (c : Cmd) (s : State) : StepDramIs s.mss.dram (execTwinPair c s) := by simp [execTwinPair]

@[simp] theorem joinPair_dram (prefer : Nat) (s : State) : (joinPair prefer s).mss.dram = s.mss.dram := by simp [joinPair]

@[simp] theorem execPairingDone_dram (prefer : Nat) (s : State) : StepDramIs s.mss.dram (execPairingDone prefer s) := by
  unfold execPairingDone
  generalize 10000000000 = n0
  (repeat' split) <;> simp

@[simp] theorem twinSwitch_dramIs (c : Cmd) (s : State) {m : List Host.Cell} (h : s.mss.dram = m) : (twinSwitch c s).DramIs m := by
  subst h
  simp [twinSwitch]

@[simp] theorem switchFails_dram (result : Nat) (s : State) : (switchFails result s).mss.dram = s.mss.dram := by simp [switchFails]

@[simp] theorem settleSwitch_dram (s : State) : (settleSwitch s).mss.dram = s.mss.dram := by
  unfold settleSwitch
  split <;> simp

@[simp] theorem execTwinSwitch_dram (c : Cmd) (s : State) : StepDramIs s.mss.dram (execTwinSwitch c s) := by simp [execTwinSwitch]

end Sys2Proof.Machine

/-!
PROOFS. The canonical form of memory over a step: requests write memory byte by byte, resets empty it, and every other command leaves it.
-/

namespace Sys2Proof.Machine

/-- Memory in canonical form before is in canonical form after. -/
structure FormKept (s t : State) : Prop where
  wf : Memory.wf s.mss.dram = true → Memory.wf t.mss.dram = true

/-- A step that answers a next state keeps the canonical form of memory. -/
def StepFormKept (s : State) : Host.Outcome State Fault Refusal → Prop
  | .next t => FormKept s t
  | .fault _ => True
  | .refused _ => True

theorem FormKept.of_dram {s t : State} (h : t.mss.dram = s.mss.dram) : FormKept s t := ⟨by rw [h]; exact id⟩

theorem exists_eq_form {s x : State} (h : FormKept s x) : ∃ t, x = t ∧ FormKept s t := ⟨x, rfl, h⟩

theorem FormKept.trans {s t u : State} (h : FormKept s t) (k : FormKept t u) : FormKept s u := ⟨fun hwf => k.wf (h.wf hwf)⟩

theorem MemKept.form {s t : State} (h : MemKept s t) : FormKept s t := ⟨h.2.2.2.2⟩

theorem stepFormKept_of_dramIs {s : State} {o : Host.Outcome State Fault Refusal} (h : StepDramIs s.mss.dram o) : StepFormKept s o := by
  cases o with
  | next t => exact FormKept.of_dram h
  | fault => trivial
  | refused => trivial

theorem StepFormKept.after {s t : State} {o : Host.Outcome State Fault Refusal} (h : StepFormKept t o) (k : t.mss.dram = s.mss.dram) :
    StepFormKept s o := by
  cases o with
  | next u => exact (FormKept.of_dram k).trans h
  | fault => trivial
  | refused => trivial

theorem FormKept.ite {s t u : State} {c : Prop} [Decidable c] (h : FormKept s t) (k : FormKept s u) : FormKept s (if c then t else u) := by
  split
  · exact h
  · exact k

/-- A next state whose memory is what an earlier one kept. -/
theorem FormKept.dram {s t u : State} (h : FormKept s t) (k : u.mss.dram = t.mss.dram) : FormKept s u := h.trans (.of_dram k)

section resets
variable (s t : State)

theorem fullReset_form (cause : Nat) : FormKept s (fullReset cause t) := ⟨fun _ => rfl⟩

theorem powerOff_form (aborted : Bool) : FormKept s (powerOff aborted t) := ⟨fun _ => rfl⟩

theorem powerOn_form (dv cause : Nat) : FormKept s (powerOn dv cause t) := ⟨fun _ => rfl⟩

theorem settleReset_form : FormKept s (settleReset s) := .ite (fullReset_form ..) (.of_dram rfl)

theorem fatalReset_form : FormKept s (fatalReset s) := .ite (.of_dram rfl) (fullReset_form ..)

end resets

theorem drainChannels_form (s : State) : FormKept s (drainChannels s) :=
  ((fold_kept _ (fun s ch => drainChannel_kept ch s) _ s).trans (releaseBehind_kept _)).form

theorem checkedRequest_form (x : HeldReq) (s : State) : FormKept s (checkedRequest x s) :=
  .ite (.of_dram (denyRequest_dram ..)) (serveRequest_kept ..).form

theorem wakePauses_form (s : State) : FormKept s (wakePauses s) := by
  refine FormKept.trans (.of_dram (foldl_dram _ (fun ch u => ?_) ..)) (settleChannels_kept _).form
  simp only [ite_dram, pauseResult_dram, drawBelow_dram, modChan_dram, ite_self]

theorem execBankAbortVoltage_form (s : State) : StepFormKept s (execBankAbortVoltage s) := by
  rw [execBankAbortVoltage]
  split
  · exact .of_dram rfl
  · split
    · obtain ⟨n, t⟩ := drawBelow (s.flash.saves.getD (saveSlotOf (nextSave s - 1)) SaveSlot.reset).planned s
      exact powerOff_form ..
    · exact powerOff_form ..

theorem execBoot_form (bytes : List Byte) (s : State) : StepFormKept s (execBoot bytes s) := by
  rw [execBoot]
  split
  · exact .of_dram rfl
  · refine FormKept.trans (.of_dram ((emit_dram ..).trans ?_)) (settleReset_form _)
    cases s.hlp.handoff with
    | true => rfl
    | false => exact bootServe_dram ..

theorem execBootWatchdog_form (s : State) : StepFormKept s (execBootWatchdog s) := by
  rw [execBootWatchdog]
  split
  · exact .of_dram rfl
  · obtain ⟨a, b⟩ := s.flash.attempts
    exact fullReset_form ..

theorem execFabricRequest_form (r : FabReq) (s : State) : StepFormKept s (execFabricRequest r s) := by
  rw [execFabricRequest]
  split
  · exact .of_dram rfl
  · exact ((settleChannels_kept s).form.dram (issue_dram r _)).trans (checkedRequest_form ..)

theorem execFatalFaultReset_form (s : State) : StepFormKept s (execFatalFaultReset s) := FormKept.ite (fatalReset_form s) (.of_dram rfl)

theorem execInputPowerApplied_form (dv : Nat) (s : State) : StepFormKept s (execInputPowerApplied dv s) := by
  rw [execInputPowerApplied]
  split
  · exact FormKept.ite (.of_dram rfl) (.of_dram rfl)
  · split
    · exact .of_dram rfl
    · split
      · exact .of_dram rfl
      · exact powerOn_form ..

theorem execInputReturnHold_form (s : State) : StepFormKept s (execInputReturnHold s) :=
  FormKept.ite (.of_dram rfl) (.ite (powerOn_form ..) (.ite (fullReset_form ..) (.ite (fullReset_form ..) (.of_dram rfl))))

theorem execRegWrite_form (c : Cmd) (s : State) : StepFormKept s (execRegWrite c s) :=
  FormKept.trans (.of_dram (serve_dram _ _ _ _ _ fun _ => regWrite_dramIs _ _ rfl)) (settleReset_form _)

theorem execRegisterWritePlain_form (addr value : Word) (w : Writer) (s : State) : StepFormKept s (execRegisterWritePlain addr value w s) :=
  FormKept.trans (.of_dram (regAccess_dram _ _ _ _ (writeReg_dram _ _ _))) (settleReset_form _)

theorem settledAt_form (ns : Nat) (s : State) : FormKept s (settleChannels (advanceTo ns s)) :=
  FormKept.trans (.of_dram (advanceTo_dram ..)) (settleChannels_kept _).form

theorem execRetrainingPause_form (ch : Nat) (marginOk : Bool) (s : State) : StepFormKept s (execRetrainingPause ch marginOk s) := by
  obtain ⟨t, h, hform⟩ := exists_eq_form (settledAt_form (pauseStart s ch * 65536) s)
  rw [execRetrainingPause]
  dsimp only
  rw [h]
  split
  · exact FormKept.of_dram rfl
  · exact hform.dram ((pauseResult_dram ..).trans (modChan_dram ..))

theorem execSysResetReqWrite_form (value : Word) (s : State) : StepFormKept s (execSysResetReqWrite value s) := by
  rw [execSysResetReqWrite]
  split
  · exact fullReset_form ..
  · exact FormKept.of_dram rfl

theorem execImageCommitDone_form (readbackOk : Bool) (s : State) : StepFormKept s (execImageCommitDone readbackOk s) := by
  rw [execImageCommitDone]
  split
  · exact FormKept.of_dram rfl
  · next len activate _ =>
    extract_lets n f src t result seq u
    have hu : FormKept s u := .of_dram ((endLong_dram ..).trans (modFw_dram ..))
    split
    · exact FormKept.of_dram (endLong_dram ..)
    · split
      · exact FormKept.of_dram (endLong_dram ..)
      · exact FormKept.ite (c := activate = true) (fullReset_form ..) hu

theorem execPlumbEpochBoundary_form (s : State) : StepFormKept s (execPlumbEpochBoundary s) := by
  obtain ⟨t, h, hform⟩ := exists_eq_form (settledAt_form (epochDue s * 65536) s)
  rw [execPlumbEpochBoundary, h]
  refine hform.dram ((takeLater_dram _).trans ?_)
  simp only [ite_dram, computeEpoch_dram, openEpoch_dram, endEpoch_dram, publishEpoch_dram, ite_self]

theorem execSleepEntered_form (s : State) : StepFormKept s (execSleepEntered s) := by
  rw [execSleepEntered]
  split
  · exact FormKept.of_dram rfl
  · next t _ =>
    split
    · exact FormKept.of_dram rfl
    · extract_lets a cpr hlp asleep drained levels paused
      have hasleep : FormKept s asleep := .of_dram (endLong_dram ..)
      have hdrained : FormKept s drained := .ite (hasleep.trans ((drainChannels_form asleep).dram (selfRefresh_dram ..))) hasleep
      have hpaused : FormKept s paused := .ite (hdrained.dram rfl) hdrained
      refine FormKept.ite (c := t = 3) (hpaused.dram ((ponTrySleep_dram ..).trans ?_)) hpaused
      split
      · exact (hlpCount_dram ..).trans (leaveLink_dram ..)
      · exact leaveLink_dram ..

theorem execWakeComplete_form (s : State) : StepFormKept s (execWakeComplete s) := by
  rw [execWakeComplete]
  split
  · exact FormKept.of_dram rfl
  · next left src _ =>
    split
    · exact FormKept.of_dram rfl
    · extract_lets us cpr hlp awake resumed levels clocked pon link ready woke reported
      have hawake : FormKept s awake := .of_dram rfl
      have hresumed : FormKept s resumed := .ite (hawake.trans (wakePauses_form awake)) hawake
      have hclocked : FormKept s clocked := .ite (hresumed.dram rfl) hresumed
      have hpon : FormKept s pon := hclocked.dram (ponWake_dram ..)
      have hready : FormKept s ready := .ite (hpon.dram rfl) hclocked
      have hreported : FormKept s reported := .ite (hready.dram (evtPower_dram ..)) (hready.dram rfl)
      exact hreported.dram (foldl_dram _ (fun _ _ => drainRefused_dram ..) ..)

theorem flitIssue_dram (link number : Nat) (r : FabReq) (c : State) : (flitIssue link number r c).2.mss.dram = c.mss.dram := by
  rw [flitIssue]
  split
  · rfl
  · exact issue_dram ..

theorem execFabricFlitArrival_form (link number : Nat) (f : FabFlit) (s : State) : StepFormKept s (execFabricFlitArrival link number f s) := by
  by_cases hbad : f.words.length ≠ 16 ∨ 64 ≤ ((linkHeld (settleChannels s) link).filter fun x => x.number ≠ number).length ∨
      64 ≤ (flitReq f (flitBad f)).master ∨ 16 ≤ (flitReq f (flitBad f)).target
  · rw [execFabricFlitArrival]
    exact (if_pos hbad).symm ▸ (settleChannels_kept s).form
  · simp only [not_or, not_not, not_le] at hbad
    obtain ⟨hwords, hroom, hmaster, htarget⟩ := hbad
    rcases hissue : flitIssue link number (flitReq f (flitBad f)) (settleChannels s) with ⟨x, u⟩
    have hu : FormKept s u := (settleChannels_kept s).form.dram
      ((congrArg (fun p : HeldReq × State => p.2.mss.dram) hissue).symm.trans (flitIssue_dram ..))
    rw [execFabricFlitArrival_eq rfl rfl rfl rfl hissue hwords hroom hmaster htarget]
    split
    · exact (hu.dram ((emit_dram ..).trans (setHeld_dram ..))).trans (releaseBehind_kept _).form
    · split
      · exact hu.dram (setHeld_dram ..)
      · refine FormKept.trans ?_ (releaseBehind_kept _).form
        have hheld : FormKept s (if flitBad f = [] then setHeld link ((linkHeld (settleChannels s) link).filter fun x => x.number ≠ number) u
            else fault 0x6101 [w32 link] (setHeld link ((linkHeld (settleChannels s) link).filter fun x => x.number ≠ number) u)) :=
          .ite (hu.dram (setHeld_dram ..)) (hu.dram ((fault_dram ..).trans (setHeld_dram ..)))
        exact .ite (hheld.dram (replyArrives_dram ..)) (hheld.trans (checkedRequest_form ..))

/-- Every command keeps the canonical form of memory: most leave its bytes as they are; requests write them byte by byte, resets empty it. -/
theorem exec_form (i : Instr) (s : State) : StepFormKept s (exec i s) := by
  cases i with
  | imageCommitDone readbackOk => exact execImageCommitDone_form readbackOk s
  | sleepEntered => exact execSleepEntered_form s
  | regWrite c => exact execRegWrite_form c s
  | fatalFaultReset => exact execFatalFaultReset_form s
  | sysResetReqWrite value => exact execSysResetReqWrite_form value s
  | registerWritePlain addr value w => exact execRegisterWritePlain_form addr value w s
  | fabricRequest r => exact execFabricRequest_form r s
  | fabricFlitArrival link number f => exact execFabricFlitArrival_form link number f s
  | retrainingPause ch marginOk => exact execRetrainingPause_form ch marginOk s
  | plumbEpochBoundary => exact execPlumbEpochBoundary_form s
  | boot bytes => exact execBoot_form bytes s
  | inputPowerApplied dv => exact execInputPowerApplied_form dv s
  | bootWatchdog => exact execBootWatchdog_form s
  | bankAbortVoltage => exact execBankAbortVoltage_form s
  | inputReturnHold => exact execInputReturnHold_form s
  | wakeComplete => exact execWakeComplete_form s
  | _ => exact stepFormKept_of_dramIs (by simp only [exec]; simp)

theorem step_form (s : State) : StepFormKept s (step s) := by
  rw [step]
  split
  · exact FormKept.of_dram (idleTick_dram s)
  · next c rest _ => exact (exec_form c { s with pending := rest }).after rfl

/-- Settles O43, by what each command of the table leaves of memory: most leave its bytes, requests write them in form, resets empty it. -/
theorem memoryFormKept : Obligations.MemoryFormKept := by
  unfold Obligations.MemoryFormKept
  intro s t hwf hstep
  have hform := step_form s
  rw [hstep] at hform
  exact hform.wf hwf

end Sys2Proof.Machine
